-- ==== Sys2Proof/Word.lean ====
section
/-!
DEFINITION. The word types of the machine (R2, R6, R76), sparse tables, and the small types that
instructions and events carry as operands.
-/

namespace Sys2Proof

/-- A register value (R73). -/
abbrev W64 := BitVec 64
/-- An instruction word (R76), or a register of a bank arithmetic unit (R281). -/
abbrev W32 := BitVec 32
/-- A byte of memory (R3). -/
abbrev Byte := BitVec 8
/-- A register number as it stands in an instruction field (R75). -/
abbrev R5 := BitVec 5

/-- A sparse table: pairs of a key and a value, keys strictly rising, no entry equal to the
table's default value. An unlisted key holds the default. -/
abbrev Tbl (α : Type) := List (Nat × α)

/-- Protection grade of DRAM (R68). -/
inductive Grade where
  | s | d | p
  deriving DecidableEq, Repr

/-- A register written by the host or the Arbiter that has no behaviour of its own
(R316, R351, R359, R362, R368 to R370). -/
inductive HostReg where
  /-- RTPTR of a virtual function (R362). -/
  | rtptr (vf : Nat)
  /-- LASID of a virtual function (R362). -/
  | lasid (vf : Nat)
  /-- EVBASE of a virtual function (R364). -/
  | evbase (vf : Nat)
  /-- EVHEAD of a virtual function (R362). -/
  | evhead (vf : Nat)
  /-- 8-byte word `i` of MBREQ (R367). -/
  | mbreq (vf i : Nat)
  /-- MBDOOR of a virtual function (R366). -/
  | mbdoor (vf : Nat)
  /-- VFCFG of a virtual function, written by the Arbiter (R316). -/
  | vfcfg (vf : Nat)
  /-- A partition map entry, written by the Arbiter (R314, R369). -/
  | mapEntry (part vcn : Nat)
  /-- FQCFG of a partition, written by the Arbiter (R351). -/
  | fqcfg (part : Nat)
  /-- Key identifier of a partition (R65). -/
  | keyId (part : Nat)
  /-- DEVID (R368). -/
  | devid
  /-- The route of a peer device: primary port and three alternates, 4 bits each (R368). -/
  | route (dev : Nat)
  /-- Base of a CXL.mem decoder: host physical address (R361). -/
  | decoderBase (i : Nat)
  /-- Device physical address and length of a CXL.mem decoder (R361). -/
  | decoderMap (i : Nat)
  /-- A link aperture of a partition (R370). -/
  | aperture (part i : Nat)
  /-- A reserved offset of the VF register block: ignores writes (R362). -/
  | reserved (vf off : Nat)
  deriving DecidableEq, Repr

/-- The unit of a lasting fault (R355). -/
inductive FaultUnit where
  | bank (gcn : Nat)
  | row (gcn row : Nat)
  | cluster (pcn : Nat)
  deriving DecidableEq, Repr

/-- An operation that a peer device sends over a Themupel Link (R369, R370): to SRAM of a cluster of this module, a
counter bump, or to memory through an aperture. -/
inductive LinkOp where
  | load (pcn ofs n : Nat)
  /-- Data of a put: a DMA write, which sets full/empty bits (R56). -/
  | put (pcn ofs : Nat) (bytes : List (BitVec 8))
  | store (pcn ofs : Nat) (bytes : List (BitVec 8))
  | atomic (pcn ofs op : Nat) (y e : BitVec 64)
  | bump (pcn core n : Nat)
  | write (hpa : Nat) (bytes : List (BitVec 8))
  | read (hpa n : Nat)
  deriving DecidableEq, Repr

/-- What a soft error damages (R355). -/
inductive SoftError where
  /-- One stored bit (0 to 255 data, 256 to 287 side bits) of a DRAM column (R68). -/
  | column (gcn col bit : Nat)
  /-- A corrected error of cluster SRAM, array or accumulators. -/
  | clusterCorrected (pcn : Nat)
  /-- An uncorrectable error of cluster SRAM, array or accumulators, met by a core. -/
  | clusterUncorrectable (pcn core : Nat)
  deriving DecidableEq, Repr

end Sys2Proof
end

