-- ==== Sys2Proof/Syntax.lean ====
section
/-!
DEFINITION. The instructions and events of the opcode table (spec/opcode_table.json), one constructor per row.
Fields of an encoded instruction keep the names and widths that the table gives them. An event has no encoding; its
operands name what it acts on (a context, a packet, an entry, a bank, a cluster, a partition, a virtual function).
-/

namespace Sys2Proof

/-- One constructor per row of the opcode table. -/
inductive Instr where
  /-- R97. Writes the 64-bit wrapped sum of two registers. -/
  | add (d : BitVec 5) (a : BitVec 5) (b : BitVec 5)
  /-- R97. Writes the 64-bit wrapped difference of two registers. -/
  | sub (d : BitVec 5) (a : BitVec 5) (b : BitVec 5)
  /-- R97. Writes the bitwise AND of two registers. -/
  | and (d : BitVec 5) (a : BitVec 5) (b : BitVec 5)
  /-- R97. Writes the bitwise OR of two registers. -/
  | or (d : BitVec 5) (a : BitVec 5) (b : BitVec 5)
  /-- R97. Writes the bitwise XOR of two registers. -/
  | xor (d : BitVec 5) (a : BitVec 5) (b : BitVec 5)
  /-- R97. Writes x AND NOT y. -/
  | andn (d : BitVec 5) (a : BitVec 5) (b : BitVec 5)
  /-- R97. Shifts left by a register amount. -/
  | sll (d : BitVec 5) (a : BitVec 5) (b : BitVec 5)
  /-- R97. Shifts right logically by a register amount. -/
  | srl (d : BitVec 5) (a : BitVec 5) (b : BitVec 5)
  /-- R97. Shifts right arithmetically by a register amount. -/
  | sra (d : BitVec 5) (a : BitVec 5) (b : BitVec 5)
  /-- R97. Rotates right by a register amount. -/
  | ror (d : BitVec 5) (a : BitVec 5) (b : BitVec 5)
  /-- R97. Sets 1 if signed x is less than y. -/
  | slt (d : BitVec 5) (a : BitVec 5) (b : BitVec 5)
  /-- R97. Sets 1 if unsigned x is less than y. -/
  | sltu (d : BitVec 5) (a : BitVec 5) (b : BitVec 5)
  /-- R97. Writes the signed smaller of two registers. -/
  | min (d : BitVec 5) (a : BitVec 5) (b : BitVec 5)
  /-- R97. Writes the signed larger of two registers. -/
  | max (d : BitVec 5) (a : BitVec 5) (b : BitVec 5)
  /-- R97. Writes the unsigned smaller of two registers. -/
  | minu (d : BitVec 5) (a : BitVec 5) (b : BitVec 5)
  /-- R97. Writes the unsigned larger of two registers. -/
  | maxu (d : BitVec 5) (a : BitVec 5) (b : BitVec 5)
  /-- R97. Writes the sign-extended low 32 bits of the sum. -/
  | addw (d : BitVec 5) (a : BitVec 5) (b : BitVec 5)
  /-- R97. Writes the sign-extended low 32 bits of the difference. -/
  | subw (d : BitVec 5) (a : BitVec 5) (b : BitVec 5)
  /-- R97. Counts leading zero bits. -/
  | clz (d : BitVec 5) (a : BitVec 5)
  /-- R97. Counts trailing zero bits. -/
  | ctz (d : BitVec 5) (a : BitVec 5)
  /-- R97. Counts one bits. -/
  | popc (d : BitVec 5) (a : BitVec 5)
  /-- R97. Sign-extends the low byte. -/
  | sextb (d : BitVec 5) (a : BitVec 5)
  /-- R97. Sign-extends the low 16 bits. -/
  | sexth (d : BitVec 5) (a : BitVec 5)
  /-- R97. Sign-extends the low 32 bits. -/
  | sextw (d : BitVec 5) (a : BitVec 5)
  /-- R97. Reverses the byte order. -/
  | bswap (d : BitVec 5) (a : BitVec 5)
  /-- R97. Signed saturating addition. -/
  | addSat (d : BitVec 5) (a : BitVec 5) (b : BitVec 5)
  /-- R97. Signed saturating subtraction. -/
  | subSat (d : BitVec 5) (a : BitVec 5) (b : BitVec 5)
  /-- R97. Unsigned saturating addition. -/
  | adduSat (d : BitVec 5) (a : BitVec 5) (b : BitVec 5)
  /-- R97. Unsigned saturating subtraction. -/
  | subuSat (d : BitVec 5) (a : BitVec 5) (b : BitVec 5)
  /-- R99. Adds a sign-extended immediate. -/
  | addi (d : BitVec 5) (a : BitVec 5) (i : BitVec 16)
  /-- R99. ANDs a zero-extended immediate. -/
  | andi (d : BitVec 5) (a : BitVec 5) (i : BitVec 16)
  /-- R99. ORs a zero-extended immediate. -/
  | ori (d : BitVec 5) (a : BitVec 5) (i : BitVec 16)
  /-- R99. XORs a zero-extended immediate. -/
  | xori (d : BitVec 5) (a : BitVec 5) (i : BitVec 16)
  /-- R99. Sets 1 if signed x is below the immediate. -/
  | slti (d : BitVec 5) (a : BitVec 5) (i : BitVec 16)
  /-- R99. Sets 1 if unsigned x is below the sign-extended immediate. -/
  | sltiu (d : BitVec 5) (a : BitVec 5) (i : BitVec 16)
  /-- R100. Shifts left by an immediate amount. -/
  | slli (d : BitVec 5) (a : BitVec 5) (s : BitVec 6)
  /-- R100. Shifts right logically by an immediate amount. -/
  | srli (d : BitVec 5) (a : BitVec 5) (s : BitVec 6)
  /-- R100. Shifts right arithmetically by an immediate amount. -/
  | srai (d : BitVec 5) (a : BitVec 5) (s : BitVec 6)
  /-- R100. Rotates right by an immediate amount. -/
  | rori (d : BitVec 5) (a : BitVec 5) (s : BitVec 6)
  /-- R101. Loads a sign-extended immediate shifted left by 16. -/
  | lui (d : BitVec 5) (i : BitVec 21)
  /-- R101. Adds a shifted immediate to the PC. -/
  | aupc (d : BitVec 5) (i : BitVec 21)
  /-- R102. Writes the low 64 bits of the product. -/
  | mul (d : BitVec 5) (a : BitVec 5) (b : BitVec 5)
  /-- R102. Writes the high half of the signed product. -/
  | mulh (d : BitVec 5) (a : BitVec 5) (b : BitVec 5)
  /-- R102. Writes the high half of the unsigned product. -/
  | mulhu (d : BitVec 5) (a : BitVec 5) (b : BitVec 5)
  /-- R102. Writes the high half of the signed-by-unsigned product. -/
  | mulhsu (d : BitVec 5) (a : BitVec 5) (b : BitVec 5)
  /-- R103. Signed division with saturating special cases. -/
  | div (d : BitVec 5) (a : BitVec 5) (b : BitVec 5)
  /-- R103. Unsigned division. -/
  | divu (d : BitVec 5) (a : BitVec 5) (b : BitVec 5)
  /-- R103. Signed remainder. -/
  | rem (d : BitVec 5) (a : BitVec 5) (b : BitVec 5)
  /-- R103. Unsigned remainder. -/
  | remu (d : BitVec 5) (a : BitVec 5) (b : BitVec 5)
  /-- R102. 32-bit multiply, sign-extended. -/
  | mulw (d : BitVec 5) (a : BitVec 5) (b : BitVec 5)
  /-- R102. 32-bit signed division, sign-extended. -/
  | divw (d : BitVec 5) (a : BitVec 5) (b : BitVec 5)
  /-- R102. 32-bit unsigned division, sign-extended. -/
  | divuw (d : BitVec 5) (a : BitVec 5) (b : BitVec 5)
  /-- R102. 32-bit signed remainder, sign-extended. -/
  | remw (d : BitVec 5) (a : BitVec 5) (b : BitVec 5)
  /-- R102. 32-bit unsigned remainder, sign-extended. -/
  | remuw (d : BitVec 5) (a : BitVec 5) (b : BitVec 5)
  /-- R104. Branches if the registers are equal. -/
  | beq (a : BitVec 5) (b : BitVec 5) (o : BitVec 16)
  /-- R104. Branches if the registers differ. -/
  | bne (a : BitVec 5) (b : BitVec 5) (o : BitVec 16)
  /-- R104. Branches if signed less. -/
  | blt (a : BitVec 5) (b : BitVec 5) (o : BitVec 16)
  /-- R104. Branches if signed greater or equal. -/
  | bge (a : BitVec 5) (b : BitVec 5) (o : BitVec 16)
  /-- R104. Branches if unsigned less. -/
  | bltu (a : BitVec 5) (b : BitVec 5) (o : BitVec 16)
  /-- R104. Branches if unsigned greater or equal. -/
  | bgeu (a : BitVec 5) (b : BitVec 5) (o : BitVec 16)
  /-- R105. Jumps PC-relative and links. -/
  | jal (d : BitVec 5) (o : BitVec 21)
  /-- R106. Jumps to a register plus offset and links. -/
  | jalr (d : BitVec 5) (a : BitVec 5) (i : BitVec 16)
  /-- R108. Loads a sign-extended byte. -/
  | ldb (d : BitVec 5) (a : BitVec 5) (i : BitVec 16)
  /-- R108. Loads a zero-extended byte. -/
  | ldbu (d : BitVec 5) (a : BitVec 5) (i : BitVec 16)
  /-- R108. Loads a sign-extended halfword. -/
  | ldh (d : BitVec 5) (a : BitVec 5) (i : BitVec 16)
  /-- R108. Loads a zero-extended halfword. -/
  | ldhu (d : BitVec 5) (a : BitVec 5) (i : BitVec 16)
  /-- R108. Loads a sign-extended word. -/
  | ldw (d : BitVec 5) (a : BitVec 5) (i : BitVec 16)
  /-- R108. Loads a zero-extended word. -/
  | ldwu (d : BitVec 5) (a : BitVec 5) (i : BitVec 16)
  /-- R108. Loads a doubleword. -/
  | ldd (d : BitVec 5) (a : BitVec 5) (i : BitVec 16)
  /-- R111. Stores a byte. -/
  | stb (s : BitVec 5) (a : BitVec 5) (i : BitVec 16)
  /-- R111. Stores a halfword. -/
  | sth (s : BitVec 5) (a : BitVec 5) (i : BitVec 16)
  /-- R111. Stores a word. -/
  | stw (s : BitVec 5) (a : BitVec 5) (i : BitVec 16)
  /-- R111. Stores a doubleword. -/
  | std (s : BitVec 5) (a : BitVec 5) (i : BitVec 16)
  /-- R114. Typed load that widens a format exactly into an f register. -/
  | ldf (d : BitVec 5) (a : BitVec 5) (t : BitVec 4) (o : BitVec 12)
  /-- R115. Typed store that converts an f register to a format. -/
  | stf (s : BitVec 5) (a : BitVec 5) (t : BitVec 4) (o : BitVec 12)
  /-- R118. Floating-point addition. -/
  | fadd (d : BitVec 5) (a : BitVec 5) (b : BitVec 5) (m : BitVec 3) (t : BitVec 1)
  /-- R118. Floating-point subtraction. -/
  | fsub (d : BitVec 5) (a : BitVec 5) (b : BitVec 5) (m : BitVec 3) (t : BitVec 1)
  /-- R118. Floating-point multiplication. -/
  | fmul (d : BitVec 5) (a : BitVec 5) (b : BitVec 5) (m : BitVec 3) (t : BitVec 1)
  /-- R118. Floating-point division. -/
  | fdiv (d : BitVec 5) (a : BitVec 5) (b : BitVec 5) (m : BitVec 3) (t : BitVec 1)
  /-- R118. Floating-point square root. -/
  | fsqrt (d : BitVec 5) (a : BitVec 5) (m : BitVec 3) (t : BitVec 1)
  /-- R119. Floating-point minimum. -/
  | fmin (d : BitVec 5) (a : BitVec 5) (b : BitVec 5) (m : BitVec 3) (t : BitVec 1)
  /-- R119. Floating-point maximum. -/
  | fmax (d : BitVec 5) (a : BitVec 5) (b : BitVec 5) (m : BitVec 3) (t : BitVec 1)
  /-- R120. Sign injection from b. -/
  | fsgnj (d : BitVec 5) (a : BitVec 5) (b : BitVec 5) (m : BitVec 3) (t : BitVec 1)
  /-- R120. Inverted sign injection from b. -/
  | fsgnjn (d : BitVec 5) (a : BitVec 5) (b : BitVec 5) (m : BitVec 3) (t : BitVec 1)
  /-- R120. XOR sign injection. -/
  | fsgnjx (d : BitVec 5) (a : BitVec 5) (b : BitVec 5) (m : BitVec 3) (t : BitVec 1)
  /-- R121. Floating-point equality compare into g. -/
  | feq (d : BitVec 5) (a : BitVec 5) (b : BitVec 5) (m : BitVec 3) (t : BitVec 1)
  /-- R121. Floating-point less-than compare into g. -/
  | flt (d : BitVec 5) (a : BitVec 5) (b : BitVec 5) (m : BitVec 3) (t : BitVec 1)
  /-- R121. Floating-point less-or-equal compare into g. -/
  | fle (d : BitVec 5) (a : BitVec 5) (b : BitVec 5) (m : BitVec 3) (t : BitVec 1)
  /-- R122. Classifies a floating-point operand. -/
  | fclass (d : BitVec 5) (a : BitVec 5) (m : BitVec 3) (t : BitVec 1)
  /-- R123. Converts floating point to I64. -/
  | fcvtI64Fmt (d : BitVec 5) (a : BitVec 5) (m : BitVec 3) (t : BitVec 1)
  /-- R123. Converts floating point to I32. -/
  | fcvtI32Fmt (d : BitVec 5) (a : BitVec 5) (m : BitVec 3) (t : BitVec 1)
  /-- R123. Converts floating point to N32. -/
  | fcvtN32Fmt (d : BitVec 5) (a : BitVec 5) (m : BitVec 3) (t : BitVec 1)
  /-- R123. Converts I64 to floating point. -/
  | fcvtFmtI64 (d : BitVec 5) (a : BitVec 5) (m : BitVec 3) (t : BitVec 1)
  /-- R123. Converts I32 to floating point. -/
  | fcvtFmtI32 (d : BitVec 5) (a : BitVec 5) (m : BitVec 3) (t : BitVec 1)
  /-- R123. Converts N32 to floating point. -/
  | fcvtFmtN32 (d : BitVec 5) (a : BitVec 5) (m : BitVec 3) (t : BitVec 1)
  /-- R123. Rounds an F64 value to F32. -/
  | fcvtF32F64 (d : BitVec 5) (a : BitVec 5) (m : BitVec 3)
  /-- R123. Widens an F32 value to F64. -/
  | fcvtF64F32 (d : BitVec 5) (a : BitVec 5) (m : BitVec 3)
  /-- R124. Copies an f register to a g register. -/
  | fmvfg (d : BitVec 5) (a : BitVec 5) (m : BitVec 3) (t : BitVec 1)
  /-- R124. Copies a g register to an f register. -/
  | fmvgf (d : BitVec 5) (a : BitVec 5) (m : BitVec 3) (t : BitVec 1)
  /-- R126. Fused a × b + c, rounded once. -/
  | fmadd (d : BitVec 5) (a : BitVec 5) (b : BitVec 5) (c : BitVec 5) (t : BitVec 1) (m : BitVec 3)
  /-- R126. Fused a × b − c, rounded once. -/
  | fmsub (d : BitVec 5) (a : BitVec 5) (b : BitVec 5) (c : BitVec 5) (t : BitVec 1) (m : BitVec 3)
  /-- R126. Fused −(a × b) − c, rounded once. -/
  | fnmadd (d : BitVec 5) (a : BitVec 5) (b : BitVec 5) (c : BitVec 5) (t : BitVec 1) (m : BitVec 3)
  /-- R126. Fused −(a × b) + c, rounded once. -/
  | fnmsub (d : BitVec 5) (a : BitVec 5) (b : BitVec 5) (c : BitVec 5) (t : BitVec 1) (m : BitVec 3)
  /-- R158. Waits for a full word and loads it. -/
  | lds (d : BitVec 5) (a : BitVec 5)
  /-- R158. Waits for a full word, loads it and empties it indivisibly. -/
  | ldse (d : BitVec 5) (a : BitVec 5)
  /-- R158. Stores a word and sets it full. -/
  | stfl (a : BitVec 5) (b : BitVec 5)
  /-- R158. Sets the full/empty bits of a span. -/
  | fefill (a : BitVec 5) (b : BitVec 5)
  /-- R158. Clears the full/empty bits of a span. -/
  | feempty (a : BitVec 5) (b : BitVec 5)
  /-- R158. Reads 64 full/empty bits into a register. -/
  | fest (d : BitVec 5) (a : BitVec 5)
  /-- R161. Load-acquire at a scope. -/
  | lda (d : BitVec 5) (a : BitVec 5) (s : BitVec 5)
  /-- R161. Store-release at a scope. -/
  | stl (a : BitVec 5) (b : BitVec 5) (s : BitVec 5)
  /-- R163. Atomic add. -/
  | amoAdd (d : BitVec 5) (a : BitVec 5) (b : BitVec 5) (q : BitVec 1) (s : BitVec 2)
  /-- R163. Atomic AND. -/
  | amoAnd (d : BitVec 5) (a : BitVec 5) (b : BitVec 5) (q : BitVec 1) (s : BitVec 2)
  /-- R163. Atomic OR. -/
  | amoOr (d : BitVec 5) (a : BitVec 5) (b : BitVec 5) (q : BitVec 1) (s : BitVec 2)
  /-- R163. Atomic XOR. -/
  | amoXor (d : BitVec 5) (a : BitVec 5) (b : BitVec 5) (q : BitVec 1) (s : BitVec 2)
  /-- R163. Atomic signed minimum. -/
  | amoMin (d : BitVec 5) (a : BitVec 5) (b : BitVec 5) (q : BitVec 1) (s : BitVec 2)
  /-- R163. Atomic signed maximum. -/
  | amoMax (d : BitVec 5) (a : BitVec 5) (b : BitVec 5) (q : BitVec 1) (s : BitVec 2)
  /-- R163. Atomic unsigned minimum. -/
  | amoMinu (d : BitVec 5) (a : BitVec 5) (b : BitVec 5) (q : BitVec 1) (s : BitVec 2)
  /-- R163. Atomic unsigned maximum. -/
  | amoMaxu (d : BitVec 5) (a : BitVec 5) (b : BitVec 5) (q : BitVec 1) (s : BitVec 2)
  /-- R163. Atomic swap. -/
  | amoSwap (d : BitVec 5) (a : BitVec 5) (b : BitVec 5) (q : BitVec 1) (s : BitVec 2)
  /-- R163. Atomic compare and swap. -/
  | amoCas (d : BitVec 5) (a : BitVec 5) (b : BitVec 5) (q : BitVec 1) (s : BitVec 2)
  /-- R163. Atomic F32 add. -/
  | amoFaddF32 (d : BitVec 5) (a : BitVec 5) (b : BitVec 5) (q : BitVec 1) (s : BitVec 2)
  /-- R163. Atomic F64 add. -/
  | amoFaddF64 (d : BitVec 5) (a : BitVec 5) (b : BitVec 5) (q : BitVec 1) (s : BitVec 2)
  /-- R167. Orders all earlier accesses before all later ones at a scope. -/
  | fence (x : BitVec 5) (y : BitVec 5) (z : BitVec 5) (s : BitVec 5)
  /-- R167. Orders earlier reads before later accesses at a scope. -/
  | fenceAcq (x : BitVec 5) (y : BitVec 5) (z : BitVec 5) (s : BitVec 5)
  /-- R167. Orders earlier accesses before later writes at a scope. -/
  | fenceRel (x : BitVec 5) (y : BitVec 5) (z : BitVec 5) (s : BitVec 5)
  /-- R170. Arrives at a barrier phase and returns the next handle. -/
  | barrive (d : BitVec 5) (a : BitVec 5)
  /-- R170. Blocks until a barrier phase completes. -/
  | bwait (a : BitVec 5)
  /-- R170. Arrives at a barrier and then waits on it. -/
  | barw (d : BitVec 5) (a : BitVec 5)
  /-- R171. Waits at the wired gang barrier. -/
  | gbar
  /-- R172. Makes a barrier object and returns its handle. -/
  | bmake (d : BitVec 5) (a : BitVec 5)
  /-- R172. Frees a barrier object if nothing has arrived. -/
  | bfree (d : BitVec 5) (a : BitVec 5)
  /-- R176. Queues a transfer from local SRAM to a far end. -/
  | put (a : BitVec 5) (b : BitVec 5) (c : BitVec 5)
  /-- R176. Queues a transfer from a far end into local SRAM. -/
  | get (a : BitVec 5) (b : BitVec 5) (c : BitVec 5)
  /-- R182. Queues a multicast into gang members' rings. -/
  | putm (a : BitVec 5) (b : BitVec 5) (c : BitVec 5)
  /-- R183. Queues a get dealt block-cyclically into gang scratchpads. -/
  | getd (b : BitVec 5) (c : BitVec 5)
  /-- R184. Blocks until a counter reaches a value. -/
  | cwait (a : BitVec 5) (b : BitVec 5)
  /-- R184. Reads a completion counter with acquire. -/
  | cread (d : BitVec 5) (a : BitVec 5)
  /-- R184. Adds to a completion counter. -/
  | cadd (a : BitVec 5) (b : BitVec 5)
  /-- R187. Initialises a ring handle and clears its words. -/
  | rinit (k : BitVec 5) (a : BitVec 5) (b : BitVec 5)
  /-- R187. Waits for filled slots and returns the head slot address. -/
  | rwf (d : BitVec 5) (k : BitVec 5) (b : BitVec 5)
  /-- R187. Waits for free slots and returns the tail slot address. -/
  | rwe (d : BitVec 5) (k : BitVec 5) (b : BitVec 5)
  /-- R187. Publishes slots and sets them full. -/
  | rpub (k : BitVec 5) (b : BitVec 5)
  /-- R187. Consumes slots and sets them empty. -/
  | rcon (k : BitVec 5) (b : BitVec 5)
  /-- R231. Sends a saturating mark deposit. -/
  | dep (a : BitVec 5) (b : BitVec 5)
  /-- R231. Sends a maximum mark deposit. -/
  | depx (a : BitVec 5) (b : BitVec 5)
  /-- R232. Senses the strongest of four neighbours. -/
  | sns4 (d : BitVec 5) (a : BitVec 5) (b : BitVec 5)
  /-- R232. Senses the strongest of eight neighbours. -/
  | sns8 (d : BitVec 5) (a : BitVec 5) (b : BitVec 5)
  /-- R233. Reads four cells of a row. -/
  | snsl (d : BitVec 5) (a : BitVec 5)
  /-- R234. Reads a raw cell or the field's MFC. -/
  | mrd (d : BitVec 5) (a : BitVec 5) (s : BitVec 5)
  /-- R235. Reads the partition's tick schedule. -/
  | tknum (d : BitVec 5) (s : BitVec 5)
  /-- R236. Blocks until a tick number is reached. -/
  | tkwait (a : BitVec 5)
  /-- R261. Writes a field register at issue. -/
  | axsetv (v : BitVec 5) (a : BitVec 5)
  /-- R262. Writes a shape record at issue. -/
  | axsets (s : BitVec 5) (a : BitVec 5) (b : BitVec 5)
  /-- R263. Reads engine registers or accumulators through the array queue. -/
  | axget (d : BitVec 5) (a : BitVec 5)
  /-- R264. Sets the user pass registers PTAB and PSEL. -/
  | axtt (a : BitVec 5) (b : BitVec 5)
  /-- R266. Elementwise addition. -/
  | axeAdd (d : BitVec 5) (a : BitVec 5) (b : BitVec 5) (f : BitVec 5)
  /-- R266. Elementwise subtraction. -/
  | axeSub (d : BitVec 5) (a : BitVec 5) (b : BitVec 5) (f : BitVec 5)
  /-- R266. Elementwise saturating addition. -/
  | axeAddSat (d : BitVec 5) (a : BitVec 5) (b : BitVec 5) (f : BitVec 5)
  /-- R266. Elementwise saturating subtraction. -/
  | axeSubSat (d : BitVec 5) (a : BitVec 5) (b : BitVec 5) (f : BitVec 5)
  /-- R266. Elementwise minimum. -/
  | axeMin (d : BitVec 5) (a : BitVec 5) (b : BitVec 5) (f : BitVec 5)
  /-- R266. Elementwise maximum. -/
  | axeMax (d : BitVec 5) (a : BitVec 5) (b : BitVec 5) (f : BitVec 5)
  /-- R266. Elementwise multiplication. -/
  | axeMul (d : BitVec 5) (a : BitVec 5) (b : BitVec 5) (f : BitVec 5)
  /-- R266. Elementwise F32 fused multiply-add. -/
  | axeFma (d : BitVec 5) (a : BitVec 5) (b : BitVec 5)
  /-- R266. Elementwise equality into a tag. -/
  | axeCmpeq (d : BitVec 5) (a : BitVec 5) (b : BitVec 5) (f : BitVec 5)
  /-- R266. Elementwise less-than into a tag. -/
  | axeCmplt (d : BitVec 5) (a : BitVec 5) (b : BitVec 5) (f : BitVec 5)
  /-- R266. Elementwise format conversion. -/
  | axeCvt (d : BitVec 5) (a : BitVec 5) (f : BitVec 5)
  /-- R266. Elementwise AND. -/
  | axeAnd (d : BitVec 5) (a : BitVec 5) (b : BitVec 5)
  /-- R266. Elementwise OR. -/
  | axeOr (d : BitVec 5) (a : BitVec 5) (b : BitVec 5)
  /-- R266. Elementwise XOR. -/
  | axeXor (d : BitVec 5) (a : BitVec 5) (b : BitVec 5)
  /-- R266. Elementwise NOT. -/
  | axeNot (d : BitVec 5) (a : BitVec 5)
  /-- R266. Elementwise move. -/
  | axeMov (d : BitVec 5) (a : BitVec 5)
  /-- R266. Elementwise select by tag t1. -/
  | axeSel (d : BitVec 5) (a : BitVec 5) (b : BitVec 5)
  /-- R266. Elementwise left shift. -/
  | axeShl (d : BitVec 5) (a : BitVec 5) (s : BitVec 5)
  /-- R266. Elementwise logical right shift. -/
  | axeShr (d : BitVec 5) (a : BitVec 5) (s : BitVec 5)
  /-- R266. Elementwise arithmetic right shift. -/
  | axeSra (d : BitVec 5) (a : BitVec 5) (s : BitVec 5)
  /-- R255. Queues a ring-fed matrix product. -/
  | axmm (s : BitVec 5) (f : BitVec 5) (p : BitVec 5)
  /-- R258. Queues a lockstep gang matrix product. -/
  | axgang (s : BitVec 5) (f : BitVec 5) (p : BitVec 5)
  /-- R270. Tags rows whose element equals a key. -/
  | axmatch (t : BitVec 5) (a : BitVec 5) (b : BitVec 5) (v : BitVec 5)
  /-- R271. Returns the lowest tagged active row. -/
  | axfirst (d : BitVec 5) (t : BitVec 5)
  /-- R271. Counts tagged active rows. -/
  | axcount (d : BitVec 5) (t : BitVec 5)
  /-- R272. Finds and tags the smallest active element. -/
  | axmin (d : BitVec 5) (v : BitVec 5) (t : BitVec 5) (f : BitVec 5)
  /-- R272. Finds and tags the largest active element. -/
  | axmax (d : BitVec 5) (v : BitVec 5) (t : BitVec 5) (f : BitVec 5)
  /-- R273. Sums a field over active rows into accumulators. -/
  | axsum (d : BitVec 5) (v : BitVec 5) (b : BitVec 5) (f : BitVec 5)
  /-- R274. Writes a tag of every row by a tag operation. -/
  | axtag (t : BitVec 5) (a : BitVec 5) (o : BitVec 5)
  /-- R275. Loads scratchpad elements into field rows. -/
  | axld (v : BitVec 5) (a : BitVec 5) (b : BitVec 5)
  /-- R276. Loads a B tile block into a field. -/
  | axldf (v : BitVec 5) (a : BitVec 5) (b : BitVec 5) (f : BitVec 5)
  /-- R260. Broadcasts a B tile to every gang member. -/
  | axldg (v : BitVec 5) (a : BitVec 5) (b : BitVec 5) (f : BitVec 5)
  /-- R275. Stores field rows to scratchpad elements. -/
  | axst (v : BitVec 5) (a : BitVec 5) (b : BitVec 5)
  /-- R277. Declares live columns and banks for saves. -/
  | axlive (a : BitVec 5) (b : BitVec 5) (n : BitVec 5)
  /-- R278. Stalls until the array queue shrinks to a count. -/
  | axwait (a : BitVec 5)
  /-- R279. Runs the user pass once at a column offset. -/
  | axpass (a : BitVec 5)
  /-- R296. Queues a copy of an overlay into BAU code memory. -/
  | bkload (a : BitVec 5) (b : BitVec 5)
  /-- R297. Queues an overlay run on the BAU. -/
  | bkrun (a : BitVec 5) (b : BitVec 5)
  /-- R298. Queues a column copy within the bank group. -/
  | bkcopy (a : BitVec 5) (b : BitVec 5) (c : BitVec 5)
  /-- R299. Stalls until bank commands and virtual-address entries complete. -/
  | bkfence
  /-- R300. Reads and optionally clears the bank records. -/
  | bkerr (d : BitVec 5) (a : BitVec 5)
  /-- R302. Exchanges the metadata of one column. -/
  | bkmeta (d : BitVec 5) (a : BitVec 5) (b : BitVec 5) (c : BitVec 5)
  /-- R309. Queues a memory-side F32 add. -/
  | maddF32 (a : BitVec 5) (b : BitVec 5)
  /-- R309. Queues a memory-side 32-bit integer add. -/
  | maddI32 (a : BitVec 5) (b : BitVec 5)
  /-- R309. Queues a memory-side add of four F32 lanes. -/
  | maddV4 (a : BitVec 5) (b : BitVec 5) (c : BitVec 5)
  /-- R312. Stalls until earlier memory-side adds are applied. -/
  | mfence
  /-- R191. Submits task records to the dispatcher. -/
  | tspawn (d : BitVec 5) (a : BitVec 5) (b : BitVec 5)
  /-- R191. Ends the member's part of the task. -/
  | texit (a : BitVec 5)
  /-- R192. Returns a task start value. -/
  | targ (d : BitVec 5) (a : BitVec 5)
  /-- R193. Stalls for a number of core cycles. -/
  | tyield (a : BitVec 5)
  /-- R134. Traps to the runtime after the instruction. -/
  | ecall (d : BitVec 5) (a : BitVec 5) (b : BitVec 5) (c : BitVec 5)
  /-- R135. Traps with EBREAK. -/
  | ebreak (d : BitVec 5) (a : BitVec 5) (b : BitVec 5) (c : BitVec 5)
  /-- R136. Returns from a trap, possibly arming a step. -/
  | tret
  /-- R139. Stalls until an interrupt is pending. -/
  | wfi
  /-- R140. Discards the instruction cache. -/
  | icinv
  /-- R141. Reads a CSR. -/
  | csrr (d : BitVec 5) (c : BitVec 12)
  /-- R141. Swaps a register with a CSR. -/
  | csrs (d : BitVec 5) (a : BitVec 5) (c : BitVec 12)
  /-- R141. Combines bits into a CSR under a mask. -/
  | csrc (d : BitVec 5) (a : BitVec 5) (c : BitVec 12)
  /-- R141. Writes a CSR without reading it. -/
  | csrw (a : BitVec 5) (c : BitVec 12)
  /-- R151. Drops cached translations of the partition and waits for acknowledgement. -/
  | tlbinv (a : BitVec 5) (b : BitVec 5) (m : BitVec 5)
  /-- R152. Swaps the hart's ASID. -/
  | asidset (d : BitVec 5) (a : BitVec 5)
  /-- R153. Writes a protection region register. -/
  | protset (a : BitVec 5) (n : BitVec 5)
  /-- R154. Announces a zugzwang stop of a partition. -/
  | stopat (d : BitVec 5) (a : BitVec 5) (b : BitVec 5)
  /-- R303. BAU: loads a checked bank column into a lane. -/
  | cld (d : BitVec 5) (a : BitVec 5)
  /-- R303. BAU: stores a lane to a bank column. -/
  | cst (d : BitVec 5) (a : BitVec 5)
  /-- R303. BAU: stores a lane and the column metadata. -/
  | cstM (d : BitVec 5) (a : BitVec 5) (b : BitVec 5)
  /-- R301. BAU: exchanges the metadata of one column. -/
  | cldm (d : BitVec 5) (a : BitVec 5) (b : BitVec 5) (c : BitVec 5)
  /-- R305. BAU lane addition. -/
  | laneAdd (d : BitVec 5) (a : BitVec 5) (b : BitVec 5) (f : BitVec 5)
  /-- R305. BAU lane subtraction. -/
  | laneSub (d : BitVec 5) (a : BitVec 5) (b : BitVec 5) (f : BitVec 5)
  /-- R305. BAU lane multiplication. -/
  | laneMul (d : BitVec 5) (a : BitVec 5) (b : BitVec 5) (f : BitVec 5)
  /-- R305. BAU lane fused multiply-add. -/
  | laneFma (d : BitVec 5) (a : BitVec 5) (b : BitVec 5) (f : BitVec 5)
  /-- R305. BAU lane minimum. -/
  | laneMin (d : BitVec 5) (a : BitVec 5) (b : BitVec 5) (f : BitVec 5)
  /-- R305. BAU lane maximum. -/
  | laneMax (d : BitVec 5) (a : BitVec 5) (b : BitVec 5) (f : BitVec 5)
  /-- R305. BAU sum of all lane elements into element 0. -/
  | rsum (d : BitVec 5) (a : BitVec 5) (f : BitVec 5)
  /-- R304. BAU broadcast of a register into every element. -/
  | splat (d : BitVec 5) (a : BitVec 5) (f : BitVec 5)
  /-- R305. BAU lane AND. -/
  | laneAnd (d : BitVec 5) (a : BitVec 5) (b : BitVec 5)
  /-- R305. BAU lane OR. -/
  | laneOr (d : BitVec 5) (a : BitVec 5) (b : BitVec 5)
  /-- R305. BAU lane XOR. -/
  | laneXor (d : BitVec 5) (a : BitVec 5) (b : BitVec 5)
  /-- R304. BAU lane move with poison bits. -/
  | laneMov (d : BitVec 5) (a : BitVec 5)
  /-- R304. BAU: copies a 32-bit lane word to a register. -/
  | lget (d : BitVec 5) (a : BitVec 5) (w : BitVec 5)
  /-- R304. BAU: copies a register into a 32-bit lane word. -/
  | lput (d : BitVec 5) (a : BitVec 5) (w : BitVec 5)
  /-- R304. BAU: loads a lane from data memory. -/
  | lld (d : BitVec 5) (a : BitVec 5)
  /-- R304. BAU: stores a lane to data memory. -/
  | lst (d : BitVec 5) (a : BitVec 5)
  /-- R306. BAU: ends the overlay run with a status. -/
  | bdone (a : BitVec 5)
  /-- R306. BAU: bumps an owner counter after earlier column writes. -/
  | bsig (a : BitVec 5)
  /-- R132. Takes a pending enabled interrupt at a boundary, blocking point or stall. -/
  | takeInterrupt (cid : Nat)
  /-- R131. Takes a pending asynchronous exception or posted array trap. -/
  | takeAsyncException (cid : Nat)
  /-- R148. TIMER becomes pending when GTIME reaches TCMP. -/
  | timerMatch (cid : Nat)
  /-- R55. Fills an instruction-cache line under translation, or fails with FETCH_PAGE. -/
  | instructionFetchFill (cid : Nat)
  /-- R200. The commit arbiter commits a chunk's stores at once. -/
  | chunkCommit (cid : Nat)
  /-- R30. The arbiter executes one solo instruction in one grant. -/
  | soloGrant (cid : Nat)
  /-- R59. The receiving interface checks a remote access and applies or rejects it. -/
  | remoteAccessArrival (id : Nat)
  /-- R164. The target die's sync engine applies a remote atomic. -/
  | syncEngineAtomic (id : Nat)
  /-- R170. The sync engine applies a barrier arrival, make or free. -/
  | syncEngineBarrier (id : Nat)
  /-- R110. A remote load reply arrives and writes the register. -/
  | remoteLoadReply (id : Nat)
  /-- R164. A remote atomic reply arrives and writes the register or saved image. -/
  | remoteAtomicReply (id : Nat)
  /-- R172. A barrier or BMAKE/BFREE reply arrives at the hart. -/
  | syncReply (id : Nat)
  /-- R161. The acknowledgement of a posted remote store or atomic arrives. -/
  | remoteAck (id : Nat)
  /-- R60. A receiver rejection arrives and raises REMOTE_ACCESS or REMOTE_STORE. -/
  | remoteRejection (id : Nat)
  /-- R170. A waiter wakes when its barrier phase completes. -/
  | bwaitWake (cid : Nat)
  /-- R171. The gang barrier completes when all unexited members arrive. -/
  | gbarComplete (task : Nat)
  /-- R158. A waiting LDS or LDSE proceeds when its word becomes full. -/
  | ldsWake (cid : Nat)
  /-- R184. A CWAIT wakes when the counter reaches its value. -/
  | cwaitWake (cid : Nat)
  /-- R187. RWF wakes when enough slots are filled. -/
  | rwfWake (cid : Nat)
  /-- R187. RWE wakes when enough slots are free. -/
  | rweWake (cid : Nat)
  /-- R236. TKWAIT wakes when the tick number is reached. -/
  | tkwaitWake (cid : Nat)
  /-- R167. A fence or STL stall ends once earlier accesses are performed. -/
  | fenceWaitEnd (cid : Nat)
  /-- R299. BKFENCE retires or takes pending poison once its work completes. -/
  | bkfenceWaitEnd (cid : Nat)
  /-- R312. MFENCE retires or traps once earlier MADDs are applied or failed. -/
  | mfenceWaitEnd (cid : Nat)
  /-- R151. TLBINV retires once every TLB and fetch path acknowledges. -/
  | tlbinvAck (cid : Nat)
  /-- R154. STOPAT retires when the announcement reaches every die. -/
  | stopAnnounced (cid : Nat)
  /-- R191. The dispatcher acknowledges TSPAWN with the count enqueued. -/
  | tspawnAck (cid : Nat)
  /-- R193. A TYIELD delay expires. -/
  | tyieldEnd (cid : Nat)
  /-- R139. WFI retires when an interrupt becomes pending. -/
  | wfiWake (cid : Nat)
  /-- R278. AXWAIT retires when the queue count falls to its operand. -/
  | axwaitEnd (cid : Nat)
  /-- R246. The next queued array instruction executes in the array. -/
  | arrayInstrExecute (cid : Nat)
  /-- R247. AXFIRST or AXCOUNT writes its register 4 cycles after its pass. -/
  | arrayResultWrite (cid : Nat)
  /-- R255. An AXMM row starts once an A slot is filled and a C slot free, and commits. -/
  | axmmRow (cid : Nat)
  /-- R257. A gang operation joins when it heads every member's queue. -/
  | gangOpJoin (task : Nat)
  /-- R258. An AXGANG row runs and commits in lockstep in every member. -/
  | axgangRow (task : Nat)
  /-- R331. The cluster DMA engine moves one segment of a started entry. -/
  | putgetSegment (cid eid : Nat)
  /-- R72. The next part of a transfer is translated after the part before it. -/
  | partTranslate (cid eid : Nat)
  /-- R351. Writes a fault record once its ring slot is empty and raises EVENT. -/
  | faultRecordWrite (part fid : Nat)
  /-- R179. An entry completes and bumps its enabled counters. -/
  | putgetComplete (cid eid : Nat)
  /-- R180. An entry fails, raising REMOTE_STORE or a fault summary entry. -/
  | putgetFail (cid eid : Nat)
  /-- R182. A PUTM claims a slot once one is free, writes and publishes it. -/
  | putmSlotClaim (cid eid dest : Nat)
  /-- R291. A BKLOAD completes when code memory is written. -/
  | bkloadComplete (cid : Nat)
  /-- R282. A BKRUN starts the overlay once the previous command completes. -/
  | overlayStart (cid : Nat)
  /-- R284. An overlay run ends, writes LSTAT and completes its BKRUN. -/
  | overlayEnd (gcn : Nat)
  /-- R298. BKCOPY copies one column over the group bus. -/
  | bkcopyColumn (cid : Nat)
  /-- R298. BKCOPY completes and bumps its counters. -/
  | bkcopyComplete (cid : Nat)
  /-- R302. BKMETA's exchange completes and writes the register. -/
  | bkmetaComplete (cid : Nat)
  /-- R289. A stack grants a column-stream slot in arrival order. -/
  | streamSlotGrant (stack : Nat)
  /-- R289. A slot is released after 1,024 idle BAU cycles. -/
  | streamSlotIdleRelease (gcn : Nat)
  /-- R308. The base die accepts a MADD and frees its queue entry. -/
  | maddAccept (cid eid : Nat)
  /-- R309. The base die applies a MADD as an indivisible read, add and write. -/
  | maddApply (cid eid : Nat)
  /-- R330. At the end of a 1,024-cycle window, rows with over 128 requests become hot. -/
  | hotRowWindow (gcn : Nat)
  /-- R330. A parked request to a hot row is admitted after 8 GTB cycles. -/
  | hotRowAdmit (gcn row : Nat)
  /-- R225. The home mark unit checks an arriving operation and replies accept or reject. -/
  | markOpArrival (id : Nat)
  /-- R225. A held mark operation is applied once GTIME reaches stamp plus horizon. -/
  | markOpApply (pcn n : Nat)
  /-- R222. A tick fades every cell of every valid field of the partition. -/
  | tick (part : Nat)
  /-- R223. A field configuration change takes effect at E and clears extents. -/
  | markConfigEffect (pcn n : Nat)
  /-- R61. A write of MSIZE takes effect if no other core is resident. -/
  | msizeWrite (pcn : Nat) (v : BitVec 64)
  /-- R352. Walks a suspended part again and continues the entry. -/
  | fresumeRetry (part fid : Nat)
  /-- R352. Fails a suspended entry at its split offset. -/
  | fresumeFail (part fid : Nat)
  /-- R352. Ends the issuing task with FRAME_EXHAUSTED. -/
  | fresumeExhaust (part fid : Nat)
  /-- R6. A write to a register without behaviour of its own stores the written fields. -/
  | registerWrite (r : HostReg) (v : BitVec 64)
  /-- R363. Advances a queue's tail, ignoring an overflowing write. -/
  | qtailWrite (vf c : Nat) (v : BitVec 64)
  /-- R363. Configures a task queue unless it is not empty. -/
  | qcfgWrite (vf c : Nat) (v : BitVec 64)
  /-- R364. Configures the event ring, storing EN 0 for a bad ring. -/
  | evcfgWrite (vf : Nat) (v : BitVec 64)
  /-- R342. The Arbiter applies a page-table configuration when no walk is in progress. -/
  | ptcfgWrite (part : Nat) (v : BitVec 64)
  /-- R22. The dispatcher reads a launch descriptor from a queue. -/
  | launchRead (vf c : Nat)
  /-- R317. The dispatcher reads, checks and enqueues a task record when quota allows. -/
  | taskEnqueue (vf c : Nat)
  /-- R320. The DMA engine fills a version buffer and the task may become eligible. -/
  | versionFill (ver : Nat)
  /-- R318. A task becomes eligible once its conflicts clear and buffers are ready. -/
  | taskEligible (task : Nat)
  /-- R323. Every 16 GTB cycles the dispatcher places one fitting gang. -/
  | dispatchOpportunity (part : Nat)
  /-- R335. The dispatcher evicts a gang whose members all block. -/
  | evictGang (task : Nat)
  /-- R191. A task completes after all members exit and entries complete. -/
  | taskComplete (task : Nat)
  /-- R365. A completion record is written to the event ring when there is room. -/
  | eventRecordWrite (vf : Nat)
  /-- R365. Sends MSI-X CTIME × 1,024 cycles after the oldest unsignalled record. -/
  | eventInterruptTimeout (vf : Nat)
  /-- R322. Installs a completed writer's version in the page table. -/
  | versionInstall (ver : Nat)
  /-- R329. The hang counter reaches its limit and the task ends with HANG. -/
  | hangExpiry (task : Nat)
  /-- R336. At T every core of the partition stops and its harts are saved. -/
  | zugzwangStop (part : Nat)
  /-- R337. At T + 64 each die sends a flush token across its mesh. -/
  | flushToken (part die : Nat)
  /-- R337. A router receives the token on all inputs, saves packets and forwards it. -/
  | routerFlush (part pcn : Nat)
  /-- R337. The stop is reported complete when the token has crossed and contexts are written. -/
  | stopComplete (part : Nat)
  /-- R339. The Arbiter resumes a stopped partition and routers re-inject requests. -/
  | partitionResume (part : Nat)
  /-- R340. Recalls lent clusters via a stop and returns them. -/
  | recallLentClusters (lender borrower : Nat)
  /-- R315. Lends a cluster without its banks to another partition. -/
  | lendCluster (part pcn : Nat)
  /-- R313. The Arbiter assigns a cluster to a partition and clears it. -/
  | assignCluster (part pcn : Nat)
  /-- R327. The Arbiter withdraws a partition, ending its tasks with KILLED. -/
  | withdrawPartition (part : Nat)
  /-- R341. Moves an owner to another device at a task boundary. -/
  | migrateOwner (vf : Nat)
  /-- R366. Mailbox command that configures a mark field register. -/
  | field (vf : Nat)
  /-- R221. Mailbox command that sets the partition's tick schedule. -/
  | ticks (vf : Nat)
  /-- R372. Mailbox command that returns a signed usage record. -/
  | snapshot (vf : Nat)
  /-- R366. Mailbox command that caps the partition's fastest operating point. -/
  | cap (vf : Nat)
  /-- R366. An unknown mailbox code is refused and logged. -/
  | mailboxUnknown (vf : Nat)
  /-- R361. A host access through a CXL.mem decoder reaches device DRAM. -/
  | hostMemAccess (write : Bool) (hpa : Nat) (bytes : List (BitVec 8))
  /-- R374. Answers an SPDM request with signed measurements. -/
  | spdmRequest (fn : Nat)
  /-- R373. Verifies and writes a firmware image to the inactive slot. -/
  | firmwareImage (image : List (BitVec 8)) (version : Nat)
  /-- R373. A new image reports healthy and the fused minimum is raised. -/
  | firmwareHealthy
  /-- R373. No healthy report within 2 s; the module restarts from the other slot. -/
  | firmwareHealthTimeout
  /-- R211. A link receiver applies an operation in sequence order once. -/
  | linkOpReceive (dev seq : Nat) (paired : Bool) (op : LinkOp)
  /-- R371. A port goes down and unacknowledged operations are resent. -/
  | linkPortDown (port : Nat)
  /-- R371. No port comes up within 1,000,000 cycles; operations fail. -/
  | linkRouteTimeout (dev : Nat)
  /-- R376. Every 10,000 GTB cycles the governor requests a new point. -/
  | governorEval (pcn : Nat)
  /-- R377. A cluster steps one operating point. -/
  | operatingPointStep (pcn : Nat)
  /-- R377. The regulator reports settled voltage and the clock rises. -/
  | voltageSettled (pcn : Nat)
  /-- R377. A raised voltage floor steps a cluster up. -/
  | voltageFloorChange (pcn mv : Nat)
  /-- R379. While a limit is exceeded, one cluster per 100 µs is slowed. -/
  | powerThrottle (pcn : Nat)
  /-- R379. At 115 °C the module logs and enters reset. -/
  | thermalReset
  /-- R281. Module reset sets every register and state to its reset value. -/
  | moduleReset
  /-- R355. An error count crosses its threshold and the fault becomes lasting. -/
  | lastingFault (u : FaultUnit)
  /-- R356. The Arbiter retires frames or fences a cluster for a lasting fault. -/
  | isolateFault (u : FaultUnit)
  /-- R349. The Arbiter rewrites a region under a new grade. -/
  | gradeChange (gcn region : Nat) (g : Grade)
  /-- R82. A fetched word that decodes to no instruction, or is illegal by field, format or privilege, traps with ILLEGAL on a core or ends the overlay with END ILLEGAL on a BAU. -/
  | illegalInstruction (w : BitVec 32)
  /-- R148. The Arbiter's acknowledgement path clears IPEND.EVENT. -/
  | eventAcknowledgement (cid : Nat)
  /-- R355. Stored bits of a DRAM column or of cluster SRAM, array or accumulators are damaged of themselves. -/
  | softError (e : SoftError)
  /-- R230. The home mark unit's acceptance, value or rejection reaches the issuing hart, which completes its mark instruction or takes MARK_SCOPE or REMOTE_ACCESS. -/
  | markReply (id : Nat)
  /-- R371. A Themupel Link port of a route comes up and unacknowledged operations waiting for it are resent over it. -/
  | linkPortUp (port : Nat)
  /-- R379. Module power and junction temperature fall back within their limits, so throttled clusters return to their requested points. -/
  | powerLimitCleared
  deriving DecidableEq, Repr

end Sys2Proof
end

