-- ==== Sys2Proof/WellFormed.lean ====
section
/-!
DEFINITION. When an instruction is well formed: every field in the range that its entry states (R34, R41, R75, R81,
R156). A word whose fields fail a check is an illegal instruction (R82); the decoder refuses it under the name of
the check. Fields that a form does not use stand in no constructor; the decoder refuses them itself.
-/

namespace Sys2Proof

/-- Why a word decodes to no instruction (R81). -/
inductive DecodeError where
  /-- The major opcode is reserved (R80). -/
  | reservedMajor
  /-- fn, imm or c selects no operation (R81). -/
  | noOperation
  /-- A field that the form does not use is not zero (R81). -/
  | fieldNotZero
  /-- A register number at or above its file's count (R75, R83). -/
  | registerOutOfRange
  /-- A format code that is reserved or not accepted (R34, R81). -/
  | formatNotAccepted
  /-- A rounding mode code 6 or 7 (R41). -/
  | roundingMode
  /-- A scope code above 4 (R156). -/
  | scopeOutOfRange
  /-- A selector above its last value (R81). -/
  | selectorOutOfRange
  deriving DecidableEq, Repr

/-- One check: passed, or the name under which it fails. -/
abbrev Check := Option DecodeError

/-- R75: the register number lies below the count of its file. -/
def regBelow (r : R5) (n : Nat) : Check := if r.toNat < n then none else some .registerOutOfRange
/-- R41: the mode field holds code 0 to 5. -/
def modeCode (m : BitVec 3) : Check := if m.toNat < 6 then none else some .roundingMode
/-- R156: the scope field holds code 0 to 4. -/
def scopeCode (s : R5) : Check := if s.toNat < 5 then none else some .scopeOutOfRange
/-- R81: a selector field lies below its count. -/
def selBelow {w : Nat} (s : BitVec w) (n : Nat) : Check := if s.toNat < n then none else some .selectorOutOfRange
/-- R34, R81: the 4-bit format code is one that the form accepts. -/
def accepts (f : BitVec 4) (l : List Nat) : Check := if l.contains f.toNat then none else some .formatNotAccepted
/-- R34, R81: field c holds a format code that the form accepts. -/
def acceptsC (f : R5) (l : List Nat) : Check := if l.contains f.toNat then none else some .formatNotAccepted

/-- R265: the integer formats I8 to I64 and N8 to N32. -/
def intFormats : List Nat := [0x0, 0x1, 0x2, 0x3, 0x4, 0x5, 0x6]
/-- R265: integer formats, F32, B16 and H16. -/
def axeArith : List Nat := [0x0, 0x1, 0x2, 0x3, 0x4, 0x5, 0x6, 0x9, 0xA, 0xB]
/-- R265: every code except CB4. -/
def cvtFormats : List Nat := [0x0, 0x1, 0x2, 0x3, 0x4, 0x5, 0x6, 0x8, 0x9, 0xA, 0xB, 0xC, 0xD]
/-- R273: integer formats and F32. -/
def sumFormats : List Nat := [0x0, 0x1, 0x2, 0x3, 0x4, 0x5, 0x6, 0x9]
/-- R114: every code but I64 and CB4. -/
def ldfFormats : List Nat := [0x0, 0x1, 0x2, 0x4, 0x5, 0x6, 0x8, 0x9, 0xA, 0xB, 0xC, 0xD]
/-- R115: every code but CB4. -/
def stfFormats : List Nat := cvtFormats
/-- R304: H16, B16, F32, I8, I16, I32, N8, N16 and N32. -/
def laneFormats : List Nat := [0x0, 0x1, 0x2, 0x4, 0x5, 0x6, 0x9, 0xA, 0xB]

/-- The checks of an instruction, in the order in which they are made. -/
def Instr.checks : Instr → List Check
  | .add _ _ _ => []
  | .sub _ _ _ => []
  | .and _ _ _ => []
  | .or _ _ _ => []
  | .xor _ _ _ => []
  | .andn _ _ _ => []
  | .sll _ _ _ => []
  | .srl _ _ _ => []
  | .sra _ _ _ => []
  | .ror _ _ _ => []
  | .slt _ _ _ => []
  | .sltu _ _ _ => []
  | .min _ _ _ => []
  | .max _ _ _ => []
  | .minu _ _ _ => []
  | .maxu _ _ _ => []
  | .addw _ _ _ => []
  | .subw _ _ _ => []
  | .clz _ _ => []
  | .ctz _ _ => []
  | .popc _ _ => []
  | .sextb _ _ => []
  | .sexth _ _ => []
  | .sextw _ _ => []
  | .bswap _ _ => []
  | .addSat _ _ _ => []
  | .subSat _ _ _ => []
  | .adduSat _ _ _ => []
  | .subuSat _ _ _ => []
  | .addi _ _ _ => []
  | .andi _ _ _ => []
  | .ori _ _ _ => []
  | .xori _ _ _ => []
  | .slti _ _ _ => []
  | .sltiu _ _ _ => []
  | .slli _ _ _ => []
  | .srli _ _ _ => []
  | .srai _ _ _ => []
  | .rori _ _ _ => []
  | .lui _ _ => []
  | .aupc _ _ => []
  | .mul _ _ _ => []
  | .mulh _ _ _ => []
  | .mulhu _ _ _ => []
  | .mulhsu _ _ _ => []
  | .div _ _ _ => []
  | .divu _ _ _ => []
  | .rem _ _ _ => []
  | .remu _ _ _ => []
  | .mulw _ _ _ => []
  | .divw _ _ _ => []
  | .divuw _ _ _ => []
  | .remw _ _ _ => []
  | .remuw _ _ _ => []
  | .beq _ _ _ => []
  | .bne _ _ _ => []
  | .blt _ _ _ => []
  | .bge _ _ _ => []
  | .bltu _ _ _ => []
  | .bgeu _ _ _ => []
  | .jal _ _ => []
  | .jalr _ _ _ => []
  | .ldb _ _ _ => []
  | .ldbu _ _ _ => []
  | .ldh _ _ _ => []
  | .ldhu _ _ _ => []
  | .ldw _ _ _ => []
  | .ldwu _ _ _ => []
  | .ldd _ _ _ => []
  | .stb _ _ _ => []
  | .sth _ _ _ => []
  | .stw _ _ _ => []
  | .std _ _ _ => []
  | .ldf _ _ t _ => [accepts t ldfFormats]
  | .stf _ _ t _ => [accepts t stfFormats]
  | .fadd _ _ _ m _ => [modeCode m]
  | .fsub _ _ _ m _ => [modeCode m]
  | .fmul _ _ _ m _ => [modeCode m]
  | .fdiv _ _ _ m _ => [modeCode m]
  | .fsqrt _ _ m _ => [modeCode m]
  | .fmin _ _ _ m _ => [modeCode m]
  | .fmax _ _ _ m _ => [modeCode m]
  | .fsgnj _ _ _ m _ => [modeCode m]
  | .fsgnjn _ _ _ m _ => [modeCode m]
  | .fsgnjx _ _ _ m _ => [modeCode m]
  | .feq _ _ _ m _ => [modeCode m]
  | .flt _ _ _ m _ => [modeCode m]
  | .fle _ _ _ m _ => [modeCode m]
  | .fclass _ _ m _ => [modeCode m]
  | .fcvtI64Fmt _ _ m _ => [modeCode m]
  | .fcvtI32Fmt _ _ m _ => [modeCode m]
  | .fcvtN32Fmt _ _ m _ => [modeCode m]
  | .fcvtFmtI64 _ _ m _ => [modeCode m]
  | .fcvtFmtI32 _ _ m _ => [modeCode m]
  | .fcvtFmtN32 _ _ m _ => [modeCode m]
  | .fcvtF32F64 _ _ m => [modeCode m]
  | .fcvtF64F32 _ _ m => [modeCode m]
  | .fmvfg _ _ m _ => [modeCode m]
  | .fmvgf _ _ m _ => [modeCode m]
  | .fmadd _ _ _ _ _ m => [modeCode m]
  | .fmsub _ _ _ _ _ m => [modeCode m]
  | .fnmadd _ _ _ _ _ m => [modeCode m]
  | .fnmsub _ _ _ _ _ m => [modeCode m]
  | .lds _ _ => []
  | .ldse _ _ => []
  | .stfl _ _ => []
  | .fefill _ _ => []
  | .feempty _ _ => []
  | .fest _ _ => []
  | .lda _ _ s => [scopeCode s]
  | .stl _ _ s => [scopeCode s]
  | .amoAdd _ _ _ _ _ => []
  | .amoAnd _ _ _ _ _ => []
  | .amoOr _ _ _ _ _ => []
  | .amoXor _ _ _ _ _ => []
  | .amoMin _ _ _ _ _ => []
  | .amoMax _ _ _ _ _ => []
  | .amoMinu _ _ _ _ _ => []
  | .amoMaxu _ _ _ _ _ => []
  | .amoSwap _ _ _ _ _ => []
  | .amoCas _ _ _ _ _ => []
  | .amoFaddF32 _ _ _ _ _ => []
  | .amoFaddF64 _ _ _ _ _ => []
  | .fence _ _ _ s => [scopeCode s]
  | .fenceAcq _ _ _ s => [scopeCode s]
  | .fenceRel _ _ _ s => [scopeCode s]
  | .barrive _ _ => []
  | .bwait _ => []
  | .barw _ _ => []
  | .gbar => []
  | .bmake _ _ => []
  | .bfree _ _ => []
  | .put _ _ _ => []
  | .get _ _ _ => []
  | .putm _ _ _ => []
  | .getd _ _ => []
  | .cwait _ _ => []
  | .cread _ _ => []
  | .cadd _ _ => []
  | .rinit k _ _ => [regBelow k 8]
  | .rwf _ k _ => [regBelow k 8]
  | .rwe _ k _ => [regBelow k 8]
  | .rpub k _ => [regBelow k 8]
  | .rcon k _ => [regBelow k 8]
  | .dep _ _ => []
  | .depx _ _ => []
  | .sns4 _ _ _ => []
  | .sns8 _ _ _ => []
  | .snsl _ _ => []
  | .mrd _ _ s => [selBelow s 2]
  | .tknum _ s => [selBelow s 3]
  | .tkwait _ => []
  | .axsetv v _ => [regBelow v 16]
  | .axsets s _ _ => [regBelow s 8]
  | .axget _ _ => []
  | .axtt _ _ => []
  | .axeAdd d a b f => [regBelow d 16, regBelow a 16, regBelow b 16, acceptsC f axeArith]
  | .axeSub d a b f => [regBelow d 16, regBelow a 16, regBelow b 16, acceptsC f axeArith]
  | .axeAddSat d a b f => [regBelow d 16, regBelow a 16, regBelow b 16, acceptsC f intFormats]
  | .axeSubSat d a b f => [regBelow d 16, regBelow a 16, regBelow b 16, acceptsC f intFormats]
  | .axeMin d a b f => [regBelow d 16, regBelow a 16, regBelow b 16, acceptsC f intFormats]
  | .axeMax d a b f => [regBelow d 16, regBelow a 16, regBelow b 16, acceptsC f intFormats]
  | .axeMul d a b f => [regBelow d 16, regBelow a 16, regBelow b 16, acceptsC f axeArith]
  | .axeFma d a b => [regBelow d 16, regBelow a 16, regBelow b 16]
  | .axeCmpeq d a b f => [regBelow d 4, regBelow a 16, regBelow b 16, acceptsC f axeArith]
  | .axeCmplt d a b f => [regBelow d 4, regBelow a 16, regBelow b 16, acceptsC f axeArith]
  | .axeCvt d a f => [regBelow d 16, regBelow a 16, acceptsC f cvtFormats]
  | .axeAnd d a b => [regBelow d 16, regBelow a 16, regBelow b 16]
  | .axeOr d a b => [regBelow d 16, regBelow a 16, regBelow b 16]
  | .axeXor d a b => [regBelow d 16, regBelow a 16, regBelow b 16]
  | .axeNot d a => [regBelow d 16, regBelow a 16]
  | .axeMov d a => [regBelow d 16, regBelow a 16]
  | .axeSel d a b => [regBelow d 16, regBelow a 16, regBelow b 16]
  | .axeShl d a _ => [regBelow d 16, regBelow a 16]
  | .axeShr d a _ => [regBelow d 16, regBelow a 16]
  | .axeSra d a _ => [regBelow d 16, regBelow a 16]
  | .axmm s _ p => [regBelow s 8, selBelow p 16]
  | .axgang s _ p => [regBelow s 8, selBelow p 16]
  | .axmatch t _ _ v => [regBelow t 4, regBelow v 16]
  | .axfirst _ t => [regBelow t 4]
  | .axcount _ t => [regBelow t 4]
  | .axmin _ v t f => [regBelow v 16, regBelow t 4, acceptsC f intFormats]
  | .axmax _ v t f => [regBelow v 16, regBelow t 4, acceptsC f intFormats]
  | .axsum _ v b f => [regBelow v 16, selBelow b 2, acceptsC f sumFormats]
  | .axtag t _ o => [regBelow t 4, selBelow o 11]
  | .axld v _ _ => [regBelow v 16]
  | .axldf v _ _ _ => [regBelow v 16]
  | .axldg v _ _ _ => [regBelow v 16]
  | .axst v _ _ => [regBelow v 16]
  | .axlive _ _ n => [selBelow n 4]
  | .axwait _ => []
  | .axpass _ => []
  | .bkload _ _ => []
  | .bkrun _ _ => []
  | .bkcopy _ _ _ => []
  | .bkfence => []
  | .bkerr _ _ => []
  | .bkmeta _ _ _ _ => []
  | .maddF32 _ _ => []
  | .maddI32 _ _ => []
  | .maddV4 _ _ _ => []
  | .mfence => []
  | .tspawn _ _ _ => []
  | .texit _ => []
  | .targ _ _ => []
  | .tyield _ => []
  | .ecall _ _ _ _ => []
  | .ebreak _ _ _ _ => []
  | .tret => []
  | .wfi => []
  | .icinv => []
  | .csrr _ _ => []
  | .csrs _ _ _ => []
  | .csrc _ _ _ => []
  | .csrw _ _ => []
  | .tlbinv _ _ m => [selBelow m 3]
  | .asidset _ _ => []
  | .protset _ n => [selBelow n 8]
  | .stopat _ _ _ => []
  | .cld d a => [regBelow d 8, regBelow a 16]
  | .cst d a => [regBelow d 8, regBelow a 16]
  | .cstM d a b => [regBelow d 8, regBelow a 16, regBelow b 16]
  | .cldm d a b c => [regBelow d 16, regBelow a 16, regBelow b 16, regBelow c 16]
  | .laneAdd d a b f => [regBelow d 8, regBelow a 8, regBelow b 8, acceptsC f laneFormats]
  | .laneSub d a b f => [regBelow d 8, regBelow a 8, regBelow b 8, acceptsC f laneFormats]
  | .laneMul d a b f => [regBelow d 8, regBelow a 8, regBelow b 8, acceptsC f laneFormats]
  | .laneFma d a b f => [regBelow d 8, regBelow a 8, regBelow b 8, acceptsC f laneFormats]
  | .laneMin d a b f => [regBelow d 8, regBelow a 8, regBelow b 8, acceptsC f laneFormats]
  | .laneMax d a b f => [regBelow d 8, regBelow a 8, regBelow b 8, acceptsC f laneFormats]
  | .rsum d a f => [regBelow d 8, regBelow a 8, acceptsC f laneFormats]
  | .splat d a f => [regBelow d 8, regBelow a 16, acceptsC f laneFormats]
  | .laneAnd d a b => [regBelow d 8, regBelow a 8, regBelow b 8]
  | .laneOr d a b => [regBelow d 8, regBelow a 8, regBelow b 8]
  | .laneXor d a b => [regBelow d 8, regBelow a 8, regBelow b 8]
  | .laneMov d a => [regBelow d 8, regBelow a 8]
  | .lget d a w => [regBelow d 16, regBelow a 8, selBelow w 8]
  | .lput d a w => [regBelow d 8, regBelow a 16, selBelow w 8]
  | .lld d a => [regBelow d 8, regBelow a 16]
  | .lst d a => [regBelow d 8, regBelow a 16]
  | .bdone a => [regBelow a 16]
  | .bsig a => [regBelow a 16]
  | .takeInterrupt _ => []
  | .takeAsyncException _ => []
  | .timerMatch _ => []
  | .instructionFetchFill _ => []
  | .chunkCommit _ => []
  | .soloGrant _ => []
  | .remoteAccessArrival _ => []
  | .syncEngineAtomic _ => []
  | .syncEngineBarrier _ => []
  | .remoteLoadReply _ => []
  | .remoteAtomicReply _ => []
  | .syncReply _ => []
  | .remoteAck _ => []
  | .remoteRejection _ => []
  | .bwaitWake _ => []
  | .gbarComplete _ => []
  | .ldsWake _ => []
  | .cwaitWake _ => []
  | .rwfWake _ => []
  | .rweWake _ => []
  | .tkwaitWake _ => []
  | .fenceWaitEnd _ => []
  | .bkfenceWaitEnd _ => []
  | .mfenceWaitEnd _ => []
  | .tlbinvAck _ => []
  | .stopAnnounced _ => []
  | .tspawnAck _ => []
  | .tyieldEnd _ => []
  | .wfiWake _ => []
  | .axwaitEnd _ => []
  | .arrayInstrExecute _ => []
  | .arrayResultWrite _ => []
  | .axmmRow _ => []
  | .gangOpJoin _ => []
  | .axgangRow _ => []
  | .putgetSegment _ _ => []
  | .partTranslate _ _ => []
  | .faultRecordWrite _ _ => []
  | .putgetComplete _ _ => []
  | .putgetFail _ _ => []
  | .putmSlotClaim _ _ _ => []
  | .bkloadComplete _ => []
  | .overlayStart _ => []
  | .overlayEnd _ => []
  | .bkcopyColumn _ => []
  | .bkcopyComplete _ => []
  | .bkmetaComplete _ => []
  | .streamSlotGrant _ => []
  | .streamSlotIdleRelease _ => []
  | .maddAccept _ _ => []
  | .maddApply _ _ => []
  | .hotRowWindow _ => []
  | .hotRowAdmit _ _ => []
  | .markOpArrival _ => []
  | .markOpApply _ _ => []
  | .tick _ => []
  | .markConfigEffect _ _ => []
  | .msizeWrite _ _ => []
  | .fresumeRetry _ _ => []
  | .fresumeFail _ _ => []
  | .fresumeExhaust _ _ => []
  | .registerWrite _ _ => []
  | .qtailWrite _ _ _ => []
  | .qcfgWrite _ _ _ => []
  | .evcfgWrite _ _ => []
  | .ptcfgWrite _ _ => []
  | .launchRead _ _ => []
  | .taskEnqueue _ _ => []
  | .versionFill _ => []
  | .taskEligible _ => []
  | .dispatchOpportunity _ => []
  | .evictGang _ => []
  | .taskComplete _ => []
  | .eventRecordWrite _ => []
  | .eventInterruptTimeout _ => []
  | .versionInstall _ => []
  | .hangExpiry _ => []
  | .zugzwangStop _ => []
  | .flushToken _ _ => []
  | .routerFlush _ _ => []
  | .stopComplete _ => []
  | .partitionResume _ => []
  | .recallLentClusters _ _ => []
  | .lendCluster _ _ => []
  | .assignCluster _ _ => []
  | .withdrawPartition _ => []
  | .migrateOwner _ => []
  | .field _ => []
  | .ticks _ => []
  | .snapshot _ => []
  | .cap _ => []
  | .mailboxUnknown _ => []
  | .hostMemAccess _ _ _ => []
  | .spdmRequest _ => []
  | .firmwareImage _ _ => []
  | .firmwareHealthy => []
  | .firmwareHealthTimeout => []
  | .linkOpReceive _ _ _ _ => []
  | .linkPortDown _ => []
  | .linkRouteTimeout _ => []
  | .governorEval _ => []
  | .operatingPointStep _ => []
  | .voltageSettled _ => []
  | .voltageFloorChange _ _ => []
  | .powerThrottle _ => []
  | .thermalReset => []
  | .moduleReset => []
  | .lastingFault _ => []
  | .isolateFault _ => []
  | .gradeChange _ _ _ => []
  | .illegalInstruction _ => []
  | .eventAcknowledgement _ => []
  | .softError _ => []
  | .markReply _ => []
  | .linkPortUp _ => []
  | .powerLimitCleared => []

/-- The first check that fails, if any. -/
def Instr.illFormed (i : Instr) : Option DecodeError := i.checks.findSome? id

/-- R81: every field holds a value that its form accepts. -/
def Instr.WellFormed (i : Instr) : Prop := i.illFormed = none

end Sys2Proof
end

