-- ==== Sys2Proof/Decode.lean ====
section
/-!
DEFINITION. The decoder from instruction words to instructions (R76 to R81) and, after it, the encoder written from
the same encoding tables. The decoder is total: every word gives an instruction or the name of the reason why it is
an illegal instruction (R82).
-/

namespace Sys2Proof

/-- MAJ, bits 31:26 (R76). -/
def fMaj (w : W32) : BitVec 6 := w.extractLsb' 26 6
/-- d, bits 25:21 (R76). -/
def fD (w : W32) : R5 := w.extractLsb' 21 5
/-- a, bits 20:16 (R76). -/
def fA (w : W32) : R5 := w.extractLsb' 16 5
/-- b, bits 15:11 (R76). -/
def fB (w : W32) : R5 := w.extractLsb' 11 5
/-- c, bits 10:6 (R76). -/
def fC (w : W32) : R5 := w.extractLsb' 6 5
/-- fn, bits 5:0 (R76). -/
def fFn (w : W32) : BitVec 6 := w.extractLsb' 0 6
/-- imm16, bits 15:0 (R77). -/
def fImm (w : W32) : BitVec 16 := w.extractLsb' 0 16
/-- imm21 or off21, bits 20:0 (R77). -/
def fImm21 (w : W32) : BitVec 21 := w.extractLsb' 0 21
/-- The format code of a typed form, bits 15:12 (R77). -/
def fTy (w : W32) : BitVec 4 := w.extractLsb' 12 4
/-- The byte offset of a typed form, bits 11:0 (R77). -/
def fOff (w : W32) : BitVec 12 := w.extractLsb' 0 12

/-- R81: the fields that the form does not use, given as numbers, must be zero. -/
def unused (l : List Nat) (i : Instr) : Except DecodeError Instr :=
  if l.all (fun x => x = 0) then .ok i else .error .fieldNotZero

/-- Major opcode 0x00 (R97 and the rows beside it). -/
def decodeMaj00 (w : W32) : Except DecodeError Instr :=
  match (fFn w).toNat with
  | 0x01 => unused [(fC w).toNat] (.add (fD w) (fA w) (fB w))
  | 0x02 => unused [(fC w).toNat] (.sub (fD w) (fA w) (fB w))
  | 0x03 => unused [(fC w).toNat] (.and (fD w) (fA w) (fB w))
  | 0x04 => unused [(fC w).toNat] (.or (fD w) (fA w) (fB w))
  | 0x05 => unused [(fC w).toNat] (.xor (fD w) (fA w) (fB w))
  | 0x06 => unused [(fC w).toNat] (.andn (fD w) (fA w) (fB w))
  | 0x07 => unused [(fC w).toNat] (.sll (fD w) (fA w) (fB w))
  | 0x08 => unused [(fC w).toNat] (.srl (fD w) (fA w) (fB w))
  | 0x09 => unused [(fC w).toNat] (.sra (fD w) (fA w) (fB w))
  | 0x0A => unused [(fC w).toNat] (.ror (fD w) (fA w) (fB w))
  | 0x0B => unused [(fC w).toNat] (.slt (fD w) (fA w) (fB w))
  | 0x0C => unused [(fC w).toNat] (.sltu (fD w) (fA w) (fB w))
  | 0x0D => unused [(fC w).toNat] (.min (fD w) (fA w) (fB w))
  | 0x0E => unused [(fC w).toNat] (.max (fD w) (fA w) (fB w))
  | 0x0F => unused [(fC w).toNat] (.minu (fD w) (fA w) (fB w))
  | 0x10 => unused [(fC w).toNat] (.maxu (fD w) (fA w) (fB w))
  | 0x11 => unused [(fC w).toNat] (.addw (fD w) (fA w) (fB w))
  | 0x12 => unused [(fC w).toNat] (.subw (fD w) (fA w) (fB w))
  | 0x14 => unused [(fB w).toNat, (fC w).toNat] (.clz (fD w) (fA w))
  | 0x15 => unused [(fB w).toNat, (fC w).toNat] (.ctz (fD w) (fA w))
  | 0x16 => unused [(fB w).toNat, (fC w).toNat] (.popc (fD w) (fA w))
  | 0x17 => unused [(fB w).toNat, (fC w).toNat] (.sextb (fD w) (fA w))
  | 0x18 => unused [(fB w).toNat, (fC w).toNat] (.sexth (fD w) (fA w))
  | 0x19 => unused [(fB w).toNat, (fC w).toNat] (.sextw (fD w) (fA w))
  | 0x1A => unused [(fB w).toNat, (fC w).toNat] (.bswap (fD w) (fA w))
  | 0x1B => unused [(fC w).toNat] (.addSat (fD w) (fA w) (fB w))
  | 0x1C => unused [(fC w).toNat] (.subSat (fD w) (fA w) (fB w))
  | 0x1D => unused [(fC w).toNat] (.adduSat (fD w) (fA w) (fB w))
  | 0x1E => unused [(fC w).toNat] (.subuSat (fD w) (fA w) (fB w))
  | _ => .error .noOperation

/-- Major opcode 0x0A (R102 and the rows beside it). -/
def decodeMaj0A (w : W32) : Except DecodeError Instr :=
  match (fFn w).toNat with
  | 0x01 => unused [(fC w).toNat] (.mul (fD w) (fA w) (fB w))
  | 0x02 => unused [(fC w).toNat] (.mulh (fD w) (fA w) (fB w))
  | 0x03 => unused [(fC w).toNat] (.mulhu (fD w) (fA w) (fB w))
  | 0x04 => unused [(fC w).toNat] (.mulhsu (fD w) (fA w) (fB w))
  | 0x05 => unused [(fC w).toNat] (.div (fD w) (fA w) (fB w))
  | 0x06 => unused [(fC w).toNat] (.divu (fD w) (fA w) (fB w))
  | 0x07 => unused [(fC w).toNat] (.rem (fD w) (fA w) (fB w))
  | 0x08 => unused [(fC w).toNat] (.remu (fD w) (fA w) (fB w))
  | 0x09 => unused [(fC w).toNat] (.mulw (fD w) (fA w) (fB w))
  | 0x0A => unused [(fC w).toNat] (.divw (fD w) (fA w) (fB w))
  | 0x0B => unused [(fC w).toNat] (.divuw (fD w) (fA w) (fB w))
  | 0x0C => unused [(fC w).toNat] (.remw (fD w) (fA w) (fB w))
  | 0x0D => unused [(fC w).toNat] (.remuw (fD w) (fA w) (fB w))
  | _ => .error .noOperation

/-- Major opcode 0x22 (R158 and the rows beside it). -/
def decodeMaj22 (w : W32) : Except DecodeError Instr :=
  match (fFn w).toNat with
  | 0x01 => unused [(fB w).toNat, (fC w).toNat] (.lds (fD w) (fA w))
  | 0x02 => unused [(fB w).toNat, (fC w).toNat] (.ldse (fD w) (fA w))
  | 0x03 => unused [(fD w).toNat, (fC w).toNat] (.stfl (fA w) (fB w))
  | 0x04 => unused [(fD w).toNat, (fC w).toNat] (.fefill (fA w) (fB w))
  | 0x05 => unused [(fD w).toNat, (fC w).toNat] (.feempty (fA w) (fB w))
  | 0x06 => unused [(fB w).toNat, (fC w).toNat] (.fest (fD w) (fA w))
  | 0x07 => unused [(fB w).toNat] (.lda (fD w) (fA w) (fC w))
  | 0x08 => unused [(fD w).toNat] (.stl (fA w) (fB w) (fC w))
  | _ => .error .noOperation

/-- Major opcode 0x24 (R167 and the rows beside it). -/
def decodeMaj24 (w : W32) : Except DecodeError Instr :=
  match (fFn w).toNat with
  | 0x01 => .ok (.fence (fD w) (fA w) (fB w) (fC w))
  | 0x02 => .ok (.fenceAcq (fD w) (fA w) (fB w) (fC w))
  | 0x03 => .ok (.fenceRel (fD w) (fA w) (fB w) (fC w))
  | _ => .error .noOperation

/-- Major opcode 0x25 (R170 and the rows beside it). -/
def decodeMaj25 (w : W32) : Except DecodeError Instr :=
  match (fFn w).toNat with
  | 0x01 => unused [(fB w).toNat, (fC w).toNat] (.barrive (fD w) (fA w))
  | 0x02 => unused [(fD w).toNat, (fB w).toNat, (fC w).toNat] (.bwait (fA w))
  | 0x03 => unused [(fB w).toNat, (fC w).toNat] (.barw (fD w) (fA w))
  | 0x04 => unused [(fD w).toNat, (fA w).toNat, (fB w).toNat, (fC w).toNat] (.gbar)
  | 0x05 => unused [(fB w).toNat, (fC w).toNat] (.bmake (fD w) (fA w))
  | 0x06 => unused [(fB w).toNat, (fC w).toNat] (.bfree (fD w) (fA w))
  | _ => .error .noOperation

/-- Major opcode 0x26 (R176 and the rows beside it). -/
def decodeMaj26 (w : W32) : Except DecodeError Instr :=
  match (fFn w).toNat with
  | 0x01 => unused [(fD w).toNat] (.put (fA w) (fB w) (fC w))
  | 0x02 => unused [(fD w).toNat] (.get (fA w) (fB w) (fC w))
  | 0x03 => unused [(fD w).toNat] (.putm (fA w) (fB w) (fC w))
  | 0x04 => unused [(fD w).toNat, (fA w).toNat] (.getd (fB w) (fC w))
  | 0x05 => unused [(fD w).toNat, (fC w).toNat] (.cwait (fA w) (fB w))
  | 0x06 => unused [(fB w).toNat, (fC w).toNat] (.cread (fD w) (fA w))
  | 0x07 => unused [(fD w).toNat, (fC w).toNat] (.cadd (fA w) (fB w))
  | _ => .error .noOperation

/-- Major opcode 0x27 (R187 and the rows beside it). -/
def decodeMaj27 (w : W32) : Except DecodeError Instr :=
  match (fFn w).toNat with
  | 0x01 => unused [(fC w).toNat] (.rinit (fD w) (fA w) (fB w))
  | 0x02 => unused [(fC w).toNat] (.rwf (fD w) (fA w) (fB w))
  | 0x03 => unused [(fC w).toNat] (.rwe (fD w) (fA w) (fB w))
  | 0x04 => unused [(fD w).toNat, (fC w).toNat] (.rpub (fA w) (fB w))
  | 0x05 => unused [(fD w).toNat, (fC w).toNat] (.rcon (fA w) (fB w))
  | _ => .error .noOperation

/-- Major opcode 0x28 (R231 and the rows beside it). -/
def decodeMaj28 (w : W32) : Except DecodeError Instr :=
  match (fFn w).toNat with
  | 0x01 => unused [(fD w).toNat, (fC w).toNat] (.dep (fA w) (fB w))
  | 0x02 => unused [(fD w).toNat, (fC w).toNat] (.depx (fA w) (fB w))
  | 0x03 => unused [(fC w).toNat] (.sns4 (fD w) (fA w) (fB w))
  | 0x04 => unused [(fC w).toNat] (.sns8 (fD w) (fA w) (fB w))
  | 0x05 => unused [(fB w).toNat, (fC w).toNat] (.snsl (fD w) (fA w))
  | 0x06 => unused [(fB w).toNat] (.mrd (fD w) (fA w) (fC w))
  | 0x07 => unused [(fA w).toNat, (fB w).toNat] (.tknum (fD w) (fC w))
  | 0x08 => unused [(fD w).toNat, (fB w).toNat, (fC w).toNat] (.tkwait (fA w))
  | _ => .error .noOperation

/-- Major opcode 0x29 (R261 and the rows beside it). -/
def decodeMaj29 (w : W32) : Except DecodeError Instr :=
  match (fFn w).toNat with
  | 0x01 => unused [(fB w).toNat, (fC w).toNat] (.axsetv (fD w) (fA w))
  | 0x02 => unused [(fC w).toNat] (.axsets (fD w) (fA w) (fB w))
  | 0x03 => unused [(fB w).toNat, (fC w).toNat] (.axget (fD w) (fA w))
  | 0x04 => unused [(fD w).toNat, (fC w).toNat] (.axtt (fA w) (fB w))
  | _ => .error .noOperation

/-- Major opcode 0x2A (R266 and the rows beside it). -/
def decodeMaj2A (w : W32) : Except DecodeError Instr :=
  match (fFn w).toNat with
  | 0x01 => .ok (.axeAdd (fD w) (fA w) (fB w) (fC w))
  | 0x02 => .ok (.axeSub (fD w) (fA w) (fB w) (fC w))
  | 0x03 => .ok (.axeAddSat (fD w) (fA w) (fB w) (fC w))
  | 0x04 => .ok (.axeSubSat (fD w) (fA w) (fB w) (fC w))
  | 0x05 => .ok (.axeMin (fD w) (fA w) (fB w) (fC w))
  | 0x06 => .ok (.axeMax (fD w) (fA w) (fB w) (fC w))
  | 0x07 => .ok (.axeMul (fD w) (fA w) (fB w) (fC w))
  | 0x08 => if fC w = 0x09 then .ok (.axeFma (fD w) (fA w) (fB w)) else .error .formatNotAccepted
  | 0x09 => .ok (.axeCmpeq (fD w) (fA w) (fB w) (fC w))
  | 0x0A => .ok (.axeCmplt (fD w) (fA w) (fB w) (fC w))
  | 0x0B => unused [(fB w).toNat] (.axeCvt (fD w) (fA w) (fC w))
  | 0x10 => unused [(fC w).toNat] (.axeAnd (fD w) (fA w) (fB w))
  | 0x11 => unused [(fC w).toNat] (.axeOr (fD w) (fA w) (fB w))
  | 0x12 => unused [(fC w).toNat] (.axeXor (fD w) (fA w) (fB w))
  | 0x13 => unused [(fB w).toNat, (fC w).toNat] (.axeNot (fD w) (fA w))
  | 0x14 => unused [(fB w).toNat, (fC w).toNat] (.axeMov (fD w) (fA w))
  | 0x15 => unused [(fC w).toNat] (.axeSel (fD w) (fA w) (fB w))
  | 0x16 => unused [(fC w).toNat] (.axeShl (fD w) (fA w) (fB w))
  | 0x17 => unused [(fC w).toNat] (.axeShr (fD w) (fA w) (fB w))
  | 0x18 => unused [(fC w).toNat] (.axeSra (fD w) (fA w) (fB w))
  | _ => .error .noOperation

/-- Major opcode 0x2C (R270 and the rows beside it). -/
def decodeMaj2C (w : W32) : Except DecodeError Instr :=
  match (fFn w).toNat with
  | 0x01 => .ok (.axmatch (fD w) (fA w) (fB w) (fC w))
  | 0x02 => unused [(fB w).toNat, (fC w).toNat] (.axfirst (fD w) (fA w))
  | 0x03 => unused [(fB w).toNat, (fC w).toNat] (.axcount (fD w) (fA w))
  | 0x04 => .ok (.axmin (fD w) (fA w) (fB w) (fC w))
  | 0x05 => .ok (.axmax (fD w) (fA w) (fB w) (fC w))
  | 0x06 => .ok (.axsum (fD w) (fA w) (fB w) (fC w))
  | 0x07 => unused [(fC w).toNat] (.axtag (fD w) (fA w) (fB w))
  | _ => .error .noOperation

/-- Major opcode 0x2D (R275 and the rows beside it). -/
def decodeMaj2D (w : W32) : Except DecodeError Instr :=
  match (fFn w).toNat with
  | 0x01 => unused [(fC w).toNat] (.axld (fD w) (fA w) (fB w))
  | 0x02 => .ok (.axldf (fD w) (fA w) (fB w) (fC w))
  | 0x03 => .ok (.axldg (fD w) (fA w) (fB w) (fC w))
  | 0x04 => unused [(fC w).toNat] (.axst (fD w) (fA w) (fB w))
  | 0x05 => unused [(fD w).toNat] (.axlive (fA w) (fB w) (fC w))
  | 0x06 => unused [(fD w).toNat, (fB w).toNat, (fC w).toNat] (.axwait (fA w))
  | 0x07 => unused [(fD w).toNat, (fB w).toNat, (fC w).toNat] (.axpass (fA w))
  | _ => .error .noOperation

/-- Major opcode 0x2E (R296 and the rows beside it). -/
def decodeMaj2E (w : W32) : Except DecodeError Instr :=
  match (fFn w).toNat with
  | 0x01 => unused [(fD w).toNat, (fC w).toNat] (.bkload (fA w) (fB w))
  | 0x02 => unused [(fD w).toNat, (fC w).toNat] (.bkrun (fA w) (fB w))
  | 0x03 => unused [(fD w).toNat] (.bkcopy (fA w) (fB w) (fC w))
  | 0x04 => unused [(fD w).toNat, (fA w).toNat, (fB w).toNat, (fC w).toNat] (.bkfence)
  | 0x05 => unused [(fB w).toNat, (fC w).toNat] (.bkerr (fD w) (fA w))
  | 0x06 => .ok (.bkmeta (fD w) (fA w) (fB w) (fC w))
  | _ => .error .noOperation

/-- Major opcode 0x2F (R309 and the rows beside it). -/
def decodeMaj2F (w : W32) : Except DecodeError Instr :=
  match (fFn w).toNat with
  | 0x01 => unused [(fD w).toNat, (fC w).toNat] (.maddF32 (fA w) (fB w))
  | 0x02 => unused [(fD w).toNat, (fC w).toNat] (.maddI32 (fA w) (fB w))
  | 0x03 => unused [(fD w).toNat] (.maddV4 (fA w) (fB w) (fC w))
  | 0x04 => unused [(fD w).toNat, (fA w).toNat, (fB w).toNat, (fC w).toNat] (.mfence)
  | _ => .error .noOperation

/-- Major opcode 0x30 (R191 and the rows beside it). -/
def decodeMaj30 (w : W32) : Except DecodeError Instr :=
  match (fFn w).toNat with
  | 0x01 => unused [(fC w).toNat] (.tspawn (fD w) (fA w) (fB w))
  | 0x02 => unused [(fD w).toNat, (fB w).toNat, (fC w).toNat] (.texit (fA w))
  | 0x03 => unused [(fB w).toNat, (fC w).toNat] (.targ (fD w) (fA w))
  | 0x04 => unused [(fD w).toNat, (fB w).toNat, (fC w).toNat] (.tyield (fA w))
  | _ => .error .noOperation

/-- Major opcode 0x31 (R134 and the rows beside it). -/
def decodeMaj31 (w : W32) : Except DecodeError Instr :=
  match (fFn w).toNat with
  | 0x01 => .ok (.ecall (fD w) (fA w) (fB w) (fC w))
  | 0x02 => .ok (.ebreak (fD w) (fA w) (fB w) (fC w))
  | 0x03 => unused [(fD w).toNat, (fA w).toNat, (fB w).toNat, (fC w).toNat] (.tret)
  | 0x04 => unused [(fD w).toNat, (fA w).toNat, (fB w).toNat, (fC w).toNat] (.wfi)
  | 0x05 => unused [(fD w).toNat, (fA w).toNat, (fB w).toNat, (fC w).toNat] (.icinv)
  | _ => .error .noOperation

/-- Major opcode 0x33 (R151 and the rows beside it). -/
def decodeMaj33 (w : W32) : Except DecodeError Instr :=
  match (fFn w).toNat with
  | 0x01 => unused [(fD w).toNat] (.tlbinv (fA w) (fB w) (fC w))
  | 0x02 => unused [(fB w).toNat, (fC w).toNat] (.asidset (fD w) (fA w))
  | 0x03 => unused [(fD w).toNat, (fB w).toNat] (.protset (fA w) (fC w))
  | 0x04 => unused [(fC w).toNat] (.stopat (fD w) (fA w) (fB w))
  | _ => .error .noOperation

/-- Major opcode 0x38 (R303 and the rows beside it). -/
def decodeMaj38 (w : W32) : Except DecodeError Instr :=
  match (fFn w).toNat with
  | 0x01 => unused [(fB w).toNat, (fC w).toNat] (.cld (fD w) (fA w))
  | 0x02 => unused [(fB w).toNat, (fC w).toNat] (.cst (fD w) (fA w))
  | 0x03 => unused [(fC w).toNat] (.cstM (fD w) (fA w) (fB w))
  | 0x04 => .ok (.cldm (fD w) (fA w) (fB w) (fC w))
  | _ => .error .noOperation

/-- Major opcode 0x39 (R305 and the rows beside it). -/
def decodeMaj39 (w : W32) : Except DecodeError Instr :=
  match (fFn w).toNat with
  | 0x01 => .ok (.laneAdd (fD w) (fA w) (fB w) (fC w))
  | 0x02 => .ok (.laneSub (fD w) (fA w) (fB w) (fC w))
  | 0x03 => .ok (.laneMul (fD w) (fA w) (fB w) (fC w))
  | 0x04 => .ok (.laneFma (fD w) (fA w) (fB w) (fC w))
  | 0x05 => .ok (.laneMin (fD w) (fA w) (fB w) (fC w))
  | 0x06 => .ok (.laneMax (fD w) (fA w) (fB w) (fC w))
  | 0x07 => unused [(fB w).toNat] (.rsum (fD w) (fA w) (fC w))
  | 0x08 => unused [(fB w).toNat] (.splat (fD w) (fA w) (fC w))
  | 0x10 => unused [(fC w).toNat] (.laneAnd (fD w) (fA w) (fB w))
  | 0x11 => unused [(fC w).toNat] (.laneOr (fD w) (fA w) (fB w))
  | 0x12 => unused [(fC w).toNat] (.laneXor (fD w) (fA w) (fB w))
  | 0x13 => unused [(fB w).toNat, (fC w).toNat] (.laneMov (fD w) (fA w))
  | 0x14 => unused [(fC w).toNat] (.lget (fD w) (fA w) (fB w))
  | 0x15 => unused [(fC w).toNat] (.lput (fD w) (fA w) (fB w))
  | 0x16 => unused [(fB w).toNat, (fC w).toNat] (.lld (fD w) (fA w))
  | 0x17 => unused [(fB w).toNat, (fC w).toNat] (.lst (fD w) (fA w))
  | _ => .error .noOperation

/-- Major opcode 0x3A (R306 and the rows beside it). -/
def decodeMaj3A (w : W32) : Except DecodeError Instr :=
  match (fFn w).toNat with
  | 0x01 => unused [(fD w).toNat, (fB w).toNat, (fC w).toNat] (.bdone (fA w))
  | 0x02 => unused [(fD w).toNat, (fB w).toNat, (fC w).toNat] (.bsig (fA w))
  | _ => .error .noOperation

/-- Major opcode 0x07: imm bits 7:6 hold the kind, bits 15:8 are zero (R100). -/
def decodeMaj07 (w : W32) : Except DecodeError Instr :=
  match ((fImm w).extractLsb' 6 2).toNat with
  | 0x00 => unused [((fImm w).extractLsb' 8 8).toNat] (.slli (fD w) (fA w) ((fImm w).extractLsb' 0 6))
  | 0x01 => unused [((fImm w).extractLsb' 8 8).toNat] (.srli (fD w) (fA w) ((fImm w).extractLsb' 0 6))
  | 0x02 => unused [((fImm w).extractLsb' 8 8).toNat] (.srai (fD w) (fA w) ((fImm w).extractLsb' 0 6))
  | _ => unused [((fImm w).extractLsb' 8 8).toNat] (.rori (fD w) (fA w) ((fImm w).extractLsb' 0 6))

/-- Major opcode 0x20: fn = 2 x op + t, c holds the rounding mode in bits 2:0 (R117). -/
def decodeMaj20 (w : W32) : Except DecodeError Instr :=
  match ((fFn w).extractLsb' 1 5).toNat with
  | 0x00 => unused [((fC w).extractLsb' 3 2).toNat] (.fadd (fD w) (fA w) (fB w) ((fC w).extractLsb' 0 3) ((fFn w).extractLsb' 0 1))
  | 0x01 => unused [((fC w).extractLsb' 3 2).toNat] (.fsub (fD w) (fA w) (fB w) ((fC w).extractLsb' 0 3) ((fFn w).extractLsb' 0 1))
  | 0x02 => unused [((fC w).extractLsb' 3 2).toNat] (.fmul (fD w) (fA w) (fB w) ((fC w).extractLsb' 0 3) ((fFn w).extractLsb' 0 1))
  | 0x03 => unused [((fC w).extractLsb' 3 2).toNat] (.fdiv (fD w) (fA w) (fB w) ((fC w).extractLsb' 0 3) ((fFn w).extractLsb' 0 1))
  | 0x04 => unused [((fC w).extractLsb' 3 2).toNat, (fB w).toNat] (.fsqrt (fD w) (fA w) ((fC w).extractLsb' 0 3) ((fFn w).extractLsb' 0 1))
  | 0x05 => unused [((fC w).extractLsb' 3 2).toNat] (.fmin (fD w) (fA w) (fB w) ((fC w).extractLsb' 0 3) ((fFn w).extractLsb' 0 1))
  | 0x06 => unused [((fC w).extractLsb' 3 2).toNat] (.fmax (fD w) (fA w) (fB w) ((fC w).extractLsb' 0 3) ((fFn w).extractLsb' 0 1))
  | 0x07 => unused [((fC w).extractLsb' 3 2).toNat] (.fsgnj (fD w) (fA w) (fB w) ((fC w).extractLsb' 0 3) ((fFn w).extractLsb' 0 1))
  | 0x08 => unused [((fC w).extractLsb' 3 2).toNat] (.fsgnjn (fD w) (fA w) (fB w) ((fC w).extractLsb' 0 3) ((fFn w).extractLsb' 0 1))
  | 0x09 => unused [((fC w).extractLsb' 3 2).toNat] (.fsgnjx (fD w) (fA w) (fB w) ((fC w).extractLsb' 0 3) ((fFn w).extractLsb' 0 1))
  | 0x0A => unused [((fC w).extractLsb' 3 2).toNat] (.feq (fD w) (fA w) (fB w) ((fC w).extractLsb' 0 3) ((fFn w).extractLsb' 0 1))
  | 0x0B => unused [((fC w).extractLsb' 3 2).toNat] (.flt (fD w) (fA w) (fB w) ((fC w).extractLsb' 0 3) ((fFn w).extractLsb' 0 1))
  | 0x0C => unused [((fC w).extractLsb' 3 2).toNat] (.fle (fD w) (fA w) (fB w) ((fC w).extractLsb' 0 3) ((fFn w).extractLsb' 0 1))
  | 0x0D => unused [((fC w).extractLsb' 3 2).toNat, (fB w).toNat] (.fclass (fD w) (fA w) ((fC w).extractLsb' 0 3) ((fFn w).extractLsb' 0 1))
  | 0x0E => unused [((fC w).extractLsb' 3 2).toNat, (fB w).toNat] (.fcvtI64Fmt (fD w) (fA w) ((fC w).extractLsb' 0 3) ((fFn w).extractLsb' 0 1))
  | 0x0F => unused [((fC w).extractLsb' 3 2).toNat, (fB w).toNat] (.fcvtI32Fmt (fD w) (fA w) ((fC w).extractLsb' 0 3) ((fFn w).extractLsb' 0 1))
  | 0x10 => unused [((fC w).extractLsb' 3 2).toNat, (fB w).toNat] (.fcvtN32Fmt (fD w) (fA w) ((fC w).extractLsb' 0 3) ((fFn w).extractLsb' 0 1))
  | 0x11 => unused [((fC w).extractLsb' 3 2).toNat, (fB w).toNat] (.fcvtFmtI64 (fD w) (fA w) ((fC w).extractLsb' 0 3) ((fFn w).extractLsb' 0 1))
  | 0x12 => unused [((fC w).extractLsb' 3 2).toNat, (fB w).toNat] (.fcvtFmtI32 (fD w) (fA w) ((fC w).extractLsb' 0 3) ((fFn w).extractLsb' 0 1))
  | 0x13 => unused [((fC w).extractLsb' 3 2).toNat, (fB w).toNat] (.fcvtFmtN32 (fD w) (fA w) ((fC w).extractLsb' 0 3) ((fFn w).extractLsb' 0 1))
  | 0x14 => if (fFn w).extractLsb' 0 1 = 0#1 then unused [((fC w).extractLsb' 3 2).toNat, (fB w).toNat] (.fcvtF32F64 (fD w) (fA w) ((fC w).extractLsb' 0 3)) else unused [((fC w).extractLsb' 3 2).toNat, (fB w).toNat] (.fcvtF64F32 (fD w) (fA w) ((fC w).extractLsb' 0 3))
  | 0x15 => unused [((fC w).extractLsb' 3 2).toNat, (fB w).toNat] (.fmvfg (fD w) (fA w) ((fC w).extractLsb' 0 3) ((fFn w).extractLsb' 0 1))
  | 0x16 => unused [((fC w).extractLsb' 3 2).toNat, (fB w).toNat] (.fmvgf (fD w) (fA w) ((fC w).extractLsb' 0 3) ((fFn w).extractLsb' 0 1))
  | _ => .error .noOperation

/-- Major opcode 0x21: fn bit 5 the format, bits 4:3 the operation, bits 2:0 the rounding mode (R126). -/
def decodeMaj21 (w : W32) : Except DecodeError Instr :=
  match ((fFn w).extractLsb' 3 2).toNat with
  | 0x00 => .ok (.fmadd (fD w) (fA w) (fB w) (fC w) ((fFn w).extractLsb' 5 1) ((fFn w).extractLsb' 0 3))
  | 0x01 => .ok (.fmsub (fD w) (fA w) (fB w) (fC w) ((fFn w).extractLsb' 5 1) ((fFn w).extractLsb' 0 3))
  | 0x02 => .ok (.fnmadd (fD w) (fA w) (fB w) (fC w) ((fFn w).extractLsb' 5 1) ((fFn w).extractLsb' 0 3))
  | _ => .ok (.fnmsub (fD w) (fA w) (fB w) (fC w) ((fFn w).extractLsb' 5 1) ((fFn w).extractLsb' 0 3))

/-- Major opcode 0x23: fn bits 5:2 the operation, bits 1:0 the scope, c bit 0 the SC qualifier (R162). -/
def decodeMaj23 (w : W32) : Except DecodeError Instr :=
  match ((fFn w).extractLsb' 2 4).toNat with
  | 0x00 => unused [((fC w).extractLsb' 1 4).toNat] (.amoAdd (fD w) (fA w) (fB w) ((fC w).extractLsb' 0 1) ((fFn w).extractLsb' 0 2))
  | 0x01 => unused [((fC w).extractLsb' 1 4).toNat] (.amoAnd (fD w) (fA w) (fB w) ((fC w).extractLsb' 0 1) ((fFn w).extractLsb' 0 2))
  | 0x02 => unused [((fC w).extractLsb' 1 4).toNat] (.amoOr (fD w) (fA w) (fB w) ((fC w).extractLsb' 0 1) ((fFn w).extractLsb' 0 2))
  | 0x03 => unused [((fC w).extractLsb' 1 4).toNat] (.amoXor (fD w) (fA w) (fB w) ((fC w).extractLsb' 0 1) ((fFn w).extractLsb' 0 2))
  | 0x04 => unused [((fC w).extractLsb' 1 4).toNat] (.amoMin (fD w) (fA w) (fB w) ((fC w).extractLsb' 0 1) ((fFn w).extractLsb' 0 2))
  | 0x05 => unused [((fC w).extractLsb' 1 4).toNat] (.amoMax (fD w) (fA w) (fB w) ((fC w).extractLsb' 0 1) ((fFn w).extractLsb' 0 2))
  | 0x06 => unused [((fC w).extractLsb' 1 4).toNat] (.amoMinu (fD w) (fA w) (fB w) ((fC w).extractLsb' 0 1) ((fFn w).extractLsb' 0 2))
  | 0x07 => unused [((fC w).extractLsb' 1 4).toNat] (.amoMaxu (fD w) (fA w) (fB w) ((fC w).extractLsb' 0 1) ((fFn w).extractLsb' 0 2))
  | 0x08 => unused [((fC w).extractLsb' 1 4).toNat] (.amoSwap (fD w) (fA w) (fB w) ((fC w).extractLsb' 0 1) ((fFn w).extractLsb' 0 2))
  | 0x09 => unused [((fC w).extractLsb' 1 4).toNat] (.amoCas (fD w) (fA w) (fB w) ((fC w).extractLsb' 0 1) ((fFn w).extractLsb' 0 2))
  | 0x0A => unused [((fC w).extractLsb' 1 4).toNat] (.amoFaddF32 (fD w) (fA w) (fB w) ((fC w).extractLsb' 0 1) ((fFn w).extractLsb' 0 2))
  | 0x0B => unused [((fC w).extractLsb' 1 4).toNat] (.amoFaddF64 (fD w) (fA w) (fB w) ((fC w).extractLsb' 0 1) ((fFn w).extractLsb' 0 2))
  | _ => .error .noOperation

/-- Major opcode 0x2B: fn bit 5 selects AXMM or AXGANG, bits 4:0 the pair (R254, R268). -/
def decodeMaj2B (w : W32) : Except DecodeError Instr :=
  match ((fFn w).extractLsb' 5 1).toNat with
  | 0x00 => unused [(fA w).toNat, (fB w).toNat] (.axmm (fD w) (fC w) ((fFn w).extractLsb' 0 5))
  | _ => unused [(fA w).toNat, (fB w).toNat] (.axgang (fD w) (fC w) ((fFn w).extractLsb' 0 5))

/-- Major opcode 0x32: imm bits 15:14 the operation, 13:12 zero, 11:0 the CSR number (R78, R141). -/
def decodeMaj32 (w : W32) : Except DecodeError Instr :=
  match ((fImm w).extractLsb' 14 2).toNat with
  | 0x00 => unused [((fImm w).extractLsb' 12 2).toNat, (fA w).toNat] (.csrr (fD w) ((fImm w).extractLsb' 0 12))
  | 0x01 => unused [((fImm w).extractLsb' 12 2).toNat] (.csrs (fD w) (fA w) ((fImm w).extractLsb' 0 12))
  | 0x02 => unused [((fImm w).extractLsb' 12 2).toNat] (.csrc (fD w) (fA w) ((fImm w).extractLsb' 0 12))
  | _ => unused [((fImm w).extractLsb' 12 2).toNat, (fD w).toNat] (.csrw (fA w) ((fImm w).extractLsb' 0 12))

/-- The instruction that the fields of a word spell, before the checks of its fields' values (R80, R81). -/
def decodeRaw (w : W32) : Except DecodeError Instr :=
  match (fMaj w).toNat with
  | 0x00 => decodeMaj00 w
  | 0x01 => .ok (.addi (fD w) (fA w) (fImm w))
  | 0x02 => .ok (.andi (fD w) (fA w) (fImm w))
  | 0x03 => .ok (.ori (fD w) (fA w) (fImm w))
  | 0x04 => .ok (.xori (fD w) (fA w) (fImm w))
  | 0x05 => .ok (.slti (fD w) (fA w) (fImm w))
  | 0x06 => .ok (.sltiu (fD w) (fA w) (fImm w))
  | 0x07 => decodeMaj07 w
  | 0x08 => .ok (.lui (fD w) (fImm21 w))
  | 0x09 => .ok (.aupc (fD w) (fImm21 w))
  | 0x0A => decodeMaj0A w
  | 0x0B => .ok (.beq (fD w) (fA w) (fImm w))
  | 0x0C => .ok (.bne (fD w) (fA w) (fImm w))
  | 0x0D => .ok (.blt (fD w) (fA w) (fImm w))
  | 0x0E => .ok (.bge (fD w) (fA w) (fImm w))
  | 0x0F => .ok (.bltu (fD w) (fA w) (fImm w))
  | 0x10 => .ok (.bgeu (fD w) (fA w) (fImm w))
  | 0x11 => .ok (.jal (fD w) (fImm21 w))
  | 0x12 => .ok (.jalr (fD w) (fA w) (fImm w))
  | 0x13 => .ok (.ldb (fD w) (fA w) (fImm w))
  | 0x14 => .ok (.ldbu (fD w) (fA w) (fImm w))
  | 0x15 => .ok (.ldh (fD w) (fA w) (fImm w))
  | 0x16 => .ok (.ldhu (fD w) (fA w) (fImm w))
  | 0x17 => .ok (.ldw (fD w) (fA w) (fImm w))
  | 0x18 => .ok (.ldwu (fD w) (fA w) (fImm w))
  | 0x19 => .ok (.ldd (fD w) (fA w) (fImm w))
  | 0x1A => .ok (.stb (fD w) (fA w) (fImm w))
  | 0x1B => .ok (.sth (fD w) (fA w) (fImm w))
  | 0x1C => .ok (.stw (fD w) (fA w) (fImm w))
  | 0x1D => .ok (.std (fD w) (fA w) (fImm w))
  | 0x1E => .ok (.ldf (fD w) (fA w) (fTy w) (fOff w))
  | 0x1F => .ok (.stf (fD w) (fA w) (fTy w) (fOff w))
  | 0x20 => decodeMaj20 w
  | 0x21 => decodeMaj21 w
  | 0x22 => decodeMaj22 w
  | 0x23 => decodeMaj23 w
  | 0x24 => decodeMaj24 w
  | 0x25 => decodeMaj25 w
  | 0x26 => decodeMaj26 w
  | 0x27 => decodeMaj27 w
  | 0x28 => decodeMaj28 w
  | 0x29 => decodeMaj29 w
  | 0x2A => decodeMaj2A w
  | 0x2B => decodeMaj2B w
  | 0x2C => decodeMaj2C w
  | 0x2D => decodeMaj2D w
  | 0x2E => decodeMaj2E w
  | 0x2F => decodeMaj2F w
  | 0x30 => decodeMaj30 w
  | 0x31 => decodeMaj31 w
  | 0x32 => decodeMaj32 w
  | 0x33 => decodeMaj33 w
  | 0x38 => decodeMaj38 w
  | 0x39 => decodeMaj39 w
  | 0x3A => decodeMaj3A w
  | _ => .error .reservedMajor

/-- R81: the instruction that a word stands for, or why the word is illegal. -/
def decode (w : W32) : Except DecodeError Instr :=
  match decodeRaw w with
  | .error e => .error e
  | .ok i =>
    match i.illFormed with
    | none => .ok i
    | some e => .error e

/-- R3: the little-endian value of four bytes, the first at the lowest address. -/
def wordOfBytes (b0 b1 b2 b3 : Byte) : W32 := b3 ++ b2 ++ b1 ++ b0

/-- Decoding from bytes, the first at the lowest address; the rest of the list follows the instruction. Fewer than
four bytes hold no instruction word. -/
def decodeBytes : List Byte → Option (Except DecodeError Instr × List Byte)
  | b0 :: b1 :: b2 :: b3 :: rest => some (decode (wordOfBytes b0 b1 b2 b3), rest)
  | _ => none

/-- The four bytes of a word, in memory order (R3). -/
def bytesOfWord (w : W32) : List Byte :=
  [w.extractLsb' 0 8, w.extractLsb' 8 8, w.extractLsb' 16 8, w.extractLsb' 24 8]

/-- The instruction that the decoder reads from the row's word (every instruction is one word, so `nbits` is 32). -/
def decodeTableWord (nbits w : Nat) : Option Instr :=
  if nbits = 32 then
    match decodeBytes (bytesOfWord (BitVec.ofNat 32 w)) with
    | some (.ok i, _) => some i
    | _ => none
  else none

/-- R and X forms (R77). -/
def packX (maj : BitVec 6) (d a b c : R5) (fn : BitVec 6) : W32 := maj ++ d ++ a ++ b ++ c ++ fn
/-- I, S and B forms (R77). -/
def packI (maj : BitVec 6) (d a : R5) (imm : BitVec 16) : W32 := maj ++ d ++ a ++ imm
/-- J and U forms (R77). -/
def packJ (maj : BitVec 6) (d : R5) (imm : BitVec 21) : W32 := maj ++ d ++ imm
/-- Typed forms (R77). -/
def packT (maj : BitVec 6) (d a : R5) (t : BitVec 4) (o : BitVec 12) : W32 := maj ++ d ++ a ++ t ++ o

/-- The word of an instruction, from the encoding tables; an event has none. -/
def encode : Instr → Option W32
  | .add d a b => some (packX 0x00 d a b 0 0x01)
  | .sub d a b => some (packX 0x00 d a b 0 0x02)
  | .and d a b => some (packX 0x00 d a b 0 0x03)
  | .or d a b => some (packX 0x00 d a b 0 0x04)
  | .xor d a b => some (packX 0x00 d a b 0 0x05)
  | .andn d a b => some (packX 0x00 d a b 0 0x06)
  | .sll d a b => some (packX 0x00 d a b 0 0x07)
  | .srl d a b => some (packX 0x00 d a b 0 0x08)
  | .sra d a b => some (packX 0x00 d a b 0 0x09)
  | .ror d a b => some (packX 0x00 d a b 0 0x0A)
  | .slt d a b => some (packX 0x00 d a b 0 0x0B)
  | .sltu d a b => some (packX 0x00 d a b 0 0x0C)
  | .min d a b => some (packX 0x00 d a b 0 0x0D)
  | .max d a b => some (packX 0x00 d a b 0 0x0E)
  | .minu d a b => some (packX 0x00 d a b 0 0x0F)
  | .maxu d a b => some (packX 0x00 d a b 0 0x10)
  | .addw d a b => some (packX 0x00 d a b 0 0x11)
  | .subw d a b => some (packX 0x00 d a b 0 0x12)
  | .clz d a => some (packX 0x00 d a 0 0 0x14)
  | .ctz d a => some (packX 0x00 d a 0 0 0x15)
  | .popc d a => some (packX 0x00 d a 0 0 0x16)
  | .sextb d a => some (packX 0x00 d a 0 0 0x17)
  | .sexth d a => some (packX 0x00 d a 0 0 0x18)
  | .sextw d a => some (packX 0x00 d a 0 0 0x19)
  | .bswap d a => some (packX 0x00 d a 0 0 0x1A)
  | .addSat d a b => some (packX 0x00 d a b 0 0x1B)
  | .subSat d a b => some (packX 0x00 d a b 0 0x1C)
  | .adduSat d a b => some (packX 0x00 d a b 0 0x1D)
  | .subuSat d a b => some (packX 0x00 d a b 0 0x1E)
  | .addi d a i => some (packI 0x01 d a i)
  | .andi d a i => some (packI 0x02 d a i)
  | .ori d a i => some (packI 0x03 d a i)
  | .xori d a i => some (packI 0x04 d a i)
  | .slti d a i => some (packI 0x05 d a i)
  | .sltiu d a i => some (packI 0x06 d a i)
  | .slli d a s => some (packI 0x07 d a (0#8 ++ 0#2 ++ s))
  | .srli d a s => some (packI 0x07 d a (0#8 ++ 1#2 ++ s))
  | .srai d a s => some (packI 0x07 d a (0#8 ++ 2#2 ++ s))
  | .rori d a s => some (packI 0x07 d a (0#8 ++ 3#2 ++ s))
  | .lui d i => some (packJ 0x08 d i)
  | .aupc d i => some (packJ 0x09 d i)
  | .mul d a b => some (packX 0x0A d a b 0 0x01)
  | .mulh d a b => some (packX 0x0A d a b 0 0x02)
  | .mulhu d a b => some (packX 0x0A d a b 0 0x03)
  | .mulhsu d a b => some (packX 0x0A d a b 0 0x04)
  | .div d a b => some (packX 0x0A d a b 0 0x05)
  | .divu d a b => some (packX 0x0A d a b 0 0x06)
  | .rem d a b => some (packX 0x0A d a b 0 0x07)
  | .remu d a b => some (packX 0x0A d a b 0 0x08)
  | .mulw d a b => some (packX 0x0A d a b 0 0x09)
  | .divw d a b => some (packX 0x0A d a b 0 0x0A)
  | .divuw d a b => some (packX 0x0A d a b 0 0x0B)
  | .remw d a b => some (packX 0x0A d a b 0 0x0C)
  | .remuw d a b => some (packX 0x0A d a b 0 0x0D)
  | .beq a b o => some (packI 0x0B a b o)
  | .bne a b o => some (packI 0x0C a b o)
  | .blt a b o => some (packI 0x0D a b o)
  | .bge a b o => some (packI 0x0E a b o)
  | .bltu a b o => some (packI 0x0F a b o)
  | .bgeu a b o => some (packI 0x10 a b o)
  | .jal d o => some (packJ 0x11 d o)
  | .jalr d a i => some (packI 0x12 d a i)
  | .ldb d a i => some (packI 0x13 d a i)
  | .ldbu d a i => some (packI 0x14 d a i)
  | .ldh d a i => some (packI 0x15 d a i)
  | .ldhu d a i => some (packI 0x16 d a i)
  | .ldw d a i => some (packI 0x17 d a i)
  | .ldwu d a i => some (packI 0x18 d a i)
  | .ldd d a i => some (packI 0x19 d a i)
  | .stb s a i => some (packI 0x1A s a i)
  | .sth s a i => some (packI 0x1B s a i)
  | .stw s a i => some (packI 0x1C s a i)
  | .std s a i => some (packI 0x1D s a i)
  | .ldf d a t o => some (packT 0x1E d a t o)
  | .stf s a t o => some (packT 0x1F s a t o)
  | .fadd d a b m t => some (packX 0x20 d a b (0#2 ++ m) (0#5 ++ t))
  | .fsub d a b m t => some (packX 0x20 d a b (0#2 ++ m) (1#5 ++ t))
  | .fmul d a b m t => some (packX 0x20 d a b (0#2 ++ m) (2#5 ++ t))
  | .fdiv d a b m t => some (packX 0x20 d a b (0#2 ++ m) (3#5 ++ t))
  | .fsqrt d a m t => some (packX 0x20 d a 0 (0#2 ++ m) (4#5 ++ t))
  | .fmin d a b m t => some (packX 0x20 d a b (0#2 ++ m) (5#5 ++ t))
  | .fmax d a b m t => some (packX 0x20 d a b (0#2 ++ m) (6#5 ++ t))
  | .fsgnj d a b m t => some (packX 0x20 d a b (0#2 ++ m) (7#5 ++ t))
  | .fsgnjn d a b m t => some (packX 0x20 d a b (0#2 ++ m) (8#5 ++ t))
  | .fsgnjx d a b m t => some (packX 0x20 d a b (0#2 ++ m) (9#5 ++ t))
  | .feq d a b m t => some (packX 0x20 d a b (0#2 ++ m) (10#5 ++ t))
  | .flt d a b m t => some (packX 0x20 d a b (0#2 ++ m) (11#5 ++ t))
  | .fle d a b m t => some (packX 0x20 d a b (0#2 ++ m) (12#5 ++ t))
  | .fclass d a m t => some (packX 0x20 d a 0 (0#2 ++ m) (13#5 ++ t))
  | .fcvtI64Fmt d a m t => some (packX 0x20 d a 0 (0#2 ++ m) (14#5 ++ t))
  | .fcvtI32Fmt d a m t => some (packX 0x20 d a 0 (0#2 ++ m) (15#5 ++ t))
  | .fcvtN32Fmt d a m t => some (packX 0x20 d a 0 (0#2 ++ m) (16#5 ++ t))
  | .fcvtFmtI64 d a m t => some (packX 0x20 d a 0 (0#2 ++ m) (17#5 ++ t))
  | .fcvtFmtI32 d a m t => some (packX 0x20 d a 0 (0#2 ++ m) (18#5 ++ t))
  | .fcvtFmtN32 d a m t => some (packX 0x20 d a 0 (0#2 ++ m) (19#5 ++ t))
  | .fcvtF32F64 d a m => some (packX 0x20 d a 0 (0#2 ++ m) (20#5 ++ 0#1))
  | .fcvtF64F32 d a m => some (packX 0x20 d a 0 (0#2 ++ m) (20#5 ++ 1#1))
  | .fmvfg d a m t => some (packX 0x20 d a 0 (0#2 ++ m) (21#5 ++ t))
  | .fmvgf d a m t => some (packX 0x20 d a 0 (0#2 ++ m) (22#5 ++ t))
  | .fmadd d a b c t m => some (packX 0x21 d a b c (t ++ 0#2 ++ m))
  | .fmsub d a b c t m => some (packX 0x21 d a b c (t ++ 1#2 ++ m))
  | .fnmadd d a b c t m => some (packX 0x21 d a b c (t ++ 2#2 ++ m))
  | .fnmsub d a b c t m => some (packX 0x21 d a b c (t ++ 3#2 ++ m))
  | .lds d a => some (packX 0x22 d a 0 0 0x01)
  | .ldse d a => some (packX 0x22 d a 0 0 0x02)
  | .stfl a b => some (packX 0x22 0 a b 0 0x03)
  | .fefill a b => some (packX 0x22 0 a b 0 0x04)
  | .feempty a b => some (packX 0x22 0 a b 0 0x05)
  | .fest d a => some (packX 0x22 d a 0 0 0x06)
  | .lda d a s => some (packX 0x22 d a 0 s 0x07)
  | .stl a b s => some (packX 0x22 0 a b s 0x08)
  | .amoAdd d a b q s => some (packX 0x23 d a b (0#4 ++ q) (0#4 ++ s))
  | .amoAnd d a b q s => some (packX 0x23 d a b (0#4 ++ q) (1#4 ++ s))
  | .amoOr d a b q s => some (packX 0x23 d a b (0#4 ++ q) (2#4 ++ s))
  | .amoXor d a b q s => some (packX 0x23 d a b (0#4 ++ q) (3#4 ++ s))
  | .amoMin d a b q s => some (packX 0x23 d a b (0#4 ++ q) (4#4 ++ s))
  | .amoMax d a b q s => some (packX 0x23 d a b (0#4 ++ q) (5#4 ++ s))
  | .amoMinu d a b q s => some (packX 0x23 d a b (0#4 ++ q) (6#4 ++ s))
  | .amoMaxu d a b q s => some (packX 0x23 d a b (0#4 ++ q) (7#4 ++ s))
  | .amoSwap d a b q s => some (packX 0x23 d a b (0#4 ++ q) (8#4 ++ s))
  | .amoCas d a b q s => some (packX 0x23 d a b (0#4 ++ q) (9#4 ++ s))
  | .amoFaddF32 d a b q s => some (packX 0x23 d a b (0#4 ++ q) (10#4 ++ s))
  | .amoFaddF64 d a b q s => some (packX 0x23 d a b (0#4 ++ q) (11#4 ++ s))
  | .fence x y z s => some (packX 0x24 x y z s 0x01)
  | .fenceAcq x y z s => some (packX 0x24 x y z s 0x02)
  | .fenceRel x y z s => some (packX 0x24 x y z s 0x03)
  | .barrive d a => some (packX 0x25 d a 0 0 0x01)
  | .bwait a => some (packX 0x25 0 a 0 0 0x02)
  | .barw d a => some (packX 0x25 d a 0 0 0x03)
  | .gbar => some (packX 0x25 0 0 0 0 0x04)
  | .bmake d a => some (packX 0x25 d a 0 0 0x05)
  | .bfree d a => some (packX 0x25 d a 0 0 0x06)
  | .put a b c => some (packX 0x26 0 a b c 0x01)
  | .get a b c => some (packX 0x26 0 a b c 0x02)
  | .putm a b c => some (packX 0x26 0 a b c 0x03)
  | .getd b c => some (packX 0x26 0 0 b c 0x04)
  | .cwait a b => some (packX 0x26 0 a b 0 0x05)
  | .cread d a => some (packX 0x26 d a 0 0 0x06)
  | .cadd a b => some (packX 0x26 0 a b 0 0x07)
  | .rinit k a b => some (packX 0x27 k a b 0 0x01)
  | .rwf d k b => some (packX 0x27 d k b 0 0x02)
  | .rwe d k b => some (packX 0x27 d k b 0 0x03)
  | .rpub k b => some (packX 0x27 0 k b 0 0x04)
  | .rcon k b => some (packX 0x27 0 k b 0 0x05)
  | .dep a b => some (packX 0x28 0 a b 0 0x01)
  | .depx a b => some (packX 0x28 0 a b 0 0x02)
  | .sns4 d a b => some (packX 0x28 d a b 0 0x03)
  | .sns8 d a b => some (packX 0x28 d a b 0 0x04)
  | .snsl d a => some (packX 0x28 d a 0 0 0x05)
  | .mrd d a s => some (packX 0x28 d a 0 s 0x06)
  | .tknum d s => some (packX 0x28 d 0 0 s 0x07)
  | .tkwait a => some (packX 0x28 0 a 0 0 0x08)
  | .axsetv v a => some (packX 0x29 v a 0 0 0x01)
  | .axsets s a b => some (packX 0x29 s a b 0 0x02)
  | .axget d a => some (packX 0x29 d a 0 0 0x03)
  | .axtt a b => some (packX 0x29 0 a b 0 0x04)
  | .axeAdd d a b f => some (packX 0x2A d a b f 0x01)
  | .axeSub d a b f => some (packX 0x2A d a b f 0x02)
  | .axeAddSat d a b f => some (packX 0x2A d a b f 0x03)
  | .axeSubSat d a b f => some (packX 0x2A d a b f 0x04)
  | .axeMin d a b f => some (packX 0x2A d a b f 0x05)
  | .axeMax d a b f => some (packX 0x2A d a b f 0x06)
  | .axeMul d a b f => some (packX 0x2A d a b f 0x07)
  | .axeFma d a b => some (packX 0x2A d a b 0x09 0x08)
  | .axeCmpeq d a b f => some (packX 0x2A d a b f 0x09)
  | .axeCmplt d a b f => some (packX 0x2A d a b f 0x0A)
  | .axeCvt d a f => some (packX 0x2A d a 0 f 0x0B)
  | .axeAnd d a b => some (packX 0x2A d a b 0 0x10)
  | .axeOr d a b => some (packX 0x2A d a b 0 0x11)
  | .axeXor d a b => some (packX 0x2A d a b 0 0x12)
  | .axeNot d a => some (packX 0x2A d a 0 0 0x13)
  | .axeMov d a => some (packX 0x2A d a 0 0 0x14)
  | .axeSel d a b => some (packX 0x2A d a b 0 0x15)
  | .axeShl d a s => some (packX 0x2A d a s 0 0x16)
  | .axeShr d a s => some (packX 0x2A d a s 0 0x17)
  | .axeSra d a s => some (packX 0x2A d a s 0 0x18)
  | .axmm s f p => some (packX 0x2B s 0 0 f (0#1 ++ p))
  | .axgang s f p => some (packX 0x2B s 0 0 f (1#1 ++ p))
  | .axmatch t a b v => some (packX 0x2C t a b v 0x01)
  | .axfirst d t => some (packX 0x2C d t 0 0 0x02)
  | .axcount d t => some (packX 0x2C d t 0 0 0x03)
  | .axmin d v t f => some (packX 0x2C d v t f 0x04)
  | .axmax d v t f => some (packX 0x2C d v t f 0x05)
  | .axsum d v b f => some (packX 0x2C d v b f 0x06)
  | .axtag t a o => some (packX 0x2C t a o 0 0x07)
  | .axld v a b => some (packX 0x2D v a b 0 0x01)
  | .axldf v a b f => some (packX 0x2D v a b f 0x02)
  | .axldg v a b f => some (packX 0x2D v a b f 0x03)
  | .axst v a b => some (packX 0x2D v a b 0 0x04)
  | .axlive a b n => some (packX 0x2D 0 a b n 0x05)
  | .axwait a => some (packX 0x2D 0 a 0 0 0x06)
  | .axpass a => some (packX 0x2D 0 a 0 0 0x07)
  | .bkload a b => some (packX 0x2E 0 a b 0 0x01)
  | .bkrun a b => some (packX 0x2E 0 a b 0 0x02)
  | .bkcopy a b c => some (packX 0x2E 0 a b c 0x03)
  | .bkfence => some (packX 0x2E 0 0 0 0 0x04)
  | .bkerr d a => some (packX 0x2E d a 0 0 0x05)
  | .bkmeta d a b c => some (packX 0x2E d a b c 0x06)
  | .maddF32 a b => some (packX 0x2F 0 a b 0 0x01)
  | .maddI32 a b => some (packX 0x2F 0 a b 0 0x02)
  | .maddV4 a b c => some (packX 0x2F 0 a b c 0x03)
  | .mfence => some (packX 0x2F 0 0 0 0 0x04)
  | .tspawn d a b => some (packX 0x30 d a b 0 0x01)
  | .texit a => some (packX 0x30 0 a 0 0 0x02)
  | .targ d a => some (packX 0x30 d a 0 0 0x03)
  | .tyield a => some (packX 0x30 0 a 0 0 0x04)
  | .ecall d a b c => some (packX 0x31 d a b c 0x01)
  | .ebreak d a b c => some (packX 0x31 d a b c 0x02)
  | .tret => some (packX 0x31 0 0 0 0 0x03)
  | .wfi => some (packX 0x31 0 0 0 0 0x04)
  | .icinv => some (packX 0x31 0 0 0 0 0x05)
  | .csrr d c => some (packI 0x32 d 0 (0#2 ++ 0#2 ++ c))
  | .csrs d a c => some (packI 0x32 d a (1#2 ++ 0#2 ++ c))
  | .csrc d a c => some (packI 0x32 d a (2#2 ++ 0#2 ++ c))
  | .csrw a c => some (packI 0x32 0 a (3#2 ++ 0#2 ++ c))
  | .tlbinv a b m => some (packX 0x33 0 a b m 0x01)
  | .asidset d a => some (packX 0x33 d a 0 0 0x02)
  | .protset a n => some (packX 0x33 0 a 0 n 0x03)
  | .stopat d a b => some (packX 0x33 d a b 0 0x04)
  | .cld d a => some (packX 0x38 d a 0 0 0x01)
  | .cst d a => some (packX 0x38 d a 0 0 0x02)
  | .cstM d a b => some (packX 0x38 d a b 0 0x03)
  | .cldm d a b c => some (packX 0x38 d a b c 0x04)
  | .laneAdd d a b f => some (packX 0x39 d a b f 0x01)
  | .laneSub d a b f => some (packX 0x39 d a b f 0x02)
  | .laneMul d a b f => some (packX 0x39 d a b f 0x03)
  | .laneFma d a b f => some (packX 0x39 d a b f 0x04)
  | .laneMin d a b f => some (packX 0x39 d a b f 0x05)
  | .laneMax d a b f => some (packX 0x39 d a b f 0x06)
  | .rsum d a f => some (packX 0x39 d a 0 f 0x07)
  | .splat d a f => some (packX 0x39 d a 0 f 0x08)
  | .laneAnd d a b => some (packX 0x39 d a b 0 0x10)
  | .laneOr d a b => some (packX 0x39 d a b 0 0x11)
  | .laneXor d a b => some (packX 0x39 d a b 0 0x12)
  | .laneMov d a => some (packX 0x39 d a 0 0 0x13)
  | .lget d a w => some (packX 0x39 d a w 0 0x14)
  | .lput d a w => some (packX 0x39 d a w 0 0x15)
  | .lld d a => some (packX 0x39 d a 0 0 0x16)
  | .lst d a => some (packX 0x39 d a 0 0 0x17)
  | .bdone a => some (packX 0x3A 0 a 0 0 0x01)
  | .bsig a => some (packX 0x3A 0 a 0 0 0x02)
  | .takeInterrupt _ => none
  | .takeAsyncException _ => none
  | .timerMatch _ => none
  | .instructionFetchFill _ => none
  | .chunkCommit _ => none
  | .soloGrant _ => none
  | .remoteAccessArrival _ => none
  | .syncEngineAtomic _ => none
  | .syncEngineBarrier _ => none
  | .remoteLoadReply _ => none
  | .remoteAtomicReply _ => none
  | .syncReply _ => none
  | .remoteAck _ => none
  | .remoteRejection _ => none
  | .bwaitWake _ => none
  | .gbarComplete _ => none
  | .ldsWake _ => none
  | .cwaitWake _ => none
  | .rwfWake _ => none
  | .rweWake _ => none
  | .tkwaitWake _ => none
  | .fenceWaitEnd _ => none
  | .bkfenceWaitEnd _ => none
  | .mfenceWaitEnd _ => none
  | .tlbinvAck _ => none
  | .stopAnnounced _ => none
  | .tspawnAck _ => none
  | .tyieldEnd _ => none
  | .wfiWake _ => none
  | .axwaitEnd _ => none
  | .arrayInstrExecute _ => none
  | .arrayResultWrite _ => none
  | .axmmRow _ => none
  | .gangOpJoin _ => none
  | .axgangRow _ => none
  | .putgetSegment _ _ => none
  | .partTranslate _ _ => none
  | .faultRecordWrite _ _ => none
  | .putgetComplete _ _ => none
  | .putgetFail _ _ => none
  | .putmSlotClaim _ _ _ => none
  | .bkloadComplete _ => none
  | .overlayStart _ => none
  | .overlayEnd _ => none
  | .bkcopyColumn _ => none
  | .bkcopyComplete _ => none
  | .bkmetaComplete _ => none
  | .streamSlotGrant _ => none
  | .streamSlotIdleRelease _ => none
  | .maddAccept _ _ => none
  | .maddApply _ _ => none
  | .hotRowWindow _ => none
  | .hotRowAdmit _ _ => none
  | .markOpArrival _ => none
  | .markOpApply _ _ => none
  | .tick _ => none
  | .markConfigEffect _ _ => none
  | .msizeWrite _ _ => none
  | .fresumeRetry _ _ => none
  | .fresumeFail _ _ => none
  | .fresumeExhaust _ _ => none
  | .registerWrite _ _ => none
  | .qtailWrite _ _ _ => none
  | .qcfgWrite _ _ _ => none
  | .evcfgWrite _ _ => none
  | .ptcfgWrite _ _ => none
  | .launchRead _ _ => none
  | .taskEnqueue _ _ => none
  | .versionFill _ => none
  | .taskEligible _ => none
  | .dispatchOpportunity _ => none
  | .evictGang _ => none
  | .taskComplete _ => none
  | .eventRecordWrite _ => none
  | .eventInterruptTimeout _ => none
  | .versionInstall _ => none
  | .hangExpiry _ => none
  | .zugzwangStop _ => none
  | .flushToken _ _ => none
  | .routerFlush _ _ => none
  | .stopComplete _ => none
  | .partitionResume _ => none
  | .recallLentClusters _ _ => none
  | .lendCluster _ _ => none
  | .assignCluster _ _ => none
  | .withdrawPartition _ => none
  | .migrateOwner _ => none
  | .field _ => none
  | .ticks _ => none
  | .snapshot _ => none
  | .cap _ => none
  | .mailboxUnknown _ => none
  | .hostMemAccess _ _ _ => none
  | .spdmRequest _ => none
  | .firmwareImage _ _ => none
  | .firmwareHealthy => none
  | .firmwareHealthTimeout => none
  | .linkOpReceive _ _ _ _ => none
  | .linkPortDown _ => none
  | .linkRouteTimeout _ => none
  | .governorEval _ => none
  | .operatingPointStep _ => none
  | .voltageSettled _ => none
  | .voltageFloorChange _ _ => none
  | .powerThrottle _ => none
  | .thermalReset => none
  | .moduleReset => none
  | .lastingFault _ => none
  | .isolateFault _ => none
  | .gradeChange _ _ _ => none
  | .illegalInstruction _ => none
  | .eventAcknowledgement _ => none
  | .softError _ => none
  | .markReply _ => none
  | .linkPortUp _ => none
  | .powerLimitCleared => none

end Sys2Proof
end

