-- ==== Sys2Proof/Config.lean ====
section
/-!
DEFINITION. What the spec fixes once for the device (sizes, bases, the table of operating points) and the values that
the spec leaves open. An open value is an opaque constant without a body: no proof can see what it is, so a claim holds
whatever it is (log entries 1 and 2).
-/

namespace Sys2Proof

/-- How the moves of engines that the spec lets go in more than one way take place, until it is chosen anew (R202, R248, R294,
R331, R381; log entries 11 and 53). `pick`: what a move of a transfer does: 0 writes what the entry has left to write, if anything, and
else moves the whole next segment; 1 moves it and leaves what it writes; 2i + 2 reads ahead what holds byte i after the position; 2i + 3
writes the i-th word or column that is left. `old`: columns that it meets as they were before a write that the entry may precede.
`later`: a row of AXMM or AXGANG publishes its C slot in a move of its own. -/
structure Choice where
  pick : Nat := 0
  old : List Nat := []
  later : Bool := false
  deriving DecidableEq, Repr, Inhabited

/-- What moves next. The order in which the agents of the device move is an input of the machine (R383): plain data in
`State.agenda`, and a free value when the agenda is empty. -/
inductive Move where
  /-- `dt` cycles of the global time base pass (R1, R149). -/
  | time (dt : Nat)
  /-- The hart of a context issues (R29). -/
  | hart (cid : Nat)
  /-- The bank arithmetic unit of a bank issues (R282). -/
  | bau (gcn : Nat)
  /-- The energy meter of a cluster counts microjoules (R25). -/
  | energy (pcn uj : Nat)
  /-- An event of the opcode table takes place. -/
  | event (i : Instr)
  /-- How moves of engines take place from now on. -/
  | choose (x : Choice)
  deriving DecidableEq, Repr, Inhabited

namespace Config

/-- Free value: the move made when the agenda is empty, by the count of such moves (R383; log entry 1). -/
opaque freeMove : Nat → Move
/-- Free value: a number the spec leaves open, by the count of numbers drawn (log entry 2). -/
opaque freeNat : Nat → Nat
/-- Free value: which outcome damage beyond a grade's guarantee meets, by bank, column and the bits damaged: remainder
modulo 3, 0 uncorrectable, 1 miscorrected, 2 passed as clean (R68). -/
opaque damageOutcome : Nat → Nat → List Nat → Nat
/-- Free value: the XTS cipher of a key identifier on a 16-byte block, by key identifier, bank, column and block of the
column, which are the tweak. All that is known of it is that distinct blocks encipher to distinct blocks, so that a block
deciphers to one value under a key, and an altered block to another value than the one written (R65, R68; log entry 51). -/
opaque cipher : Nat → Nat → Nat → Nat → Equiv.Perm (BitVec 128)
/-- Free value: the stored bits that a miscorrection changes, by bank, column and the bits damaged: of them those of at most
two bytes in grade S, one in a half of grade D (R68). -/
opaque miscorrection : Nat → Nat → List Nat → List Nat
/-- Free value: the syndrome that a grade S or D check records, by bank, column and the bits damaged (R287). -/
opaque syndrome : Nat → Nat → List Nat → BitVec 32
/-- Free value: a signature made with a key that the spec does not give the model: the ECDSA values of R367 and R374, by a
tag and the bytes covered. -/
opaque signature : Nat → List (BitVec 8) → List (BitVec 8)
/-- Free value: whether the vendor signature of a firmware image verifies (R373). -/
opaque signatureValid : List (BitVec 8) → Bool

/-- Free value: physical base of a frame of an owner's rename pool, by virtual function and index (R319). -/
opaque poolFrame : Nat → Nat → Nat

/-- R1: compute dies. -/
def dies : Nat := 8
/-- R1: clusters of a package. -/
def clusters : Nat := 16384
/-- R1: cores, and so banks, of a package. -/
def cores : Nat := 131072
/-- R1, R358: virtual functions. -/
def vfs : Nat := 64
/-- R51: bytes of a scratchpad. -/
def padBytes : Nat := 0x8000
/-- R51: first local address of shared memory. -/
def sharedBase : Nat := 0x40000
/-- R51: first local address past shared memory. -/
def sharedEnd : Nat := 0x80000
/-- R51: first local address of mark space. -/
def markBase : Nat := 0x100000
/-- R332: first bank offset of the save area. -/
def saveBase : Nat := 0x780000
/-- R63: bytes of a bank. -/
def bankBytes : Nat := 0x800000
/-- R63: first physical address of host memory. -/
def hostBase : Nat := 0x800000000000
/-- Model: first memory key of cluster SRAM; cluster q's window of R57 lies at `sramBase + q × 2^21`. No physical
address of R63 reaches it. -/
def sramBase : Nat := 0x1000000000000
/-- R178, R246, R290: entries of the put/get, array and bank command queues. -/
def queueLen : Nat := 16
/-- R199: instructions of a chunk. -/
def chunkInstrs : Nat := 256
/-- R199: distinct 8-byte words of a chunk's write set. -/
def chunkWrites : Nat := 64
/-- R199: distinct 8-byte words of a chunk's read set. -/
def chunkReads : Nat := 256
/-- R375: clock of an operating point in tenths of a GHz. -/
def clock (p : Nat) : Nat := if p = 0 then 33 else if p = 1 then 29 else if p = 2 then 25 else if p = 3 then 21 else if p = 4 then 16 else 11
/-- R375: voltage of an operating point in millivolts. -/
def millivolts (p : Nat) : Nat := 850 - 50 * min p 5
/-- R68: the poison that an uncorrectable column delivers in every 16-bit element (R286). -/
def h16Poison : BitVec 16 := 0x7E5A

end Config
end Sys2Proof
end

