-- ==== Sys2Proof/Machine/State.lean ====
section
/-!
DEFINITION. The state of the device as plain data, the reasons why a step can stop, and the state after reset.
One core's own state is a context (R10, R19): it may be resident on a core or saved. Tables are sparse: an unlisted key
holds the default of its type, which is the value after reset.
-/

namespace Sys2Proof.Machine

/-- Why the machine stops with a fault. -/
inductive Fault where
  /-- Raised by HOST_MEM_ACCESS for a host address beyond 2^47, which no physical address of the device names (R63); safe: the
  spec gives no effect there. -/
  | noHostAddress
  deriving DecidableEq, Repr

/-- Why the model gives no meaning. -/
inductive Refusal where
  /-- Raised by an arm of `exec` whose instruction has no meaning yet; safe. -/
  | notModelled (mnemonic : String)
  deriving DecidableEq, Repr

/-- Privilege levels, U < S < M (R95). -/
inductive Priv where
  | u | s | m
  deriving DecidableEq, Repr, Inhabited

/-- Whose instruction `exec` runs: a model field, set by the step. -/
inductive Agent where
  | hart (cid : Nat)
  | bau (gcn : Nat)
  deriving DecidableEq, Repr

/-- All memory: pairs of a key and a byte, keys rising, no entry equal to 0, what an unlisted key reads as (log
entry 3). Keys: device DRAM and host memory by physical address bits 47:0 (R63), cluster SRAM from `Config.sramBase`. -/
abbrev Memory := List Host.Cell

/-- An f register: 64 bits and the format bit K (R40). -/
structure FReg where
  bits : W64 := 0
  k : Bool := false
  deriving DecidableEq, Repr, Inhabited

/-- The registers that a squash restores (R201): PC, g, f, FSTAT. -/
structure Regs where
  pc : W64 := 0
  g : Tbl W64 := []
  f : Tbl FReg := []
  fstat : W64 := 0x40
  deriving DecidableEq, Repr, Inhabited

/-- The trap registers of one level (R145 to R147). -/
structure TrapRegs where
  tstat : W64 := 0
  tpc : W64 := 0
  tcause : W64 := 0
  tvalue : W64 := 0
  tvec : W64 := 0
  tscratch : W64 := 0
  deriving DecidableEq, Repr, Inhabited

/-- Hart control and status registers (R144, R148, R149, R152, R71, R53). -/
structure Csrs where
  imask : W64 := 0
  timer : Bool := false
  soft : Bool := false
  event : Bool := false
  /-- Codes of EVENT interrupts not yet taken, oldest first (R131, R351). -/
  eventCodes : List W64 := []
  tcmp : W64 := 0xFFFFFFFFFFFFFFFF
  asid : BitVec 16 := 0
  mdeleg : W64 := 0
  dpat : W64 := 0
  pw : Tbl W64 := []
  cycle : W64 := 0
  retired : W64 := 0
  deriving DecidableEq, Repr, Inhabited

/-- A ring handle (R185). HEAD and TAIL count modulo 2^32. -/
structure Ring where
  valid : Bool := false
  base : Nat := 0
  slotb : Nat := 0
  nslot : Nat := 0
  feed : Bool := false
  head : Nat := 0
  tail : Nat := 0
  deriving DecidableEq, Repr, Inhabited

/-- A field register: the word of R239 with T, TN and TK, the recorded scale exponent and codebook. -/
structure FieldReg where
  word : W64 := 0
  sigma : Int := 0
  codebook : List (BitVec 16) := []
  deriving DecidableEq, Repr, Inhabited

/-- A shape record (R253). -/
structure Shape where
  w0 : W64 := 0
  w1 : W64 := 0
  deriving DecidableEq, Repr, Inhabited

/-- The engine registers of the array that instructions capture at issue (R246): v, s, PTAB, PSEL, LC, LB. -/
structure ArrayRegs where
  v : Tbl FieldReg := []
  s : Tbl Shape := []
  ptab : W64 := 0
  psel : W64 := 0
  lc : BitVec 128 := BitVec.allOnes 128
  lb : BitVec 2 := 0b11
  deriving DecidableEq, Repr, Inhabited

/-- A queued array instruction with the values captured at its issue (R246, R143). -/
structure AEntry where
  instr : Instr
  pc : W64
  ga : W64
  gb : W64
  sigma : Int
  regs : ArrayRegs
  pw : Tbl W64
  priv : Priv
  /-- The members have joined on the wired barrier (R257). -/
  joined : Bool := false
  /-- The next row of AXMM or AXGANG (R251, R255), and whether its C slot is written and not yet published (R248). -/
  row : Nat := 0
  rowDone : Bool := false
  deriving DecidableEq, Repr

/-- Kinds of put/get queue entries (R174, R308). -/
inductive XKind where
  | put | get | putm | getd | metaPut | metaGet | madd
  deriving DecidableEq, Repr, Inhabited

/-- A run of bytes of an entry whose translation is known: entry offset, length, page base, interleave, offset in the
page (R66, R72), the grade of the page, host memory or device DRAM in `base`. -/
structure Piece where
  off : Nat
  len : Nat
  base : Nat
  il : Nat
  poff : Nat
  gr : Nat
  deriving DecidableEq, Repr

/-- One destination of a PUTM entry (R182): whether its slot is published. -/
structure PutmDest where
  ring : Nat
  core : Nat
  done : Bool := false
  /-- A slot is claimed and not yet published; bytes written into it, and bytes of an aligned source word that a segment
  boundary splits, read and not yet written (R202, R331). -/
  claimed : Bool := false
  pos : Nat := 0
  hold : List Byte := []
  /-- When the entry reached the ring, as a number that rises with every arrival (R182). -/
  reached : Option Nat := none
  deriving DecidableEq, Repr

/-- What a segment still has to write (R56, R202, R294, R381): bytes of an aligned word at a local address of a context, or of an aligned
word or a column at a memory key. With `bit` the bytes are written and the word's full/empty bit is still to be set. Of a word or column
of device or host memory, `off` is the place in the entry's far end, and with `mdata` the bytes are the column's metadata. -/
structure LateWord where
  ctx : Option Nat
  addr : Nat
  bytes : List Byte
  bit : Bool := false
  off : Nat := 0
  mdata : Bool := false
  deriving DecidableEq, Repr, Inhabited

/-- A put/get queue entry (R178). -/
structure Entry where
  eid : Nat
  kind : XKind
  loc : W64 := 0
  far : W64 := 0
  len : Nat := 0
  lce : Bool := false
  lcnt : Nat := 0
  rce : Bool := false
  rcnt : Nat := 0
  asid : BitVec 16 := 0
  /-- GETD: DPAT copied at issue (R183). -/
  dpat : W64 := 0
  /-- PUTM: destinations not invalid (R181). -/
  dests : List PutmDest := []
  /-- MADD: the values added, F32 or I32 (R307). -/
  vals : List W32 := []
  int : Bool := false
  started : Bool := false
  /-- Bytes translated so far, and the pieces of the part that runs (R72). -/
  xlated : Nat := 0
  part : List Piece := []
  /-- Bytes moved so far (R331). -/
  pos : Nat := 0
  /-- The fault identifier under which the entry is suspended, and the one it had last (R350, R352). -/
  susp : Option Nat := none
  lastFid : Option Nat := none
  /-- MADD: accepted by the base die (R308). -/
  accepted : Bool := false
  /-- The core on which the issuing hart was resident (R310). -/
  core : Nat := 0
  /-- The GTB cycle of the last acquire of each scope that the issuing hart had completed when it issued (R208). -/
  acquired : Tbl Nat := []
  /-- Bytes of an aligned local word that a segment boundary splits, read and not yet written (R56, R202). -/
  hold : List Byte := []
  /-- Bytes of the source that have been read ahead, by their place in the source, and words of the target, of segments that have moved,
  that are still to be written (R202, R331, R381). -/
  early : Tbl Byte := []
  late : List LateWord := []
  /-- Packets to a peer device that carry the entry's data and are not acknowledged (R211). -/
  inFlight : List Nat := []
  /-- The far bump of an entry of length 0 has been sent to a peer device (R177). -/
  bumped : Bool := false
  /-- The address of the first byte not done of a failed entry (R180). -/
  failed : Option W64 := none
  deriving DecidableEq, Repr

/-- Bank commands (R290). -/
inductive BKind where
  | load (src : W64)
  | run (arg : W32)
  | copy (src dstBank dstOff len : Nat)
  | mdx (d : R5) (off : Nat) (v k : W64)
  deriving DecidableEq, Repr

/-- A bank command queue entry (R290, R291, R298). -/
structure BCmd where
  kind : BKind
  ce : Bool := false
  cnt : Nat := 0
  rce : Bool := false
  rcnt : Nat := 0
  started : Bool := false
  /-- BKCOPY: columns copied. -/
  pos : Nat := 0
  /-- Offset of the first uncorrectable column read (R292). -/
  psn : Option Nat := none
  /-- BKCOPY holds a stream slot of the source bank's stack (R289). -/
  slot : Bool := false
  deriving DecidableEq, Repr

/-- A pending bank poison (R292): TVALUE, and the counter that the poisoned command bumps with its value before. -/
structure Poison where
  tvalue : W64
  counter : Option (Nat × W64)
  /-- The counter that its BKCOPY bumps at the destination core, where that core is the owner's (R292, R298). -/
  second : Option (Nat × W64) := none
  deriving DecidableEq, Repr

/-- What a remote load writes when its reply arrives: a g register (size, signed) or an f register (format code). -/
inductive Dest where
  | g (d : R5) (s : Nat) (signed : Bool)
  | f (d : R5) (fmt : Nat)
  deriving DecidableEq, Repr

/-- The forms of a fence (R167). -/
inductive FenceKind where
  | full | acq | rel
  deriving DecidableEq, Repr, Inhabited

/-- What a hart waits for: blocking points with their saved wake conditions (R26), and stalls (R29). The hart's PC
stays at the waiting instruction until it completes. -/
inductive Wait where
  | none
  /-- Held for the acknowledgements that a release waits for; the instruction has not acted (R161, R384). -/
  | acks
  | lds (d : R5) (ea : Nat) (empties : Bool) (since : Nat)
  | remoteLoad (id : Nat) (dst : Dest)
  | bwait (h : W32)
  | gbar
  | rwf (d : R5) (k : Nat) (n : W64)
  | rwe (d : R5) (k : Nat) (n : W64)
  | cwait (n : Nat) (v : W64)
  | tkwait (v : W64)
  | fence (scope : Nat) (kind : FenceKind)
  | stl (ea v : W64) (scope : Nat)
  | bkfence
  | mfence
  | axwait (n : W64)
  | wfi
  | tyield (untilCycle : Nat)
  | tlbinv (mode va asid : Nat)
  | stopat (d : R5) (status : W64) (since : Nat)
  | tspawn (id : Nat) (d : R5)
  | remoteAtomic (id : Nat) (d : R5) (s : Nat)
  | sync (id : Nat) (d : R5) (thenWait : Bool)
  | mark (id : Nat) (d : R5) (write : Bool)
  | bkmeta
  deriving DecidableEq, Repr, Inhabited

/-- A remote store or posted atomic that is not yet acknowledged (R161, R167): packet, target, atomic. A target on a
peer device is numbered above every physical cluster. -/
structure Out where
  id : Nat
  target : Nat
  atomic : Bool := false
  deriving DecidableEq, Repr

/-- An open chunk (R199, R200): registers at its start, held stores (newest first), words read and written, count. -/
structure Chunk where
  start : Regs
  stores : List (Nat × Byte) := []
  reads : List Nat := []
  writes : List Nat := []
  count : Nat := 0
  /-- A limit of R199 ended the chunk; it waits for its commit. -/
  closed : Bool := false
  deriving DecidableEq, Repr

/-- A line of the instruction cache: one column of eight words (R55; log entry 9), with the page it came from. -/
structure Line where
  asid : Nat
  va : Nat
  words : List W32
  page : Nat
  pageSize : Nat
  deriving DecidableEq, Repr

/-- The image of a saved context (R333): scratchpad bytes and full/empty words, array columns of LC, tags. -/
structure Image where
  pad : Memory := []
  fe : List Nat := []
  rows : Tbl (BitVec 128) := []
  tags : Tbl (BitVec 2048) := []
  deriving DecidableEq, Repr, Inhabited

/-- Engine state of a context: array, rings, counters and queues (R10, R251). -/
structure Engines where
  arr : ArrayRegs := {}
  /-- File accumulators: bank × 64 + file (R243). -/
  acc : Tbl (BitVec 144) := []
  afpc : W64 := 0
  afrow : Nat := 0
  aq : List AEntry := []
  /-- Results of AXFIRST and AXCOUNT still to be written (R247). -/
  aresults : List (R5 × W64) := []
  /-- A posted array trap: cause code and TVALUE (R250). -/
  posted : Option (Nat × W64) := none
  rings : Tbl Ring := []
  cc : Tbl W64 := []
  q : List Entry := []
  bq : List BCmd := []
  poison : Option Poison := none
  /-- MADDs accepted by the base die and not yet applied, in issue order (R310). -/
  madds : List Entry := []
  deriving DecidableEq, Repr, Inhabited

/-- A hart's state (R10), a context of a task's member (R19). -/
structure Ctx where
  regs : Regs := {}
  priv : Priv := .u
  ts : TrapRegs := {}
  tm : TrapRegs := {}
  csr : Csrs := {}
  /-- An armed step, with the level that executed the TRET (R138). -/
  armed : Option Priv := none
  wait : Wait := .none
  halted : Bool := false
  exited : Option W32 := none
  eng : Engines := {}
  /-- Rejected addresses of posted stores and failed entries: pending REMOTE_STORE traps (R60, R180). -/
  pendStores : List W64 := []
  /-- A trap to take on resumption, before any instruction, precisely at PC (R230, R336). -/
  recorded : Option (Nat × W64) := none
  /-- Remote stores and posted atomics not yet acknowledged (R161, R167). -/
  outst : List Out := []
  /-- Posted atomics not yet acknowledged that are acquires: those with SC (R164), and those that a fence follows whose scope
  does not contain their target (R203). -/
  scAcq : List Nat := []
  /-- The GTB cycle of the last acquire of each scope that the hart has completed, and the scope of one that it has issued (R203). -/
  acquired : Tbl Nat := []
  acq : Option Nat := none
  chunk : Option Chunk := none
  solo : Bool := false
  /-- GTB cycle at which the hart asked for its solo grant (R30). -/
  soloSince : Nat := 0
  squashes : Nat := 0
  icache : List Line := []
  task : Option Nat := none
  member : Nat := 0
  part : Nat := 0
  vcn : Nat := 0
  /-- Global core number (R64): where the context is resident, or the core it belongs to. -/
  gcn : Nat := 0
  resident : Bool := false
  image : Option Image := none
  deriving DecidableEq, Repr, Inhabited

/-- A mark operation (R224, R225). -/
structure MarkOp where
  id : Nat
  cid : Nat
  gcn : Nat
  seq : Nat
  stamp : Nat
  /-- Cell index in the home cluster's mark space. -/
  cell : Nat
  /-- fn of R228: 1 DEP, 2 DEPX, 3 SNS4, 4 SNS8, 5 SNSL, 6 MRD. -/
  fn : Nat
  b : W64
  /-- The address was global and passes the receiver's export windows (R229). -/
  window : Bool
  deriving DecidableEq, Repr

/-- What a packet of the fabric carries. -/
inductive Body where
  | load (s : Nat)
  | store (bytes : List Byte)
  | atomic (op : Nat) (s : Nat) (y e : W64) (returns : Bool)
  | barrive (h : W32)
  | bmake (count : Nat)
  | bfree (h : W32)
  | mark (op : MarkOp)
  | loadReply (v : W64)
  | atomicReply (v : W64)
  | bump (core n eid : Nat)
  | tspawn (base : W64) (count : Nat) (asid : BitVec 16)
  | put (bytes : List Byte) (eid : Nat)
  | get (n : Nat) (eid : Nat)
  | syncReply (v : W64)
  | staleBarrier (h : W32)
  | ack
  | reject
  | markReply (v : W64)
  | markReject (code : Nat)
  deriving DecidableEq, Repr

/-- R203 to R205: a release that covers a write which has not reached every agent: its scope (R156), its GTB cycle, and the hart that
makes it, the writer or one that has met or acquired what covers the write. -/
structure Release where
  scope : Nat
  cycle : Nat
  hart : Nat
  deriving DecidableEq, Repr, Inhabited

/-- A packet in flight, in issue order (R113, R202). `dev` names a peer device on a linked cluster (R369). -/
structure Packet where
  id : Nat
  cid : Nat
  part : Nat
  /-- The issuer's or receiver's address of the access, for TVALUE. -/
  addr : W64
  /-- Target physical cluster and offset (R57); of an access through an aperture (R370) the offset in the aperture. -/
  pcn : Nat
  ofs : Nat
  dev : Option Nat := none
  seq : Nat := 0
  /-- Of a store or atomic: the later releases that cover it although its target lies outside their scope (R204). -/
  cover : List Release := []
  /-- The last GTB cycle at which it may still be in flight, of a reply to a mark operation (R31). -/
  due : Option Nat := none
  body : Body
  deriving DecidableEq, Repr

/-- A cached translation (R346): well-formed entry by ASID and page. -/
structure TlbEntry where
  asid : Nat
  va : Nat
  size : Nat
  pte : BitVec 128
  deriving DecidableEq, Repr

/-- An accepted change of a field register (R223). -/
structure MarkChange where
  n : Nat
  e : Nat
  v : W64
  deriving DecidableEq, Repr

/-- Power state of a cluster (R375 to R379). -/
structure Power where
  point : Nat := 0
  req : Nat := 0
  /-- A step in progress: the point it leads to, waiting for the regulator, and since when (R377). -/
  stepping : Option Nat := none
  stepSince : Nat := 0
  act : Nat := 0
  stl : Nat := 0
  floor : Nat := 0
  throttled : Bool := false
  deriving DecidableEq, Repr, Inhabited

/-- A cluster. -/
structure Cluster where
  part : Option Nat := none
  lent : Option Nat := none
  fenced : Bool := false
  msize : Nat := 0
  wpt : Tbl W64 := []
  xw : Tbl W64 := []
  /-- MFC0 to MFC7 before every change that `mfcLog` lists (R215). -/
  mfc : Tbl W64 := []
  /-- Every accepted change, by its effect cycle (R223, R225). -/
  mfcLog : List MarkChange := []
  /-- Accepted changes that have not taken their place in the field's order yet (R223). -/
  mfcNext : List MarkChange := []
  held : List MarkOp := []
  /-- Ticks that a field has not applied yet: field and GTB cycle (R225). -/
  ticks : List (Nat × Nat) := []
  tlb : List TlbEntry := []
  power : Power := {}
  energy : Nat := 0
  /-- Core cycles of each task since the meter's last count (R25). -/
  occupied : Tbl Nat := []
  /-- The core of this cluster whose entry the DMA engine served last (R331). -/
  dmaCore : Nat := 0
  /-- Times of corrected SRAM errors, newest first (R355). -/
  corrected : List Nat := []
  uncorrected : Bool := false
  /-- Since when its errors are a lasting fault (R355). -/
  lasting : Option Nat := none
  deriving DecidableEq, Repr, Inhabited

/-- A core: array contents (R237), the partition of its previous context (R16). Tag t is `tags t`, bit r for row r. -/
structure Core where
  rows : Tbl (BitVec 128) := []
  tags : Tbl (BitVec 2048) := []
  lastPart : Option Nat := none
  /-- The partition whose context last had the core's bank arithmetic unit (R281, R315). -/
  bauPart : Option Nat := none
  /-- The context that holds each of the two physical accumulator banks; one that is not resident has it as its shadow
  bank (R334). -/
  accBanks : Tbl (Option Nat) := []
  /-- The put/get entry of this core that the DMA engine served last (R331). -/
  dmaEntry : Nat := 0
  /-- Mark operations issued by this core (R224). -/
  markSeq : Nat := 0
  /-- EVENT codes raised while no hart is resident (R351). -/
  events : List W64 := []
  deriving DecidableEq, Repr, Inhabited

/-- A run of an overlay (R282, R284). -/
structure Run where
  cid : Nat
  /-- Rows accessed so far, held to the end of the run (R293). -/
  rows : List Nat := []
  psn : Option Nat := none
  /-- The end reached: END code, STATUS, PC (R284); OVERLAY_END writes it. -/
  ended : Option (Nat × Nat × Nat) := none
  deriving DecidableEq, Repr

/-- Who makes requests to banks (R330): a put/get entry or memory-side add, the instruction fetch of a context, its TSPAWN, its
bank commands, the BAU of a bank, the host, the dispatcher, the Arbiter, a peer device. -/
inductive Requester where
  | entry (eid : Nat)
  | fetch (cid : Nat)
  | spawn (cid : Nat)
  | bank (cid : Nat)
  | bau (gcn : Nat)
  | host
  | dispatcher
  | arbiter
  | link (dev : Nat)
  deriving DecidableEq, Repr, Inhabited

/-- What a column held before a bank command or a put of a context wrote it (R293, R294, R381): data, metadata, and whether a
command has replaced the data. Before a BKFENCE of the context (`fenced`) no put or get is ordered after a command's write; then
those of other harts are, as `cover` says (R204, R208). `met`: the clusters whose DMA engine has written the column so, or has met it as it
is since (R196). -/
structure Before where
  cid : Nat
  bytes : List Byte
  mdata : BitVec 28
  data : Bool
  fenced : Bool := false
  cover : List Release := []
  met : List Nat := []
  deriving DecidableEq, Repr, Inhabited

/-- A bank, its controller and its BAU (R281, R285, R287, R330). -/
structure Bank where
  g : Tbl W32 := []
  pc : Nat := 0
  lanes : Tbl (BitVec 256) := []
  lpoison : Tbl (BitVec 16) := []
  code : Tbl W32 := []
  data : Tbl Byte := []
  berr0 : W64 := 0
  berr1 : W64 := 0
  lstat : W64 := 0
  run : Option Run := none
  /-- Holds a stream slot of its stack (R289); the GTB cycle of its last column access. -/
  slot : Bool := false
  lastCol : Nat := 0
  /-- Grades by 1 KiB region (R285); unlisted S. -/
  grades : Tbl Nat := []
  /-- Metadata by column (R68). -/
  mdata : Tbl (BitVec 28) := []
  /-- Key identifier plus 1 under which a column was written (R65); unlisted: not written. -/
  keys : Tbl Nat := []
  /-- Damaged stored bits by column, 0 to 255 data and 256 to 287 side bits (R68). -/
  damage : Tbl (List Nat) := []
  /-- Columns that bank commands or puts have written and a put or get may still meet as they were (R381). -/
  before : Tbl Before := []
  /-- Retired 64 KiB frames (R356). -/
  retired : List Nat := []
  /-- Times of corrected errors, newest first (R355). -/
  corrected : List Nat := []
  /-- The bank's corrected errors have become lasting, and the rows whose uncorrectable errors have: since when (R355). -/
  lasting : Option Nat := none
  lastingRows : Tbl Nat := []
  /-- Uncorrectable events by row: columns counted and not rewritten since, and the count (R355). -/
  badCols : List Nat := []
  badRows : Tbl Nat := []
  /-- Columns of a row with counted events that have been written since, as a mask (R355). -/
  rewritten : Tbl Nat := []
  /-- Requests by row in the window, hot rows; parked requests and those that have been received and may be served (row,
  requester), the last admission of each row (R330). -/
  requests : Tbl Nat := []
  hot : List Nat := []
  parked : List (Nat × Requester) := []
  tickets : List (Nat × Requester) := []
  lastAdmit : Tbl Nat := []
  /-- The window that ended last (R330). -/
  window : Nat := 0
  deriving DecidableEq, Repr, Inhabited

/-- A barrier object, or a freed index with its LAST (R168). -/
structure Barrier where
  live : Bool := false
  count : Nat := 0
  arrived : Nat := 0
  gen : Nat := 0
  used : Bool := false
  die : Nat := 0
  deriving DecidableEq, Repr, Inhabited

/-- A suspended part (R350, R351). -/
structure Susp where
  fid : Nat
  cid : Nat
  eid : Nat
  kind : Nat
  off : Nat
  time : Nat
  /-- The record is written in the fault ring. -/
  written : Bool := false
  deriving DecidableEq, Repr

/-- A partition (R313). -/
structure Partition where
  live : Bool := false
  count : Nat := 0
  map : Tbl W64 := []
  key : Nat := 0
  barriers : Tbl Barrier := []
  tksb : Nat := 0
  tksn : Nat := 1
  tksi : Nat := 0
  /-- Number of the last tick taken (R220). -/
  taken : Nat := 0
  /-- START, FIRST and INTERVAL of earlier schedules, oldest first; each stands until the next one's START (R221). -/
  oldTk : List (Nat × Nat × Nat) := []
  ptcfg : W64 := 0
  fqcfg : W64 := 0
  fslot : Nat := 0
  susp : List Susp := []
  /-- GTB cycle of an announced stop (R154). -/
  stop : Option Nat := none
  stopped : Bool := false
  /-- T of the stop that took place last (R336). -/
  stoppedAt : Nat := 0
  complete : Bool := false
  resumeHeld : Bool := false
  /-- Dies that have sent the flush token and routers that have it (R337). -/
  flushed : List Nat := []
  routers : List Nat := []
  saved : List Packet := []
  /-- Shared memory of recalled clusters by VCN (R340). -/
  shared : Tbl Image := []
  dispatches : Nat := 0
  lastDispatch : Nat := 0
  pointer : Tbl Nat := []
  deficit : Tbl Nat := []
  aperture : Tbl W64 := []
  cap : Nat := 0
  /-- FRESUME writes not yet applied: ACT and FID (R352). -/
  fresume : List (Nat × Nat) := []
  /-- Recalls asked of this borrower and not complete: lender and GTB cycle of the request (R340). -/
  recalls : List (Nat × Nat) := []
  deriving DecidableEq, Repr, Inhabited

/-- A completion record that waits for the event ring (R327, R365): KIND, TAG, STATUS, the launch, the class of a
rejected launch, and the task whose dependence entry and cores it frees. -/
structure Rec where
  kind : Nat
  tag : W64 := 0
  status : W32 := 0
  launch : Option Nat := none
  cls : Nat := 0
  task : Option Nat := none
  deriving DecidableEq, Repr

/-- A virtual function's registers and the dispatcher's state of its owner (R316, R362 to R367, R372). -/
structure Owner where
  vfcfg : W64 := 0x0001000000000000
  rtptr : W64 := 0
  lasid : W64 := 0
  qcfg : Tbl W64 := []
  qtail : Tbl Nat := []
  qhead : Tbl Nat := []
  evbase : W64 := 0
  evcfg : W64 := 0x0004000000000000
  evhead : Nat := 0
  evtail : Nat := 0
  mbreq : Tbl W64 := []
  /-- Command codes started and not yet applied (R366). -/
  mbdoor : Option Nat := none
  mbstat : Nat := 0
  mbrsp : Tbl Byte := []
  ucyc : W64 := 0
  upass : W64 := 0
  udram : W64 := 0
  /-- UENERGY (R372), exact; the register shows the whole microjoules. -/
  uenergy : ℚ := 0
  /-- The launch being read of each class (R317). -/
  reading : Tbl (Option Nat) := []
  /-- Frames of the rename pool by index, and the indexes in use (R319); an unlisted frame is `Config.poolFrame`. -/
  pool : Tbl Nat := []
  used : List Nat := []
  recs : List Rec := []
  unsignalled : Nat := 0
  oldest : Nat := 0
  msix : List Nat := []
  migrating : Bool := false
  deriving DecidableEq, Repr, Inhabited

/-- A launch (R22, R25). -/
structure Launch where
  vf : Nat := 0
  cls : Nat := 0
  budget : Nat := 0
  /-- Microjoules charged, exact (R25). -/
  charged : ℚ := 0
  reached : Bool := false
  tasks : Nat := 0
  ntask : Nat := 0
  next : Nat := 0
  asid : Nat := 0
  deriving DecidableEq, Repr, Inhabited

/-- Where a task stands (R17, R317, R318, R323, R328); exited: every member has executed TEXIT. -/
inductive Phase where
  | waiting | eligible | placed | evicted | exited | ending | recorded | done
  deriving DecidableEq, Repr, Inhabited

/-- A task (R20, R327, R329). -/
structure Task where
  launch : Nat := 0
  phase : Phase := .waiting
  part : Nat := 0
  entry : W64 := 0
  arg : W64 := 0
  tag : W64 := 0
  asid : BitVec 16 := 0
  n : Nat := 0
  grp : Bool := false
  /-- Tiles of the declared read and write sets, as ranges (first tile, count) (R21). -/
  rd : List (Nat × Nat) := []
  wr : List (Nat × Nat) := []
  /-- Versions given to tiles of the write set, and read versions: tile, version (R321). -/
  own : List (Nat × Nat) := []
  reads : List (Nat × Nat) := []
  /-- In-flight tasks it waits for because a tile could not be renamed (R319). -/
  waits : List Nat := []
  enq : Nat := 0
  eligAt : Nat := 0
  vcn : Nat := 0
  members : List Nat := []
  residentAt : Nat := 0
  /-- A dispatcher status: KIND of R327 (R18). -/
  status : Option Nat := none
  flags : BitVec 6 := 0
  hang : Nat := 0
  /-- Microjoules of its share, exact (R25, R327). -/
  energy : ℚ := 0
  holdsSlot : Bool := false
  holdsDep : Bool := false
  deriving DecidableEq, Repr, Inhabited

/-- A version buffer of a tile (R319 to R322). -/
structure Version where
  vf : Nat := 0
  tile : Nat := 0
  asid : Nat := 0
  writer : Nat := 0
  frame : Nat := 0
  il : Nat := 0
  gr : Nat := 0
  /-- Index of the frame in the owner's pool. -/
  slot : Nat := 0
  /-- Copy source: a frame, or none for zero (R320). -/
  source : Option Nat := none
  filled : Bool := false
  installed : Bool := false
  freed : Bool := false
  deriving DecidableEq, Repr, Inhabited

/-- An entry of the Arbiter's event log (R355, R372). -/
inductive Log where
  | halt (gcn : Nat) (c1 c2 : W64)
  | refused (what : Nat)
  | fault (u : FaultUnit)
  | port (p : Nat)
  | thermal
  | firmware
  | gradeError (gcn col : Nat)
  | denied (pcn : Nat)
  deriving DecidableEq, Repr

/-- A link to a peer device: sequence numbers of the pair, operations not acknowledged (R211, R371). -/
structure Link where
  route : W64 := 0
  seqOut : Nat := 0
  seqIn : Nat := 0
  unacked : List Packet := []
  /-- The GTB cycle since which no port of the route is up (R371). -/
  down : Option Nat := none
  /-- The port that carries the pair's traffic (R368). -/
  port : Option Nat := none
  /-- Sequence numbers sent or sent again, in order, each with the port that carried it (R211, R371). -/
  sent : List (Nat × Nat) := []
  /-- Answers sent to the peer: sequence number, and the bytes returned or none for a rejection. -/
  answers : List (Nat × Option (List Byte)) := []
  deriving DecidableEq, Repr, Inhabited

/-- Firmware slots (R373): image, version, active slot, fused minimum, pending switch. -/
structure Firmware where
  image0 : List Byte := []
  image1 : List Byte := []
  version0 : Nat := 0
  version1 : Nat := 0
  active : Nat := 0
  pending : Bool := false
  trial : Bool := false
  fused : Nat := 0
  deriving DecidableEq, Repr, Inhabited

/-- What the Arbiter has moved to another device with an owner (R341): its registers, the barrier objects of its partition,
and the memory of the partition's clusters and banks, with the sync engines' words. -/
structure Moved where
  vf : Nat
  owner : Owner
  barriers : Tbl Barrier
  mem : Memory
  /-- Full/empty bits that are 1, and the metadata of the columns of each bank (R56, R68). -/
  fe : Tbl Bool
  mdata : Tbl (Tbl (BitVec 28))
  deriving DecidableEq, Repr

/-- The Arbiter, the host port, links and power of the module. -/
structure Module where
  log : List Log := []
  resets : Nat := 0
  rasstat : W64 := 0
  decoderBase : Tbl W64 := []
  decoderMap : Tbl W64 := []
  devid : Nat := 0
  links : Tbl Link := []
  portDown : List Nat := []
  fw : Firmware := {}
  /-- The power or temperature limit is exceeded (R379). -/
  overLimit : Bool := false
  lastThrottle : Nat := 0
  /-- The cluster that was throttled last (R379). -/
  lastTaken : Nat := 0
  /-- GTB cycles of the time before the last module reset: the clock of the Arbiter's event log (R355). -/
  epoch : Nat := 0
  /-- Answers given over SPDM (R374). -/
  spdm : List (List Byte) := []
  /-- Value returned by the last host read (R361). -/
  hostRead : List Byte := []
  /-- Requests for stream slots of each stack, in order of arrival (R289). -/
  streamQ : List Nat := []
  /-- Virtual functions with a mailbox command started, in order of arrival (R366). -/
  doors : List Nat := []
  /-- Lasting faults found and not yet isolated (R355). -/
  lasting : List FaultUnit := []
  /-- Owners moved to another device (R341). -/
  moved : List Moved := []
  deriving DecidableEq, Repr, Inhabited

/-- The whole device. -/
structure State where
  /-- Model: whose instruction runs, what moves next and how, free values drawn. -/
  cur : Agent := .hart 0
  agenda : List Move := []
  choice : Choice := {}
  moveNo : Nat := 0
  freeNo : Nat := 0
  soloTurn : Option Nat := none
  nextId : Nat := 0
  /-- GTIME (R149). -/
  gtime : Nat := 0
  mem : Memory := []
  /-- Full/empty bits that are 1, by memory key / 8 (R56). -/
  fe : Tbl Bool := []
  ctxs : Tbl Ctx := []
  cores : Tbl Core := []
  clusters : Tbl Cluster := []
  banks : Tbl Bank := []
  parts : Tbl Partition := []
  owners : Tbl Owner := []
  launches : Tbl Launch := []
  tasks : Tbl Task := []
  versions : Tbl Version := []
  net : List Packet := []
  mod : Module := {}
  deriving DecidableEq, Repr

/-- The machine right after module reset: every register at the value the spec gives, no context, nothing listed. -/
def State.reset : State := {}

end Sys2Proof.Machine
end

