-- ==== Sys2Proof/Machine/Ops.lean ====
section
/-!
DEFINITION. The named operations over tables, memory, registers, chunks and packets, and taking a trap (R128). An
operation is a total function from states to states.
-/

namespace Sys2Proof.Machine

/-! ### Sparse tables -/

/-- The value at a key; an unlisted key holds `dflt`. -/
def tget {α : Type} (t : Tbl α) (k : Nat) (dflt : α) : α :=
  match t with
  | [] => dflt
  | (k', v) :: r => if k' = k then v else tget r k dflt

/-- Insert before the first larger key. -/
def tins {α : Type} (t : Tbl α) (k : Nat) (v : α) : Tbl α :=
  match t with
  | [] => [(k, v)]
  | (k', v') :: r => if k' < k then (k', v') :: tins r k v else (k, v) :: (k', v') :: r

/-- The table without a key. -/
def tdel {α : Type} (t : Tbl α) (k : Nat) : Tbl α := t.filter fun p => p.1 ≠ k

/-- The table with a value at a key. -/
def tput {α : Type} (t : Tbl α) (k : Nat) (v : α) : Tbl α := tins (tdel t k) k v

/-- The table with a value at a key; the default value is not listed. -/
def tset {α : Type} [DecidableEq α] (dflt : α) (t : Tbl α) (k : Nat) (v : α) : Tbl α :=
  if v = dflt then tdel t k else tput t k v

/-- Apply an update for every element of a list, in order. -/
def forEach {α : Type} (l : List α) (f : α → State → State) (s : State) : State :=
  l.foldl (fun s a => f a s) s

/-- Bits `lo + n - 1` to `lo` of a word as a number (R2). -/
def bits {w : Nat} (x : BitVec w) (lo n : Nat) : Nat := (x.extractLsb' lo n).toNat

/-- The 64-bit word of a number (Wrap64 of R8). -/
def w64 (n : Nat) : W64 := BitVec.ofNat 64 n

/-- 1 for true, 0 for false. -/
def bit (b : Bool) : Nat := if b then 1 else 0

/-- The numbers `a`, `a + step`, … , `n` of them. -/
def stride (a step n : Nat) : List Nat := (List.range n).map fun i => a + step * i

/-! ### Accessors of the state's tables -/

def State.ctx (s : State) (c : Nat) : Ctx := tget s.ctxs c {}
def State.core (s : State) (g : Nat) : Core := tget s.cores g {}
def State.cluster (s : State) (q : Nat) : Cluster := tget s.clusters q {}
def State.bank (s : State) (g : Nat) : Bank := tget s.banks g {}
def State.part (s : State) (p : Nat) : Partition := tget s.parts p {}
def State.owner (s : State) (v : Nat) : Owner := tget s.owners v {}
def State.launch (s : State) (l : Nat) : Launch := tget s.launches l {}
def State.task (s : State) (t : Nat) : Task := tget s.tasks t {}
def State.version (s : State) (v : Nat) : Version := tget s.versions v {}

def modCtx (c : Nat) (f : Ctx → Ctx) (s : State) : State := { s with ctxs := tput s.ctxs c (f (s.ctx c)) }
def modCore (g : Nat) (f : Core → Core) (s : State) : State := { s with cores := tput s.cores g (f (s.core g)) }
def modCluster (q : Nat) (f : Cluster → Cluster) (s : State) : State :=
  { s with clusters := tput s.clusters q (f (s.cluster q)) }
def modBank (g : Nat) (f : Bank → Bank) (s : State) : State := { s with banks := tput s.banks g (f (s.bank g)) }
def modPart (p : Nat) (f : Partition → Partition) (s : State) : State := { s with parts := tput s.parts p (f (s.part p)) }
def modOwner (v : Nat) (f : Owner → Owner) (s : State) : State := { s with owners := tput s.owners v (f (s.owner v)) }
def modLaunch (l : Nat) (f : Launch → Launch) (s : State) : State :=
  { s with launches := tput s.launches l (f (s.launch l)) }
def modTask (t : Nat) (f : Task → Task) (s : State) : State := { s with tasks := tput s.tasks t (f (s.task t)) }
def modVersion (v : Nat) (f : Version → Version) (s : State) : State :=
  { s with versions := tput s.versions v (f (s.version v)) }
def modMod (f : Module → Module) (s : State) : State := { s with mod := f s.mod }

/-- Update the engines of a context. -/
def modEng (c : Nat) (f : Engines → Engines) (s : State) : State := modCtx c (fun h => { h with eng := f h.eng }) s

/-- Append to the Arbiter's event log (R355). -/
def logEvent (e : Log) (s : State) : State := modMod (fun m => { m with log := m.log ++ [e] }) s

/-- Physical cluster of a core or bank (R64). -/
def pcnOf (gcn : Nat) : Nat := gcn / 8
/-- Core number in the cluster (R64). -/
def coreOf (gcn : Nat) : Nat := gcn % 8
/-- Compute die of a cluster (R64). -/
def dieOf (pcn : Nat) : Nat := pcn / 2048
/-- Stack of a bank: die × 2, plus 1 for rows 16 to 31 (R64). -/
def stackOf (gcn : Nat) : Nat := dieOf (pcnOf gcn) * 2 + (if (pcnOf gcn % 2048) / 64 < 16 then 0 else 1)

/-- R355: GTB cycles on the clock of the Arbiter's event log, which survives module reset. -/
def State.now (s : State) : Nat := s.mod.epoch + s.gtime

/-- The resident context of a core, if any. -/
def State.residentOn (s : State) (gcn : Nat) : Option Nat :=
  (s.ctxs.find? fun p => p.2.resident && p.2.gcn = gcn).map (·.1)

/-! ### Memory -/

/-- One byte of memory (log entry 3: an unlisted byte reads 0). -/
def readByte (m : Memory) (k : Nat) : Byte := tget m k 0
/-- Write one byte, keeping the canonical form. -/
def writeByte (m : Memory) (k : Nat) (b : Byte) : Memory := tset 0 m k b
/-- `n` bytes from a key upward. -/
def readBytes (m : Memory) (k n : Nat) : List Byte := (List.range n).map fun i => readByte m (k + i)
/-- Write a list of bytes from a key upward. -/
def writeBytes (m : Memory) (k : Nat) : List Byte → Memory
  | [] => m
  | b :: r => writeBytes (writeByte m k b) (k + 1) r

/-- The canonical form: keys strictly rising, no byte equal to 0. -/
def Memory.wf (m : Memory) : Bool := m.Pairwise (fun a b => a.1 < b.1) && m.all fun c => c.2 ≠ 0

/-- R3: the little-endian number of a list of bytes. -/
def leNat : List Byte → Nat
  | [] => 0
  | b :: r => b.toNat + 256 * leNat r
/-- R3: `n` little-endian bytes of a number. -/
def leBytes : Nat → Nat → List Byte
  | 0, _ => []
  | n + 1, v => BitVec.ofNat 8 v :: leBytes n (v / 256)

/-- Memory key of offset `o` in the window of cluster `q` (R57). -/
def sramKey (q o : Nat) : Nat := Config.sramBase + q * 0x200000 + o
/-- Cluster whose SRAM holds a key. -/
def keyCluster (k : Nat) : Nat := (k - Config.sramBase) / 0x200000

/-! ### Chunks (R199 to R201) -/

/-- R201: a squash restores the registers of the chunk's start and discards its held stores; R30: the second squash in
a row enters solo mode, and the hart asks for its grant at GTB cycle `t`. -/
def squash (t : Nat) (h : Ctx) : Ctx :=
  match h.chunk with
  | none => h
  | some k =>
    { h with
      regs := k.start
      chunk := none
      squashes := h.squashes + 1
      solo := h.solo || decide (1 ≤ h.squashes)
      soloSince := if h.solo then h.soloSince else t }

/-- R200: open chunks of other cores of the cluster whose read set holds a written word are squashed. `me` is the
writer's context, if any. -/
def squashReaders (q : Nat) (words : List Nat) (me : Option Nat) (s : State) : State :=
  { s with
    ctxs := s.ctxs.map fun p =>
      match p.2.chunk with
      | none => p
      | some k =>
        if some p.1 ≠ me ∧ p.2.resident ∧ pcnOf p.2.gcn = q ∧ k.reads.any (fun w => words.contains w) then
          (p.1, squash s.gtime p.2)
        else p }

/-- The aligned 8-byte words that hold `n` bytes from key `k`. -/
def wordsOf (k n : Nat) : List Nat := if n = 0 then [] else (List.range ((k + n - 1) / 8 - k / 8 + 1)).map fun i => k / 8 + i

/-- R202: a write to cluster SRAM takes one place in the cluster order and squashes. -/
def sramWrite (k : Nat) (b : List Byte) (me : Option Nat) (s : State) : State :=
  squashReaders (keyCluster k) (wordsOf k b.length) me { s with mem := writeBytes s.mem k b }

/-- R56: set or clear the full/empty bits of the words at keys. -/
def setFe (words : List Nat) (full : Bool) (s : State) : State :=
  { s with fe := words.foldl (fun t w => tset false t w full) s.fe }

/-- R56: whether the word at a key is full. -/
def isFull (s : State) (k : Nat) : Bool := tget s.fe (k / 8) false

/-- R200: commit the open chunk: its stores are applied at once, its instructions are counted (R149), readers are
squashed; R30: the core leaves solo mode when its first solo chunk commits. -/
def commitChunk (c : Nat) (s : State) : State :=
  match (s.ctx c).chunk with
  | none => s
  | some k =>
    let s := modCtx c (fun h => { h with
      chunk := none
      squashes := 0
      solo := false
      csr := { h.csr with retired := h.csr.retired + w64 k.count } }) s
    let s := { s with mem := k.stores.foldr (fun p m => writeByte m p.1 p.2) s.mem }
    squashReaders (pcnOf (s.ctx c).gcn) k.writes (some c) s

/-- R199: the open chunk; the next instruction of majors 0x00 to 0x21 opens one when none is open. -/
def openedChunk (h : Ctx) : Chunk := h.chunk.getD { start := h.regs }

/-- R199: open a chunk when none is open. -/
def openChunk (c : Nat) (s : State) : State := modCtx c (fun h => { h with chunk := some (openedChunk h) }) s

/-! ### Registers -/

/-- R74: g0 reads 0. -/
def getG (r : Regs) (n : R5) : W64 := if n = 0 then 0 else tget r.g n.toNat 0
/-- R74: a write to g0 is discarded. -/
def setG (r : Regs) (n : R5) (v : W64) : Regs := if n = 0 then r else { r with g := tset 0 r.g n.toNat v }
/-- f register (R40). -/
def getF (r : Regs) (n : R5) : FReg := tget r.f n.toNat {}
def setF (r : Regs) (n : R5) (v : FReg) : Regs := { r with f := tset {} r.f n.toNat v }

/-- Write g of a context. -/
def putG (c : Nat) (n : R5) (v : W64) (s : State) : State := modCtx c (fun h => { h with regs := setG h.regs n v }) s

/-- Completion counter (R184). -/
def getCc (h : Ctx) (n : Nat) : W64 := tget h.eng.cc n 0
/-- R179: increment a counter by an amount with Wrap64. -/
def bump (c n : Nat) (v : W64) (s : State) : State :=
  modEng c (fun e => { e with cc := tset 0 e.cc n (tget e.cc n 0 + v) }) s

/-! ### Traps (R127 to R132) -/

/-- Privilege code of PPRIV (R145). -/
def Priv.code (p : Priv) : Nat := match p with | .u => 0 | .s => 1 | .m => 3
/-- The level of a PPRIV code; 2 is reserved and not reached. -/
def privOf (n : Nat) : Priv := if n = 0 then .u else if n = 1 then .s else .m
/-- TCAUSE of a cause (R146). -/
def causeWord (int : Bool) (code : Nat) : W64 := (if int then 0x8000000000000000 else 0) ||| w64 code

/-- A field of TSTAT replaced (R145): IE 0, PIE 1, PPRIV 3:2, IN_TRAP 4, STEP 5; bits 63:6 kept. -/
def tstatWord (old : W64) (ie pie : Bool) (ppriv : Nat) (inTrap step : Bool) : W64 :=
  (old &&& 0xFFFFFFFFFFFFFFC0) ||| w64 (bit ie + 2 * bit pie + 4 * ppriv + 16 * bit inTrap + 32 * bit step)

def inTrap (t : TrapRegs) : Bool := t.tstat.getLsbD 4
/-- R147: TPC and TVEC hold address bits 56:2. -/
def instrAddr (v : W64) : W64 := v &&& 0x01FFFFFFFFFFFFFC

/-- R127: the level a trap goes to. -/
def trapLevel (h : Ctx) (int : Bool) (code : Nat) : Priv :=
  if h.priv = .m then .m
  else if int then (if code = 2 then .m else .s)
  else if code = 9 ∨ code = 10 ∨ code = 13 then .m
  else if h.csr.mdeleg.getLsbD code then .s else .m

/-- R128: enter level `l` (S or M): the saved registers, the new status, the vector. The handler's first chunk is a
different one: squashes of the chunk before are no longer squashes in a row (R30). -/
def enterTrap (l : Priv) (int : Bool) (code : Nat) (value tpc : W64) (h : Ctx) : Ctx :=
  let t := if l = .s then h.ts else h.tm
  let pie := if h.priv.code < l.code then true else t.tstat.getLsbD 0
  let t' := { t with
    tstat := tstatWord t.tstat false pie h.priv.code true false
    tpc := instrAddr tpc
    tcause := causeWord int code
    tvalue := value }
  let h := if l = .s then { h with ts := t' } else { h with tm := t' }
  { h with priv := l, regs := { h.regs with pc := t'.tvec }, wait := .none, armed := none, squashes := 0 }

/-- R129: a core halts with both cause values logged; it keeps its state. Its open chunk has committed before (R199). -/
def haltCore (c : Nat) (c1 c2 : W64) (s : State) : State :=
  logEvent (.halt (s.ctx c).gcn c1 c2) (modCtx c (fun h => { h with halted := true, armed := none }) s)

/-- R128, R129: taking a trap. A trap into S while IN_TRAP is set turns into a DOUBLE_TRAP to M; a trap into M while
IN_TRAP is set halts the core, which the Arbiter logs with both cause values: that of the trap in progress at M and that
of the new trap (DESIGN CHOICE, log entry 54). The open chunk commits first (R199). -/
def takeTrap (c : Nat) (int : Bool) (code : Nat) (value tpc : W64) (s : State) : State :=
  let s := commitChunk c s
  let h := s.ctx c
  let l := trapLevel h int code
  if l = .s ∧ inTrap h.ts then
    if inTrap h.tm then haltCore c h.tm.tcause (causeWord int code) s
    else modCtx c (enterTrap .m false 13 (causeWord int code) tpc) s
  else if l ≠ .s ∧ inTrap h.tm then haltCore c h.tm.tcause (causeWord int code) s
  else modCtx c (enterTrap l int code value tpc) s

/-- A precise exception at the current instruction (R130). -/
def trapHere (c : Nat) (code : Nat) (value : W64) (s : State) : State :=
  takeTrap c false code value (s.ctx c).regs.pc s

/-- R82: an illegal instruction traps before any effect; TVALUE holds the word. -/
def illegalWord (c : Nat) (w : W32) (s : State) : State := trapHere c 1 (w.zeroExtend 64) s
/-- R82 for a decoded instruction. -/
def illegal (c : Nat) (i : Instr) (s : State) : State := illegalWord c ((encode i).getD 0) s

/-- R138: after an instruction at `at` retires with a step armed, the STEP trap follows to the level that executed the
TRET. Where it halts the core, the causes logged are those of `takeTrap` (log entry 54). -/
def stepTrap (c : Nat) (at_ : W64) (s : State) : State :=
  match (s.ctx c).armed with
  | none => s
  | some l =>
    let s := commitChunk c s
    let h := s.ctx c
    let l := if l = .s ∧ inTrap h.ts then .m else l
    if inTrap (if l = .s then h.ts else h.tm) then haltCore c h.tm.tcause (causeWord false 12) s
    else if l ≠ (h.armed.getD .m) then modCtx c (enterTrap .m false 13 (causeWord false 12) h.regs.pc) s
    else modCtx c (enterTrap l false 12 at_ h.regs.pc) s

/-- The last instruction address: an instruction there that does not transfer control traps (R107). -/
def lastPc : W64 := 0x01FFFFFFFFFFFFFC

/-- R199: whether a limit of the chunk is reached. -/
def chunkFull (h : Ctx) (k : Chunk) : Bool :=
  h.solo || decide (Config.chunkInstrs ≤ k.count) || decide (Config.chunkWrites ≤ k.writes.length) ||
    decide (Config.chunkReads ≤ k.reads.length)

/-- An instruction of a chunk retires with the next address: it is counted in the chunk, a limit closes the chunk, a
solo chunk commits at once (R30), and an armed step traps (R138). -/
def retireChunk (c : Nat) (next : W64) (s : State) : State :=
  let at_ := (s.ctx c).regs.pc
  let s := modCtx c (fun h => { h with
    regs := { h.regs with pc := next }
    chunk := h.chunk.map fun k =>
      let k := { k with count := k.count + 1 }
      { k with closed := chunkFull h k } }) s
  stepTrap c at_ (if (s.ctx c).solo then commitChunk c s else s)

/-- An instruction outside any chunk retires with the next address (R149, R138). -/
def retireAt (c : Nat) (next : W64) (s : State) : State :=
  let at_ := (s.ctx c).regs.pc
  stepTrap c at_ (modCtx c (fun h => { h with
    regs := { h.regs with pc := next }
    wait := .none
    csr := { h.csr with retired := h.csr.retired + 1 } }) s)

/-- R94: the next instruction is at PC + 4. -/
def retire (c : Nat) (s : State) : State := retireAt c ((s.ctx c).regs.pc + 4) s

/-! ### Running an instruction -/

/-- R284: the run reaches its end: END code, STATUS and the address of the ending instruction. OVERLAY_END writes LSTAT. -/
def endRun (g code status : Nat) (s : State) : State :=
  modBank g (fun b => { b with run := b.run.map fun r => { r with ended := some (code, status, b.pc) } }) s

/-- A core instruction: on a BAU its major is illegal and ends the run (R83). -/
def coreOnly (s : State) (f : Nat → Ctx → State) : State :=
  match s.cur with
  | .hart c => f c (s.ctx c)
  | .bau g => endRun g 1 0 s

/-- A BAU instruction: on a core its major is illegal (R81). -/
def bauOnly (i : Instr) (s : State) (f : Nat → Bank → State) : State :=
  match s.cur with
  | .hart c => illegal c i s
  | .bau g => f g (s.bank g)

/-- A chunk instruction that does not transfer control: R107's check, then the new registers. -/
def scalar (c : Nat) (f : Regs → Regs) (s : State) : State :=
  if (s.ctx c).regs.pc = lastPc then trapHere c 2 0x0200000000000000 s
  else retireChunk c ((s.ctx c).regs.pc + 4) (modCtx c (fun h => { h with regs := f h.regs }) (openChunk c s))

/-- A chunk instruction that transfers control (R104 to R106): the target is checked before any effect. -/
def jump (c : Nat) (target : W64) (bad : Bool) (f : Regs → Regs) (s : State) : State :=
  if bad then trapHere c 2 target s
  else retireChunk c target (modCtx c (fun h => { h with regs := f h.regs }) (openChunk c s))

/-- An instruction outside any chunk (R155, R199): the open chunk commits, R107 is checked, then the instruction acts. -/
def outside (c : Nat) (f : Ctx → State → State) (s : State) : State :=
  let s := commitChunk c s
  if (s.ctx c).regs.pc = lastPc then trapHere c 2 0x0200000000000000 s else f (s.ctx c) s

/-- Write g[d] and retire. -/
def finishG (c : Nat) (d : R5) (v : W64) (s : State) : State := retire c (putG c d v s)

/-- Set what the hart waits for; its PC stays (R26). -/
def setWait (c : Nat) (w : Wait) (s : State) : State := modCtx c (fun h => { h with wait := w }) s

/-! ### Local and remote accesses -/

/-- Which permission an access needs (R54). -/
structure Need where
  rd : Bool := false
  w : Bool := false
  x : Bool := false
  deriving DecidableEq, Repr

/-- R54: some valid region of the privilege covers the span with the permission; M is not checked. -/
def protOk (pw : Tbl W64) (p : Priv) (a n : Nat) (need : Need) : Bool :=
  match p with
  | .m => true
  | _ =>
    (List.range 4).any fun i =>
      let r := tget pw ((if p = .u then 0 else 4) + i) 0
      r.getLsbD 63 && (!need.x || r.getLsbD 62) && (!need.w || r.getLsbD 61) && (!need.rd || r.getLsbD 60) &&
        decide (bits r 3 18 * 8 ≤ a) && decide (a + n ≤ bits r 35 18 * 8)

/-- R131, R250: a pending asynchronous exception, a posted array trap first. -/
def pendingAsync (h : Ctx) : Bool := h.eng.posted.isSome || !h.pendStores.isEmpty

/-- R132: the interrupt that is taken: its code, and its TVALUE. -/
def takenInterrupt (s : State) (h : Ctx) : Option (Nat × W64) :=
  let sOk := !inTrap h.ts && (decide (h.priv = .u) || (decide (h.priv = .s) && h.ts.tstat.getLsbD 0))
  let mOk := !inTrap h.tm && (decide (h.priv ≠ .m) || h.tm.tstat.getLsbD 0)
  if h.armed.isSome then none
  else if h.csr.event && mOk then some (2, h.csr.eventCodes.headD 0)
  else if h.csr.imask.getLsbD 0 && decide (h.csr.tcmp.toNat ≤ s.gtime) && sOk then some (0, 0)
  else if h.csr.imask.getLsbD 1 && h.csr.soft && sOk then some (1, 0)
  else none

/-- The partition whose tasks a cluster serves (R315). -/
def serves (cl : Cluster) : Option Nat := match cl.lent with | some p => some p | none => cl.part
/-- The clusters that serve a partition, whether or not its map names them (R313, R315). -/
def clustersOf (s : State) (p : Nat) : List Nat := (s.clusters.filter fun x => serves x.2 = some p).map (·.1)

/-- Whether a context may move: resident, not halted, not exited. -/
def canWake (h : Ctx) : Bool := h.resident && !h.halted && h.exited.isNone

/-- R154, R336: no core of the partition issues or completes an instruction at or after the cycle of an accepted stop. -/
def stopReached (s : State) (h : Ctx) : Bool :=
  let p := s.part h.part
  p.stopped || (match p.stop with | some t => decide (t ≤ s.gtime) | none => false)

/-- Whether a hart may complete an instruction or take a trap now. -/
def canMove (s : State) (h : Ctx) : Bool := canWake h && !stopReached s h

/-- R250: a wait ends only where the hart has no posted array trap to take first. -/
def mayWake (s : State) (h : Ctx) : Bool := canMove s h && h.eng.posted.isNone

/-- First local address past shared memory outside mark space (R61). -/
def sharedTop (cl : Cluster) : Nat := Config.sharedEnd - cl.msize * 0x2000

/-- R51, R52: the span lies in the scratchpad. -/
def inPad (a n : Nat) : Bool := decide (a + n ≤ Config.padBytes)
/-- R51, R52: the span lies in shared memory outside mark space. -/
def inShared (cl : Cluster) (a n : Nat) : Bool := decide (Config.sharedBase ≤ a) && decide (a + n ≤ sharedTop cl)

/-- R51 to R54 for a span of a hart. -/
def localOk (s : State) (h : Ctx) (a : Nat) (n : Nat) (need : Need) : Bool :=
  (inPad a n || inShared (s.cluster (pcnOf h.gcn)) a n) && protOk h.csr.pw h.priv a n need

/-- Offset in its cluster's window of a local address of a core (R51, R57). -/
def localOfs (gcn a : Nat) : Nat := if a < Config.padBytes then coreOf gcn * 0x8000 + a else a
/-- Memory key of a local address of a core (R51). -/
def localKey (gcn a : Nat) : Nat := sramKey (pcnOf gcn) (localOfs gcn a)

/-- R338: `n` bytes at a local address of a context: its image once it is saved, else SRAM. -/
def readLocal (s : State) (c : Nat) (a n : Nat) : List Byte :=
  let h := s.ctx c
  match h.image with
  | some im => if a < Config.padBytes then readBytes im.pad a n else readBytes s.mem (localKey h.gcn a) n
  | none => readBytes s.mem (localKey h.gcn a) n

/-- R338: write bytes at a local address of a context, in its image once it is saved. `full` sets the full/empty bits of
the words touched (R56). Shared memory that it accesses stays that of its cluster where a lent one has been returned (DESIGN CHOICE,
log entry 108). -/
def writeLocal (c : Nat) (a : Nat) (b : List Byte) (full : Bool) (s : State) : State :=
  let h := s.ctx c
  let k := localKey h.gcn a
  let sram := (if full then setFe (wordsOf k b.length) true else id) (sramWrite k b none s)
  match h.image with
  | some im =>
    if a < Config.padBytes then
      modCtx c (fun h => { h with image := some { im with
        pad := writeBytes im.pad a b
        fe := if full then im.fe ++ wordsOf a b.length else im.fe } }) s
    else sram
  | none => sram

/-- R338: set or clear full/empty bits of a span of a context's scratchpad or shared memory. -/
def setLocalFe (c : Nat) (a n : Nat) (full : Bool) (s : State) : State :=
  let h := s.ctx c
  match h.image with
  | some im =>
    if a < Config.padBytes then
      modCtx c (fun h => { h with image := some { im with
        fe := if full then im.fe ++ wordsOf a n else im.fe.filter fun w => !(wordsOf a n).contains w } }) s
    else setFe (wordsOf (localKey h.gcn a) n) full s
  | none => setFe (wordsOf (localKey h.gcn a) n) full s

/-- Start of slot `p` of a ring (R187). -/
def slotAddr (r : Ring) (p : Nat) : Nat := r.base + (p % r.nslot) * r.slotb
/-- Filled slots (R187). -/
def filled (r : Ring) : Nat := (r.tail + 0x100000000 - r.head) % 0x100000000
/-- Free slots (R187). -/
def freeSlots (r : Ring) : Nat := r.nslot - filled r

/-- R185: whether a byte lies in a published slot of the ring. -/
def ringLocks (r : Ring) (a : Nat) : Bool :=
  r.valid && (List.range (filled r)).any fun i =>
    let b := slotAddr r (r.head + i)
    decide (b ≤ a) && decide (a < b + r.slotb)

/-- R111: the first byte of the span that lies in a write-locked slot of any ring of the hart. -/
def lockedByte (h : Ctx) (a n : Nat) : Option Nat :=
  ((List.range n).find? fun i => h.eng.rings.any fun p => ringLocks p.2 (a + i)).map (a + ·)

/-- What the sender's check finds (R58): the physical cluster and, for a linked entry, the peer device (R369). -/
inductive Sent where
  | ok (pcn : Nat) (dev : Option Nat)
  | fail
  deriving DecidableEq, Repr

/-- R58, R314, R369: the sending interface's check of a global address. -/
def senderCheck (s : State) (h : Ctx) (ea : W64) (store mark : Bool) : Sent :=
  let vcn := bits ea 48 15
  let p := s.part h.part
  let e := tget p.map vcn 0
  let cl := s.cluster (pcnOf h.gcn)
  if bits ea 21 27 ≠ 0 then .fail
  else if p.count ≤ vcn ∨ !e.getLsbD 63 then .fail
  else if mark && e.getLsbD 62 then .fail
  else if store && !((List.range 16).any fun i =>
    let r := tget cl.wpt i 0
    r.getLsbD 63 && decide (bits r 0 15 ≤ vcn) && decide (vcn ≤ bits r 32 15)) then .fail
  else .ok (bits e 0 14) (if e.getLsbD 62 then some (bits e 48 12) else none)

/-- R368: the ports of a route: primary first, then the alternates; 12 to 15 name no port (log entry 13). -/
def routePorts (l : Link) : List Nat := ((List.range 4).map fun i => bits l.route (4 * i) 4).filter fun p => p < 12
/-- R371: a port of the route is up. -/
def routeUp (m : Module) (l : Link) : Bool := (routePorts l).any fun p => !m.portDown.contains p
/-- R368, R371: the port that carries the traffic of a pair: the one that did, while it is up and of the route, else the first port
of the route that is up, the primary before the alternates (that it does not go back to a port that comes up again: DESIGN CHOICE,
log entry 105). -/
def portFor (m : Module) (l : Link) : Option Nat :=
  let up := (routePorts l).filter fun p => !m.portDown.contains p
  match l.port with
  | some p => if up.contains p then some p else up.head?
  | none => up.head?
/-- R368, R371: the port in use, or since when no port of a route is up. -/
def markRoute (t : Nat) (m : Module) (l : Link) : Link :=
  { l with port := portFor m l, down := if routeUp m l then none else some (l.down.getD t) }
/-- R211, R368: operations go out over the port in use; while there is none they wait for one. -/
def transmit (seqs : List Nat) (l : Link) : Link :=
  match l.port with
  | some p => { l with sent := l.sent ++ seqs.map fun n => (n, p) }
  | none => l
/-- R211, R368, R371: what a change of ports or of the route does to a link: since when no port of its route is up; where another port
takes the pair's traffic over, the operations not acknowledged are sent again over it under their numbers. -/
def afterPorts (t : Nat) (m : Module) (l : Link) : Link :=
  let l' := markRoute t m l
  if l'.port = l.port then l' else transmit (l'.unacked.map (·.seq)) l'

/-- Put a packet on the fabric; an operation to a peer device takes the pair's next sequence number and waits for its
acknowledgement (R211). -/
def send (p : Packet) (s : State) : State :=
  let s := { s with nextId := s.nextId + 1 }
  match p.dev with
  | none => { s with net := s.net ++ [p] }
  | some d =>
    let l := tget s.mod.links d {}
    let p := { p with seq := l.seqOut }
    modMod (fun m => { m with links := tput m.links d <| transmit [l.seqOut] <| markRoute s.gtime m { l with
      seqOut := l.seqOut + 1, unacked := l.unacked ++ [p] } })
      { s with net := s.net ++ [p] }

/-- R371: the answer of a peer arrives over a port of the route that is up. -/
def linkUp (s : State) (p : Packet) : Bool :=
  match p.dev with
  | none => true
  | some d => routeUp s.mod (tget s.mod.links d {})

/-- Remove a packet from the fabric. -/
def unsend (id : Nat) (s : State) : State := { s with net := s.net.filter fun p => p.id ≠ id }

/-- The packet of a number. -/
def packet (s : State) (id : Nat) : Option Packet := s.net.find? fun p => p.id = id

/-- R59: the first valid window that covers the offset translates it and must grant the kind; the whole access lies in
one range, and only a mark instruction reaches mark space. Kinds: 0 load, 1 store, 2 atomic, 3 mark. -/
def receive (cl : Cluster) (ofs n kind : Nat) : Option Nat :=
  let win := ((List.range 8).map fun i => tget cl.xw i 0).find? fun r =>
    r.getLsbD 63 && decide (bits r 0 7 * 0x4000 ≤ ofs) && decide (ofs < bits r 14 7 * 0x4000)
  match win with
  | none => none
  | some r =>
    let grants := if kind = 0 then r.getLsbD 59 else if kind = 1 then r.getLsbD 60 else if kind = 2 then r.getLsbD 61 else r.getLsbD 62
    let o := (ofs + bits r 21 21) % 0x200000
    if !grants then none
    else if kind = 3 then (if 0x100000 ≤ o ∧ o + n ≤ 0x100000 + cl.msize * 0x2000 then some o else none)
    else if o < 0x40000 then (if o / 0x8000 = (o + n - 1) / 0x8000 ∧ o + n ≤ 0x40000 then some o else none)
    else if o + n ≤ sharedTop cl then some o else none

/-- A request that writes. -/
def reqWrites (b : Body) : Bool :=
  match b with
  | .store _ | .atomic .. => true
  | _ => false

/-- R59: offset and length of the bytes that a request reaches in its target cluster; none for a request that the
receiver rejects. -/
def landing (s : State) (p : Packet) : Option (Nat × Nat) :=
  match p.body with
  | .load n => (receive (s.cluster p.pcn) p.ofs n 0).map fun o => (o, n)
  | .store b => (receive (s.cluster p.pcn) p.ofs b.length 1).map fun o => (o, b.length)
  | .atomic _ n _ _ _ => (receive (s.cluster p.pcn) p.ofs n 2).map fun o => (o, n)
  | _ => none

/-- Two spans share a byte. -/
def spansMeet (a b : Nat × Nat) : Bool := decide (a.1 < b.1 + b.2) && decide (b.1 < a.1 + a.2)

/-- R195: hart `y` lies in the instance of a scope that holds hart `c`. -/
def sameInstance (s : State) (scope c y : Nat) : Bool :=
  let q := pcnOf (s.ctx c).gcn
  let r := pcnOf (s.ctx y).gcn
  if scope = 0 then decide (c = y) else if scope = 1 then decide (q = r) else if scope = 2 then decide (dieOf q = dieOf r) else true

/-- R203 to R205: an access of hart `y` may come after a write that these releases cover. -/
def ordersAfter (s : State) (k : List Release) (y : Nat) : Bool := k.any fun r => sameInstance s r.scope r.hart y

/-- R196, R204, R208: a remote write among packets that are not applied yet, one that comes first, reaches bytes of a cluster. -/
def writeAmong (s : State) (l : List Packet) (first : Packet → Bool) (q o n : Nat) : Bool :=
  l.any fun p =>
    p.dev.isNone && decide (p.pcn = q) && reqWrites p.body && first p &&
      (match landing s p with | some x => spansMeet x (o, n) | none => false)

/-- R196, R204, R208: such a write, in flight or saved with the partition of a context, comes before an access of it; with
`own` those of the context itself count. -/
def writeFirst (s : State) (c q o n : Nat) (own : Bool) : Bool :=
  writeAmong s (s.net ++ (s.part (s.ctx c).part).saved) (fun p => ordersAfter s p.cover c || (own && decide (p.cid = c))) q o n

/-- R195, R204, R205: a write that a release covers at a scope, in flight or saved with any partition, comes before an access of
an agent that is no hart, of an instance of that scope. -/
def coveredFirst (s : State) (scope q o n : Nat) : Bool :=
  writeAmong s (s.net ++ s.parts.flatMap fun p => p.2.saved) (fun p => p.cover.any fun r => decide (scope ≤ r.scope)) q o n

/-- R196, R204, R205: a read or write of n bytes at a local address of a context, by its engines or by itself, waits for the
hart's own remote writes and for covered ones that are still on their way there. -/
def spanBusy (s : State) (c a n : Nat) : Bool :=
  writeFirst s c (pcnOf (s.ctx c).gcn) (localOfs (s.ctx c).gcn a) n true

/-- R200, R201: open chunks of a cluster, of the contexts that `who` names, that have read or written one of some words are squashed and
execute again. -/
def squashMeeting (who : Nat → Bool) (q : Nat) (words : List Nat) (s : State) : State :=
  { s with
    ctxs := s.ctxs.map fun p =>
      match p.2.chunk with
      | none => p
      | some k =>
        if who p.1 ∧ p.2.resident ∧ pcnOf p.2.gcn = q ∧ (k.reads ++ k.writes).any (fun w => words.contains w) then (p.1, squash s.gtime p.2)
        else p }

/-- R203, R204: a release covers a write. It is listed where none of its hart is of so wide a scope. -/
def addRelease (r : Release) (k : List Release) : List Release :=
  if k.any fun x => decide (x.hart = r.hart) && decide (r.scope ≤ x.scope) then k else k ++ [r]

/-- R205: a release of hart `c` at a scope covers writes that are in flight, or performed and not met by all: those of which `covered`
says so, of a hart's number and what covers them. An open chunk that has met bytes of one in flight which its hart must meet from now
on, and whose commit could follow an acquire, executes again, and so after the write has landed (`localBusy`); R200 lets signatures
hold more words than the chunk has read (log entry 7). -/
def setCovers (c scope : Nat) (covered : Nat → List Release → Bool) (s : State) : State :=
  let extend (x : Nat) (k : List Release) : List Release :=
    if covered x k then addRelease { scope := scope, cycle := s.gtime, hart := c } k else k
  let inFlight (p : Packet) : Packet := if reqWrites p.body then { p with cover := extend p.cid p.cover } else p
  let column (x : Before) : Before := if x.fenced then { x with cover := extend x.cid x.cover } else x
  forEach (s.net.filter fun p => p.dev.isNone && decide (inFlight p ≠ p))
    (fun p t => match landing s p with
      | some x => squashMeeting
          (fun y => decide (y ≠ c) && !ordersAfter s p.cover y && ordersAfter s (inFlight p).cover y)
          p.pcn (wordsOf (sramKey p.pcn x.1) x.2) t
      | none => t)
    { s with
      net := s.net.map inFlight
      banks := s.banks.map fun x => (x.1, { x.2 with before := x.2.before.map fun y => (y.1, column y.2) }) }

/-- R203, R204: a release of hart `c` at a scope covers its remote writes that are still in flight, and its column writes that a
BKFENCE has performed; and those of its cluster that a release covers for it, which it may have met in the cluster's order (R205). -/
def cover (c scope : Nat) (s : State) : State :=
  setCovers c scope (fun x k => decide (x = c) || (decide (pcnOf (s.ctx x).gcn = pcnOf (s.ctx c).gcn) && ordersAfter s k c)) s

/-- R203 to R205: hart `c` may have acquired the releases that cover writes of others for it, and whatever it does from now on may take
that order to any agent (DESIGN CHOICE, log entry 53). -/
def carry (c : Nat) (s : State) : State := setCovers c 4 (fun x k => decide (x ≠ c) && ordersAfter s k c) s

/-- R112, R185: a remote write into a write-locked slot of a ring of the target core is rejected. -/
def remoteLocked (s : State) (q o n : Nat) : Bool :=
  if o < 0x40000 then
    match s.residentOn (q * 8 + o / 0x8000) with
    | none => false
    | some c => (lockedByte (s.ctx c) (o % 0x8000) n).isSome
  else false

/-- The next free value (log entry 2). -/
def drawNat (s : State) : Nat × State := (Config.freeNat s.freeNo, { s with freeNo := s.freeNo + 1 })

end Sys2Proof.Machine
end

