-- ==== Sys2Proof/Machine/Flags.lean ====
section
/-!
DEFINITION. Number formats, rounding, the flags of FSTAT and frames (R34 to R50). Values are exact: a finite
value is a sign, a natural number and a power of two. Flags are a number whose bits are those of FSTAT (R43): NX 1,
UF 2, OF 4, DZ 8, NV 16, PO 32.
-/

namespace Sys2Proof.Machine

/-- A floating-point format (R35): exponent and fraction widths; E4 has no infinity (R36). -/
structure Fmt where
  ew : Nat
  fw : Nat
  e4 : Bool := false
  /-- Canonical NaN and poison NaN encodings (R37). -/
  cnan : Nat
  poison : Nat
  deriving DecidableEq, Repr

/-- R34, R35, R37: the format of a code 0x8 to 0xD. -/
def fmtOf (code : Nat) : Fmt :=
  if code = 0x8 then { ew := 11, fw := 52, cnan := 0x7FF8000000000000, poison := 0x7FFC00000000005A }
  else if code = 0x9 then { ew := 8, fw := 23, cnan := 0x7FC00000, poison := 0x7FE0005A }
  else if code = 0xA then { ew := 8, fw := 7, cnan := 0x7FC0, poison := 0x7FDA }
  else if code = 0xB then { ew := 5, fw := 10, cnan := 0x7E00, poison := 0x7E5A }
  else if code = 0xC then { ew := 4, fw := 3, e4 := true, cnan := 0x7F, poison := 0xFF }
  else { ew := 5, fw := 2, cnan := 0x7E, poison := 0x7D }

/-- Width in bits of a format code (R34). -/
def fmtWidth (code : Nat) : Nat :=
  if code = 0x3 ∨ code = 0x8 then 64
  else if code = 0x2 ∨ code = 0x6 ∨ code = 0x9 then 32
  else if code = 0x1 ∨ code = 0x5 ∨ code = 0xA ∨ code = 0xB then 16
  else if code = 0xE then 4 else 8

/-- R34: integer codes; signed below 4. -/
def isInt (code : Nat) : Bool := decide (code < 7)
def isSigned (code : Nat) : Bool := decide (code < 4)

def Fmt.bias (f : Fmt) : Nat := 2 ^ (f.ew - 1) - 1
def Fmt.emin (f : Fmt) : Int := 1 - (f.bias : Int)
/-- R35: E4 reaches exponent field 15. -/
def Fmt.emax (f : Fmt) : Int := if f.e4 then 8 else (f.bias : Int)
def Fmt.width (f : Fmt) : Nat := 1 + f.ew + f.fw

/-- The value of an encoding (R36, R37). -/
inductive FVal where
  | poison (s : Bool)
  | nan (s sig : Bool)
  | inf (s : Bool)
  /-- (−1)^s × m × 2^e. -/
  | fin (s : Bool) (m : Nat) (e : Int)
  deriving DecidableEq, Repr

/-- R36, R37: decode an encoding. -/
def fdec (f : Fmt) (x : Nat) : FVal :=
  let s := decide (x / 2 ^ (f.ew + f.fw) % 2 = 1)
  let ex := x / 2 ^ f.fw % 2 ^ f.ew
  let fr := x % 2 ^ f.fw
  if x % 2 ^ f.width = f.poison then .poison s
  else if f.e4 then
    if ex = 15 ∧ fr = 7 then .nan s false
    else if ex = 0 then .fin s fr (f.emin - f.fw)
    else .fin s (fr + 2 ^ f.fw) ((ex : Int) - f.bias - f.fw)
  else if ex = 2 ^ f.ew - 1 then
    if fr = 0 then .inf s else .nan s (decide (fr < 2 ^ (f.fw - 1)))
  else if ex = 0 then .fin s fr (f.emin - f.fw)
  else .fin s (fr + 2 ^ f.fw) ((ex : Int) - f.bias - f.fw)

/-- The sign bit put above a magnitude. -/
def withSign (f : Fmt) (s : Bool) (mag : Nat) : Nat := (if s then 2 ^ (f.ew + f.fw) else 0) + mag
def infBits (f : Fmt) (s : Bool) : Nat := withSign f s ((2 ^ f.ew - 1) * 2 ^ f.fw)
/-- Largest finite magnitude (R35, R37). -/
def maxBits (f : Fmt) (s : Bool) : Nat :=
  withSign f s (if f.e4 then 0x7E else (2 ^ f.ew - 1) * 2 ^ f.fw - 1)

/-- Static rounding modes of R41: 1 RNE, 2 RMM, 3 RUP, 4 RDN, 5 RTZ. Whether to add one unit: `odd` the kept value is
odd; `half` compares the rest with half a unit (0 none, 1 below, 2 equal, 3 above). -/
def roundUp (mode : Nat) (s odd : Bool) (half : Nat) : Bool :=
  if half = 0 then false
  else if mode = 1 then decide (half = 3) || (decide (half = 2) && odd)
  else if mode = 2 then decide (2 ≤ half)
  else if mode = 3 then !s
  else if mode = 4 then s
  else false

/-- `m × 2^e` (plus something below one unit of m when `sticky`) in units of 2^q: the kept value and the rest against
half a unit. -/
def quantise (m : Nat) (e q : Int) (sticky : Bool) : Nat × Nat :=
  if q ≤ e then (m * 2 ^ (e - q).toNat, if sticky then 1 else 0)
  else
    let sh := (q - e).toNat
    let k := m / 2 ^ sh
    let r := m % 2 ^ sh
    let h := 2 ^ (sh - 1)
    (k, if r = 0 ∧ !sticky then 0 else if r < h then 1 else if r = h ∧ !sticky then 2 else 3)

/-- The rounded integer, and whether it is inexact. -/
def roundQ (mode : Nat) (s : Bool) (m : Nat) (e q : Int) (sticky : Bool) : Nat × Bool :=
  let (k, h) := quantise m e q sticky
  (if roundUp mode s (k % 2 = 1) h then k + 1 else k, decide (h ≠ 0))

/-- R42: overflow by mode; E4 gives ±448 in every mode (R44). -/
def overflowBits (f : Fmt) (mode : Nat) (s : Bool) : Nat :=
  if f.e4 then maxBits f s
  else if mode = 1 ∨ mode = 2 ∨ (mode = 3 ∧ !s) ∨ (mode = 4 ∧ s) then infBits f s
  else maxBits f s

/-- R42: round an exact value into a format. Tininess is detected after rounding; UF needs tiny and inexact. `flush`
replaces a tiny result by zero of its sign (R45). -/
def roundTo (f : Fmt) (mode : Nat) (flush : Bool) (s : Bool) (m : Nat) (e : Int) (sticky : Bool) : Nat × Nat :=
  if m = 0 then (withSign f s 0, 0)
  else
    let top := e + Nat.log2 m
    let q := max (top - f.fw) (f.emin - f.fw)
    let (k, inx) := roundQ mode s m e q sticky
    let (k', _) := roundQ mode s m e (top - f.fw) sticky
    let tiny := decide (top < f.emin) && !(decide (k' = 2 ^ (f.fw + 1)) && decide (top + 1 = f.emin))
    let (k, q) := if k = 2 ^ (f.fw + 1) then (2 ^ f.fw, q + 1) else (k, q)
    let ovf := decide (2 ^ f.fw ≤ k) && (decide (f.emax < q + f.fw) || (f.e4 && decide (q + f.fw = 8) && decide (k = 15)))
    if ovf then (overflowBits f mode s, 5)
    else if flush && tiny then (withSign f s 0, 0)
    else
      let mag := if k < 2 ^ f.fw then k else (q + f.fw + f.bias).toNat * 2 ^ f.fw + (k - 2 ^ f.fw)
      (withSign f s mag, bit inx + (if tiny && inx then 2 else 0))

/-- R45: a subnormal input is replaced by zero of its sign. -/
def flushIn (f : Fmt) (v : FVal) : FVal :=
  match v with
  | .fin s m e => if m < 2 ^ f.fw then .fin s 0 e else .fin s m e
  | v => v

/-- Whether a value is a signalling NaN other than poison. -/
def FVal.sig (v : FVal) : Bool := match v with | .nan _ sg => sg | _ => false
def FVal.isNan (v : FVal) : Bool := match v with | .nan _ _ => true | _ => false
def FVal.isPoison (v : FVal) : Bool := match v with | .poison _ => true | _ => false
def FVal.isInf (v : FVal) : Bool := match v with | .inf _ => true | _ => false
def FVal.isZero (v : FVal) : Bool := match v with | .fin _ m _ => decide (m = 0) | _ => false
def FVal.sign (v : FVal) : Bool := match v with | .poison s => s | .nan s _ => s | .inf s => s | .fin s _ _ => s
def FVal.neg (v : FVal) : FVal :=
  match v with | .poison s => .poison s | .nan s g => .nan s g | .inf s => .inf (!s) | .fin s m e => .fin (!s) m e

/-- The exact sum of two finite values as an integer and an exponent. -/
def exactAdd (s1 : Bool) (m1 : Nat) (e1 : Int) (s2 : Bool) (m2 : Nat) (e2 : Int) : Int × Int :=
  let e := min e1 e2
  let x : Int := (m1 : Int) * 2 ^ (e1 - e).toNat
  let y : Int := (m2 : Int) * 2 ^ (e2 - e).toNat
  ((if s1 then -x else x) + (if s2 then -y else y), e)

/-- The exact sum of integers times powers of two. -/
def sumScaled (l : List (Int × Int)) : Int × Int :=
  l.foldl (fun a b =>
    let q := min a.2 b.2
    (a.1 * 2 ^ (a.2 - q).toNat + b.1 * 2 ^ (b.2 - q).toNat, q)) (0, 0)

/-- Round an integer times a power of two; zero takes the sign given. -/
def roundInt (f : Fmt) (mode : Nat) (flush zs : Bool) (n : Int) (e : Int) : Nat × Nat :=
  if n = 0 then (withSign f zs 0, 0) else roundTo f mode flush (decide (n < 0)) n.natAbs e false

/-- R50, R118: poison first (PO, and NV only for another signalling NaN), then NaNs, then `g` on the rest. -/
def arith (f : Fmt) (ops : List FVal) (g : Nat × Nat) : Nat × Nat :=
  let nv := if ops.any FVal.sig then 16 else 0
  if ops.any FVal.isPoison then (f.poison, 32 + nv)
  else if ops.any FVal.isNan then (f.cnan, nv)
  else g

/-- R118: a + b. -/
def faddV (f : Fmt) (mode : Nat) (flush : Bool) (a b : FVal) : Nat × Nat :=
  arith f [a, b] (match a, b with
    | .inf s, .inf t => if s = t then (infBits f s, 0) else (f.cnan, 16)
    | .inf s, _ => (infBits f s, 0)
    | _, .inf t => (infBits f t, 0)
    | .fin s m e, .fin t n d =>
      let (x, q) := exactAdd s m e t n d
      roundInt f mode flush (if m = 0 ∧ n = 0 ∧ s = t then s else decide (mode = 4)) x q
    | _, _ => (f.cnan, 0))

/-- R118: a × b. -/
def fmulV (f : Fmt) (mode : Nat) (flush : Bool) (a b : FVal) : Nat × Nat :=
  arith f [a, b] (match a, b with
    | .inf s, b => if b.isZero then (f.cnan, 16) else (infBits f (s != b.sign), 0)
    | a, .inf t => if a.isZero then (f.cnan, 16) else (infBits f (a.sign != t), 0)
    | .fin s m e, .fin t n d => roundTo f mode flush (s != t) (m * n) (e + d) false
    | _, _ => (f.cnan, 0))

/-- R118: a / b; a finite nonzero dividend over zero sets DZ. -/
def fdivV (f : Fmt) (mode : Nat) (a b : FVal) : Nat × Nat :=
  arith f [a, b] (match a, b with
    | .inf _, .inf _ => (f.cnan, 16)
    | .inf s, b => (infBits f (s != b.sign), 0)
    | a, .inf t => (withSign f (a.sign != t) 0, 0)
    | .fin s m e, .fin t n d =>
      if n = 0 then (if m = 0 then (f.cnan, 16) else (infBits f (s != t), 8))
      else
        let k := 2 * f.fw + 8 + Nat.log2 n
        let x := m * 2 ^ k
        roundTo f mode false (s != t) (x / n) (e - d - k) (decide (x % n ≠ 0))
    | _, _ => (f.cnan, 0))

/-- Integer square root, bit by bit from bit `i - 1`. -/
def isqrt (i : Nat) (n r : Nat) : Nat :=
  match i with
  | 0 => r
  | i + 1 => let t := r + 2 ^ i; isqrt i n (if t * t ≤ n then t else r)

/-- R118: √a; √−0 = −0; below zero is invalid. -/
def fsqrtV (f : Fmt) (mode : Nat) (a : FVal) : Nat × Nat :=
  arith f [a] (match a with
    | .inf s => if s then (f.cnan, 16) else (infBits f false, 0)
    | .fin s m e =>
      if m = 0 then (withSign f s 0, 0)
      else if s then (f.cnan, 16)
      else
        let k := 2 * f.fw + 8 + (if e % 2 = 0 then 0 else 1)
        let x := m * 2 ^ k
        let r := isqrt (Nat.log2 x / 2 + 1) x 0
        roundTo f mode false false r ((e - k) / 2) (decide (r * r ≠ x))
    | _ => (f.cnan, 0))

/-- R126: a × b + c rounded once; 0 × ∞ sets NV whatever c is. -/
def fmaV (f : Fmt) (mode : Nat) (flush : Bool) (a b c : FVal) : Nat × Nat :=
  let bad := (a.isInf && b.isZero) || (a.isZero && b.isInf)
  let (r, fl) := arith f [a, b, c] (
    if bad then (f.cnan, 16)
    else
      let s := a.sign != b.sign
      if a.isInf || b.isInf then
        match c with
        | .inf t => if s = t then (infBits f s, 0) else (f.cnan, 16)
        | _ => (infBits f s, 0)
      else
        match a, b, c with
        | _, _, .inf t => (infBits f t, 0)
        | .fin _ m e, .fin _ n d, .fin t p q =>
          let (x, k) := exactAdd s (m * n) (e + d) t p q
          roundInt f mode flush (if m * n = 0 ∧ p = 0 ∧ s = t then s else decide (mode = 4)) x k
        | _, _, _ => (f.cnan, 0))
  (r, if bad then fl ||| 16 else fl)

/-- An order of values: 0 less, 1 equal, 2 greater, 3 unordered (R121). -/
def fcmp (a b : FVal) : Nat :=
  match a, b with
  | .inf s, .inf t => if s = t then 1 else if s then 0 else 2
  | .inf s, .fin _ _ _ => if s then 0 else 2
  | .fin _ _ _, .inf t => if t then 2 else 0
  | .fin s m e, .fin t n d =>
    let (x, _) := exactAdd s m e (!t) n d
    if x < 0 then 0 else if x = 0 then 1 else 2
  | _, _ => 3

/-- R119: the smaller (or larger) of two operands given with their bits; −0 is less than +0. -/
def fminmax (f : Fmt) (mx : Bool) (x y : Nat) : Nat × Nat :=
  let a := fdec f x
  let b := fdec f y
  let nv := if a.sig || b.sig then 16 else 0
  if a.isPoison || b.isPoison then (f.poison, 32)
  else if a.isNan && b.isNan then (f.cnan, nv)
  else if a.isNan then (y, nv)
  else if b.isNan then (x, nv)
  else
    let c := fcmp a b
    let aLess := decide (c = 0) || (decide (c = 1) && a.sign)
    (if aLess != mx then x else y, 0)

/-- R120: the bits of a with a sign decided by `g`. -/
def fsgn (f : Fmt) (g : Bool → Bool → Bool) (x y : Nat) : Nat × Nat :=
  let a := fdec f x
  let b := fdec f y
  if a.isPoison || b.isPoison then (f.poison, 32)
  else (withSign f (g a.sign b.sign) (x % 2 ^ (f.ew + f.fw)), 0)

/-- R121: compare: `t` accepts the order; `quiet` for FEQ. `kx` and `ky`: the operand is of the form's K; the NaN that stands
for one of the wrong K sets no flag (R40; log entry 75). -/
def fcompare (f : Fmt) (t : Nat → Bool) (quiet kx ky : Bool) (x y : Nat) : Nat × Nat :=
  let a := fdec f x
  let b := fdec f y
  let nv := if quiet then a.sig || b.sig else (kx && a.isNan) || (ky && b.isNan)
  (bit (t (fcmp a b)), (if nv then 16 else 0) + (if a.isPoison || b.isPoison then 32 else 0))

/-- R122: kind code in bits 2:0 and sign in bit 3. -/
def fclassOf (f : Fmt) (x : Nat) : Nat :=
  let a := fdec f x
  (match a with
    | .fin _ m _ => if m = 0 then 0 else if m < 2 ^ f.fw then 1 else 2
    | .inf _ => 3
    | .nan _ sg => if sg then 5 else 4
    | .poison _ => 6) + 8 * bit a.sign

/-! ### Conversions (R44) -/

/-- The integer of a pattern in an integer format (R39). -/
def intVal (code x : Nat) : Int :=
  let n := fmtWidth code
  let x := x % 2 ^ n
  if isSigned code ∧ 2 ^ (n - 1) ≤ x then (x : Int) - 2 ^ n else x
def intMin (code : Nat) : Int := if isSigned code then -(2 ^ (fmtWidth code - 1)) else 0
def intMax (code : Nat) : Int := if isSigned code then 2 ^ (fmtWidth code - 1) - 1 else 2 ^ fmtWidth code - 1
/-- Wrap to a width (R39). -/
def wrapTo (n : Nat) (x : Int) : Nat := (x % (2 ^ n : Int)).toNat
def clampTo (code : Nat) (x : Int) : Int := max (intMin code) (min (intMax code) x)

/-- R44: FP to integer. -/
def cvtFI (dst mode : Nat) (v : FVal) : Nat × Nat :=
  let n := fmtWidth dst
  match v with
  | .poison _ => (0, 48)
  | .nan _ _ => (0, 16)
  | .inf s => (wrapTo n (if s then intMin dst else intMax dst), 16)
  | .fin s m e =>
    let (k, inx) := roundQ mode s m e 0 false
    let x : Int := if s then -(k : Int) else k
    let y := clampTo dst x
    (wrapTo n y, if y ≠ x then 16 else bit inx)

/-- R44: integer to FP. -/
def cvtIF (f : Fmt) (mode : Nat) (flush : Bool) (x : Int) : Nat × Nat := roundInt f mode flush false x 0

/-- R44: FP to FP of another format. -/
def cvtFF (f : Fmt) (mode : Nat) (flush : Bool) (v : FVal) : Nat × Nat :=
  match v with
  | .poison _ => (f.poison, 32)
  | .nan _ sg => (f.cnan, if sg then 16 else 0)
  | .inf s => if f.e4 then (f.cnan, 16) else (infBits f s, 0)
  | .fin s m e => roundTo f mode flush s m e false

/-- R44: convert a pattern between two format codes. `arr` flushes B16, H16 and F32 at both ends (R45). -/
def convert (src dst mode : Nat) (arr : Bool) (x : Nat) : Nat × Nat :=
  let fl (c : Nat) : Bool := arr && decide (9 ≤ c) && decide (c ≤ 0xB)
  if src = dst then (x % 2 ^ fmtWidth dst, 0)
  else if isInt src then
    if isInt dst then (wrapTo (fmtWidth dst) (clampTo dst (intVal src x)), 0)
    else cvtIF (fmtOf dst) mode (fl dst) (intVal src x)
  else
    let v := fdec (fmtOf src) x
    let v := if fl src then flushIn (fmtOf src) v else v
    if isInt dst then cvtFI dst mode v else cvtFF (fmtOf dst) mode (fl dst) v

/-! ### Scalar operands and results (R40, R41, R116) -/

/-- R40: an f register is of the K that an F64 form (t = 0) or an F32 form (t = 1) reads. -/
def ofKind (t : BitVec 1) (r : FReg) : Bool := decide (r.k = decide (t = 1))
/-- R40, R116: an F64 form (t = 0) or an F32 form (t = 1) reads an f register; one of the wrong K reads as the canonical NaN,
which sets no flag (`fcompare`, `cvtReg`; log entry 75). -/
def readF (t : BitVec 1) (r : FReg) : Nat :=
  if t = 0 then (if r.k then 0x7FF8000000000000 else r.bits.toNat)
  else if r.k then r.bits.toNat % 2 ^ 32 else 0x7FC00000
/-- R116: a result of the form. -/
def resF (t : BitVec 1) (x : Nat) : FReg := { bits := w64 x, k := decide (t = 1) }
/-- The format of a scalar form. -/
def scalarFmt (t : BitVec 1) : Fmt := if t = 0 then fmtOf 8 else fmtOf 9
/-- R121: compare two f registers in a form. -/
def compareF (t : BitVec 1) (ord : Nat → Bool) (quiet : Bool) (x y : FReg) : Nat × Nat :=
  fcompare (scalarFmt t) ord quiet (ofKind t x) (ofKind t y) (readF t x) (readF t y)
/-- R44, R123: an f register to an integer; one of the wrong K sets no flag (R40). -/
def cvtReg (dst mode : Nat) (t : BitVec 1) (x : FReg) : Nat × Nat :=
  let v := cvtFI dst mode (fdec (scalarFmt t) (readF t x))
  (v.1, if ofKind t x then v.2 else 0)
/-- R43: set flags, which are sticky. -/
def setFlags (r : Regs) (fl : Nat) : Regs := { r with fstat := r.fstat ||| w64 fl }
/-- FSTAT.FRM (R43). -/
def frm (r : Regs) : Nat := bits r.fstat 6 3
/-- R41: the static mode a mode code selects; none where the code is illegal. -/
def modeOf (r : Regs) (m : BitVec 3) : Option Nat :=
  if m = 0 then (if 1 ≤ frm r ∧ frm r ≤ 5 then some (frm r) else none)
  else if m.toNat ≤ 5 then some m.toNat else none

/-! ### Frames and block sums (R46 to R49) -/

/-- R46: the exponent of a scale, an exact power of two. -/
def scaleOf (x : W64) : Option Int :=
  if x.getLsbD 63 ∨ bits x 0 52 ≠ 0 ∨ bits x 52 11 = 0 ∨ bits x 52 11 = 2047 then none
  else some ((bits x 52 11 : Int) - 1023)

/-- R47: the frame width of an operand format. -/
def frameWidth (code : Nat) : Nat :=
  if code = 0x8 then 64 else if code = 0x9 then 32
  else if code = 0xA ∨ code = 0xB ∨ code = 0x1 ∨ code = 0xE then 16 else 8

/-- An element of a file: its value; integers are exact (R48). -/
def elemVal (code x : Nat) : FVal :=
  if isInt code then let v := intVal code x; .fin (decide (v < 0)) v.natAbs 0 else fdec (fmtOf code) x

/-- R48: the frame of a file: shared exponent and signed magnitudes. -/
def frame (code w : Nat) (sigma : Int) (x : List FVal) : Int × List Int :=
  let signed (s : Bool) (m : Nat) : Int := if s then -(m : Int) else m
  if isInt code then
    ((w : Int) - 1 + sigma, x.map fun v => match v with | .fin s m _ => signed s m | _ => 0)
  else
    let f := fmtOf code
    let ex (v : FVal) : Int := match v with
      | .fin _ m e => if 2 ^ f.fw ≤ m then e + Nat.log2 m else f.emin
      | _ => f.emin
    let e := (x.map ex).foldl max f.emin
    (e + sigma, x.map fun v => match v with
      | .fin s m q =>
        let k := (roundQ 1 s m (q + w - 1 - e) 0 false).1
        signed s (min k (2 ^ w - 1))
      | _ => 0)

/-- Sum of products of two lists. -/
def dot : List Int → List Int → Int
  | a :: r, b :: t => a * b + dot r t
  | _, _ => 0

/-- R49: one K block: C and the exact block sum. `cf` is the C format. -/
def blockStep (cf ca cb : Nat) (sa sb : Int) (c : Nat) (fa fb : List FVal) : Nat × Int :=
  let f := fmtOf cf
  let cv := fdec f c
  let (ea, ma) := frame ca (frameWidth ca) sa fa
  let (eb, mb) := frame cb (frameWidth cb) sb fb
  let acc := dot ma mb
  let pairs := fa.zip fb
  let infs := pairs.filter fun p => p.1.isInf || p.2.isInf
  let r :=
    if cv.isPoison || fa.any FVal.isPoison || fb.any FVal.isPoison then f.poison
    else if cv.isNan || fa.any FVal.isNan || fb.any FVal.isNan then f.cnan
    else if infs.any fun p => p.1.isZero || p.2.isZero then f.cnan
    else match infs with
      | p :: _ =>
        let s := p.1.sign != p.2.sign
        if (infs.all fun p => (p.1.sign != p.2.sign) = s) && !(cv.isInf && (cv.sign != s)) then infBits f s else f.cnan
      | [] =>
        match cv with
        | .fin s m e =>
          let q := ea + eb - frameWidth ca - frameWidth cb + 2
          let (x, k) := exactAdd s m e (decide (acc < 0)) acc.natAbs q
          (roundInt f 1 false false x k).1
        | _ => c
  (r, acc)

end Sys2Proof.Machine
end

