-- ==== Sys2Proof/Machine/Operands.lean ====
section
/-!
DEFINITION. Operand forms: integer functions at the width of a core or a BAU, addresses, control and status registers,
loads and stores with their checks (R78, R97 to R115, R141 to R149, R283).
-/

namespace Sys2Proof.Machine

/-! ### Integer functions of R97, R102 and R103, at any width -/

/-- Clamp an exact value to the signed range of w bits. -/
def satS (w : Nat) (x : Int) : BitVec w := BitVec.ofInt w (max (-(2 ^ (w - 1))) (min (2 ^ (w - 1) - 1) x))
/-- Clamp an exact value to the unsigned range of w bits. -/
def satU (w : Nat) (x : Int) : BitVec w := BitVec.ofInt w (max 0 (min (2 ^ w - 1) x))
/-- 1 if the condition holds, else 0. -/
def flag (w : Nat) (b : Bool) : BitVec w := if b then 1 else 0
/-- Shift amount: the low 6 bits on a core, the low 5 on a BAU (R97, R283). -/
def shAmt {w : Nat} (y : BitVec w) : Nat := y.toNat % w
/-- Rotation to the right. -/
def ror {w : Nat} (x : BitVec w) (n : Nat) : BitVec w := (x >>> n) ||| (x <<< (w - n))
/-- Number of leading zero bits; w if x = 0. -/
def clz {w : Nat} (x : BitVec w) : BitVec w := BitVec.ofNat w (if x = 0 then w else w - 1 - Nat.log2 x.toNat)
/-- Number of trailing zero bits; w if x = 0. -/
def ctz {w : Nat} (x : BitVec w) : BitVec w :=
  BitVec.ofNat w (((List.range w).find? fun i => x.getLsbD i).getD w)
/-- Number of 1 bits. -/
def popc {w : Nat} (x : BitVec w) : BitVec w := BitVec.ofNat w ((List.range w).countP fun i => x.getLsbD i)
/-- Byte order reversed. -/
def bswap {w : Nat} (x : BitVec w) : BitVec w := BitVec.ofNat w (leNat (leBytes (w / 8) x.toNat).reverse)
/-- R97: sign extension of the low n bits. -/
def sextLow {w : Nat} (x : BitVec w) (n : Nat) : BitVec w := ((x.extractLsb' 0 n).signExtend w)
/-- High half of an exact product, as a pattern. -/
def mulHigh (w : Nat) (x y : Int) : BitVec w := BitVec.ofInt w (x * y / 2 ^ w)
/-- R103: signed quotient. -/
def divS {w : Nat} (x y : BitVec w) : BitVec w :=
  if y = 0 then (if x.toInt < 0 then satS w (-(2 ^ w)) else satS w (2 ^ w)) else satS w (x.toInt.tdiv y.toInt)
/-- R103: unsigned quotient. -/
def divU {w : Nat} (x y : BitVec w) : BitVec w := if y = 0 then BitVec.allOnes w else x / y
/-- R103: signed remainder. -/
def remS {w : Nat} (x y : BitVec w) : BitVec w := if y = 0 then x else BitVec.ofInt w (x.toInt.tmod y.toInt)
/-- R103: unsigned remainder. -/
def remU {w : Nat} (x y : BitVec w) : BitVec w := if y = 0 then x else x % y
/-- A 32-bit operation on the low halves, sign-extended (R102). -/
def wordOp (f : W32 → W32 → W32) (x y : W64) : W64 := (f (x.truncate 32) (y.truncate 32)).signExtend 64

/-! ### Registers of a BAU (R281, R283) -/

/-- R74, R281: g0 reads 0. -/
def getBG (b : Bank) (n : R5) : W32 := if n = 0 then 0 else tget b.g n.toNat 0
def setBG (n : R5) (v : W32) (b : Bank) : Bank := if n = 0 then b else { b with g := tset 0 b.g n.toNat v }

/-- R283: sequential flow; an instruction at 0xFFC that does not transfer control ends the run after it executes. -/
def bauNext (g : Nat) (s : State) : State :=
  if (s.bank g).pc = 0xFFC then endRun g 2 0 s else modBank g (fun b => { b with pc := b.pc + 4 }) s

/-- R83: a BAU has g0 to g15 only; other register fields are illegal. -/
def bauOp (g : Nat) (rs : List R5) (f : Bank → Bank) (s : State) : State :=
  if rs.any fun r => 16 ≤ r.toNat then endRun g 1 0 s else bauNext g (modBank g f s)

/-- R104 to R106 on a BAU: a taken target above 0xFFC or not a multiple of 4 ends the run. -/
def bauJump (g : Nat) (rs : List R5) (target : W32) (f : Bank → Bank) (s : State) : State :=
  if rs.any fun r => 16 ≤ r.toNat then endRun g 1 0 s
  else if 0xFFC < target.toNat ∨ target.toNat % 4 ≠ 0 then endRun g 2 0 s
  else modBank g (fun b => { f b with pc := target.toNat }) s

/-- An integer form with two sources on a core or a BAU. -/
def alu2 (f : W64 → W64 → W64) (f32 : W32 → W32 → W32) (d a b : R5) (s : State) : State :=
  match s.cur with
  | .hart c => scalar c (fun r => setG r d (f (getG r a) (getG r b))) s
  | .bau g => bauOp g [d, a, b] (fun k => setBG d (f32 (getBG k a) (getBG k b)) k) s

/-- An integer form with one source. -/
def alu1 (f : W64 → W64) (f32 : W32 → W32) (d a : R5) (s : State) : State :=
  match s.cur with
  | .hart c => scalar c (fun r => setG r d (f (getG r a))) s
  | .bau g => bauOp g [d, a] (fun k => setBG d (f32 (getBG k a)) k) s

/-- A form that a BAU does not have (R283). -/
def aluCore (f : W64 → W64 → W64) (d a b : R5) (s : State) : State :=
  coreOnly s fun c _ => scalar c (fun r => setG r d (f (getG r a) (getG r b))) s

/-- R104: a conditional branch. -/
def branch (t : W64 → W64 → Bool) (t32 : W32 → W32 → Bool) (a b : R5) (o : BitVec 16) (s : State) : State :=
  match s.cur with
  | .hart c =>
    let r := (s.ctx c).regs
    if t (getG r a) (getG r b) then
      let target := r.pc + (o.signExtend 64 <<< 2)
      jump c target (bits target 57 7 ≠ 0) id s
    else scalar c id s
  | .bau g =>
    let k := s.bank g
    if t32 (getBG k a) (getBG k b) then bauJump g [a, b] (BitVec.ofNat 32 k.pc + (o.signExtend 32 <<< 2)) id s
    else bauOp g [a, b] id s

/-! ### Control and status registers (R141 to R149, R352) -/

/-- R144, R352: the assigned numbers, and whether the register is read-only as a whole. -/
def csrReadOnly (n : Nat) : Option Bool :=
  if n = 0x001 ∨ n = 0x002 then some false
  else if n = 0x010 ∨ n = 0x011 ∨ n = 0x012 then some true
  else if 0x400 ≤ n ∧ n ≤ 0x408 then some false
  else if n = 0x409 then some true
  else if 0x410 ≤ n ∧ n ≤ 0x417 then some false
  else if 0x420 ≤ n ∧ n ≤ 0x437 then some false
  else if 0xC00 ≤ n ∧ n ≤ 0xC07 then some false
  else if n = 0xC08 then some true
  else if n = 0xC09 then some false
  else if n = 0xC0A ∨ n = 0xC0B then some true
  else none

/-- R142: the least privilege of a number. -/
def csrPriv (n : Nat) : Nat := n / 0x400

/-- A trap register of a level by its place in the block (R144). -/
def trapReg (t : TrapRegs) (i : Nat) : W64 :=
  if i = 0 then t.tstat else if i = 1 then t.tpc else if i = 2 then t.tcause else if i = 3 then t.tvalue
  else if i = 4 then t.tvec else t.tscratch

/-- R145 to R147: write a trap register under its map. -/
def setTrapReg (t : TrapRegs) (i : Nat) (v : W64) : TrapRegs :=
  if i = 0 then { t with tstat := v }
  else if i = 1 then { t with tpc := instrAddr v }
  else if i = 2 then { t with tcause := v &&& 0x800000000000003F }
  else if i = 3 then { t with tvalue := v }
  else if i = 4 then { t with tvec := instrAddr v }
  else { t with tscratch := v }

/-- The value of a CSR. A write-only register reads as zero (R6). -/
def csrRead (s : State) (h : Ctx) (n : Nat) : W64 :=
  let cl := s.cluster (pcnOf h.gcn)
  if n = 0x001 then h.regs.fstat
  else if n = 0x002 then h.csr.dpat
  else if n = 0x010 then w64 s.gtime
  else if n = 0x011 then h.csr.cycle
  else if n = 0x012 then h.csr.retired
  else if n < 0x406 then trapReg h.ts (n - 0x400)
  else if n = 0x406 then h.csr.imask
  else if n = 0x407 then w64 (bit h.csr.timer + 2 * bit h.csr.soft + 4 * bit h.csr.event)
  else if n = 0x408 then h.csr.tcmp
  else if n = 0x409 then h.csr.asid.zeroExtend 64
  else if n < 0x418 then tget h.csr.pw (n - 0x410) 0
  else if n < 0x430 then tget cl.wpt (n - 0x420) 0
  else if n < 0x438 then tget cl.xw (n - 0x430) 0
  else if n < 0xC06 then trapReg h.tm (n - 0xC00)
  else if n = 0xC06 then h.csr.mdeleg
  else if n = 0xC07 then w64 cl.msize
  else if n = 0xC08 then w64 h.gcn
  else if n = 0xC0A then (s.part h.part).fqcfg
  else if n = 0xC0B then (s.part h.part).ptcfg
  else 0

/-- R53: bits of a region register. -/
def pwMask : W64 := 0xF01FFFF8001FFFF8
/-- R58: bits of a write permission register. -/
def wptMask : W64 := 0x80007FFF00007FFF
/-- R59: bits of an export window register. -/
def xwMask : W64 := 0xF80003FFFFFFC07F
/-- R71: bits of DPAT. -/
def dpatMask : W64 := 0xF7007FFFFFFFFFFF
/-- R148: bits of MDELEG. -/
def mdelegMask : W64 := ~~~0x2600#64

/-- R216: V is cleared in every field that no longer lies wholly inside mark space. -/
def fitField (msize : Nat) (v : W64) : W64 :=
  if v.getLsbD 63 ∧ msize * 4096 < bits v 0 15 + 2 ^ (bits v 44 4 + bits v 40 4) then v &&& 0x7FFFFFFFFFFFFFFF else v

/-- R225: the configuration of a field in force at a stamp: the last change with E at or below it, else the word that
stood before every listed change. -/
def mfcAt (cl : Cluster) (n stamp : Nat) : W64 :=
  ((cl.mfcLog.filter fun k => k.n = n ∧ k.e ≤ stamp).getLast?.map (·.v)).getD (tget cl.mfc n 0)

/-- R225: a change takes its place among the changes by its effect cycle. Of two changes of one register with equal E, whose keys R225 makes
equal, the one accepted later stands last (DESIGN CHOICE, log entry 114). -/
def insertChange (k : MarkChange) : List MarkChange → List MarkChange
  | [] => [k]
  | x :: r => if x.e ≤ k.e then x :: insertChange k r else k :: x :: r

/-- A change takes its place before those of the same cycle. -/
def insertBefore (k : MarkChange) : List MarkChange → List MarkChange
  | [] => [k]
  | x :: r => if x.e < k.e then x :: insertBefore k r else k :: x :: r

/-- R61, R216: store MSIZE; values above 8 are stored as 8. V is cleared from the next GTB cycle on in every field that no
longer lies inside, so that operations stamped before keep the configuration of their stamp (R223), and in every accepted
change that is not in force and does not fit (DESIGN CHOICE, log entry 55); a change of that cycle that fits stands. -/
def setMsize (q : Nat) (v : W64) (s : State) : State :=
  modCluster q (fun cl =>
    let m := min 8 (bits v 0 4)
    let fits (k : MarkChange) : MarkChange := if s.gtime < k.e then { k with v := fitField m k.v } else k
    let cut := ((List.range 8).filter fun n => fitField m (mfcAt cl n s.gtime) ≠ mfcAt cl n s.gtime).map fun n =>
      ({ n := n, e := s.gtime + 1, v := fitField m (mfcAt cl n s.gtime) } : MarkChange)
    { cl with
      msize := m
      mfcLog := cut.foldr insertBefore (cl.mfcLog.map fits)
      mfcNext := cl.mfcNext.map fits }) s

/-- R61: a hart's write takes effect only if no core of the cluster other than its own is resident in a task; otherwise
it is ignored and logged. -/
def writeMsize (q : Nat) (own : Option Nat) (v : W64) (s : State) : State :=
  if s.ctxs.any fun p => p.2.resident && decide (pcnOf p.2.gcn = q) && p.2.task.isSome && decide (some p.2.gcn ≠ own)
  then logEvent (.refused 0x61) s else setMsize q v s

/-- R352: a FID names a suspended part of the partition that no earlier write of FRESUME has resolved. -/
def namesPart (t : Partition) (fid : Nat) : Bool := (t.susp.any fun u => u.fid = fid) && !t.fresume.any fun x => x.2 = fid

/-- R352: FRESUME names a suspended part of the partition; another FID is ignored and logged. -/
def writeFresume (p : Nat) (v : W64) (s : State) : State :=
  if bits v 62 2 = 3 then s
  else if namesPart (s.part p) (bits v 0 16) then
    modPart p (fun t => { t with fresume := t.fresume ++ [(bits v 62 2, bits v 0 16)] }) s
  else logEvent (.refused 0x352) s

/-- R141, R143, R5: write a CSR under its map. -/
def csrWrite (c n : Nat) (v : W64) (s : State) : State :=
  let h := s.ctx c
  let q := pcnOf h.gcn
  let hart (f : Ctx → Ctx) : State := modCtx c f s
  let csr (f : Csrs → Csrs) : State := modCtx c (fun h => { h with csr := f h.csr }) s
  if n = 0x001 then hart fun h => { h with regs := { h.regs with fstat := v &&& 0x1FF } }
  else if n = 0x002 then csr fun k => { k with dpat := v &&& dpatMask }
  else if n < 0x400 then s
  else if n < 0x406 then hart fun h => { h with ts := setTrapReg h.ts (n - 0x400) v }
  else if n = 0x406 then csr fun k => { k with imask := v &&& 3 }
  else if n = 0x407 then csr fun k => { k with soft := v.getLsbD 1 }
  else if n = 0x408 then csr fun k => { k with tcmp := v, timer := decide (v.toNat ≤ s.gtime) }
  else if n < 0x410 then s
  else if n < 0x418 then csr fun k => { k with pw := tset 0 k.pw (n - 0x410) (v &&& pwMask) }
  else if n < 0x420 then s
  else if n < 0x430 then modCluster q (fun cl => { cl with wpt := tset 0 cl.wpt (n - 0x420) (v &&& wptMask) }) s
  else if n < 0x438 then modCluster q (fun cl => { cl with xw := tset 0 cl.xw (n - 0x430) (v &&& xwMask) }) s
  else if n < 0xC06 then hart fun h => { h with tm := setTrapReg h.tm (n - 0xC00) v }
  else if n = 0xC06 then csr fun k => { k with mdeleg := v &&& mdelegMask }
  else if n = 0xC07 then writeMsize q (some h.gcn) v s
  else if n = 0xC09 then writeFresume h.part v s
  else s

/-- R142: a CSR instruction is illegal for an unassigned number, below the least privilege, or writing a read-only
register. -/
def csrIllegal (h : Ctx) (n : Nat) (writes : Bool) : Bool :=
  match csrReadOnly n with
  | none => true
  | some ro => decide (h.priv.code < csrPriv n) || (writes && ro)

/-- R195, R197: whether a target lies in the scope instance of a hart: CORE holds no remote target. -/
def inScope (gcn scope target : Nat) : Bool :=
  if scope = 0 then false
  else if scope = 1 then decide (target = pcnOf gcn)
  else if scope = 2 then decide (target < 0x100000) && decide (dieOf target = dieOf (pcnOf gcn))
  else if scope = 3 then decide (target < 0x100000)
  else true

/-- R161, R167: an earlier remote store or atomic of the scope is not yet acknowledged. `reads` asks for the reads of
atomics only (FENCE.ACQ). -/
def pendingIn (h : Ctx) (scope : Nat) (reads : Bool) : Bool :=
  h.outst.any fun o => inScope h.gcn scope o.target && (!reads || o.atomic)

/-- R141: the CSR family. `new` computes the written value from the old one, g[d] and g[a]. A write of FRESUME is a
release at PACKAGE scope and stalls for acknowledgements (R352); of that stall R384 says nothing (log entry 67). -/
def csrOp (i : Instr) (d a : R5) (n : Nat) (reads : Bool) (new : Option (W64 → W64 → W64 → W64)) (s : State) : State :=
  coreOnly s fun c h =>
    if csrIllegal h n new.isSome then illegal c i s
    else outside c (fun h s =>
      if n = 0xC09 ∧ new.isSome ∧ pendingIn h 3 false then s else
      let s := if n = 0xC09 ∧ new.isSome then cover c 3 s else s
      let old := csrRead s h n
      let m := getG h.regs d
      let x := getG h.regs a
      let s := if reads then putG c d old s else s
      retire c (match new with
        | none => s
        | some f => csrWrite c n (f old m x) s)) s

/-! ### Loads and stores (R108 to R115) -/

/-- R111, R200: bytes of a local span as the hart's open chunk sees them. -/
def chunkRead (s : State) (h : Ctx) (k n : Nat) : List Byte :=
  let held := match h.chunk with | none => [] | some c => c.stores
  (List.range n).map fun i => ((held.find? fun p => p.1 = k + i).map (·.2)).getD (readByte s.mem (k + i))

/-- Union of two lists of words. -/
def addWords (l new : List Nat) : List Nat := new.foldl (fun l w => if l.contains w then l else w :: l) l

/-- What a load writes (R108, R114): sign or zero extension, or a typed conversion with its flags. -/
def writeDest (dst : Dest) (v : Nat) (r : Regs) : Regs :=
  match dst with
  | .g d n sg => setG r d (if sg then (BitVec.ofNat (8 * n) v).signExtend 64 else w64 v)
  | .f d f =>
    let wide := f = 0x8 ∨ f = 0x2 ∨ f = 0x6
    let (x, fl) := convert f (if wide then 0x8 else 0x9) 1 false v
    let same := if f = 0x8 ∨ f = 0x9 then
        let u := fdec (fmtOf f) v
        (if u.sig then 16 else 0) + (if u.isPoison then 32 else 0)
      else fl
    setFlags (setF r d { bits := w64 x, k := decide (¬ wide) }) same

/-- The gang form of the file load. -/
def isGangLoad (i : Instr) : Bool := match i with | .axldg .. => true | _ => false

/-- R248, R260: the local span that a queued array transfer of a member reads or writes; of an AXLDG only member 0
transfers. -/
def entrySpan (member : Nat) (e : AEntry) : Option (Nat × Nat) :=
  let w (v : R5) : Nat := bits (tget e.regs.v v.toNat {}).word 8 7 + 1
  match e.instr with
  | .axld v _ _ | .axst v _ _ => some (e.ga.toNat, (bits e.gb 16 12 * w v + 7) / 8)
  | .axldf v _ _ _ | .axldg v _ _ _ => if isGangLoad e.instr && decide (member ≠ 0) then none else
    some (e.ga.toNat, (bits e.gb 0 6 * bits e.gb 8 7 * w v + 7) / 8 +
      (if bits (tget e.regs.v v.toNat {}).word 16 4 = 0xE then 32 else 0))
  | _ => none

/-- R248: a scalar access to bytes that a queued array instruction transfers stalls. -/
def arrayBusy (h : Ctx) (a n : Nat) : Bool :=
  h.eng.aq.any fun e => match entrySpan h.member e with
    | none => false
    | some (b, m) => decide (a < b + m) && decide (b < a + n)

/-- R196, R204, R248: a local access of a hart waits for a queued array transfer of its bytes, and for a remote write to
them that it must not overtake. -/
def localBusy (s : State) (c a n : Nat) : Bool :=
  arrayBusy (s.ctx c) a n || spanBusy s c a n

/-- R108 to R110, R114: a load of n bytes at a core. -/
def load (c : Nat) (ea : W64) (n : Nat) (dst : Dest) (s : State) : State :=
  let h := s.ctx c
  let a := ea.toNat
  if h.regs.pc = lastPc then trapHere c 2 0x0200000000000000 s
  else if a % n ≠ 0 then trapHere c 4 ea s
  else if !ea.getLsbD 63 then
    if !localOk s h a n { rd := true } then trapHere c 5 ea s
    else if localBusy s c a n then s
    else
      let k := localKey h.gcn a
      let v := leNat (chunkRead s h k n)
      retireChunk c (h.regs.pc + 4) (modCtx c (fun h => { h with
        regs := writeDest dst v h.regs
        chunk := h.chunk.map fun q => { q with reads := addWords q.reads (wordsOf k n) } }) (openChunk c s))
  else
    let s := commitChunk c s
    match senderCheck s h ea false false with
    | .fail => trapHere c 6 ea s
    | .ok q dev =>
      setWait c (.remoteLoad s.nextId dst)
        (send { id := s.nextId, cid := c, part := h.part, addr := ea, pcn := q, ofs := bits ea 0 21, dev := dev, body := .load n } s)

/-- The number of a remote target: a cluster of a peer device lies above every cluster of the module. -/
def targetKey (q : Nat) (dev : Option Nat) : Nat := match dev with | none => q | some d => 0x100000 + d * 0x4000 + q

/-- R112: post a remote store. -/
def postStore (c : Nat) (h : Ctx) (ea : W64) (b : List Byte) (q : Nat) (dev : Option Nat) (s : State) : State :=
  modCtx c (fun h => { h with outst := h.outst ++ [{ id := s.nextId, target := targetKey q dev }] })
    (send { id := s.nextId, cid := c, part := h.part, addr := ea, pcn := q, ofs := bits ea 0 21, dev := dev, body := .store b } s)

/-- R111 to R113, R115: a store of n bytes at a core; `f` updates the registers (the flags of STF). -/
def store (c : Nat) (ea : W64) (n : Nat) (v : Nat) (f : Regs → Regs) (s : State) : State :=
  let h := s.ctx c
  let a := ea.toNat
  if h.regs.pc = lastPc then trapHere c 2 0x0200000000000000 s
  else if a % n ≠ 0 then trapHere c 4 ea s
  else if !ea.getLsbD 63 then
    if !localOk s h a n { w := true } then trapHere c 5 ea s
    else if (lockedByte h a n).isSome then trapHere c 0x10 ea s
    else if localBusy s c a n then s
    else
      let k := localKey h.gcn a
      let b := leBytes n v
      retireChunk c (h.regs.pc + 4) (modCtx c (fun h => { h with
        regs := f h.regs
        chunk := h.chunk.map fun q => { q with
          stores := ((List.range n).zip b).reverse.map (fun p => (k + p.1, p.2)) ++ q.stores
          writes := addWords q.writes (wordsOf k n) } }) (openChunk c s))
  else
    let s := commitChunk c s
    match senderCheck s h ea true false with
    | .fail => trapHere c 6 ea s
    | .ok q dev => retire c (modCtx c (fun h => { h with regs := f h.regs }) (postStore c h ea (leBytes n v) q dev s))

/-- R283: an address in the data memory of a BAU: MISALIGNED, then DATA_ADDR. -/
def bauAddr (b : Bank) (a : R5) (i : BitVec 16) : Nat := (getBG b a + i.signExtend 32).toNat

/-- `n` bytes of data memory. -/
def dataRead (b : Bank) (a n : Nat) : Nat := leNat ((List.range n).map fun i => tget b.data (a + i) 0)
/-- Write bytes of data memory. -/
def dataWrite (a : Nat) (l : List Byte) (b : Bank) : Bank :=
  { b with data := ((List.range l.length).zip l).foldl (fun t p => tset 0 t (a + p.1) p.2) b.data }

/-- R283: the data-memory access of a load or store on a BAU. -/
def bauMem (g : Nat) (rs : List R5) (a n : Nat) (f : Bank → Bank) (s : State) : State :=
  if rs.any fun r => 16 ≤ r.toNat then endRun g 1 0 s
  else if a % n ≠ 0 then endRun g 4 0 s
  else if 0x400 < a + n then endRun g 3 0 s
  else bauOp g rs f s

/-- R108, R283: a load on a core or a BAU. -/
def loadI (n : Nat) (sg : Bool) (d a : R5) (i : BitVec 16) (s : State) : State :=
  match s.cur with
  | .hart c => load c (getG (s.ctx c).regs a + i.signExtend 64) n (.g d n sg) s
  | .bau g =>
    let ea := bauAddr (s.bank g) a i
    bauMem g [d, a] ea n (fun b =>
      let v := dataRead b ea n
      setBG d (if sg then (BitVec.ofNat (8 * n) v).signExtend 32 else BitVec.ofNat 32 v) b) s

/-- R111, R283: a store on a core or a BAU. -/
def storeI (n : Nat) (d a : R5) (i : BitVec 16) (s : State) : State :=
  match s.cur with
  | .hart c =>
    let r := (s.ctx c).regs
    store c (getG r a + i.signExtend 64) n (getG r d).toNat id s
  | .bau g =>
    let ea := bauAddr (s.bank g) a i
    bauMem g [d, a] ea n (fun b => dataWrite ea (leBytes n (getBG b d).toNat) b) s

/-- R41: a scalar floating-point form; an illegal mode changes nothing. -/
def fpOp (i : Instr) (m : BitVec 3) (f : Nat → Regs → Regs) (s : State) : State :=
  coreOnly s fun c h =>
    match modeOf h.regs m with
    | none => illegal c i s
    | some mode => scalar c (f mode) s

/-- R117: a form whose result goes to f[d]. -/
def fpF (i : Instr) (m : BitVec 3) (t : BitVec 1) (d : R5) (f : Nat → Regs → Nat × Nat) (s : State) : State :=
  fpOp i m (fun mode r => let (x, fl) := f mode r; setFlags (setF r d (resF t x)) fl) s

/-- R117: a form whose result goes to g[d]. -/
def fpG (i : Instr) (m : BitVec 3) (d : R5) (f : Nat → Regs → W64 × Nat) (s : State) : State :=
  fpOp i m (fun mode r => let (x, fl) := f mode r; setFlags (setG r d x) fl) s

/-- The decoded operand of a form. -/
def fval (t : BitVec 1) (r : Regs) (a : R5) : FVal := fdec (scalarFmt t) (readF t (getF r a))

end Sys2Proof.Machine
end

