-- ==== Sys2Proof/Machine/Sync.lean ====
section
/-!
DEFINITION. Synchronising memory, atomics, fences and barriers (R155 to R173), with the events that end their waits.
-/

namespace Sys2Proof.Machine

/-- R159 checks 1 to 3 and 5 of a form that stays local; `act` runs when they pass. -/
def fullEmpty (c : Nat) (ea : W64) (n : Nat) (need : Need) (lock : Bool) (act : Ctx → Nat → State → State) (s : State) :
    State :=
  outside c (fun h s =>
    if ea.getLsbD 63 then trapHere c 6 ea s
    else if ea.toNat % 8 ≠ 0 then trapHere c 4 ea s
    else if n % 8 ≠ 0 then trapHere c 4 (ea + w64 n) s
    else if n ≠ 0 ∧ !localOk s h ea.toNat n need then trapHere c 5 ea s
    else if localBusy s c ea.toNat n then s
    else match if lock then lockedByte h ea.toNat n else none with
      | some a => trapHere c 0x10 (w64 a) s
      | none => act h (localKey h.gcn ea.toNat) s) s

/-- R158: a full word is loaded, and emptied by LDSE, in one access. -/
def ldsDone (c : Nat) (d : R5) (k : Nat) (empties : Bool) (s : State) : State :=
  finishG c d (w64 (leNat (readBytes s.mem k 8))) (if empties then setFe [k / 8] false s else s)

/-- R129, R158: a hart other than `c` that can take a fill, resident and not halted, waits in LDSE for the word at a memory
key, since a cycle of which `before` holds. -/
def ldseWaits (s : State) (c k : Nat) (before : Nat → Nat → Bool) : Bool :=
  s.ctxs.any fun p => match p.2.wait with
    | .lds _ a true t => decide (p.1 ≠ c) && canWake p.2 && decide (localKey p.2.gcn a = k) && before t p.2.gcn
    | _ => false

/-- R158: LDS and LDSE: a full word completes at once, an empty one is a blocking point (R26). -/
def ldsOp (empties : Bool) (d a : R5) (s : State) : State :=
  coreOnly s fun c h =>
    fullEmpty c (getG h.regs a) 8 { rd := true } false (fun _ k s =>
      if isFull s k && !(empties && ldseWaits s c k fun _ _ => true) then ldsDone c d k empties s
      else setWait c (.lds d (getG h.regs a).toNat empties s.gtime) s) s

/-- R158. -/
def execLds (d a : R5) (s : State) : Host.Outcome State Fault Refusal := .next (ldsOp false d a s)
/-- R158. -/
def execLdse (d a : R5) (s : State) : Host.Outcome State Fault Refusal := .next (ldsOp true d a s)

/-- R158: STFL stores and sets the word full; it does not wait for empty. -/
def execStfl (a b : R5) (s : State) : Host.Outcome State Fault Refusal :=
  .next (coreOnly s fun c h =>
    fullEmpty c (getG h.regs a) 8 { w := true } true (fun h k s =>
      retire c (setFe [k / 8] true (sramWrite k (leBytes 8 (getG h.regs b).toNat) (some c) s))) s)

/-- R158: FEFILL and FEEMPTY change only bits. -/
def feSpan (full : Bool) (a b : R5) (s : State) : State :=
  coreOnly s fun c h =>
    let n := (getG h.regs b).toNat
    fullEmpty c (getG h.regs a) n { rd := true, w := true } true (fun _ k s => retire c (setFe (wordsOf k n) full s)) s

/-- R158. -/
def execFefill (a b : R5) (s : State) : Host.Outcome State Fault Refusal := .next (feSpan true a b s)
/-- R158. -/
def execFeempty (a b : R5) (s : State) : Host.Outcome State Fault Refusal := .next (feSpan false a b s)

/-- R158: FEST reads 64 bits. -/
def execFest (d a : R5) (s : State) : Host.Outcome State Fault Refusal :=
  .next (coreOnly s fun c h =>
    fullEmpty c (getG h.regs a) 512 { rd := true, w := true } false (fun _ k s =>
      finishG c d (BitVec.ofBoolListLE ((List.range 64).map fun i => isFull s (k + 8 * i)) |>.setWidth 64) s) s)

/-- R158, R159, R161: LDA is an acquire; the hart waits for its value before anything later. -/
def execLda (d a sc : R5) (s : State) : Host.Outcome State Fault Refusal :=
  .next (coreOnly s fun c h =>
    let ea := getG h.regs a
    if 4 < sc.toNat then illegal c (.lda d a sc) s else
    outside c (fun h s =>
      if ea.toNat % 8 ≠ 0 then trapHere c 4 ea s
      else if !ea.getLsbD 63 then
        if !localOk s h ea.toNat 8 { rd := true } then trapHere c 5 ea s
        else if localBusy s c ea.toNat 8 then s
        else finishG c d (w64 (leNat (readBytes s.mem (localKey h.gcn ea.toNat) 8))) s
      else match senderCheck s h ea false false with
        | .fail => trapHere c 6 ea s
        | .ok q dev =>
          setWait c (.remoteLoad s.nextId (.g d 8 false))
            (send { id := s.nextId, cid := c, part := h.part, addr := ea, pcn := q, ofs := bits ea 0 21, dev := dev, body := .load 8 } s)) s)

/-- R161, R204: the store of an STL whose wait is over; the release covers the hart's other remote writes. The ring lock of
R159 was tested when the STL issued and is not tested again (DESIGN CHOICE, log entry 81). -/
def stlDo (c : Nat) (ea v : W64) (sc : Nat) (s : State) : State :=
  let s := cover c sc s
  let h := s.ctx c
  if !ea.getLsbD 63 then retire c (sramWrite (localKey h.gcn ea.toNat) (leBytes 8 v.toNat) (some c) s)
  else match senderCheck s h ea true false with
    | .fail => trapHere c 6 ea s
    | .ok q dev => retire c (postStore c h ea (leBytes 8 v.toNat) q dev s)

/-- R158, R159, R161: STL is a release; it stalls until every earlier remote store of the scope is acknowledged. -/
def execStl (a b sc : R5) (s : State) : Host.Outcome State Fault Refusal :=
  .next (coreOnly s fun c h =>
    let ea := getG h.regs a
    let v := getG h.regs b
    if 4 < sc.toNat then illegal c (.stl a b sc) s else
    outside c (fun h s =>
      if ea.toNat % 8 ≠ 0 then trapHere c 4 ea s
      else if !ea.getLsbD 63 && !localOk s h ea.toNat 8 { w := true } then trapHere c 5 ea s
      else if ea.getLsbD 63 && senderCheck s h ea true false == .fail then trapHere c 6 ea s
      else if !ea.getLsbD 63 && localBusy s c ea.toNat 8 then s
      else match if ea.getLsbD 63 then none else lockedByte h ea.toNat 8 with
        | some x => trapHere c 0x10 (w64 x) s
        | none => if pendingIn h sc.toNat false then setWait c (.stl ea v sc.toNat) s else stlDo c ea v sc.toNat s) s)

/-! ### Atomics (R162 to R166) -/

/-- R163: the new value of an atomic; e is the expected value of CAS. -/
def amoNew (op : Nat) (x y e : W64) : W64 :=
  if op = 0 then x + y
  else if op = 1 then x &&& y
  else if op = 2 then x ||| y
  else if op = 3 then x ^^^ y
  else if op = 4 then (if x.toInt < y.toInt then x else y)
  else if op = 5 then (if x.toInt < y.toInt then y else x)
  else if op = 6 then (if x.toNat < y.toNat then x else y)
  else if op = 7 then (if x.toNat < y.toNat then y else x)
  else if op = 8 then y
  else if op = 9 then (if x = e then y else x)
  else if op = 10 then w64 (faddV (fmtOf 9) 1 false (fdec (fmtOf 9) (x.toNat % 2 ^ 32)) (fdec (fmtOf 9) (y.toNat % 2 ^ 32))).1
  else w64 (faddV (fmtOf 8) 1 false (fdec (fmtOf 8) x.toNat) (fdec (fmtOf 8) y.toNat)).1

/-- R163: bytes of an atomic. -/
def amoSize (op : Nat) : Nat := if op = 10 then 4 else 8

/-- R163, R164: the read and the write of an atomic, one indivisible access; a CAS that does not match writes nothing. -/
def amoApply (op k : Nat) (y e : W64) (me : Option Nat) (s : State) : W64 × State :=
  let n := amoSize op
  let x := w64 (leNat (readBytes s.mem k n))
  (x, if op = 9 ∧ x ≠ e then s else sramWrite k (leBytes n (amoNew op x y e).toNat) me s)

/-- R162 to R166: an atomic, local at the commit arbiter, or remote as a packet; without a result it is posted. With SC
it is a release at its scope: it stalls until earlier remote stores of the scope are acknowledged. R384 names no stall of a
local or a posted one: an asynchronous trap is taken there at once, as of FENCE and STL (DESIGN CHOICE, log entry 67). -/
def amo (op : Nat) (d a b : R5) (sc : BitVec 1) (scope : BitVec 2) (s : State) : State :=
  coreOnly s fun c h =>
    let ea := getG h.regs a
    let n := amoSize op
    let y := getG h.regs b
    let e := getG h.regs d
    outside c (fun h s =>
      if ea.toNat % n ≠ 0 then trapHere c 4 ea s
      else if !ea.getLsbD 63 then
        if !localOk s h ea.toNat n { rd := true, w := true } then trapHere c 5 ea s
        else if (lockedByte h ea.toNat n).isSome then trapHere c 0x10 ea s
        else if localBusy s c ea.toNat n || (decide (sc = 1) && pendingIn h (scope.toNat + 1) false) then s
        else
          let s := if sc = 1 then cover c (scope.toNat + 1) s else s
          let (x, s) := amoApply op (localKey h.gcn ea.toNat) y e (some c) s
          finishG c d x s
      else match senderCheck s h ea true false with
        | .fail => trapHere c 6 ea s
        | .ok q dev =>
          if decide (sc = 1) && pendingIn h (scope.toNat + 1) false then (if d ≠ 0 then setWait c .acks s else s)
          else
            let id := s.nextId
            let s := if sc = 1 then cover c (scope.toNat + 1) s else s
            let s := send { id := id, cid := c, part := h.part, addr := ea, pcn := q, ofs := bits ea 0 21, dev := dev, body := .atomic op n y e (d ≠ 0) } s
            if d ≠ 0 then setWait c (.remoteAtomic id d n) s
            else retire c (modCtx c (fun h => { h with
              outst := h.outst ++ [{ id := id, target := targetKey q dev, atomic := true }]
              scAcq := if sc = 1 then h.scAcq ++ [id] else h.scAcq }) s)) s

/-- R163. -/
def execAmoAdd (d a b : R5) (q : BitVec 1) (sc : BitVec 2) (s : State) : Host.Outcome State Fault Refusal := .next (amo 0 d a b q sc s)
/-- R163. -/
def execAmoAnd (d a b : R5) (q : BitVec 1) (sc : BitVec 2) (s : State) : Host.Outcome State Fault Refusal := .next (amo 1 d a b q sc s)
/-- R163. -/
def execAmoOr (d a b : R5) (q : BitVec 1) (sc : BitVec 2) (s : State) : Host.Outcome State Fault Refusal := .next (amo 2 d a b q sc s)
/-- R163. -/
def execAmoXor (d a b : R5) (q : BitVec 1) (sc : BitVec 2) (s : State) : Host.Outcome State Fault Refusal := .next (amo 3 d a b q sc s)
/-- R163. -/
def execAmoMin (d a b : R5) (q : BitVec 1) (sc : BitVec 2) (s : State) : Host.Outcome State Fault Refusal := .next (amo 4 d a b q sc s)
/-- R163. -/
def execAmoMax (d a b : R5) (q : BitVec 1) (sc : BitVec 2) (s : State) : Host.Outcome State Fault Refusal := .next (amo 5 d a b q sc s)
/-- R163. -/
def execAmoMinu (d a b : R5) (q : BitVec 1) (sc : BitVec 2) (s : State) : Host.Outcome State Fault Refusal := .next (amo 6 d a b q sc s)
/-- R163. -/
def execAmoMaxu (d a b : R5) (q : BitVec 1) (sc : BitVec 2) (s : State) : Host.Outcome State Fault Refusal := .next (amo 7 d a b q sc s)
/-- R163. -/
def execAmoSwap (d a b : R5) (q : BitVec 1) (sc : BitVec 2) (s : State) : Host.Outcome State Fault Refusal := .next (amo 8 d a b q sc s)
/-- R163. -/
def execAmoCas (d a b : R5) (q : BitVec 1) (sc : BitVec 2) (s : State) : Host.Outcome State Fault Refusal := .next (amo 9 d a b q sc s)
/-- R163. -/
def execAmoFaddF32 (d a b : R5) (q : BitVec 1) (sc : BitVec 2) (s : State) : Host.Outcome State Fault Refusal := .next (amo 10 d a b q sc s)
/-- R163. -/
def execAmoFaddF64 (d a b : R5) (q : BitVec 1) (sc : BitVec 2) (s : State) : Host.Outcome State Fault Refusal := .next (amo 11 d a b q sc s)

/-! ### Fences (R167) -/

/-- R166, R203: posted atomics whose targets lie outside a fence's scope become acquires by it: later accesses wait for
their reads (R164), not the fence. -/
def acquirePosted (h : Ctx) : Ctx :=
  { h with scAcq := h.scAcq ++ (h.outst.filter fun o => o.atomic && !h.scAcq.contains o.id).map (·.id) }

/-- R203, R204: FENCE and FENCE.REL make the accesses after them releases of the accesses before; FENCE and FENCE.ACQ make
the reads before them acquires. A fence at CORE scope does neither. -/
def fenceCover (c scope : Nat) (kind : FenceKind) (s : State) : State :=
  if scope = 0 then s
  else
    let s := if kind = .acq then s else cover c scope s
    if kind = .rel then s else modCtx c acquirePosted s

/-- R167: what a fence waits for: FENCE.ACQ for atomics, the others for remote stores too. -/
def fencePending (h : Ctx) (scope : Nat) (kind : FenceKind) : Bool := pendingIn h scope (decide (kind = .acq))

/-- R167: a fence at CORE scope only ends the chunk; others stall for acknowledgements. -/
def fenceOp (i : Instr) (kind : FenceKind) (sc : R5) (s : State) : State :=
  coreOnly s fun c _ =>
    if 4 < sc.toNat then illegal c i s
    else outside c (fun h s =>
      if fencePending h sc.toNat kind then setWait c (.fence sc.toNat kind) s else retire c (fenceCover c sc.toNat kind s)) s

/-- R167. -/
def execFence (x y z sc : R5) (s : State) : Host.Outcome State Fault Refusal := .next (fenceOp (.fence x y z sc) .full sc s)
/-- R167. -/
def execFenceAcq (x y z sc : R5) (s : State) : Host.Outcome State Fault Refusal := .next (fenceOp (.fenceAcq x y z sc) .acq sc s)
/-- R167. -/
def execFenceRel (x y z sc : R5) (s : State) : Host.Outcome State Fault Refusal := .next (fenceOp (.fenceRel x y z sc) .rel sc s)

/-! ### Barriers (R168 to R173) -/

/-- R168: INDEX of a handle. -/
def hIndex (h : W32) : Nat := h.toNat / 4096
/-- R168: GEN of a handle. -/
def hGen (h : W32) : Nat := h.toNat % 4096
/-- The object at an index of a partition's table. -/
def barrierOf (s : State) (p : Nat) (h : W32) : Barrier := tget (s.part p).barriers (hIndex h) {}

/-- R170, R172, R173: send a request to the sync engine and stall for its reply; arrivals are releases at PACKAGE
scope. -/
def syncRequest (c : Nat) (d : R5) (body : Body) (thenWait : Bool) (release : Bool) (s : State) : State :=
  outside c (fun h s =>
    if release && pendingIn h 3 false then setWait c .acks s
    else setWait c (.sync s.nextId d thenWait)
      (send { id := s.nextId, cid := c, part := h.part, addr := 0, pcn := pcnOf h.gcn, ofs := 0, body := body }
        (if release then cover c 3 s else s))) s

/-- R170. -/
def execBarrive (d a : R5) (s : State) : Host.Outcome State Fault Refusal :=
  .next (coreOnly s fun c h => syncRequest c d (.barrive ((getG h.regs a).truncate 32)) false true s)

/-- R60, R170, R336: STALE_BARRIER at the hart's own instruction; a hart that is saved, or that a stop holds, takes it on
resumption. -/
def staleBarrier (c : Nat) (hd : W32) (s : State) : State :=
  if canMove s (s.ctx c) then trapHere c 0x12 (hd.zeroExtend 64) s
  else modCtx c (fun h => { h with wait := .none, recorded := some (0x12, hd.zeroExtend 64) }) s

/-- R170: BWAIT's checks and wait; `stale` is what a stale handle does. -/
def bwaitOn (stale : State → State) (c : Nat) (hd : W32) (s : State) : State :=
  let o := barrierOf s (s.ctx c).part hd
  let before := (hGen hd + 4095) % 4096
  if !o.live ∨ (o.gen ≠ hGen hd ∧ o.gen ≠ before) then stale s
  else if o.gen = before then setWait c (.bwait hd) s
  else retire c s

/-- R170. -/
def execBwait (a : R5) (s : State) : Host.Outcome State Fault Refusal :=
  .next (coreOnly s fun c h => outside c (fun _ s =>
    let hd : W32 := (getG h.regs a).truncate 32
    bwaitOn (trapHere c 0x12 (hd.zeroExtend 64)) c hd s) s)

/-- R170: BARRIVE, then BWAIT with the handle that it returns. -/
def execBarw (d a : R5) (s : State) : Host.Outcome State Fault Refusal :=
  .next (coreOnly s fun c h => syncRequest c d (.barrive ((getG h.regs a).truncate 32)) true true s)

/-- The contexts of the members of a context's gang that have not exited; a context without a task is a gang of one. -/
def gang (s : State) (c : Nat) : List Nat :=
  match (s.ctx c).task with
  | none => [c]
  | some t => (s.task t).members.filter fun m => (s.ctx m).exited.isNone

/-- R171: the members that have not exited leave the gang barrier together once all have arrived. -/
def gbarLeave (members : List Nat) (s : State) : State :=
  if members.all fun m => (s.ctx m).wait = .gbar then forEach members (fun m s => retire m s) s else s

/-- R171, R173: GBAR; a gang of one completes at once. -/
def execGbar (s : State) : Host.Outcome State Fault Refusal :=
  .next (coreOnly s fun c _ => outside c (fun h s =>
    if pendingIn h 1 false then s
    else
      let s := setWait c .gbar (cover c 1 s)
      if gang s c = [c] then gbarLeave [c] s else s) s)

/-- R172: BMAKE, S mode. -/
def execBmake (d a : R5) (s : State) : Host.Outcome State Fault Refusal :=
  .next (coreOnly s fun c h =>
    if h.priv = .u then illegal c (.bmake d a) s
    else syncRequest c d (.bmake (bits (getG h.regs a) 0 16)) false false s)

/-- R172: BFREE, S mode. -/
def execBfree (d a : R5) (s : State) : Host.Outcome State Fault Refusal :=
  .next (coreOnly s fun c h =>
    if h.priv = .u then illegal c (.bfree d a) s
    else syncRequest c d (.bfree ((getG h.regs a).truncate 32)) false false s)

/-! ### Events of waits and of the sync engines -/

/-- R158: LDS and LDSE wake on a full word, once no write that they must see is on its way to it (R205); of several LDSE the
earliest waiter takes it, ties to the lower core. -/
def execLdsWake (c : Nat) (s : State) : Host.Outcome State Fault Refusal :=
  .next (
    let h := s.ctx c
    match h.wait with
    | .lds d ea empties since =>
      let k := localKey h.gcn ea
      let earlier := ldseWaits s c k fun t g => decide (t < since) || (decide (t = since) && decide (g < h.gcn))
      if mayWake s h && isFull s k && !(empties && earlier) && !localBusy s c ea 8 then ldsDone c d k empties s else s
    | _ => s)

/-- R161, R167: the stall of a fence or an STL ends once nothing of its scope is unacknowledged; the store of an STL waits as any
store does (R205, R248). -/
def execFenceWaitEnd (c : Nat) (s : State) : Host.Outcome State Fault Refusal :=
  .next (
    let h := s.ctx c
    match h.wait with
    | .fence sc kind => if mayWake s h && !fencePending h sc kind then retire c (fenceCover c sc kind s) else s
    | .stl ea v sc =>
      if mayWake s h && !pendingIn h sc false && (ea.getLsbD 63 || !localBusy s c ea.toNat 8) then stlDo c ea v sc s else s
    | _ => s)

/-- R170: a waiter wakes when its phase has completed, and when its object is freed or made anew while it waits (DESIGN
CHOICE, log entry 56: no rule says what becomes of it). -/
def execBwaitWake (c : Nat) (s : State) : Host.Outcome State Fault Refusal :=
  .next (
    let h := s.ctx c
    match h.wait with
    | .bwait hd =>
      let o := barrierOf s h.part hd
      if mayWake s h && !(o.live && decide (o.gen = (hGen hd + 4095) % 4096)) then retire c s else s
    | _ => s)

/-- R171: the gang barrier of a task completes; no member observes a partial completion (R32). A member that an error has
halted in it does not leave, and the others wait on (DESIGN CHOICE, log entry 79). -/
def execGbarComplete (t : Nat) (s : State) : Host.Outcome State Fault Refusal :=
  .next (
    let m := (s.task t).members.filter fun m => (s.ctx m).exited.isNone
    if m.all fun c => mayWake s (s.ctx c) then gbarLeave m s else s)

/-- R172: the lowest index of the table without a live object, searched below `n`. -/
def lowestFree (t : Tbl Barrier) (n i : Nat) : Nat :=
  match n with
  | 0 => i
  | n + 1 => if (tget t i {}).live then lowestFree t n (i + 1) else i

/-- Replace a request by its reply on the fabric. -/
def reply (id : Nat) (b : Body) (s : State) : State :=
  { s with net := s.net.map fun p => if p.id = id then { p with body := b } else p }

/-- R168, R170, R172: the sync engine applies one request at a time and replies. Sync storage overflows into DRAM and is
never exhausted (DESIGN CHOICE, log entry 57): the table ends at INDEX 0xF_FFFE. -/
def execSyncEngineBarrier (id : Nat) (s : State) : Host.Outcome State Fault Refusal :=
  .next (match packet s id with
    | none => s
    | some p =>
      let t := (s.part p.part).barriers
      let setB (i : Nat) (o : Barrier) : State := modPart p.part (fun q => { q with barriers := tput q.barriers i o }) s
      match p.body with
      | .barrive hd =>
        let o := tget t (hIndex hd) {}
        if !o.live ∨ hGen hd ≠ o.gen then reply id (.staleBarrier hd) s
        else
          let done := decide (o.arrived + 1 = o.count)
          let o := { o with arrived := if done then 0 else o.arrived + 1, gen := if done then (o.gen + 1) % 4096 else o.gen }
          reply id (.syncReply (w64 (hIndex hd * 4096 + (hGen hd + 1) % 4096))) (setB (hIndex hd) o)
      | .bmake n =>
        let i := lowestFree t (t.length + 1) 0
        if n = 0 ∨ 0xFFFFE < i then reply id (.syncReply 0xFFFFFFFFFFFFFFFF) s
        else
          let old := tget t i {}
          let g := if old.used then (old.gen + 2) % 4096 else 0
          reply id (.syncReply (w64 (i * 4096 + g)))
            (setB i { live := true, count := n, arrived := 0, gen := g, used := true, die := dieOf p.pcn })
      | .bfree hd =>
        let o := tget t (hIndex hd) {}
        if !o.live ∨ hGen hd ≠ o.gen then reply id (.staleBarrier hd) s
        else if 0 < o.arrived then reply id (.syncReply 1) s
        else reply id (.syncReply 0) (setB (hIndex hd) { o with live := false })
      | _ => s)

/-- R170, R172, R336: the reply reaches the hart: the result is written and the instruction retires (BARW then waits),
or STALE_BARRIER is taken at its own address. In a saved hart the result goes to the saved register, a BARW makes
BWAIT's checks at once, and a trap is kept for resumption. A halted core keeps its state (R129). -/
def execSyncReply (id : Nat) (s : State) : Host.Outcome State Fault Refusal :=
  .next (match packet s id with
    | none => s
    | some p =>
      let c := p.cid
      match (s.ctx c).wait with
      | .sync id' d thenWait =>
        if id' ≠ id then s
        else if (s.ctx c).halted then (match p.body with | .syncReply _ | .staleBarrier _ => unsend id s | _ => s)
        else match p.body with
          | .syncReply v =>
            let s := putG c d v (unsend id s)
            if thenWait then bwaitOn (staleBarrier c (v.truncate 32)) c (v.truncate 32) s else retire c s
          | .staleBarrier hd => staleBarrier c hd (unsend id s)
          | _ => s
      | _ => s)

end Sys2Proof.Machine
end

