-- ==== Sys2Proof/Machine/Remote.lean ====
section
/-!
DEFINITION. Remote accesses on the fabric: arrival at the receiving cluster, the sync engines' atomics, replies,
acknowledgements and rejections (R59, R60, R110, R112, R161, R164). A peer device is outside the machine: whether it
accepts an operation and which value it returns are free (log entry 15).
-/

namespace Sys2Proof.Machine

/-- R113, R196, R202: an earlier request of the same hart to the same cluster comes first: of two stores, and a write whose
bytes, as the receiver translates them, overlap those of the request. A load before it is over when the hart goes on (R26).
Packets are numbered in the order of their issue. R204, R205: so does a write of any hart that a release covers, where the bytes
overlap: before a request that is not covered itself whichever was issued first, since the request takes its place in the
cluster's order only when it is applied. -/
def comesFirst (s : State) (e p : Packet) : Bool :=
  let older := decide (e.id < p.id)
  let own := decide (e.cid = p.cid) && older
  let covered := ordersAfter s e.cover p.cid &&
    (older || (decide (e.cid ≠ p.cid) && p.cover.isEmpty))
  let meet := match landing s e, landing s p with
    | some x, some y => spansMeet x y
    | _, _ => false
  decide (e.id ≠ p.id) && decide (e.pcn = p.pcn) && decide (e.dev = p.dev) &&
    ((own && (match e.body, p.body with | .store _, .store _ => true | _, _ => false)) ||
      ((own || covered) && reqWrites e.body && meet))

/-- Whether a request, in flight or saved by a router (R213, R339), must be applied before this one. -/
def mustWait (s : State) (p : Packet) : Bool :=
  (s.net ++ (s.part p.part).saved).any fun e => comesFirst s e p

/-- R59, R60, R112: a remote load or store arrives at the receiving interface of a cluster of this module, which rejects
it or applies it through the commit arbiter at one place in the cluster order. -/
def execRemoteAccessArrival (id : Nat) (s : State) : Host.Outcome State Fault Refusal :=
  .next (match packet s id with
    | none => s
    | some p =>
      if p.dev.isSome ∨ mustWait s p then s
      else match p.body with
        | .load n =>
          match receive (s.cluster p.pcn) p.ofs n 0 with
          | none => reply id .reject s
          | some o => reply id (.loadReply (w64 (leNat (readBytes s.mem (sramKey p.pcn o) n)))) s
        | .store b =>
          match receive (s.cluster p.pcn) p.ofs b.length 1 with
          | none => reply id .reject s
          | some o =>
            if remoteLocked s p.pcn o b.length then reply id .reject s
            else reply id .ack (sramWrite (sramKey p.pcn o) b none s)
        | _ => s)

/-- R164, R165: a remote atomic executes at the sync engine of the target cluster's die, as one access. -/
def execSyncEngineAtomic (id : Nat) (s : State) : Host.Outcome State Fault Refusal :=
  .next (match packet s id with
    | none => s
    | some p =>
      if p.dev.isSome ∨ mustWait s p then s
      else match p.body with
        | .atomic op n y e returns =>
          match receive (s.cluster p.pcn) p.ofs n 2 with
          | none => reply id .reject s
          | some o =>
            if remoteLocked s p.pcn o n then reply id .reject s
            else
              let (x, s) := amoApply op (sramKey p.pcn o) y e none s
              reply id (if returns then .atomicReply x else .ack) s
        | _ => s)

/-- A free value of n bytes: what a peer device returns. -/
def freeBytes (n : Nat) (s : State) : W64 × State :=
  let (v, s) := drawNat s
  (w64 (v % 2 ^ (8 * n)), s)

/-- A packet and its number at the link are answered. -/
def answered (p : Packet) (s : State) : State :=
  let s := unsend p.id s
  match p.dev with
  | none => s
  | some d => modMod (fun m =>
      let l := tget m.links d {}
      { m with links := tput m.links d { l with unacked := l.unacked.filter fun q => q.id ≠ p.id } }) s

/-- The operation of a number is answered. -/
def answeredId (id : Nat) (s : State) : State := match packet s id with | some p => answered p s | none => s

/-- R110: the value of a remote load reaches its hart; the reply of an abandoned load is discarded (R27). -/
def loadArrives (p : Packet) (v : W64) (s : State) : State :=
  let s := answered p s
  let h := s.ctx p.cid
  match h.wait with
  | .remoteLoad id dst =>
    if id = p.id ∧ mayWake s h then retire p.cid (modCtx p.cid (fun h => { h with regs := writeDest dst v.toNat h.regs }) s)
    else s
  | _ => s

/-- R110. -/
def execRemoteLoadReply (id : Nat) (s : State) : Host.Outcome State Fault Refusal :=
  .next (match packet s id with
    | none => s
    | some p => match p.body with
      | .loadReply v => loadArrives p v s
      | .load n => if p.dev.isSome ∧ linkUp s p then (let (v, s) := freeBytes n s; loadArrives p v s) else s
      | _ => s)

/-- R164: the old value reaches its hart, or the saved register of a saved hart, and the atomic retires; a halted core
keeps its state (R129). -/
def atomicArrives (p : Packet) (v : W64) (s : State) : State :=
  let s := answered p s
  match (s.ctx p.cid).wait with
  | .remoteAtomic id d _ => if id = p.id ∧ !(s.ctx p.cid).halted then retire p.cid (putG p.cid d v s) else s
  | _ => s

/-- R164. -/
def execRemoteAtomicReply (id : Nat) (s : State) : Host.Outcome State Fault Refusal :=
  .next (match packet s id with
    | none => s
    | some p => match p.body with
      | .atomicReply v => atomicArrives p v s
      | .atomic _ n _ _ true => if p.dev.isSome ∧ linkUp s p then (let (v, s) := freeBytes n s; atomicArrives p v s) else s
      | _ => s)

/-- R161, R167, R211: an operation counts as acknowledged at its hart, and at the entry whose data it carries. -/
def acknowledge (p : Packet) (s : State) : State :=
  modCtx p.cid (fun h => { h with
    outst := h.outst.filter fun o => o.id ≠ p.id
    scAcq := h.scAcq.filter fun i => i ≠ p.id
    eng := { h.eng with q := h.eng.q.map fun e => { e with inFlight := e.inFlight.filter fun i => i ≠ p.id } } })
    (answered p s)

/-- R161: the acknowledgement of a posted store or atomic arrives. -/
def execRemoteAck (id : Nat) (s : State) : Host.Outcome State Fault Refusal :=
  .next (match packet s id with
    | none => s
    | some p => match p.body with
      | .ack => acknowledge p s
      | .store _ | .atomic _ _ _ _ false | .bump .. | .put _ _ => if p.dev.isSome ∧ linkUp s p then acknowledge p s else s
      | _ => s)

/-- Set a bit of the fault summary of the task of a context (R327): 0 FE, 1 FP, 2 FM, 3 FR, 4 FH, 5 FC. -/
def setFlag (c i : Nat) (s : State) : State :=
  match (s.ctx c).task with
  | none => s
  | some t => modTask t (fun k => { k with flags := k.flags ||| BitVec.ofNat 6 (2 ^ i) }) s

/-- R60, R112: an asynchronous REMOTE_STORE is pending at a hart; a member that has exited records FR or, for a failed
entry, FE (R180, R327). -/
def postRemoteStore (c : Nat) (v : W64) (flag : Nat) (s : State) : State :=
  if (s.ctx c).exited.isSome then setFlag c flag s
  else modCtx c (fun h => { h with pendStores := h.pendStores ++ [v] }) s

/-- Far bytes for each byte of the local end: 8 for metadata (R175). -/
def farPer (k : XKind) : Nat := match k with | .metaGet | .metaPut => 8 | _ => 1

/-- The local end of an entry is written. -/
def isGet (k : XKind) : Bool := match k with | .get | .getd | .metaGet => true | _ => false

/-- R180: the far address of the first byte not done when an entry fails at `i` bytes past its position: of a get, bytes
that are held back are not done. -/
def notDone (e : Entry) (i : Nat) : W64 :=
  e.far + w64 (e.pos + i - if isGet e.kind then e.hold.length * farPer e.kind else 0)

/-- R177, R180, R369: the receiver on a peer device rejects data or the far bump of an entry, which fails at their first byte. -/
def rejectedEntry (p : Packet) (eid : Nat) (s : State) : State :=
  modCtx p.cid (fun h => { h with eng := { h.eng with q := h.eng.q.map fun e =>
    if e.eid = eid ∧ e.failed.isNone then { e with failed := some (if isGet e.kind then notDone e 0 else p.addr) } else e } })
    (acknowledge p s)

/-- R60: the rejection of a remote load or of an atomic that returns a value traps at its own address, for a saved hart
on resumption (R164); at a load, which is a blocking point, a posted array trap comes first, and the load is issued again
(R250); that of a posted operation is asynchronous and counts as its acknowledgement. -/
def rejected (p : Packet) (s : State) : State :=
  let c := p.cid
  let h := s.ctx c
  match h.wait with
  | .remoteLoad id _ =>
    if id = p.id then (if mayWake s h then trapHere c 6 p.addr (answered p s) else answered p s)
    else if h.outst.any fun o => o.id = p.id then postRemoteStore c p.addr 3 (acknowledge p s) else answered p s
  | .remoteAtomic id _ _ =>
    if id = p.id then
      if h.halted then answered p s
      else if canMove s h then trapHere c 6 p.addr (answered p s)
      else modCtx c (fun h => { h with wait := .none, recorded := some (6, p.addr) }) (answered p s)
    else if h.outst.any fun o => o.id = p.id then postRemoteStore c p.addr 3 (acknowledge p s) else answered p s
  | _ => if h.outst.any fun o => o.id = p.id then postRemoteStore c p.addr 3 (acknowledge p s) else answered p s

/-- R60. -/
def execRemoteRejection (id : Nat) (s : State) : Host.Outcome State Fault Refusal :=
  .next (match packet s id with
    | none => s
    | some p => match p.body with
      | .reject => rejected p s
      | .load _ | .store _ | .atomic .. => if p.dev.isSome ∧ linkUp s p then rejected p s else s
      | .put _ eid | .get _ eid | .bump _ _ eid => if p.dev.isSome ∧ linkUp s p then rejectedEntry p eid s else s
      | _ => s)

end Sys2Proof.Machine
end

