-- ==== Sys2Proof/Machine/Column.lean ====
section
/-!
DEFINITION. Columns of a bank: the check of each protection grade, the error record, whole and partial writes and
metadata (R68, R69, R285 to R287, R301, R355), and reads and writes by physical address (R63).
-/

namespace Sys2Proof.Machine

/-- R285: the grade of a column: 0 S, 1 D, 2 P. -/
def gradeOf (b : Bank) (col : Nat) : Nat := tget b.grades (col / 32) 0

/-- Memory key of a column of a bank (R63). -/
def colKey (g col : Nat) : Nat := g * 0x800000 + col * 32

/-- What a check finds (R68). -/
inductive Check where
  | clean | corrected | uncorrectable
  deriving DecidableEq, Repr

/-- R68: the worse of the checks of two halves. -/
def Check.join (a b : Check) : Check :=
  if a = .uncorrectable ∨ b = .uncorrectable then .uncorrectable
  else if a = .corrected ∨ b = .corrected then .corrected else .clean

/-- R68: half of a grade D column to which a stored bit belongs: 1 for the upper half with its check and metadata bits. -/
def dHalf (i : Nat) : Nat := if i < 128 then 0 else if i < 256 then 1 else if i < 265 then 0 else 1

/-- R68: damaged stored bits of half h of a grade D column. -/
def halfBits (d : List Nat) (h : Nat) : List Nat := d.filter fun i => dHalf i = h

/-- R68: the stored bits that differ from those written after a miscorrection that changes the bits `f`. -/
def flipBits (d f : List Nat) : List Nat := (d.filter fun i => !f.contains i) ++ f.filter fun i => !d.contains i

/-- A stored bit that check bits protect: data, or metadata of grade D (R68). -/
def infoBit (grade i : Nat) : Bool := decide (i < 256) || (decide (grade = 1) && decide (274 ≤ i) && decide (i < 288))

/-- R68: what a miscorrection of grade S changes: bits of at most two bytes, taken for the bad ones. -/
def flipsS (g col : Nat) (d : List Nat) : List Nat :=
  let f := (Config.miscorrection g col d).dedup.filter fun i => i < 288
  f.filter fun i => ((f.map (· / 8)).dedup.take 2).contains (i / 8)

/-- R68: what a miscorrection of half h of grade D changes: one bit of the half. -/
def flipsD (g col h : Nat) (d : List Nat) : List Nat :=
  ((Config.miscorrection g col d).filter fun i => decide (i < 288) && decide (dHalf i = h)).take 1

/-- R68: the free outcome of damage `d` beyond a guarantee, where a miscorrection changes the bits `f`, and the stored bits
that differ from those written in what is delivered, of reported damage in the column itself. A code word other than the one
written differs from it in a protected bit: damage that no such outcome fits is reported. -/
def freeCheck (grade g col : Nat) (d f : List Nat) : Check × List Nat :=
  if Config.damageOutcome g col d % 3 = 1 ∧ !f.isEmpty ∧ (flipBits d f).any (infoBit grade) then (.corrected, flipBits d f)
  else if Config.damageOutcome g col d % 3 = 2 ∧ d.any (infoBit grade) then (.clean, d)
  else (.uncorrectable, d)

/-- R68: SEC-DED over one half: the check, and the bits that differ from those written in what is delivered. -/
def halfOutcome (g col : Nat) (d : List Nat) (h : Nat) : Check × List Nat :=
  let e := halfBits d h
  if e.length = 0 then (.clean, []) else if e.length = 1 then (.corrected, []) else if e.length = 2 then (.uncorrectable, e)
  else freeCheck 1 g col e (flipsD g col h e)

/-- R68: SEC-DED over one half. -/
def checkHalf (g col : Nat) (d : List Nat) (h : Nat) : Check := (halfOutcome g col d h).1

/-- R68: damaged stored bits of grade P that word i's parity covers. -/
def parityBits (d : List Nat) (i : Nat) : List Nat := d.filter fun k => k / 64 = i ∧ k < 256 ∨ k = 259 - i

/-- R68: distinct damaged bytes. -/
def badBytes (d : List Nat) : List Nat := (d.map (· / 8)).dedup

/-- R68: the Reed-Solomon check of a grade S column: the check, and the bits that differ in what is delivered. -/
def symbolOutcome (g col : Nat) (d : List Nat) : Check × List Nat :=
  let n := (badBytes d).length
  if n = 0 then (.clean, []) else if n ≤ 2 then (.corrected, []) else freeCheck 0 g col d (flipsS g col d)

/-- R68: the check of a column with damaged stored bits `d`. -/
def checkCol (grade g col : Nat) (d : List Nat) : Check :=
  if grade = 0 then (symbolOutcome g col d).1
  else if grade = 1 then (checkHalf g col d 0).join (checkHalf g col d 1)
  else if (List.range 4).any fun i => (parityBits d i).length % 2 = 1 then .uncorrectable else .clean

/-- R68, R286: the stored bits of a column that, after any correction, differ from those written: in an uncorrectable one of
grade D the damaged ones, which a whole-column write leaves in its metadata (R69). -/
def deliveredWrong (grade g col : Nat) (d : List Nat) : List Nat :=
  if grade = 0 then (symbolOutcome g col d).2
  else if grade = 1 then (halfOutcome g col d 0).2 ++ (halfOutcome g col d 1).2
  else d

/-- The data bits of a 16-byte block among stored bits, in rising order. -/
def blockBits (d : List Nat) (i : Nat) : List Nat := (List.range 128).filterMap fun k => if d.contains (128 * i + k) then some (128 * i + k) else none

/-- A column read (R286): its 32 bytes, and whether it is uncorrectable. -/
structure ColRead where
  bytes : List Byte
  unc : Bool
  deriving DecidableEq, Repr

/-- R286: the H16 poison in every element. -/
def poisonCol : List Byte := (List.range 32).map fun i => if i % 2 = 0 then 0x5A else 0x7E

/-- R287: the syndrome word of an uncorrectable column. -/
def synOf (grade g col : Nat) (d : List Nat) : W64 :=
  if grade = 2 then
    w64 ((List.range 4).foldl (fun a i => if (parityBits d i).length % 2 = 1 then a + 2 ^ (3 - i) else a) 0)
  else
    let y := Config.syndrome g col d
    if grade = 0 then (if y = 0 then 1 else y.zeroExtend 64)
    else
      let half (h : Nat) : Nat :=
        if checkHalf g col d h = .clean then 0 else max 1 (bits y (9 * h) 9)
      w64 (half 1 * 512 + half 0)

/-- R287: record an uncorrectable error of a source. -/
def berrUnc (grade col src : Nat) (syn : W64) (b : Bank) : Bank :=
  let w := b.berr0
  let n := min 255 (bits w 48 8 + 1)
  let cc := bits w 32 16
  if w.getLsbD 63 then
    { b with berr0 := (w &&& 0xFF00FFFFFFFFFFFF) ||| 0x4000000000000000 ||| w64 (n * 2 ^ 48) }
  else
    { b with
      berr0 := w64 (2 ^ 63 + bit (w.getLsbD 62) * 2 ^ 62 + grade * 2 ^ 60 + src * 2 ^ 56 + n * 2 ^ 48 + cc * 2 ^ 32 + col * 32)
      berr1 := syn }

/-- R355: an uncorrectable read at cycle t of the event log is an event of its row, unless its column was counted and not rewritten
since; from the second event on the fault of the row is lasting. -/
def countUnc (t col : Nat) (b : Bank) : Bank :=
  if b.badCols.contains col then b
  else
    let n := tget b.badRows (col / 32) 0 + 1
    { b with
      badCols := col :: b.badCols
      badRows := tset 0 b.badRows (col / 32) n
      lastingRows := if n < 2 ∨ b.lastingRows.any (fun x => x.1 = col / 32) then b.lastingRows else tput b.lastingRows (col / 32) t }

/-- R355: the 17th most recent corrected error lies within an hour of the newest. -/
def manyCorrected (l : List Nat) : Bool :=
  match l.head?, l[16]? with
  | some a, some b => decide (a - b ≤ 3600000000000)
  | _, _ => false

/-- R286, R355: a corrected read at cycle t of the event log counts in BERR.CCNT and at the Arbiter. -/
def countCorr (t : Nat) (b : Bank) : Bank :=
  let cc := min 65535 (bits b.berr0 32 16 + 1)
  let l := (t :: b.corrected).take 17
  { b with
    berr0 := (b.berr0 &&& 0xFFFF0000FFFFFFFF) ||| w64 (cc * 2 ^ 32)
    corrected := l
    lasting := if b.lasting.isNone && manyCorrected l then some t else b.lasting }

/-- R330: a request to a row. -/
def countReq (col : Nat) (b : Bank) : Bank := { b with requests := tset 0 b.requests (col / 32) (tget b.requests (col / 32) 0 + 1) }

/-- R65: the key identifier of the partition that owns a bank. -/
def bankKey (s : State) (g : Nat) : Nat :=
  match (s.cluster (pcnOf g)).part with
  | some p => (s.part p).key
  | none => 0

/-- A 16-byte block of a column with the data bits `w` of the column changed. -/
def changeBits (i : Nat) (w : List Nat) (x : BitVec 128) : BitVec 128 := w.foldl (fun x k => x ^^^ (1#128 <<< (k - 128 * i))) x

/-- R65, R68: block i of a column as it decrypts under the bank's present key, where the stored bits `w` differ from those
written. Memory holds what was written; the stored bits are its cipher under the key of the write. A column that nothing has
written counts as written under the present key. -/
def decrypted (s : State) (g col i : Nat) (w : List Nat) : List Byte :=
  let raw := readBytes s.mem (colKey g col + 16 * i) 16
  let now := bankKey s g
  let k := tget (s.bank g).keys col 0
  if (k = 0 ∨ k = now + 1) ∧ w.isEmpty then raw
  else
    let stored := Config.cipher (if k = 0 then now else k - 1) g col i (BitVec.ofNat 128 (leNat raw))
    leBytes 16 ((Config.cipher now g col i).symm (changeBits i w stored)).toNat

/-- What a read of a column delivers, without its record (R286). -/
def peekCol (s : State) (g col : Nat) : ColRead :=
  let b := s.bank g
  let d := tget b.damage col []
  let gr := gradeOf b col
  if checkCol gr g col d = .uncorrectable then { bytes := poisonCol, unc := true }
  else
    let blk (i : Nat) : List Byte := decrypted s g col i (blockBits (deliveredWrong gr g col d) i)
    { bytes := blk 0 ++ blk 1, unc := false }

/-- R286: a read of a column by a source (the SRC codes of R287), with its records. -/
def readCol (g col src : Nat) (s : State) : ColRead × State :=
  let b := s.bank g
  let d := tget b.damage col []
  let gr := gradeOf b col
  let r := peekCol s g col
  (r, modBank g (fun b =>
    let b := countReq col b
    match checkCol gr g col d with
    | .clean => b
    | .corrected => countCorr s.now b
    | .uncorrectable => countUnc s.now col (berrUnc gr col src (synOf gr g col d) b)) s)

/-- R301: the metadata bits of a grade. -/
def gradeMask (gr : Nat) : BitVec 28 := if gr = 0 then 0 else if gr = 1 then 0x3FFF else 0xFFFFFFF

/-- R68, R301: the metadata that a read of a column delivers: none in grade S, 14 bits in D, 28 in P. Damage that the
grade does not correct shows in it. -/
def metaOf (s : State) (g col : Nat) : BitVec 28 :=
  let b := s.bank g
  let m := tget b.mdata col 0
  let d := tget b.damage col []
  let w := deliveredWrong (gradeOf b col) g col d
  let lo := if gradeOf b col = 1 then 274 else 260
  if gradeOf b col = 0 then 0
  else w.foldl (fun (m : BitVec 28) i => if lo ≤ i ∧ i < 288 then m ^^^ (1 <<< (i - lo)) else m) (m &&& gradeMask (gradeOf b col))

/-- R355: a column has been written; a row all of whose columns have been written since its first event starts anew. Separate
writes of its 32 columns count together, and only those since its first event count (DESIGN CHOICE, log entry 85). -/
def wrote (col : Nat) (b : Bank) : Bank :=
  let row := col / 32
  let b := { b with badCols := b.badCols.filter (· ≠ col), damage := tdel b.damage col }
  if tget b.badRows row 0 = 0 then b
  else
    let m := tget b.rewritten row 0 ||| 2 ^ (col % 32)
    if m = 2 ^ 32 - 1 then { b with badRows := tdel b.badRows row, rewritten := tdel b.rewritten row }
    else { b with rewritten := tset 0 b.rewritten row m }

/-- R293, R294: what a column held before the bank commands that have written it with no BKFENCE since. -/
def beforeOf (s : State) (g col : Nat) : Option Before := ((s.bank g).before.find? fun x => x.1 = col).map (·.2)

/-- R196: a column that has been written is not met again as it was before what it held then was written. -/
def settle (g col : Nat) (s : State) : State :=
  if (beforeOf s g col).isNone then s else modBank g (fun b => { b with before := tdel b.before col }) s

/-- R196: the DMA engine of cluster `q`, which also fills instruction caches and walks page tables (R287), meets a column as it is. -/
def meet (q g col : Nat) (s : State) : State :=
  match beforeOf s g col with
  | none => s
  | some x => if x.met.contains q then s else modBank g (fun b => { b with before := tput b.before col { x with met := q :: x.met } }) s

/-- What context `c` replaces in a column, where its check is clean. -/
def heldBefore (c g col : Nat) (data : Bool) (s : State) : Option Before :=
  let b := s.bank g
  if checkCol (gradeOf b col) g col (tget b.damage col []) ≠ .clean then none
  else some { cid := c, bytes := (peekCol s g col).bytes, mdata := metaOf s g col, data := data }

/-- R293, R381: a bank command of context `c` has written a column, from `s` to `t`, and no put or get is ordered after it yet. `data`:
the command replaced the data. -/
def unfenced (c g col : Nat) (data : Bool) (s t : State) : State :=
  match heldBefore c g col data s with
  | none => t
  | some now =>
    let old := match beforeOf s g col with
      | some x => if x.cid = c ∧ !x.fenced then { x with data := x.data || data } else now
      | none => now
    modBank g (fun b => { b with before := tput b.before col old }) t

/-- R196, R208, R210, R381: a put or memory-side add of context `c` has written a column, from `s` to `t`: entries of harts that have
acquired nothing since may still meet it as it was, but those of the clusters `met`, whose DMA engine has written it. -/
def putBefore (c : Nat) (met : List Nat) (g col : Nat) (s t : State) : State :=
  match heldBefore c g col false s with
  | none => t
  | some x =>
    let x := { x with fenced := true, cover := [{ scope := 4, cycle := s.gtime, hart := c }], met := met }
    modBank g (fun b => { b with before := tput b.before col x }) t

/-- What is remembered of the columns that bank commands and puts of context `c` have written changes. -/
def mapBefore (c : Nat) (f : Before → Before) (s : State) : State :=
  { s with banks := s.banks.map fun x => (x.1, { x.2 with before := x.2.before.map fun y => (y.1, if y.2.cid = c then f y.2 else y.2) }) }

/-- R299: the column writes of the bank commands of a context are performed at PACKAGE scope. -/
def performed (c : Nat) (s : State) : State := mapBefore c (fun x => { x with fenced := true }) s

/-- R191, R194: a completion record releases the column writes of a member at PACKAGE scope. -/
def recordCovers (c : Nat) (s : State) : State :=
  mapBefore c (fun x => { x with fenced := true, cover := addRelease { scope := 3, cycle := s.gtime, hart := c } x.cover }) s

/-- R204, R208: a hart that had completed acquires of these cycles, by scope, may have acquired a release: each lies in the other's
instance of its scope, and the acquire is not the earlier. -/
def mayHold (s : State) (c : Nat) (acquired : Tbl Nat) (r : Release) : Bool :=
  sameInstance s r.scope r.hart c && acquired.any fun z => sameInstance s z.1 c r.hart && decide (r.cycle ≤ z.2)

/-- R196, R208, R293: whether an entry of context `c`, whose hart had completed the acquires `acquired` when it issued, may come before
the write of a column that has replaced this: the DMA engine of its cluster has not written the column so, nor met it as it is; and the
write is one of its own bank commands that no BKFENCE has followed, or one of another hart of which it cannot have acquired a release. -/
def mayPrecede (s : State) (c : Nat) (acquired : Tbl Nat) (x : Before) : Bool :=
  !x.met.contains (pcnOf (s.ctx c).gcn) && if x.cid = c then !x.fenced else !(x.cover.any (mayHold s c acquired))

/-- R69: a whole column is written with new check bits; its metadata stays. -/
def writeCol (g col : Nat) (l : List Byte) (s : State) : State :=
  let m := metaOf s g col
  let keep := gradeOf (s.bank g) col = 0
  let key := bankKey s g + 1
  modBank g (fun b =>
    let b := { b with keys := tset 0 b.keys col key }
    wrote col (countReq col (if keep then b else { b with mdata := tset 0 b.mdata col m })))
    (settle g col { s with mem := writeBytes s.mem (colKey g col) l })

/-- R301: metadata is written and the column rewritten, data unchanged. -/
def writeMeta (g col : Nat) (m : BitVec 28) (s : State) : State :=
  let r := peekCol s g col
  modBank g (fun b => { b with mdata := tset 0 b.mdata col m }) (writeCol g col r.bytes s)

/-- R69: bytes `l` at offset `o` of a column; the whole column needs no read. False: the read half was uncorrectable and
nothing is written. -/
def mergeCol (g col o : Nat) (l : List Byte) (src : Nat) (s : State) : Bool × State :=
  if l.length = 32 then (true, writeCol g col l s)
  else
    let (r, s) := readCol g col src s
    if r.unc then (false, s)
    else (true, writeCol g col (r.bytes.take o ++ l ++ r.bytes.drop (o + l.length)) s)

/-- Whether a physical address is device DRAM (R63). -/
def isDram (k : Nat) : Bool := decide (k < 0x10000000000)

/-- `n` bytes at a physical address, column by column (R63, R286); host memory has no columns. -/
def physRead (k n src : Nat) (s : State) : List Byte × State :=
  if isDram k then
    if n = 0 then ([], s)
    else
      (List.range ((k + n - 1) / 32 - k / 32 + 1)).foldl (fun (p : List Byte × State) i =>
        let c := k / 32 + i
        let (r, s) := readCol (c / 0x40000) (c % 0x40000) src p.2
        let lo := if c * 32 < k then k - c * 32 else 0
        let hi := min 32 (k + n - c * 32)
        (p.1 ++ (r.bytes.take hi).drop lo, s)) ([], s)
  else (readBytes s.mem k n, s)

/-- Write bytes at a physical address (R69). `some i`: the write stopped at byte i, whose column was uncorrectable. -/
def physWrite (k : Nat) (l : List Byte) (src : Nat) (s : State) : Option Nat × State :=
  if isDram k then
    if l.isEmpty then (none, s)
    else
      (List.range ((k + l.length - 1) / 32 - k / 32 + 1)).foldl (fun (p : Option Nat × State) i =>
        match p.1 with
        | some _ => p
        | none =>
          let c := k / 32 + i
          let lo := if c * 32 < k then k - c * 32 else 0
          let at_ := c * 32 + lo - k
          let hi := min 32 (k + l.length - c * 32)
          match mergeCol (c / 0x40000) (c % 0x40000) lo ((l.drop at_).take (hi - lo)) src p.2 with
          | (true, s) => (none, s)
          | (false, s) => (some at_, s)) (none, s)
  else (none, { s with mem := writeBytes s.mem k l })

/-- R301: the metadata exchange: the result of width w, and the new state. -/
def exchangeMeta (w g col : Nat) (v k : BitVec 28) (s : State) : Nat × State :=
  let (r, s) := readCol g col 3 s
  if r.unc then (2 ^ (w - 1), s)
  else
    let old := metaOf s g col
    let m := k &&& gradeMask (gradeOf (s.bank g) col)
    (old.toNat, if m = 0 then s else writeMeta g col ((old &&& ~~~m) ||| (v &&& m)) s)

/-- R301: whether an exchange under mask `k` with result `r` rewrites the column. -/
def exchangeRewrites (w g col : Nat) (k : BitVec 28) (r : Nat) (s : State) : Bool :=
  decide (r ≠ 2 ^ (w - 1)) && decide (k &&& gradeMask (gradeOf (s.bank g) col) ≠ 0)

/-- R356: the 64 KiB frame of a bank offset is retired. -/
def isRetired (s : State) (g off : Nat) : Bool := (s.bank g).retired.contains (off / 0x10000)

/-- R330: the hot rows of all banks, as (bank, row). -/
def hotRows (s : State) : List (Nat × Nat) := s.banks.flatMap fun b => b.2.hot.map fun r => (b.1, r)
/-- R330: requests to a row in the present window. -/
def rowCount (s : State) (r : Nat × Nat) : Nat := tget (s.bank r.1).requests r.2 0
/-- Remove a number of copies of an element. -/
def eraseTimes {α : Type} [DecidableEq α] (n : Nat) (a : α) (l : List α) : List α := (List.range n).foldl (fun l _ => l.erase a) l

/-- R330: n requests of a requester to a hot row park, as far as the side queue of 64 takes them; those that do count as
received. -/
def park (who : Requester) (n : Nat) (r : Nat × Nat) (s : State) : State :=
  modBank r.1 (fun b =>
    let m := min (n - b.parked.count (r.2, who)) (64 - b.parked.length)
    { b with
      parked := b.parked ++ List.replicate m (r.2, who)
      requests := tset 0 b.requests r.2 (tget b.requests r.2 0 + m) }) s

/-- R330: no row is hot, and no request that has been received waits to be served. -/
def cool (s : State) : Bool := (hotRows s).isEmpty && s.banks.all fun b => b.2.tickets.isEmpty

/-- R330: the rows, as (bank, row), of which requests of a requester have been received and may be served. -/
def ticketRows (s : State) (who : Requester) : List (Nat × Nat) :=
  s.banks.flatMap fun b => (b.2.tickets.filter fun p => p.2 = who).map fun p => (b.1, p.1)

/-- R330: what a requester does to banks. Every request to a hot row needs an admission of its own: without them all,
nothing happens and the requests park. A request that was counted when it was received is not counted again. -/
def gate (who : Requester) (f : State → State) (s : State) : State :=
  if cool s then f s
  else
    let hot := hotRows s
    let t := f s
    let uses (r : Nat × Nat) : Nat := rowCount t r - rowCount s r
    let has (r : Nat × Nat) : Nat := (s.bank r.1).tickets.count (r.2, who)
    if hot.all fun r => uses r ≤ has r then
      forEach (hot ++ ticketRows s who).dedup (fun r u => modBank r.1 (fun b => { b with
        tickets := eraseTimes (uses r) (r.2, who) b.tickets
        requests := tset 0 b.requests r.2 (rowCount t r - min (uses r) (has r)) }) u) t
    else forEach hot (fun r u => park who (uses r - has r) r u) s

/-- R330: a requester still has what it made requests for. -/
def stillAsks (s : State) (who : Requester) : Bool :=
  match who with
  | .entry eid => s.ctxs.any fun p => (p.2.eng.q ++ p.2.eng.madds).any fun e => decide (e.eid = eid)
  | .bank c => !(s.ctx c).eng.bq.isEmpty
  | .bau g => (s.bank g).run.isSome
  | .fetch c => (s.ctx c).resident
  | .spawn c => (match (s.ctx c).wait with | .tspawn .. => true | _ => false)
  | _ => true

/-- R330: at the end of a window of 1,024 cycles, rows with more than 128 requests are hot for the next one. Parked requests
to a row that is no longer hot are held no more; they have been counted, and are not counted again when they are served. -/
def execHotRowWindow (g : Nat) (s : State) : Host.Outcome State Fault Refusal :=
  .next (if s.gtime % 1024 ≠ 0 ∨ (s.bank g).window = s.gtime then s
    else modBank g (fun b =>
      let hot := (b.requests.filter fun p => 128 < p.2).map (·.1)
      { b with
        hot := hot
        requests := []
        window := s.gtime
        parked := b.parked.filter fun p => hot.contains p.1
        tickets := (b.tickets ++ b.parked.filter fun p => !hot.contains p.1).filter fun p => stillAsks s p.2 }) s)

/-- R330: the GTB cycle of the end of the window of a bank that has received requests or holds hot rows. -/
def windowDue (s : State) (b : Bank) : Option Nat :=
  if b.requests.isEmpty && b.hot.isEmpty then none
  else if s.gtime % 1024 = 0 ∧ b.window ≠ s.gtime then some s.gtime
  else some ((s.gtime / 1024 + 1) * 1024)

/-- R330: the first parked request of a row is admitted, at most one per 8 cycles while the row is hot. -/
def execHotRowAdmit (g row : Nat) (s : State) : Host.Outcome State Fault Refusal :=
  .next (
    let b := s.bank g
    match b.parked.find? fun p => p.1 = row with
    | none => s
    | some p =>
      if b.hot.contains row ∧ s.gtime < tget b.lastAdmit row 0 + 8 ∧ 0 < tget b.lastAdmit row 0 then s
      else modBank g (fun b => { b with
        parked := b.parked.erase p
        tickets := b.tickets ++ [p]
        lastAdmit := tset 0 b.lastAdmit row s.gtime }) s)

end Sys2Proof.Machine
end

