-- ==== Sys2Proof/Machine/Translate.lean ====
section
/-!
DEFINITION. The hashed page table, the walk, the TLB of a cluster and instruction fetch (R55, R66, R67, R107, R342 to
R348). Versions of tiles substitute the frame of a page (R321).
-/

namespace Sys2Proof.Machine

/-- R66. -/
def pageToPhys (o base il : Nat) : Nat :=
  if il = 0 then base + o
  else
    let n := if il = 1 then 8 else 64
    let l := o / 128
    (base / 0x800000 + l % n) * 0x800000 + base % 0x800000 + l / n * 128 + o % 128

/-- Number of banks that an interleave spreads a page over. -/
def ilBanks (il : Nat) : Nat := if il = 0 then 1 else if il = 1 then 8 else 64

/-- R343: fields of a page entry. -/
def pteAsid (e : BitVec 128) : Nat := bits e 112 16
def pteVpn (e : BitVec 128) : Nat := bits e 71 41
def pteBig (e : BitVec 128) : Bool := e.getLsbD 61
def pteIl (e : BitVec 128) : Nat := bits e 59 2
def pteGr (e : BitVec 128) : Nat := bits e 57 2
/-- The page's base: physical address bits 47:16. -/
def pteBase (e : BitVec 128) : Nat := bits e 16 32 * 0x10000
def pteSize (e : BitVec 128) : Nat := if pteBig e then 0x2000000 else 0x10000
/-- Start of the virtual page. -/
def pteVa (e : BitVec 128) : Nat := if pteBig e then pteVpn e / 512 * 0x2000000 else pteVpn e * 0x10000

/-- R344: the entry matches an address in an address space. -/
def pteMatch (e : BitVec 128) (asid va : Nat) : Bool :=
  e.getLsbD 63 && decide (pteAsid e = asid) &&
    (if pteBig e then decide (pteVpn e / 512 = va / 0x2000000 % 0x100000000) else decide (pteVpn e = va / 0x10000 % 0x20000000000))

/-- R67, R342: base and interleave of `size` bytes are well formed for a partition: alignment, its own clusters'
banks, no save area (R332). -/
def placeOk (s : State) (p base il size : Nat) : Bool :=
  let n := ilBanks il
  let bank := base / 0x800000
  decide (base < 0x10000000000) && decide (il ≤ 2) && decide (base % 0x800000 % (size / n) = 0) && decide (bank % n = 0) &&
    !(decide (il = 0) && decide (size ≠ 0x10000)) &&
    ((List.range ((n + 7) / 8)).all fun i => (s.cluster (bank / 8 + i)).part = some p) &&
    decide (base % 0x800000 + size / n ≤ Config.saveBase)

/-- R345: every 1 KiB of the page has the grade of the entry. -/
def gradesOk (s : State) (base il size gr : Nat) : Bool :=
  let n := ilBanks il
  let lo := base % 0x800000 / 1024
  let cnt := (size / n + 1023) / 1024
  (List.range n).all fun i =>
    let t := (s.bank (base / 0x800000 + i)).grades.filter fun p => lo ≤ p.1 ∧ p.1 < lo + cnt
    if gr = 0 then t.all fun p => p.2 = 0 else decide ((t.filter fun p => p.2 = gr).length = cnt)

/-- R345. Of a host page too IL and GR of 3 are malformed: its first item says so, its last that a host page's IL and GR are
ignored (DESIGN CHOICE, log entry 68). -/
def malformed (s : State) (p : Nat) (e : BitVec 128) : Bool :=
  let host := e.getLsbD 47
  decide (bits e 64 7 ≠ 0) || decide (bits e 48 6 ≠ 0) || decide (bits e 0 16 ≠ 0) ||
    decide (pteIl e = 3) || decide (pteGr e = 3) ||
    (pteBig e && (decide (pteVpn e % 512 ≠ 0) || decide (bits e 16 9 ≠ 0))) ||
    (!host && (!placeOk s p (pteBase e) (pteIl e) (pteSize e) || !gradesOk s (pteBase e) (pteIl e) (pteSize e) (pteGr e)))

/-- What a walk finds. -/
inductive Found where
  | none
  | entry (e : BitVec 128)
  | error
  | retired
  deriving DecidableEq, Repr

/-- Little-endian entries of a bucket. -/
def entriesOf : Nat → List Byte → List (BitVec 128)
  | 0, _ => []
  | n + 1, l => BitVec.ofNat 128 (leNat (l.take 16)) :: entriesOf n (l.drop 16)

/-- R344, R346, R348, R356: probe buckets from `h + i`, at most `fuel` of them, by the DMA engine of a cluster (R196) or by the dispatcher. -/
def probe (by_ : Option Nat) (fuel i h base il ln asid va : Nat) (s : State) : Found × State :=
  match fuel with
  | 0 => (.none, s)
  | fuel + 1 =>
    let k := pageToPhys (128 * ((h + i) % 2 ^ ln)) base il
    if isRetired s (k / 0x800000) (k % 0x800000) then (.retired, s)
    else
      let cols := (List.range 4).foldl (fun (q : List Byte × Bool × State) j =>
        let (r, s) := readCol (k / 0x800000) (k % 0x800000 / 32 + j) 1 q.2.2
        (q.1 ++ r.bytes, q.2.1 || r.unc, match by_ with | some q => meet q (k / 0x800000) (k % 0x800000 / 32 + j) s | none => s)) ([], false, s)
      let s := cols.2.2
      if cols.2.1 then (.error, s)
      else
        let es := entriesOf 8 cols.1
        match es.find? fun e => pteMatch e asid va with
        | some e => (.entry e, s)
        | none => if es.any fun e => !e.getLsbD 63 && !e.getLsbD 62 then (.none, s) else probe by_ fuel (i + 1) h base il ln asid va s

/-- R342, R344: a walk of a partition's table. -/
def walkBy (by_ : Option Nat) (p asid va : Nat) (s : State) : Found × State :=
  let t := (s.part p).ptcfg
  if !t.getLsbD 63 then (.none, s)
  else
    let ln := bits t 48 5
    let h := (w64 (asid * 2 ^ 32 + va / 0x2000000 % 2 ^ 32) * 0x9E3779B97F4A7C15).toNat / 2 ^ (64 - ln)
    probe by_ 8 0 h (bits t 0 48) (bits t 61 2) ln asid va s

/-- The dispatcher's walk (R322). -/
def walk (p asid va : Nat) (s : State) : Found × State := walkBy none p asid va s

/-- R347: the bit of an entry that an access needs: 54 RD, 55 W, 56 X. -/
def permits (e : BitVec 128) (need : Nat) : Bool := e.getLsbD need

/-- R346: the TLB of a cluster takes an entry; beyond 512 entries a free one is dropped (log entry 10). Entries
are tagged by ASID alone: those of a saved context of another partition fill and hit the same TLB (DESIGN CHOICE, log entry 109). -/
def tlbFill (q asid : Nat) (e : BitVec 128) (s : State) : State :=
  let t : TlbEntry := { asid := asid, va := pteVa e, size := pteSize e, pte := e }
  let keep := (s.cluster q).tlb.filter fun x => ¬(x.asid = asid ∧ x.va < t.va + t.size ∧ t.va < x.va + x.size)
  if keep.length < 512 then modCluster q (fun cl => { cl with tlb := t :: keep }) s
  else
    let (v, s) := drawNat s
    modCluster q (fun cl => { cl with tlb := t :: keep.eraseIdx (v % 512) }) s

/-- A translation: an entry, or the KIND of R350, with whether the entry that lacks a permission maps host memory. -/
inductive Trans where
  | ok (e : BitVec 128)
  | bad (kind : Nat) (host : Bool)
  deriving DecidableEq, Repr

/-- R347: a fresh walk, its result cached when well formed. -/
def freshWalk (q p asid va need : Nat) (s : State) : Trans × State :=
  match walkBy (some q) p asid va s with
  | (.none, s) => (.bad 1 false, s)
  | (.error, s) => (.bad 4 false, s)
  | (.retired, s) => (.bad 5 false, s)
  | (.entry e, s) =>
    if malformed s p e then (.bad 3 false, s)
    else
      let s := tlbFill q asid e s
      if permits e need then (.ok e, s) else (.bad 2 (e.getLsbD 47), s)

/-- The cached entries of an address are dropped. -/
def dropPage (q asid va : Nat) (s : State) : State :=
  modCluster q (fun cl => { cl with tlb := cl.tlb.filter fun x => ¬(x.asid = asid ∧ x.va ≤ va ∧ va < x.va + x.size) }) s

/-- R346, R347: translate an address for the DMA engine of a cluster. A walk that a missing permission asks for replaces
the cached entry with its result, also where that is no entry. -/
def translate (q p asid va need : Nat) (s : State) : Trans × State :=
  match (s.cluster q).tlb.find? fun x => x.asid = asid ∧ x.va ≤ va ∧ va < x.va + x.size with
  | some x => if permits x.pte need then (.ok x.pte, s) else freshWalk q p asid va need (dropPage q asid va s)
  | none => freshWalk q p asid va need s

/-- R356: some byte of `n` bytes at offset `o` from a base lies in a retired frame. -/
def framesRetired (s : State) (base il o n : Nat) : Bool :=
  (List.range ((o + n + 127) / 128 - o / 128)).any fun i =>
    let k := pageToPhys ((o / 128 + i) * 128) base il
    isRetired s (k / 0x800000) (k % 0x800000)

/-- R356: some byte of a span of the page lies in a retired frame. -/
def spanRetired (s : State) (e : BitVec 128) (o n : Nat) : Bool :=
  !e.getLsbD 47 && framesRetired s (pteBase e) (pteIl e) o n

/-! ### Instruction fetch (R55, R107, R140) -/

/-- The cached word at an address of an address space. -/
def fetchWord (h : Ctx) (va : Nat) : Option W32 :=
  match h.icache.find? fun l => l.asid = h.csr.asid.toNat ∧ l.va = va / 32 with
  | none => none
  | some l => l.words[va % 32 / 4]?

/-- Little-endian words. -/
def wordsLe : Nat → List Byte → List W32
  | 0, _ => []
  | n + 1, l => BitVec.ofNat 32 (leNat (l.take 4)) :: wordsLe n (l.drop 4)

/-- R55: the instruction cache takes a line; beyond 16 KiB a free one is dropped (log entry 9). -/
def fillLine (c : Nat) (l : Line) (s : State) : State :=
  let keep := (s.ctx c).icache.filter fun x => ¬(x.asid = l.asid ∧ x.va = l.va)
  if keep.length < 512 then modCtx c (fun h => { h with icache := l :: keep }) s
  else
    let (v, s) := drawNat s
    modCtx c (fun h => { h with icache := l :: keep.eraseIdx (v % 512) }) s

/-- R107, R350: a fetch that cannot be made. -/
def fetchFault (c : Nat) (s : State) : State := trapHere c 3 (s.ctx c).regs.pc s

/-- R55, R107: the line of the hart's PC is filled under translation with execute permission, or FETCH_PAGE is taken. A
hart that already holds the line, or that takes an asynchronous trap at this boundary first (R131), is unchanged. -/
def execInstructionFetchFill (c : Nat) (s : State) : Host.Outcome State Fault Refusal :=
  .next (
    let h := s.ctx c
    let va := h.regs.pc.toNat
    if !canMove s h || decide (h.wait ≠ .none ∧ h.wait ≠ .acks) || (fetchWord h va).isSome || h.recorded.isSome ||
        (decide (h.wait = .none) && (pendingAsync h || (takenInterrupt s h).isSome)) then s
    else gate (.fetch c) (fun s =>
      let q := pcnOf h.gcn
      match translate q h.part h.csr.asid.toNat va 56 s with
      | (.bad _ _, s) => fetchFault c s
      | (.ok e, s) =>
        let o := (va - pteVa e) / 32 * 32
        if spanRetired s e o 32 then fetchFault c s
        else
          let k := if e.getLsbD 47 then pteBase e + o else pageToPhys o (pteBase e) (pteIl e)
          let line (b : List Byte) : Line :=
            { asid := h.csr.asid.toNat, va := va / 32, words := wordsLe 8 b, page := pteVa e, pageSize := pteSize e }
          if isDram k then
            let (r, s) := readCol (k / 0x800000) (k % 0x800000 / 32) 1 s
            let s := meet q (k / 0x800000) (k % 0x800000 / 32) s
            if r.unc then fetchFault c s else fillLine c (line r.bytes) s
          else fillLine c (line (readBytes s.mem k 32)) s) s)

end Sys2Proof.Machine
end

