-- ==== Sys2Proof/Machine/Xfer.lean ====
section
/-!
DEFINITION. Issue of put, get and memory-side adds, completion counters and rings (R174 to R189, R307, R308, R312). The
entries run by the events of Machine/Dma.lean.
-/

namespace Sys2Proof.Machine

/-- Geometry fields of R70. -/
def gLen (g : W64) : Nat := bits g 0 32
def gMode (g : W64) : Nat := bits g 48 8

/-- Entries that hold a queue slot (R178, R308). Entries of a saved hart that keep running (R338) take none of the 16 of the hart that is
resident on its core (DESIGN CHOICE, log entry 104). -/
def queueFull (h : Ctx) : Bool := decide (Config.queueLen ≤ h.eng.q.length)

/-- R16, R71, R181: core numbers of the hart's gang. -/
def gangCores (s : State) (c : Nat) : List Nat :=
  match (s.ctx c).task with
  | none => [coreOf (s.ctx c).gcn]
  | some t => (s.task t).members.map fun m => coreOf (s.ctx m).gcn

/-- R176: a far address: global by the sender's check, or virtual within 57 bits. -/
def farOk (s : State) (h : Ctx) (far : W64) (n : Nat) (store : Bool) : Bool :=
  if far.getLsbD 63 then (match senderCheck s h far store false with | .fail => false | .ok _ _ => true)
  else decide (bits far 57 7 = 0) && decide (far.toNat + n ≤ 2 ^ 57)

/-- R178: queue an entry and retire. -/
def enqueueEntry (c : Nat) (e : Entry) (s : State) : State :=
  retire c (modEng c (fun k => { k with q := k.q ++ [{ e with acquired := (s.ctx c).acquired }] }) { s with nextId := s.nextId + 1 })

/-- The entry that a geometry register describes. -/
def entryOf (s : State) (h : Ctx) (kind : XKind) (loc far g : W64) : Entry :=
  { eid := s.nextId, kind := kind, loc := loc, far := far, len := gLen g, lce := g.getLsbD 39, lcnt := bits g 32 6,
    rce := g.getLsbD 47, rcnt := bits g 40 6, asid := h.csr.asid, core := h.gcn }

/-- R175: a META transfer moves the metadata of whole columns: of LEN / 32 columns from the one that holds the far address
(DESIGN CHOICE where they are no multiples of 32, log entry 20). -/
def wholeColumns (e : Entry) : Entry := if e.len = 0 then e else { e with far := e.far &&& ~~~0x1F#64, len := e.len / 32 * 32 }

/-- R174 to R178: PUT and GET, with the checks of R177 in order. -/
def putGet (i : Instr) (get : Bool) (a b k : R5) (s : State) : State :=
  coreOnly s fun c h =>
    let loc := getG h.regs a
    let far := getG h.regs b
    let g := getG h.regs k
    let n := gLen g
    let isMeta := gMode g = 1
    let span := if isMeta then n / 8 else n
    if 2 ≤ gMode g then illegal c i s
    else outside c (fun h s =>
      if n ≠ 0 ∧ !localOk s h loc.toNat span { rd := !get, w := get } then trapHere c 5 loc s
      else match if get && n ≠ 0 then lockedByte h loc.toNat span else none with
        | some x => trapHere c 0x10 (w64 x) s
        | none =>
          let bad := if n ≠ 0 then (isMeta && far.getLsbD 63) || !farOk s h far n (!get)
            else g.getLsbD 47 && far.getLsbD 63 && (isMeta || !farOk s h far 0 true)
          if bad then trapHere c 6 far s
          else if queueFull h then s
          else
            let kind := if isMeta then (if get then .metaGet else .metaPut) else if get then .get else .put
            let e := entryOf s h kind loc far g
            enqueueEntry c (if isMeta then wholeColumns e else e) s) s

/-- R176. -/
def execPut (a b k : R5) (s : State) : Host.Outcome State Fault Refusal := .next (putGet (.put a b k) false a b k s)
/-- R176. -/
def execGet (a b k : R5) (s : State) : Host.Outcome State Fault Refusal := .next (putGet (.get a b k) true a b k s)

/-- R181: the bytes of a destination list that are valid: ring, core. -/
def putmDests (l : W64) : List PutmDest :=
  ((List.range 8).filter fun j => l.getLsbD (8 * j + 7)).map fun j => { ring := bits l (8 * j + 4) 3, core := bits l (8 * j) 3 }

/-- R181: the list is invalid. -/
def putmBad (s : State) (c : Nat) (l : W64) : Bool :=
  let d := putmDests l
  d.isEmpty || ((List.range 8).any fun j => l.getLsbD (8 * j + 7) && l.getLsbD (8 * j + 3)) ||
    (d.any fun x => !(gangCores s c).contains x.core) || !decide (d.Pairwise fun x y => ¬(x.ring = y.ring ∧ x.core = y.core))

/-- R177, R181, R182: PUTM. -/
def execPutm (a b k : R5) (s : State) : Host.Outcome State Fault Refusal :=
  .next (coreOnly s fun c h =>
    let loc := getG h.regs a
    let l := getG h.regs b
    let g := getG h.regs k
    if gMode g ≠ 0 then illegal c (.putm a b k) s
    else outside c (fun h s =>
      if gLen g ≠ 0 ∧ !localOk s h loc.toNat (gLen g) { rd := true } then trapHere c 5 loc s
      else if putmBad s c l then trapHere c 0x13 h.csr.dpat s
      else if queueFull h then s
      else enqueueEntry c { entryOf s h .putm loc l g with dests := putmDests l } s) s)

/-- The member of the context's gang on a core of its cluster (R71, R181). -/
def memberOn (s : State) (c core : Nat) : Option Nat :=
  match (s.ctx c).task with
  | none => if coreOf (s.ctx c).gcn = core then some c else none
  | some t => (s.task t).members.find? fun m => coreOf (s.ctx m).gcn = core

/-- R71: where byte i of a GETD burst lands: core and scratchpad offset. -/
def dealByte (dpat : W64) (i : Nat) : Nat × Nat :=
  let blk := 2 ^ bits dpat 60 4
  let n := bits dpat 56 3 + 1
  let b := i / blk
  (bits dpat (4 * (b % n)) 4, bits dpat 32 15 + b / n * blk + i % blk)

/-- R71: the largest offset that a burst of n ≥ 1 bytes reaches: in its last block, or in the full block before it. -/
def dpatTop (dpat : W64) (n : Nat) : Nat :=
  let blk := 2 ^ bits dpat 60 4
  let b := (n - 1) / blk
  max (dealByte dpat (n - 1)).2 (if b = 0 then 0 else (dealByte dpat (b * blk - 1)).2)

/-- R71: the pattern is invalid for a burst of n bytes. -/
def dpatBad (s : State) (c : Nat) (dpat : W64) (n : Nat) : Bool :=
  let dests := (List.range (bits dpat 56 3 + 1)).map fun j => bits dpat (4 * j) 4
  decide (bits dpat 60 4 < 3) || decide (12 < bits dpat 60 4) || decide (bits dpat 32 15 % 8 ≠ 0) ||
    (dests.any fun x => decide (7 < x) || !(gangCores s c).contains x) || !decide dests.Nodup ||
    (decide (n ≠ 0) && decide (0x7FFF < dpatTop dpat n))

/-- R177, R183: GETD copies DPAT at issue. -/
def execGetd (b k : R5) (s : State) : Host.Outcome State Fault Refusal :=
  .next (coreOnly s fun c h =>
    let far := getG h.regs b
    let g := getG h.regs k
    let n := gLen g
    if gMode g ≠ 0 then illegal c (.getd b k) s
    else outside c (fun h s =>
      let bad := if n ≠ 0 then !farOk s h far n false else g.getLsbD 47 && far.getLsbD 63 && !farOk s h far 0 true
      if bad then trapHere c 6 far s
      else if (n ≠ 0 || g.getLsbD 47) && dpatBad s c h.csr.dpat n then trapHere c 0x13 h.csr.dpat s
      else if queueFull h then s
      else enqueueEntry c { entryOf s h .getd 0 far g with dpat := h.csr.dpat } s) s)

/-! ### Counters (R184) -/

/-- R292: a wait on a counter for a value that a bump, with the counter's value before it, is needed for. -/
def needsBump (n : Nat) (v : W64) (b : Option (Nat × W64)) : Bool :=
  match b with
  | some (m, before) => decide (m = n) && decide (before.toNat < v.toNat)
  | none => false

/-- R292: the pending poison is taken by a CWAIT that only a poisoned bump can meet. -/
def poisonFor (h : Ctx) (n : Nat) (v : W64) : Option W64 :=
  match h.eng.poison with
  | some p => if needsBump n v p.counter || needsBump n v p.second then some p.tvalue else none
  | none => none

/-- R184, R292: the counter has reached the value: CWAIT retires or takes the pending poison. -/
def cwaitDone (c n : Nat) (v : W64) (s : State) : State :=
  match poisonFor (s.ctx c) n v with
  | some t => trapHere c 0x1C t (modEng c (fun e => { e with poison := none }) s)
  | none => retire c s

/-- R184. -/
def execCwait (a b : R5) (s : State) : Host.Outcome State Fault Refusal :=
  .next (coreOnly s fun c _ => outside c (fun h s =>
    let n := bits (getG h.regs a) 0 6
    let v := getG h.regs b
    if (getCc h n).toNat < v.toNat then setWait c (.cwait n v) s else cwaitDone c n v s) s)
/-- R184. -/
def execCread (d a : R5) (s : State) : Host.Outcome State Fault Refusal :=
  .next (coreOnly s fun c _ => outside c (fun h s => finishG c d (getCc h (bits (getG h.regs a) 0 6)) s) s)
/-- R184, R203: CADD is a release at CORE scope. -/
def execCadd (a b : R5) (s : State) : Host.Outcome State Fault Refusal :=
  .next (coreOnly s fun c _ => outside c (fun h s =>
    retire c (bump c (bits (getG h.regs a) 0 6) (getG h.regs b) (cover c 0 s))) s)

/-- R184: a CWAIT wakes when the counter reaches its value; a REMOTE_STORE that is pending is taken first (R180). -/
def execCwaitWake (c : Nat) (s : State) : Host.Outcome State Fault Refusal :=
  .next (
    let h := s.ctx c
    match h.wait with
    | .cwait n v => if mayWake s h && h.pendStores.isEmpty && !decide ((getCc h n).toNat < v.toNat) then cwaitDone c n v s else s
    | _ => s)

/-! ### Rings (R185 to R189) -/

def getRing (h : Ctx) (k : Nat) : Ring := tget h.eng.rings k {}
def setRing (c k : Nat) (r : Ring) (s : State) : State := modEng c (fun e => { e with rings := tput e.rings k r }) s

/-- R188: TVALUE of RING_HANDLE. -/
def ringValue (k : Nat) (g : W64) : W64 := w64 (k * 2 ^ 32) ||| (g &&& 0xFFFFFFFF)

/-- R256: the A rings (or C rings) that queued AXMM and AXGANG hold. -/
def heldRing (h : Ctx) (k : Nat) (a : Bool) : Bool :=
  h.eng.aq.any fun e => match e.instr with
    | .axmm sh _ _ | .axgang sh _ _ =>
      let w := (tget e.regs.s sh.toNat {}).w1
      decide ((if a then bits w 0 3 else bits w 4 3) = k)
    | _ => false

/-- R187: a PUTM entry is writing into a slot of ring `k` of a context: one on whose core its destination lies. -/
def slotWriting (s : State) (c k : Nat) : Bool :=
  s.ctxs.any fun p => p.2.eng.q.any fun e => decide (e.kind = .putm) && e.failed.isNone && e.dests.any fun d =>
    d.claimed && !d.done && decide (d.ring = k) && decide (memberOn s p.1 d.core = some c)

/-- R187, R188: RINIT; it stalls while a PUTM entry writes into a slot of the old ring. -/
def execRinit (k a b : R5) (s : State) : Host.Outcome State Fault Refusal :=
  .next (coreOnly s fun c h =>
    let base := (getG h.regs a).toNat
    let g := getG h.regs b
    let slotb := bits g 0 16
    let nslot := bits g 16 16
    let n := slotb * nslot
    if 8 ≤ k.toNat then illegal c (.rinit k a b) s
    else outside c (fun h s =>
      let overlap := h.eng.rings.any fun p =>
        decide (p.1 ≠ k.toNat) && p.2.valid && decide (base < p.2.base + p.2.slotb * p.2.nslot) && decide (p.2.base < base + n)
      if slotb % 8 ≠ 0 ∨ slotb < 8 ∨ 8192 < slotb ∨ nslot < 1 ∨ 1024 < nslot ∨ base % 8 ≠ 0 ∨ overlap then
        trapHere c 0x11 (ringValue k.toNat g) s
      else if !(inPad base n && protOk h.csr.pw h.priv base n { rd := true, w := true }) then trapHere c 5 (getG h.regs a) s
      else if heldRing h k.toNat true || heldRing h k.toNat false then trapHere c 0x11 (ringValue k.toNat g) s
      else if slotWriting s c k.toNat then s
      else
        retire c (setLocalFe c base n false (setRing c k.toNat
          { valid := true, base := base, slotb := slotb, nslot := nslot, feed := g.getLsbD 32, head := 0, tail := 0 } s))) s)

/-- R188: the checks of RWF, RWE, RPUB and RCON: `top` is the most that the count may be; then `act`. -/
def ringOp (i : Instr) (k b : R5) (top : Ring → Nat) (fed held : Bool → Bool) (act : Nat → Ring → Nat → State → State)
    (s : State) : State :=
  coreOnly s fun c h =>
    let g := getG h.regs b
    let n := g.toNat
    if 8 ≤ k.toNat then illegal c i s
    else outside c (fun h s =>
      let r := getRing h k.toNat
      if !r.valid ∨ top r < n ∨ fed r.feed ∨ (held true && heldRing h k.toNat true) ∨ (held false && heldRing h k.toNat false)
      then trapHere c 0x11 (ringValue k.toNat g) s
      else act c r n s) s

/-- R187. -/
def execRwf (d k b : R5) (s : State) : Host.Outcome State Fault Refusal :=
  .next (ringOp (.rwf d k b) k b (fun r => r.nslot) (fun _ => false) (fun _ => false) (fun c r n s =>
    if filled r < n then setWait c (.rwf d k.toNat (w64 n)) s else finishG c d (w64 (slotAddr r r.head)) s) s)
/-- R187. -/
def execRwe (d k b : R5) (s : State) : Host.Outcome State Fault Refusal :=
  .next (ringOp (.rwe d k b) k b (fun r => r.nslot) id (fun a => !a) (fun c r n s =>
    if freeSlots r < n then setWait c (.rwe d k.toNat (w64 n)) s else finishG c d (w64 (slotAddr r r.tail)) s) s)

/-- Set or clear the full/empty bits of `n` slots from position `p` (R187). Slot i is that of position p + i, which is not reduced modulo
2^32 before it is reduced modulo NSLOT (DESIGN CHOICE, log entry 102). -/
def slotsFe (c : Nat) (r : Ring) (p n : Nat) (full : Bool) (s : State) : State :=
  forEach (List.range n) (fun i s => setLocalFe c (slotAddr r (p + i)) r.slotb full s) s

/-- R187, R203: RPUB publishes slots, a release at CORE scope. -/
def execRpub (k b : R5) (s : State) : Host.Outcome State Fault Refusal :=
  .next (ringOp (.rpub k b) k b freeSlots id (fun a => !a) (fun c r n s =>
    retire c (setRing c k.toNat { r with tail := (r.tail + n) % 0x100000000 } (slotsFe c r r.tail n true (cover c 0 s)))) s)
/-- R187: RCON consumes slots. -/
def execRcon (k b : R5) (s : State) : Host.Outcome State Fault Refusal :=
  .next (ringOp (.rcon k b) k b filled (fun _ => false) id (fun c r n s =>
    retire c (setRing c k.toNat { r with head := (r.head + n) % 0x100000000 } (slotsFe c r r.head n false s))) s)

/-- R187: RWF wakes when enough slots are filled. -/
def execRwfWake (c : Nat) (s : State) : Host.Outcome State Fault Refusal :=
  .next (
    let h := s.ctx c
    match h.wait with
    | .rwf d k n =>
      let r := getRing h k
      if mayWake s h && decide (n.toNat ≤ filled r) then finishG c d (w64 (slotAddr r r.head)) s else s
    | _ => s)
/-- R187: RWE wakes when enough slots are free. -/
def execRweWake (c : Nat) (s : State) : Host.Outcome State Fault Refusal :=
  .next (
    let h := s.ctx c
    match h.wait with
    | .rwe d k n =>
      let r := getRing h k
      if mayWake s h && decide (n.toNat ≤ freeSlots r) then finishG c d (w64 (slotAddr r r.tail)) s else s
    | _ => s)

/-! ### Memory-side adds, issue (R307, R308, R312) -/

/-- R307, R308: a MADD takes a put/get queue entry. -/
def madd (n : Nat) (int : Bool) (vals : List W32) (a : R5) (s : State) : State :=
  coreOnly s fun c h =>
    let ea := getG h.regs a
    outside c (fun h s =>
      if ea.toNat % n ≠ 0 then trapHere c 4 ea s
      else if bits ea 57 7 ≠ 0 then trapHere c 6 ea s
      else if queueFull h then s
      else enqueueEntry c { eid := s.nextId, kind := .madd, far := ea, len := n, asid := h.csr.asid, vals := vals, int := int, core := h.gcn } s) s

/-- g[n] of the running hart. -/
def curG (s : State) (n : R5) : W64 := match s.cur with | .hart c => getG (s.ctx c).regs n | .bau _ => 0
def loWord (x : W64) : W32 := x.truncate 32
def hiWord (x : W64) : W32 := (x >>> 32).truncate 32

/-- R307. -/
def execMaddF32 (a b : R5) (s : State) : Host.Outcome State Fault Refusal := .next (madd 4 false [loWord (curG s b)] a s)
/-- R307. -/
def execMaddI32 (a b : R5) (s : State) : Host.Outcome State Fault Refusal := .next (madd 4 true [loWord (curG s b)] a s)
/-- R307. -/
def execMaddV4 (a b k : R5) (s : State) : Host.Outcome State Fault Refusal :=
  .next (madd 16 false [loWord (curG s b), hiWord (curG s b), loWord (curG s k), hiWord (curG s k)] a s)

/-- R312: an earlier MADD is neither applied nor failed. -/
def maddPending (h : Ctx) : Bool := (h.eng.q.any fun e => e.kind = .madd) || !h.eng.madds.isEmpty

/-- R312: MFENCE retires, or a pending REMOTE_STORE is taken at it. -/
def mfenceDone (c : Nat) (s : State) : State :=
  match (s.ctx c).pendStores with
  | v :: r => trapHere c 7 v (modCtx c (fun h => { h with pendStores := r }) s)
  | [] => retire c s

/-- R312. -/
def execMfence (s : State) : Host.Outcome State Fault Refusal :=
  .next (coreOnly s fun c _ => outside c (fun h s => if maddPending h then setWait c .mfence s else mfenceDone c s) s)
/-- R312: the stall of MFENCE ends. -/
def execMfenceWaitEnd (c : Nat) (s : State) : Host.Outcome State Fault Refusal :=
  .next (
    let h := s.ctx c
    if h.wait = .mfence ∧ mayWake s h ∧ !maddPending h then mfenceDone c s else s)

end Sys2Proof.Machine
end

