-- ==== Sys2Proof/Machine/Dma.lean ====
section
/-!
DEFINITION. The cluster DMA engine: translation of parts, segments, completion and failure of put/get entries, PUTM
claims, memory-side adds, suspended parts and their resolution (R71, R72, R178 to R183, R308 to R311, R321, R331, R338,
R350 to R352). Segments are served in ascending order; words and columns of a part are read and written in any (log entry 11).
-/

namespace Sys2Proof.Machine

/-- The entry of a number. -/
def entryAt (h : Ctx) (eid : Nat) : Option Entry := h.eng.q.find? fun e => e.eid = eid
/-- Replace an entry. -/
def setEntry (c : Nat) (e : Entry) (s : State) : State :=
  modEng c (fun k => { k with q := k.q.map fun x => if x.eid = e.eid then e else x }) s
/-- Remove an entry (R178). -/
def dropEntry (c eid : Nat) (s : State) : State := modEng c (fun k => { k with q := k.q.filter fun x => x.eid ≠ eid }) s

/-- Entries before one in issue order. -/
def earlier (h : Ctx) (eid : Nat) : List Entry := h.eng.q.takeWhile fun x => decide (x.eid ≠ eid)

/-- R178: entries start in issue order. -/
def mayStart (h : Ctx) (e : Entry) : Bool := e.started || (earlier h e.eid).all (·.started)

/-- The owner (virtual function) of a context's task. -/
def vfOf (s : State) (c : Nat) : Option Nat := (s.ctx c).task.map fun t => (s.launch (s.task t).launch).vf

/-- R372: UDRAM counts bytes of DRAM columns. -/
def chargeDram (c n : Nat) (s : State) : State :=
  match vfOf s c with
  | none => s
  | some v => modOwner v (fun o => { o with udram := o.udram + w64 n }) s

/-! ### Translation of parts (R72, R321, R350) -/

/-- R21: a tile stands in a set. -/
def hasTile (a : List (Nat × Nat)) (t : Nat) : Bool := a.any fun x => decide (x.1 ≤ t) && decide (t < x.1 + x.2)

/-- R321: the frame that a task's access to a tile reaches: of its write set its own version, or the mapped frame where the
tile was not renamed, in both sets too; else of its read set the version that was current at its enqueue, or the mapped
frame. -/
def versionBase (s : State) (c asid va base : Nat) : Nat :=
  match (s.ctx c).task with
  | none => base
  | some t =>
    let k := s.task t
    let tile := va / 0x10000
    if k.asid.toNat ≠ asid then base
    else match k.own.find? fun p => p.1 = tile with
      | some p => (s.version p.2).frame
      | none => if hasTile k.wr tile then base else match k.reads.find? fun p => p.1 = tile with
        | some p => (s.version p.2).frame
        | none => base

/-- R347: the permission bit of an entry's kind. -/
def needOf (k : XKind) : Nat := match k with | .get | .getd | .metaGet => 54 | .put | .metaPut | .putm | .madd => 55

/-- Whether an entry's far end is a virtual address (R176). -/
def isVirtual (e : Entry) : Bool := decide (e.kind ≠ .putm) && !e.far.getLsbD 63

/-- R351: a fault identifier that is none of a list, from a free value upward. -/
def freshFid : Nat → Nat → List Nat → Nat
  | 0, f, _ => f
  | n + 1, f, l => if l.contains f then freshFid n ((f + 1) % 65536) l else f

/-- R350, R351, R352: the entry is suspended at the first byte of the part, under an identifier that no suspended part of the
partition has, that no pending write of FRESUME names, and that is not the one the entry had last. -/
def suspend (c : Nat) (e : Entry) (kind : Nat) (s : State) : Entry × State :=
  let (v, s) := drawNat s
  let p := (s.ctx c).part
  let l := e.lastFid.toList ++ (s.part p).susp.map (·.fid) ++ (s.part p).fresume.map (·.2)
  let fid := freshFid l.length (v % 65536) l
  ({ e with susp := some fid, lastFid := some fid },
    modPart p (fun t => { t with susp := t.susp ++ [{ fid := fid, cid := c, eid := e.eid, kind := kind, off := e.xlated, time := s.gtime }] }) s)

/-- R311, R350: kinds of entries that fail where their page is host memory. -/
def deviceOnly (k : XKind) : Bool := match k with | .madd | .metaPut | .metaGet => true | _ => false

/-- R72: translate the pages of the next part; `first` holds interleave and grade of its first page. Host pages, whose IL and GR are ignored
(R345), form parts with each other and never with a device page (DESIGN CHOICE, log entry 113). A MADD or META transfer
whose page is host memory fails, whatever the page permits (R311, R350; log entry 69). Of a page that lacks a permission and
lies in a retired frame KIND is PERMISSION (DESIGN CHOICE, log entry 70). -/
def xlate (fuel c : Nat) (first : Option (Nat × Nat)) (e : Entry) (s : State) : Entry × State :=
  match fuel with
  | 0 => (e, s)
  | fuel + 1 =>
    if e.len ≤ e.xlated then (e, s)
    else
      let h := s.ctx c
      let va := e.far.toNat + e.xlated
      let (t, s) := translate (pcnOf h.gcn) h.part e.asid.toNat va (needOf e.kind) s
      let fault (k : Nat) (s : State) : Entry × State := if first.isNone then suspend c e k s else (e, s)
      let hostFail (s : State) : Entry × State :=
        (if first.isNone && decide (e.xlated ≤ e.pos) then { e with failed := some (e.far + w64 e.xlated) } else e, s)
      match t with
      | .bad k host => if host && deviceOnly e.kind then hostFail s else fault k s
      | .ok p =>
        let o := va - pteVa p
        let n := min (e.len - e.xlated) (pteSize p - o)
        let host := p.getLsbD 47
        let base := if pteBig p || host then pteBase p else versionBase s c e.asid.toNat va (pteBase p)
        if !host && framesRetired s base (pteIl p) o n then fault 5 s
        else if host && deviceOnly e.kind then hostFail s
        else
          let attr := if host then (0, 3) else (pteIl p, pteGr p)
          if first.isSome && decide (first ≠ some attr) then (e, s)
          else
            xlate fuel c (some attr) { e with
              xlated := e.xlated + n
              part := e.part ++ [{ off := e.xlated, len := n, base := base, il := attr.1, poff := o, gr := attr.2 }] } s

/-- The next part of an entry is translated (R72), a MADD's address likewise (R308). -/
def partStep (c : Nat) (e : Entry) (s : State) : State :=
  let (e, s) := xlate (e.len / 0x10000 + 2) c none { e with started := true } s
  setEntry c e s

/-- R72: the next part is translated after the part before it. -/
def execPartTranslate (c eid : Nat) (s : State) : Host.Outcome State Fault Refusal :=
  .next (match entryAt (s.ctx c) eid with
    | none => s
    | some e =>
      if isVirtual e ∧ mayStart (s.ctx c) e ∧ e.susp.isNone ∧ e.failed.isNone ∧ e.xlated < e.len then gate (.entry eid) (partStep c e) s else s)

/-! ### Segments (R331) -/

/-- The physical runs of `n` bytes from entry offset `o` in a piece: address and length, within lines of 128 bytes. -/
def runs (p : Piece) (o n : Nat) : List (Nat × Nat) :=
  let a := p.poff + (o - p.off)
  (List.range ((a + n + 127) / 128 - a / 128)).map fun i =>
    let lo := max a ((a / 128 + i) * 128)
    let hi := min (a + n) ((a / 128 + i + 1) * 128)
    (if isDram p.base then pageToPhys lo p.base p.il else p.base + lo, hi - lo)

/-- R370: the peer device of an aperture of the partition that holds a host physical address, and the offset within the
aperture, which the peer decodes. Aperture word: V bit 63, DEV 59:48, log2 of the size 45:40, BASE bits 46:30 of the address
in 16:0 (log entry 13). -/
def apertureOf (s : State) (p k : Nat) : Option (Nat × Nat) :=
  ((List.range 16).find? fun i =>
    let w := tget (s.part p).aperture i 0
    w.getLsbD 63 && decide (30 ≤ bits w 40 6) && !isDram k && decide ((k - Config.hostBase) / 2 ^ bits w 40 6 = bits w 0 17 * 0x40000000 / 2 ^ bits w 40 6)).map
    fun i =>
      let w := tget (s.part p).aperture i 0
      (bits w 48 12, (k - Config.hostBase) % 2 ^ bits w 40 6)

/-- Free bytes: what a peer device returns. -/
def freeList : Nat → State → List Byte × State
  | 0, s => ([], s)
  | n + 1, s =>
    let (v, s) := drawNat s
    let (l, s) := freeList n s
    (BitVec.ofNat 8 v :: l, s)

/-- The far end of a segment: bytes in device or host memory, SRAM of a cluster, a peer device, or a rejection. -/
inductive Far where
  | phys (l : List (Nat × Nat))
  | sram (pcn ofs : Nat)
  | peer (dev pcn ofs : Nat)
  | reject
  deriving DecidableEq, Repr

/-- R331: bytes of the next segment of `rest` bytes at a far address: at most 4 KiB, ending at the end or at an edge of a
32-byte column, so that no column and no aligned word of the far end is split (R56, R69, R294). -/
def segLen (far rest : Nat) : Nat := if rest ≤ 4096 - far % 32 then rest else 4096 - far % 32

/-- R58, R59, R176: the far end of the segment at the entry's position, with its length. A segment in SRAM ends where the
offset that the receiver's window gives does (R56). -/
def farOf (s : State) (c : Nat) (e : Entry) (store : Bool) : Option (Far × Nat) :=
  let h := s.ctx c
  if e.far.getLsbD 63 then
    let len (o : Nat) : Nat := segLen (o + e.pos) (e.len - e.pos)
    let ofs := bits e.far 0 21
    match senderCheck s h e.far store false with
    | .fail => some (.reject, len ofs)
    | .ok q (some d) => some (.peer d q (ofs + e.pos), len ofs)
    | .ok q none =>
      match receive (s.cluster q) ofs e.len (if store then 1 else 0) with
      | none => some (.reject, len ofs)
      | some o => if store && remoteLocked s q (o + e.pos) (len o) then some (.reject, len o) else some (.sram q (o + e.pos), len o)
  else
    match e.part.find? fun p => p.off ≤ e.pos ∧ e.pos < p.off + p.len with
    | none => none
    | some p =>
      let n := segLen (e.far.toNat + e.pos) (p.off + p.len - e.pos)
      match apertureOf s h.part (p.base + p.poff) with
      | some d => some (.peer d.1 0 (d.2 + (e.pos - p.off)), n)
      | none => some (.phys (runs p e.pos n), n)

/-- The spans of n bytes from an address within units of a size: address and bytes of each. -/
def spans (size a n : Nat) : List (Nat × Nat) :=
  if n = 0 then []
  else (List.range ((a + n - 1) / size - a / size + 1)).map fun i =>
    let lo := max a ((a / size + i) * size)
    (lo, min (a + n) ((a / size + i + 1) * size) - lo)

/-- R56, R294, R381: bytes of a unit of memory that an engine reads or writes as one: a column of device DRAM, an aligned word of host
memory. -/
def unitSize (k : Nat) : Nat := if isDram k then 32 else 8

/-- The units of physical runs: place in the entry's far end, address, bytes; `x` is the place of the first run. -/
def runUnits : Nat → List (Nat × Nat) → List (Nat × Nat × Nat)
  | _, [] => []
  | x, (k, n) :: r => (spans (unitSize k) k n).map (fun u => (x + (u.1 - k), u)) ++ runUnits (x + n) r

/-- R72: the unit of the far end that holds a place of it, as far as it is translated. -/
def unitAt (e : Entry) (x : Nat) : Option (Nat × Nat × Nat) :=
  (e.part.find? fun p => p.off ≤ x ∧ x < p.off + p.len).bind fun p =>
    let o := (p.poff + (x - p.off)) % 128
    let lo := max p.off (x - o)
    (runUnits lo (runs p lo (min (p.off + p.len) (x + (128 - o)) - lo))).find? fun u => u.1 ≤ x ∧ x < u.1 + u.2.2

/-- R71: where n bytes of a burst from offset i land, a block at a time: core, scratchpad offset, bytes. -/
def dealRuns (fuel : Nat) (dpat : W64) (i n : Nat) : List (Nat × Nat × Nat) :=
  match fuel, n with
  | 0, _ | _, 0 => []
  | fuel + 1, n =>
    let blk := 2 ^ bits dpat 60 4
    let m := min n (blk - i % blk)
    ((dealByte dpat i).1, (dealByte dpat i).2, m) :: dealRuns fuel dpat (i + m) (n - m)

/-- R71: write dealt bytes; `i` is the burst offset of the first one. -/
def deal (c : Nat) (dpat : W64) (i : Nat) (l : List Byte) (s : State) : State :=
  ((dealRuns l.length dpat i l.length).foldl (fun (p : List Byte × State) r =>
    (p.1.drop r.2.2, match memberOn p.2 c r.1 with
      | some m => writeLocal m r.2.1 (p.1.take r.2.2) true p.2
      | none => p.2)) (l, s)).2

/-- R196, R294, R381: what a column of `old`, numbered from address 0 of device DRAM, held before a write that an entry of context `c` may
precede. -/
def metBefore (s : State) (c : Nat) (e : Entry) (old : List Nat) (col : Nat) : Option Before :=
  if old.contains col && isDram (col * 32) then (beforeOf s (col / 0x40000) (col % 0x40000)).filter (mayPrecede s c e.acquired) else none

/-- The cluster whose DMA engine carries out a context's entries. -/
def engineOf (s : State) (c : Nat) : Nat := pcnOf (s.ctx c).gcn

/-- R175, R180, R294: an entry of context `c` reads a unit of its far end: data, of which an uncorrectable column gives poison, or the META
of a column; a column of `old` as it was, where the entry may come before what has written it. The META of an uncorrectable column,
which no rule gives, is free (DESIGN CHOICE, log entry 20). -/
def readUnit (c : Nat) (e : Entry) (old : List Nat) (u : Nat × Nat × Nat) (s : State) : List Byte × State :=
  let (k, n) := u.2
  if !isDram k then (readBytes s.mem k n, s)
  else
    let g := k / 0x800000
    let col := k % 0x800000 / 32
    let (r, t) := readCol g col 1 s
    let t := chargeDram c 32 t
    match metBefore s c e old (k / 32) with
    | some x => (if e.kind = .metaGet then leBytes 4 x.mdata.toNat else (x.bytes.drop (k % 32)).take n, t)
    | none =>
      let t := meet (engineOf s c) g col t
      if e.kind ≠ .metaGet then ((r.bytes.drop (k % 32)).take n, t)
      else if r.unc then
        let (v, t) := drawNat t
        (leBytes 4 (BitVec.ofNat 28 v &&& gradeMask (gradeOf (s.bank g) col)).toNat, t)
      else (leBytes 4 (metaOf s g col).toNat, t)

/-- R202, R381: bytes read ahead at n places from `o`, where the first of them is. -/
def earlyAt (t : Tbl Byte) (o n : Nat) : Option (List Byte) :=
  if t.any fun x => x.1 = o then some ((List.range n).map fun i => tget t (o + i) 0) else none

/-- Far bytes of an entry as bytes of its local end (R175). -/
def nearBytes (e : Entry) (n : Nat) : Nat := if e.kind = .metaGet ∨ e.kind = .metaPut then 4 * (n / 32) else n

/-- Units of the far end of a get, those that were read ahead as they were then. -/
def readUnits (c : Nat) (e : Entry) (old : List Nat) : List (Nat × Nat × Nat) → State → List Byte × State
  | [], s => ([], s)
  | u :: r, s =>
    let (a, s) := match earlyAt e.early u.1 (nearBytes e u.2.2) with
      | some b => (b, s)
      | none => readUnit c e old u s
    let (b, s) := readUnits c e old r s
    (a ++ b, s)

/-- The bytes of the far end of a get. What a peer device returns is free (log entry 15). -/
def farRead (c : Nat) (e : Entry) (f : Far) (n : Nat) (old : List Nat) (s : State) : List Byte × State :=
  match f with
  | .phys l => readUnits c e old (runUnits e.pos l) s
  | .sram q o => (readBytes s.mem (sramKey q o) n, s)
  | .peer _ _ _ => freeList n s
  | .reject => ([], s)

/-- R72, R183: the destinations of a GETD are bumped, once its last part is done (log entry 19). -/
def bumpShares (c : Nat) (e : Entry) (s : State) : State :=
  forEach (List.range (bits e.dpat 56 3 + 1)) (fun j s =>
    match memberOn s c (bits e.dpat (4 * j) 4) with
    | some m => bump m e.rcnt 1 s
    | none => s) s

/-- R72: a part of the entry ends at entry offset `o`: the entry's end, or where the next page has not been translated or
has other attributes. -/
def partEnds (e : Entry) (o : Nat) : Bool :=
  decide (e.len ≤ o) || match (e.part.find? fun p => p.off + p.len = o), e.part.find? fun p => p.off = o with
    | some p, some q => decide ((p.il, p.gr) ≠ (q.il, q.gr))
    | some _, none => true
    | none, _ => false

/-- R72: the place in the far end at which the part that holds the entry's position ends, as far as it is translated. -/
def partStop (e : Entry) : Nat := ((e.part.map fun p => p.off + p.len).find? fun o => decide (e.pos < o) && partEnds e o).getD e.len

/-- R56: how many of `m` bytes that end at local address `stop` stay held back: those of a word that the segment splits,
unless a part ends there. -/
def heldBack (e : Entry) (stop o m : Nat) : Nat := if partEnds e o then 0 else min m (stop % 8)

/-- The aligned words of bytes from an address: address and bytes of each. -/
def splitWords (a : Nat) (l : List Byte) : List (Nat × List Byte) := (spans 8 a l.length).map fun u => (u.1, (l.drop (u.1 - a)).take u.2)

/-- Bytes that have been read ahead of place `o` on. -/
def earlyFrom (o : Nat) (t : Tbl Byte) : Tbl Byte := t.filter fun x => o ≤ x.1

/-- R71: the words of dealt bytes, each with the context of its core; `i` is the burst offset of the first byte. -/
def dealtWords (s : State) (c : Nat) (dpat : W64) (i : Nat) (l : List Byte) : List LateWord :=
  ((dealRuns l.length dpat i l.length).foldl (fun (p : List Byte × List LateWord) r =>
    (p.1.drop r.2.2, p.2 ++ match memberOn s c r.1 with
      | some m => (splitWords r.2.1 (p.1.take r.2.2)).map fun w => { ctx := some m, addr := w.1, bytes := w.2 }
      | none => [])) (l, [])).2

/-- R56, R202: the local end of a get: the bytes of the segment and those held back before are written, but for the
aligned word that the segment's end splits. With `later` its words are written one by one (`landLate`). -/
def writeLocalEnd (c : Nat) (later : Bool) (e : Entry) (l : List Byte) (s : State) : State :=
  let all := e.hold ++ l
  let start := e.pos / farPer e.kind - e.hold.length
  let o := e.pos + l.length * farPer e.kind
  let base := if e.kind = .getd then 0 else e.loc.toNat
  let k := all.length - heldBack e (base + o / farPer e.kind) o all.length
  let w := all.take k
  let words := if !later then []
    else if e.kind = .getd then dealtWords s c e.dpat start w
    else (splitWords (base + start) w).map fun w => { ctx := some c, addr := w.1, bytes := w.2 }
  let s := if later then s
    else if e.kind = .getd then deal c e.dpat start w s
    else if w.isEmpty then s else writeLocal c (base + start) w true s
  setEntry c { e with started := true, pos := o, hold := all.drop k, inFlight := [], early := earlyFrom o e.early, late := e.late ++ words } s

/-- R56, R202: of an aligned local word that the end of a segment of n far bytes of a put splits, the bytes after it. -/
def extraBytes (e : Entry) (n : Nat) : Nat :=
  let stop := e.loc.toNat + (e.pos + n) / farPer e.kind
  if stop % 8 = 0 then 0 else min (8 - stop % 8) ((e.len - (e.pos + n)) / farPer e.kind)

/-- Bytes from place `o` of a source, those that were read ahead as they were then. -/
def asReadAhead (t : Tbl Byte) (o : Nat) (l : List Byte) : List Byte :=
  if t.isEmpty then l else l.zipIdx.map fun p => ((t.find? fun x => x.1 = o + p.2).map (·.2)).getD p.1

/-- R202: the local end of a put: the bytes of a segment of n far bytes and, of an aligned word that its end splits, those after it, which
stay held. -/
def readLocalEnd (s : State) (c : Nat) (e : Entry) (n : Nat) : List Byte × List Byte :=
  let o := e.pos / farPer e.kind + e.hold.length
  let m := n / farPer e.kind
  let all := e.hold ++ asReadAhead e.early o (readLocal s c (e.loc.toNat + o) (m + extraBytes e n - e.hold.length))
  (all.take m, all.drop m)

/-- R202, R381: the word of a source in SRAM that holds the byte `i` after place `o` is read ahead: `a` is the source's address of that
place, `n` the bytes from it that may be read, `busy` that a write must land there first. -/
def readAhead (c : Nat) (e : Entry) (a o n i : Nat) (busy : Nat → Nat → Bool) (read : Nat → Nat → List Byte) (s : State) : State :=
  let lo := max a ((a + i) / 8 * 8)
  let len := min (a + n) (((a + i) / 8 + 1) * 8) - lo
  if n ≤ i ∨ busy lo len ∨ (e.early.any fun x => x.1 = o + (lo - a)) then s
  else setEntry c { e with started := true, early := (read lo len).zipIdx.foldl (fun t p => tput t (o + (lo - a) + p.2) p.1) e.early } s

/-- R294, R381: the unit of a source in memory that holds place `x` of the far end is read ahead. -/
def unitAhead (c : Nat) (e : Entry) (old : List Nat) (x : Nat) (s : State) : State :=
  match unitAt e x with
  | none => s
  | some u =>
    if partStop e ≤ x ∨ u.1 < e.pos ∨ (earlyAt e.early u.1 1).isSome then s
    else gate (.entry e.eid) (fun s =>
      let (b, s) := readUnit c e old u s
      setEntry c { e with started := true, early := b.zipIdx.foldl (fun t p => tput t (u.1 + p.2) p.1) e.early } s) s

/-- R202, R294, R381: what holds the byte `i` after the position is read ahead, within the part: of the local end of a put, or of the far
end of a get. -/
def sourceAhead (c : Nat) (e : Entry) (f : Far) (old : List Nat) (i : Nat) (s : State) : State :=
  match e.kind, f with
  | .put, _ | .metaPut, _ =>
    let o := e.pos / farPer e.kind + e.hold.length
    readAhead c e (e.loc.toNat + o) o (partStop e / farPer e.kind - o) i (spanBusy s c) (readLocal s c) s
  | .get, .sram q o | .getd, .sram q o =>
    readAhead c e o e.pos (e.len - e.pos) i (fun a n => writeFirst s c q a n false) (fun a n => readBytes s.mem (sramKey q a) n) s
  | .get, .phys _ | .getd, .phys _ | .metaGet, .phys _ => unitAhead c e old (e.pos + i) s
  | _, _ => s

/-- Part of the far end of a put in device or host memory. -/
def inMemory (w : LateWord) : Bool := w.ctx.isNone && decide (w.addr < Config.sramBase)

/-- R204, R208: a write that must come first is still on its way to a word that is not written yet. -/
def lateBusy (s : State) (c : Nat) (w : LateWord) : Bool :=
  !w.bit && !inMemory w && match w.ctx with
  | some m => writeFirst s c (pcnOf (s.ctx m).gcn) (localOfs (s.ctx m).gcn w.addr) w.bytes.length true
  | none => writeFirst s c (keyCluster w.addr) (w.addr - sramKey (keyCluster w.addr) 0) w.bytes.length false

/-- R56: the bytes of a word of SRAM are written. -/
def writeWord (w : LateWord) (s : State) : State :=
  if w.bit then s
  else match w.ctx with
    | some m => writeLocal m w.addr w.bytes false s
    | none => sramWrite w.addr w.bytes none s

/-- R56: a word of SRAM is filled. -/
def fillWord (w : LateWord) (s : State) : State :=
  match w.ctx with
  | some m => setLocalFe m w.addr w.bytes.length true s
  | none => setFe (wordsOf w.addr w.bytes.length) true s

/-- R69, R175, R294, R381: part of the far end of a put in memory is written: a column, with a read where the bytes do not cover it, or its
metadata. Into a column of `old` whose data a bank command has replaced, the bytes go before that command, where the entry may precede it,
and show only to what comes before it too. False: the column read is uncorrectable, and nothing is written (R180). -/
def writeUnit (c : Nat) (e : Entry) (old : List Nat) (w : LateWord) (s : State) : Bool × State :=
  let g := w.addr / 0x800000
  let col := w.addr % 0x800000 / 32
  let done (t : State) : State := putBefore c [engineOf s c] g col s t
  if !isDram w.addr then (true, (physWrite w.addr w.bytes 1 s).2)
  else if w.mdata then
    let (x, t) := readCol g col 1 s
    if x.unc then (false, chargeDram c 32 t)
    else (true, chargeDram c 64 (done (writeMeta g col (BitVec.ofNat 28 (leNat w.bytes) &&& gradeMask (gradeOf (s.bank g) col)) t)))
  else
    let cost := if w.bytes.length = 32 then 32 else 64
    match (metBefore s c e old (w.addr / 32)).filter (·.data) with
    | some x =>
      let o := w.addr % 32
      let x := { x with bytes := x.bytes.take o ++ w.bytes ++ x.bytes.drop (o + w.bytes.length) }
      (true, chargeDram c cost (modBank g (fun b => { b with before := tput b.before col x }) s))
    | none => match physWrite w.addr w.bytes 1 s with
      | (none, t) => (true, chargeDram c cost (done t))
      | (some _, t) => (false, chargeDram c 32 t)

/-- What a segment has still to write is written. -/
def writeLate (c : Nat) (e : Entry) (old : List Nat) (w : LateWord) (s : State) : Bool × State :=
  if inMemory w then writeUnit c e old w s else (true, writeWord w s)

/-- R56, R180: words are written in order, up to one that cannot be, each with its full/empty bit. The answer holds that one and those
after it. -/
def writeAll (c : Nat) (e : Entry) (old : List Nat) : List LateWord → State → List LateWord × State
  | [], s => ([], s)
  | w :: r, s =>
    match writeLate c e old w s with
    | (true, s) => writeAll c e old r (if inMemory w then s else fillWord w s)
    | (false, s) => (w :: r, s)

/-- R180: an entry goes on where all could be written; else it fails at the first byte not done, and what is left is not written. -/
def afterWrites (c : Nat) (e : Entry) (rest : List LateWord) (s : State) : State :=
  match rest with
  | [] => setEntry c { e with late := [] } s
  | w :: r => setEntry c { e with late := [], failed := some (e.far + w64 (r.foldl (fun a x => min a x.off) w.off)) } s

/-- R56, R202, R331, R381: of what is left to write of an entry's segments, all is written, with `pick` 0, or one word or column, the one
numbered `pick / 2 - 1`: its bytes, and in a move of its own a word's full/empty bit. -/
def landLate (c : Nat) (e : Entry) (old : List Nat) (pick : Nat) (s : State) : State :=
  if pick = 0 then
    if e.late.any (lateBusy s c) then s
    else gate (.entry e.eid) (fun s => let (rest, s) := writeAll c e old e.late s; afterWrites c e rest s) s
  else
    let i := pick / 2 - 1
    match e.late[i]? with
    | none => s
    | some w =>
      if lateBusy s c w then s
      else if w.bit then setEntry c { e with late := e.late.eraseIdx i } (fillWord w s)
      else gate (.entry e.eid) (fun s =>
        match writeLate c e old w s with
        | (true, s) => setEntry c { e with late := if inMemory w then e.late.eraseIdx i else e.late.set i { w with bit := true } } s
        | (false, s) => afterWrites c e e.late s) s

/-- R175: what a segment of a put has to write in memory: bytes `l` from the entry's position, a column or host word at a time. -/
def unitWrites (e : Entry) (l : List Byte) (r : List (Nat × Nat)) : List LateWord :=
  (runUnits e.pos r).map fun u =>
    { ctx := none, addr := u.2.1, bytes := (l.drop ((u.1 - e.pos) / farPer e.kind)).take (nearBytes e u.2.2), off := u.1, mdata := decide (e.kind = .metaPut) }

/-- R211, R369, R370: data of an entry travel to a peer device as an operation of the pair's sequence. -/
def sendPeer (c : Nat) (e : Entry) (d q o : Nat) (b : Body) (s : State) : State :=
  send { id := s.nextId, cid := c, part := (s.ctx c).part, addr := e.far + w64 e.pos, pcn := q, ofs := o, dev := some d, body := b } s

/-- The segment of an entry moves its bytes. A get from a peer first sends its request; the segment moves when its answer
is there. With `later` what it writes in SRAM or memory is left to `landLate`; columns of `old` are met as they were where the entry
may precede what has written them (R294). -/
def moveSegment (c : Nat) (later : Bool) (old : List Nat) (e : Entry) (f : Far) (n : Nat) (s : State) : State :=
  let e := { e with started := true }
  match f with
  | .reject => setEntry c { e with failed := some (notDone e 0) } s
  | f =>
    match e.kind with
    | .get | .getd | .metaGet =>
      match f, e.inFlight with
      | .peer d q o, [] => setEntry c { e with inFlight := [s.nextId] } (sendPeer c e d q o (.get n e.eid) s)
      | f, l =>
        let s := match f with | .peer _ _ _ => forEach l answeredId s | _ => s
        let (l, s) := farRead c e f n old s
        writeLocalEnd c later e (match f with | .sram _ _ => asReadAhead e.early e.pos l | _ => l) s
    | .put | .metaPut =>
      let (l, rest) := readLocalEnd s c e n
      let moved := { e with pos := e.pos + n, hold := rest, early := earlyFrom ((e.pos + n) / farPer e.kind + rest.length) e.early }
      match f with
      | .phys r =>
        let ws := unitWrites e l r
        if later then setEntry c { moved with late := e.late ++ ws } s
        else let (rest, s) := writeAll c e old ws s; afterWrites c moved rest s
      | .sram q o =>
        if later then setEntry c { moved with
          late := e.late ++ (splitWords (sramKey q o) l).map fun w => { ctx := none, addr := w.1, bytes := w.2 } } s
        else setEntry c moved (setFe (wordsOf (sramKey q o) n) true (sramWrite (sramKey q o) l none s))
      | .peer d q o =>
        setEntry c { moved with inFlight := e.inFlight ++ [s.nextId] } (sendPeer c e d q o (.put l e.eid) s)
      | .reject => s
    | .putm | .madd => s

/-- R196, R204, R208: a segment waits for remote writes that its ends must see: at the local end, of a GETD wherever its
bytes are dealt, those of the hart itself and covered ones, at the far end covered ones. -/
def endsBusy (s : State) (c : Nat) (e : Entry) (f : Far) (n : Nat) : Bool :=
  let at_ := e.loc.toNat + e.pos / farPer e.kind
  let m := n / farPer e.kind
  let near := match e.kind with
    | .get | .metaGet => spanBusy s c at_ m
    | .put | .metaPut => spanBusy s c at_ (m + extraBytes e n)
    | .getd => (dealRuns n e.dpat e.pos n).any fun r => match memberOn s c r.1 with
      | some x => writeFirst s c (pcnOf (s.ctx x).gcn) (localOfs (s.ctx x).gcn r.2.1) r.2.2 true
      | none => false
    | _ => false
  near || match f with
    | .sram q o => writeFirst s c q o n false
    | _ => false

/-- R182: entries of one hart reach a ring in issue order. -/
def reachesLater (h : Ctx) (e : Entry) (d : PutmDest) : Bool :=
  (earlier h e.eid).any fun x => decide (x.kind = .putm) && x.failed.isNone &&
    x.dests.any fun y => decide (y.ring = d.ring) && decide (y.core = d.core) && y.reached.isNone

/-- R182: a ring takes the payload of an entry: it is valid, fed, and its slots are large enough. -/
def ringFits (r : Ring) (e : Entry) : Bool := r.valid && r.feed && decide (e.len ≤ r.slotb)

/-- R182: an entry that reached the ring of context `m` before place `n` has not claimed its slot. -/
def claimsFirst (s : State) (m ring n : Nat) : Bool :=
  s.ctxs.any fun p => p.2.eng.q.any fun x => decide (x.kind = .putm) && x.failed.isNone && x.dests.any fun y =>
    decide (y.ring = ring) && !y.done && decide (memberOn s p.1 y.core = some m) &&
      match y.reached with
      | some k => decide (k < n)
      | none => false

/-- R331: bytes of the next segment of a PUTM at a destination: at most 4 KiB, so that no aligned word of a slot is split. -/
def putmSeg (e : Entry) (d : PutmDest) : Nat := min 4096 (e.len - d.pos)

/-- A PUTM entry as far as it has come at a destination. -/
def atDest (e : Entry) (d : PutmDest) : Entry := { e with pos := d.pos, hold := d.hold }

/-- R196, R204, R208: the next segment of a PUTM at a destination waits for remote writes that its ends must see: to its
source those of the hart itself and covered ones, to the slot covered ones. -/
def putmBusy (s : State) (c m : Nat) (e : Entry) (d : PutmDest) : Bool :=
  let n := putmSeg e d
  let r := getRing (s.ctx m) d.ring
  let g := (s.ctx m).gcn
  decide (n ≠ 0) && (spanBusy s c (e.loc.toNat + d.pos) (n + extraBytes (atDest e d) n) ||
    writeFirst s c (pcnOf g) (localOfs g (slotAddr r r.tail + d.pos)) n false)

/-- R182, R204: a PUTM that has reached the ring of a destination can claim a slot there now, or move the next segment into
the slot that it has claimed, or publish it, where nothing is left to write to that member. -/
def claimable (s : State) (c : Nat) (e : Entry) (d : PutmDest) : Bool :=
  match d.reached, memberOn s c d.core with
  | some n, some m =>
    let r := getRing (s.ctx m) d.ring
    !d.done && (decide (putmSeg e d ≠ 0) || !e.late.any fun w => decide (w.ctx = some m)) && ringFits r e && decide (freeSlots r ≠ 0) && !claimsFirst s m d.ring n && !putmBusy s c m e d
  | _, _ => false

/-- R371: no answer of a peer is awaited, or it can arrive. -/
def peerReady (s : State) (e : Entry) : Bool := e.inFlight.all fun i => (packet s i).all (linkUp s)

/-- R72, R178, R331: an entry of which a segment can move now; the first of a part waits until what the parts before it write is written. -/
def segReady (s : State) (c : Nat) (e : Entry) : Bool :=
  mayStart (s.ctx c) e && e.failed.isNone &&
    match e.kind with
    | .madd => false
    | .putm => e.dests.any (claimable s c e)
    | k => decide (e.pos < e.len) && (e.late.isEmpty || !partEnds e e.pos) && (decide (k = .put) || peerReady s e) &&
      match farOf s c e (decide (k = .put)) with
      | none => false
      | some (f, n) => !endsBusy s c e f n

/-- R381: a choice that has something written that an entry has left to write, rather than a segment moved or its source read ahead. -/
def lands (e : Entry) (pick : Nat) : Bool := (decide (pick = 0) && !e.late.isEmpty) || (decide (2 ≤ pick) && decide (pick % 2 = 1))

/-- R330: requests of a requester are parked. -/
def isParked (s : State) (who : Requester) : Bool := s.banks.any fun b => b.2.parked.any fun r => r.2 = who

/-- R331: the next entry of a core in the order of issue after the one served last. -/
def afterEntry (last : Nat) (l : List (Nat × Nat)) : Option (Nat × Nat) :=
  let first (l : List (Nat × Nat)) : Option (Nat × Nat) := l.foldl (fun b x =>
    match b with
    | none => some x
    | some y => if x.2 < y.2 then some x else b) none
  (first (l.filter fun x => last < x.2)).or (first l)

/-- R331: context and entry that the DMA engine of a cluster serves next: round robin over the cores that have started
entries, then over the core's entries. An entry whose requests are parked is passed over (R330). -/
def dmaNext (s : State) (q : Nat) : Option (Nat × Nat) :=
  let l := s.ctxs.flatMap fun p =>
    if pcnOf p.2.gcn = q then
      (p.2.eng.q.filter fun e => segReady s p.1 e && !isParked s (.entry e.eid)).map fun e => (coreOf p.2.gcn, p.1, e.eid)
    else []
  ((List.range 8).map fun i => ((s.cluster q).dmaCore + 1 + i) % 8).findSome? fun k =>
    afterEntry (s.core (q * 8 + k)).dmaEntry ((l.filter fun x => x.1 = k).map (·.2))

/-- R331: it is this entry's turn. -/
def dmaTurn (s : State) (c : Nat) (e : Entry) : Bool :=
  decide (dmaNext s (pcnOf (s.ctx c).gcn) = some (c, e.eid))

/-- R331: the engine has served an entry. -/
def served (c eid : Nat) (s : State) : State :=
  let g := (s.ctx c).gcn
  modCore g (fun k => { k with dmaEntry := eid }) (modCluster (pcnOf g) (fun cl => { cl with dmaCore := coreOf g }) s)

/-- R331: the engine moves one segment of at most 4 KiB of a started entry. An entry of length 0 only starts (R178). `State.choice`
says what the move does (R178, R202, R381: separate words and columns are read and written in any order): `pick` 0 writes what the
entry has left to write, if anything, and else moves the whole segment; 1 moves it and leaves what it writes; an even one reads ahead,
and an odd one writes one word or column that is left. `old`: which columns are met as they were before a write that the entry may
precede (R294). -/
def execPutgetSegment (c eid : Nat) (s : State) : Host.Outcome State Fault Refusal :=
  .next (match entryAt (s.ctx c) eid with
    | none => s
    | some e =>
      let pick := s.choice.pick
      if e.kind = .putm ∨ e.kind = .madd then s
      else if lands e pick then landLate c e s.choice.old pick s
      else if !mayStart (s.ctx c) e ∨ e.failed.isSome then s
      else if e.len ≤ e.pos then setEntry c { e with started := true } s
      else match farOf s c e (decide (e.kind = .put)) with
        | none => s
        | some (f, n) =>
          if 2 ≤ pick then sourceAhead c e f s.choice.old (pick / 2 - 1) s
          else if !dmaTurn s c e then s
          else gate (.entry eid) (fun s => served c eid (moveSegment c (decide (pick = 1)) s.choice.old e f n s)) s)

/-! ### Completion and failure (R179, R180) -/

/-- R177: the receiver that checks the far address of an entry of length 0 for its bump is a peer device. -/
def bumpPeer (s : State) (c : Nat) (e : Entry) : Bool :=
  e.rce && e.far.getLsbD 63 && decide (e.kind ≠ .putm) &&
    match senderCheck s (s.ctx c) e.far false false with
    | .ok _ (some _) => true
    | _ => false

/-- R179: the far-end bump: the context resident on the core whose scratchpad holds the far address. -/
def remoteBump (c : Nat) (e : Entry) (s : State) : State :=
  let ofs := bits e.far 0 21
  if !e.far.getLsbD 63 ∨ 0x40000 ≤ ofs then s
  else match senderCheck s (s.ctx c) e.far false false with
    | .ok q none => match s.residentOn (q * 8 + ofs / 0x8000) with
      | some m => bump m e.rcnt 1 s
      | none => s
    | .ok q (some d) =>
      send { id := s.nextId, cid := c, part := (s.ctx c).part, addr := e.far, pcn := q, ofs := ofs, dev := some d, body := .bump (ofs / 0x8000) e.rcnt e.eid } s
    | .fail => s

/-- R179: a far end that an entry bumps, if it is the scratchpad of a core. -/
def bumpsFar (e : Entry) : Bool := (decide (e.kind = .put) || decide (e.kind = .get)) && decide (bits e.far 0 21 < 0x40000)

/-- R177: a peer device is asked for the far bump of an entry of length 0; where its far end has no counter to bump (R179), to
check the address only, by a put of no bytes. -/
def askPeer (c : Nat) (e : Entry) (s : State) : State :=
  if bumpsFar e then remoteBump c e s
  else match senderCheck s (s.ctx c) e.far false false with
    | .ok q (some d) => sendPeer c e d q (bits e.far 0 21) (.put [] e.eid) s
    | _ => s

/-- R177: the receiver rejects the address of the far counter bump of an entry of length 0. -/
def bumpRejected (s : State) (c : Nat) (e : Entry) : Bool :=
  e.rce && e.far.getLsbD 63 && decide (e.kind ≠ .putm) &&
    match senderCheck s (s.ctx c) e.far true false with
    | .ok q none => (receive (s.cluster q) (bits e.far 0 21) 1 1).isNone
    | .ok _ (some _) => false
    | .fail => true

/-- R72, R179, R183: an entry whose data are written, and acknowledged by a peer, completes and bumps its enabled
counters; one of length 0 waits for every earlier entry of the hart, and fails where the receiver rejects its far bump: where
that is a peer, it waits for the peer's answer (R177). -/
def execPutgetComplete (c eid : Nat) (s : State) : Host.Outcome State Fault Refusal :=
  .next (match entryAt (s.ctx c) eid with
    | none => s
    | some e =>
      let done := if e.kind = .putm then e.dests.all (·.done) else decide (e.len ≤ e.pos) && e.inFlight.isEmpty && e.late.isEmpty
      if e.kind = .madd ∨ !mayStart (s.ctx c) e ∨ e.failed.isSome ∨ !done ∨ (e.len = 0 ∧ !(earlier (s.ctx c) eid).isEmpty) then s
      else if e.len = 0 ∧ bumpRejected s c e then setEntry c { e with started := true, failed := some e.far } s
      else if e.len = 0 ∧ bumpPeer s c e ∧ !e.bumped then
        setEntry c { e with started := true, bumped := true, inFlight := [s.nextId] } (askPeer c e s)
      else
        let s := dropEntry c eid s
        let s := if e.lce then bump c e.lcnt 1 s else s
        if !e.rce then s
        else match e.kind with
          | .put | .get => if e.bumped then s else remoteBump c e s
          | .getd => bumpShares c e s
          | _ => s)

/-- R180, R311: a failed entry raises REMOTE_STORE, or is recorded for a member that has exited; then its local counter
is bumped. -/
def execPutgetFail (c eid : Nat) (s : State) : Host.Outcome State Fault Refusal :=
  .next (match entryAt (s.ctx c) eid with
    | none => s
    | some e =>
      match e.failed with
      | none => s
      | some a =>
        if !e.late.isEmpty then s else
        let s := postRemoteStore c a (if e.kind = .madd then 2 else 0) (dropEntry c eid s)
        if e.lce then bump c e.lcnt 1 s else s)

/-- R182, R331: a slot of the ring of context `m` is claimed, and a segment written into it; with the last one it is published
and bumped. With `later` the words of the segment are left to `landLate`, and the slot is published once they are written. -/
def claimSlot (c m dest : Nat) (later : Bool) (e : Entry) (d : PutmDest) (s : State) : State :=
  let r := getRing (s.ctx m) d.ring
  let n := putmSeg e d
  let l := readLocalEnd s c (atDest e d) n
  let a := slotAddr r r.tail + d.pos
  let wait := later && decide (n ≠ 0)
  let s := if n = 0 ∨ wait then s else writeLocal m a l.1 true s
  let words : List LateWord := if wait then (splitWords a l.1).map fun w => { ctx := some m, addr := w.1, bytes := w.2 } else []
  let d : PutmDest := { d with claimed := true, pos := d.pos + n, hold := l.2 }
  let e : Entry := { e with early := earlyFrom (d.pos + d.hold.length) e.early, late := e.late ++ words }
  if d.pos < e.len ∨ wait then setEntry c { e with dests := e.dests.set dest d } s
  else
    let s := setRing m d.ring { r with tail := (r.tail + 1) % 0x100000000 } s
    let s := if e.rce then bump m e.rcnt 1 s else s
    setEntry c { e with dests := e.dests.set dest { d with done := true } } s

/-- R202, R381: the word of the source of a PUTM that holds the byte `i` after the position at a destination is read ahead. -/
def putmAhead (c : Nat) (e : Entry) (d : PutmDest) (i : Nat) (s : State) : State :=
  let o := d.pos + d.hold.length
  readAhead c e (e.loc.toNat + o) o (e.len - o) i (spanBusy s c) (readLocal s c) s

/-- R182: a PUTM starts for a destination, where its ring is examined at once; entries claim slots in the order in which
they reached the ring, once one is free and the engine's turn comes (R331). A payload of one segment is claimed, written and
published in one step; a longer one takes a turn for each segment. A destination that fails fails the whole entry, which
publishes at no further one (DESIGN CHOICE, log entry 89). `State.choice` as in `execPutgetSegment`. -/
def execPutmSlotClaim (c eid dest : Nat) (s : State) : Host.Outcome State Fault Refusal :=
  .next (match entryAt (s.ctx c) eid with
    | none => s
    | some e =>
      match e.dests[dest]? with
      | none => s
      | some d =>
        let pick := s.choice.pick
        if e.kind ≠ .putm then s
        else if lands e pick then landLate c e s.choice.old pick s
        else if d.done ∨ e.failed.isSome ∨ !mayStart (s.ctx c) e ∨ reachesLater (s.ctx c) e d then s
        else
          let n := d.reached.getD s.nextId
          let s := if d.reached.isSome then s else { s with nextId := s.nextId + 1 }
          let d := { d with reached := some n }
          let e := { e with started := true, dests := e.dests.set dest d }
          let bad := { e with failed := some (w64 (2 ^ 63 + (s.ctx c).vcn * 2 ^ 48 + d.core * 0x8000)) }
          match memberOn s c d.core with
          | none => setEntry c bad s
          | some m =>
            if !ringFits (getRing (s.ctx m) d.ring) e then setEntry c bad s
            else
              let s := setEntry c e s
              if 2 ≤ pick then putmAhead c e d (pick / 2 - 1) s
              else if !(claimable s c e d && dmaTurn s c e) then s
              else served c eid (claimSlot c m dest (decide (pick = 1)) e d s))

/-! ### Memory-side adds (R308 to R311) -/

/-- R310: an earlier MADD issued by the same core, of whatever context, is neither applied nor failed. -/
def maddFirst (s : State) (e : Entry) : Bool :=
  s.ctxs.any fun p => (p.2.eng.q ++ p.2.eng.madds).any fun x =>
    decide (x.kind = .madd) && decide (x.core = e.core) && decide (x.eid < e.eid) && x.failed.isNone

/-- R308, R310: the base die accepts the oldest MADD of a hart once its address is translated, and frees its entry. -/
def execMaddAccept (c eid : Nat) (s : State) : Host.Outcome State Fault Refusal :=
  .next (match entryAt (s.ctx c) eid with
    | none => s
    | some e =>
      if e.kind ≠ .madd ∨ e.failed.isSome ∨ e.part.isEmpty ∨ (earlier (s.ctx c) eid).any (fun x => x.kind = .madd) then s
      else modEng c (fun k => { k with madds := k.madds ++ [{ e with accepted := true }] }) (dropEntry c eid s))

/-- R309: one lane of an add. -/
def maddLane (int : Bool) (x y : W32) : W32 :=
  if int then x + y else BitVec.ofNat 32 (faddV (fmtOf 9) 1 false (fdec (fmtOf 9) x.toNat) (fdec (fmtOf 9) y.toNat)).1

/-- R309, R310: the base die applies the oldest accepted add of a core as one indivisible read, add and write, unless a
running overlay holds its row. An uncorrectable column fails it (R311), and so does a column of a frame that was retired after
the add was accepted (R356; DESIGN CHOICE, log entry 71). -/
def execMaddApply (c eid : Nat) (s : State) : Host.Outcome State Fault Refusal :=
  .next (match (s.ctx c).eng.madds with
    | [] => s
    | e :: rest =>
      match if e.eid = eid then e.part else [] with
      | [] => s
      | p :: _ =>
        let k := pageToPhys p.poff p.base p.il
        let g := k / 0x800000
        let col := k % 0x800000 / 32
        let held := match (s.bank g).run with
          | some r => r.rows.contains (col / 32)
          | none => false
        if held || maddFirst s e then s
        else if isRetired s g (k % 0x800000) then postRemoteStore c e.far 2 (modEng c (fun x => { x with madds := rest }) s)
        else gate (.entry eid) (fun s =>
          let s := modEng c (fun x => { x with madds := rest }) s
          let (r, s) := readCol g col 4 s
          let s := chargeDram c (if r.unc then 32 else 64) s
          if r.unc then postRemoteStore c e.far 2 s
          else
            let new := e.vals.zipIdx.flatMap fun v =>
              leBytes 4 (maddLane e.int (BitVec.ofNat 32 (leNat ((r.bytes.drop (k % 32 + 4 * v.2)).take 4))) v.1).toNat
            putBefore c [] g col s (writeCol g col (r.bytes.take (k % 32) ++ new ++ r.bytes.drop (k % 32 + new.length)) s)) s)

/-! ### Fault records and FRESUME (R351, R352) -/

/-- R351: an EVENT is raised at the hart on a core, or when a hart next becomes resident there. -/
def raiseEvent (gcn : Nat) (code : W64) (s : State) : State :=
  match s.residentOn gcn with
  | some c => modCtx c (fun h => { h with csr := { h.csr with event := true, eventCodes := h.csr.eventCodes ++ [code] } }) s
  | none => modCore gcn (fun k => { k with events := k.events ++ [code] }) s

/-- R351: ACC of an entry's kind. -/
def accOf (k : XKind) : Nat :=
  match k with
  | .get => 0 | .put => 1 | .metaGet => 2 | .metaPut => 3 | .madd => 4 | .getd => 5 | .putm => 1

/-- R351: FQCFG describes a ring: V, 1 to 2,048 slots, a base that is a multiple of 32, all of it in shared memory. Any other
value counts as no valid ring (DESIGN CHOICE, log entry 72). -/
def ringDescribed (w : W64) (cl : Cluster) : Bool :=
  w.getLsbD 63 && decide (1 ≤ bits w 32 12) && decide (bits w 32 12 ≤ 2048) && decide (bits w 0 19 % 32 = 0) &&
    inShared cl (bits w 0 19) (32 * bits w 32 12)

/-- R351: a fault record is written once word 0 of its slot is empty; EVENT follows. Slot numbers go on where FQCFG is written
anew (DESIGN CHOICE, log entry 83). While the map entry of VCN 0 is not
PRESENT the part waits without a record (DESIGN CHOICE, log entry 72). CORE is the core of the hart when the record is written
(DESIGN CHOICE, log entry 110). -/
def execFaultRecordWrite (p fid : Nat) (s : State) : Host.Outcome State Fault Refusal :=
  .next (
    let t := s.part p
    match t.susp.find? fun u => u.fid = fid with
    | none => s
    | some u =>
      match entryAt (s.ctx u.cid) u.eid with
      | none => s
      | some e =>
        let q := bits (tget t.map 0 0) 0 14
        let k := sramKey q (bits t.fqcfg 0 19 + 32 * (t.fslot % bits t.fqcfg 32 12))
        if u.written ∨ !(tget t.map 0 0).getLsbD 63 ∨ !ringDescribed t.fqcfg (s.cluster q) ∨ isFull s k ∨
          coveredFirst s 3 q (k - sramKey q 0) 32 then s
        else
          let w0 := 2 ^ 63 + u.kind * 2 ^ 52 + accOf e.kind * 2 ^ 48 + (s.ctx u.cid).gcn
          let w1 := e.asid.toNat * 2 ^ 48 + u.fid * 2 ^ 32 + u.off
          let w2 := e.far.toNat + u.off
          let put (i v : Nat) (s : State) : State :=
            setFe [k / 8 + i] true (sramWrite (k + 8 * i) (leBytes 8 v) none s)
          let s := put 0 w0 (put 1 w1 (put 2 w2 (put 3 u.time s)))
          let s := modPart p (fun t => { t with
            fslot := t.fslot + 1
            susp := t.susp.map fun x => if x.fid = fid then { x with written := true } else x }) s
          raiseEvent (q * 8 + bits t.fqcfg 48 3) 0x10 s)

/-- R356: the entry offset from which on translated bytes that an entry has not moved lie in a piece with a retired frame. -/
def retiredFrom (s : State) (e : Entry) : Option Nat :=
  (e.part.find? fun p =>
    let o := max e.pos p.off
    decide (e.pos < p.off + p.len) && isDram p.base && framesRetired s p.base p.il (p.poff + (o - p.off)) (p.off + p.len - o)).map
    fun p => max e.pos p.off

/-- The entry with its translation cut at an offset. -/
def cutAt (o : Nat) (e : Entry) : Entry :=
  { e with
    xlated := o
    part := (e.part.filter fun p => p.off < o).map fun p => { p with len := min p.len (o - p.off) } }

/-- R356: what segments that have moved have left to write in frames that are retired counts as written before. -/
def landRetired (c : Nat) (e : Entry) (s : State) : Entry × State :=
  let gone (w : LateWord) : Bool := inMemory w && isDram w.addr && isRetired s (w.addr / 0x800000) (w.addr % 0x800000)
  if !e.late.any gone then (e, s)
  else
    let (rest, s) := writeAll c e [] (e.late.filter gone) s
    let s := if rest.isEmpty then setEntry c { e with late := e.late.filter fun w => !gone w } s else afterWrites c e rest s
    ((entryAt (s.ctx c) e.eid).getD e, s)

/-- R72, R356: an entry of which translated bytes lie in a frame that has been retired translates them anew, which fails with
RETIRED; the part before ends there. -/
def untranslate (c : Nat) (e : Entry) (s : State) : State :=
  let (e, s) := landRetired c e s
  match retiredFrom s e with
  | none => s
  | some o => if isGet e.kind ∧ o = e.pos ∧ !e.hold.isEmpty then writeLocalEnd c false (cutAt o e) [] s else setEntry c (cutAt o e) s

/-- R356: every queued entry meets the frames that are retired now. -/
def untranslateAll (s : State) : State :=
  forEach (s.ctxs.flatMap fun p => p.2.eng.q.map fun e => (p.1, e)) (fun x s => untranslate x.1 x.2 s) s

/-- R352: a write of FRESUME with this action and identifier is applied: the part is no longer suspended. -/
def resolve (p act fid : Nat) (f : Nat → Entry → State → State) (s : State) : State :=
  let t := s.part p
  if !t.fresume.contains (act, fid) then s
  else
    let s := modPart p (fun t => { t with
      fresume := t.fresume.erase (act, fid)
      susp := t.susp.filter fun u => u.fid ≠ fid }) s
    match t.susp.find? fun u => u.fid = fid with
    | none => s
    | some u => match entryAt (s.ctx u.cid) u.eid with
      | none => s
      | some e => f u.cid { e with susp := none } s

/-- R352: RETRY walks again from the split offset, ignoring the cache. -/
def execFresumeRetry (p fid : Nat) (s : State) : Host.Outcome State Fault Refusal :=
  .next (resolve p 0 fid (fun c e s =>
    gate (.entry e.eid) (partStep c e) (setEntry c e (dropPage (pcnOf (s.ctx c).gcn) e.asid.toNat (e.far.toNat + e.xlated) s))) s)

/-- Whether the parts before a suspended part have moved their data (R72). -/
def partsDone (s : State) (p fid : Nat) : Bool :=
  match (s.part p).susp.find? fun u => u.fid = fid with
  | none => true
  | some u => match entryAt (s.ctx u.cid) u.eid with
    | none => true
    | some e => decide (e.kind = .madd) || (decide (e.xlated ≤ e.pos) && e.late.isEmpty)

/-- R352: FAIL fails the entry at the split offset (R180), once the parts before it are done. -/
def execFresumeFail (p fid : Nat) (s : State) : Host.Outcome State Fault Refusal :=
  .next (if partsDone s p fid then
      resolve p 1 fid (fun c e s => setEntry c { e with failed := some (e.far + w64 e.xlated) } s) s
    else s)

end Sys2Proof.Machine
end

