-- ==== Sys2Proof/Machine/Context.lean ====
section
/-!
DEFINITION. Contexts of harts: the state at task start (R16), saving and restoring (R19, R244, R333 to R336), the end of a
task by a dispatcher status (R328), and clearing a cluster (R16, R313).
-/

namespace Sys2Proof.Machine

/-- Every listed byte of a span is cleared. -/
def clearBytes (m : Memory) (k n : Nat) : Memory :=
  (m.filter fun c => k ≤ c.1 ∧ c.1 < k + n).foldl (fun m c => writeByte m c.1 0) m

/-- Cells of a span, at offsets from its start. -/
def sliceBytes (m : Memory) (k n : Nat) : Memory :=
  (m.filter fun c => k ≤ c.1 ∧ c.1 < k + n).map fun c => (c.1 - k, c.2)

/-- Write cells at offsets from a key. -/
def placeBytes (m : Memory) (k : Nat) (l : Memory) : Memory := l.foldl (fun m c => writeByte m (k + c.1) c.2) m

/-- Full/empty words of a span, at word offsets. -/
def sliceFe (s : State) (k n : Nat) : List Nat :=
  (s.fe.filter fun p => k / 8 ≤ p.1 ∧ p.1 < (k + n) / 8).map fun p => p.1 - k / 8

/-- Clear a span of SRAM with its full/empty bits. -/
def clearSram (k n : Nat) (s : State) : State :=
  { s with
    mem := clearBytes s.mem k n
    fe := s.fe.filter fun p => ¬(k / 8 ≤ p.1 ∧ p.1 < (k + n) / 8) }

/-- Put a saved span back into SRAM. -/
def placeSram (k n : Nat) (im : Image) (s : State) : State :=
  let s := clearSram k n s
  setFe (im.fe.map (k / 8 + ·)) true { s with mem := placeBytes s.mem k im.pad }

/-- R281, R16: the state of a BAU and its records is cleared. -/
def clearBau (g : Nat) (s : State) : State :=
  modBank g (fun b => { b with
    g := [], pc := 0, lanes := [], lpoison := [], code := [], data := [], berr0 := 0, berr1 := 0, lstat := 0 }) s

/-- R16, R313: scratchpad, full/empty bits, array contents and tags of a core are cleared. -/
def clearCore (g : Nat) (s : State) : State :=
  modCore g (fun k => { k with rows := [], tags := [], accBanks := [] })
    (clearSram (sramKey (pcnOf g) (coreOf g * 0x8000)) 0x8000 s)

/-- R313, R331: words that segments of puts have still to write in SRAM of a cluster are written before it is saved or cleared. -/
def landWords (q : Nat) (s : State) : State :=
  let here (w : LateWord) : Bool := w.ctx.isNone && !inMemory w && decide (keyCluster w.addr = q)
  let words := s.ctxs.flatMap fun p => p.2.eng.q.flatMap fun e => e.late.filter here
  if words.isEmpty then s
  else
    let s := forEach words (fun w s => fillWord w (writeWord w s)) s
    { s with
      ctxs := s.ctxs.map fun p => (p.1, { p.2 with
        eng := { p.2.eng with q := p.2.eng.q.map fun e => { e with late := e.late.filter fun w => !here w } } }) }

/-- R313, R214: all SRAM of a cluster is cleared, its mark cells with it. MFC0 to MFC7, accepted changes of them, held mark operations and
ticks are cleared too (DESIGN CHOICE, log entry 103). -/
def clearCluster (q : Nat) (s : State) : State :=
  let s := clearSram (sramKey q 0) 0x80000 (landWords q s)
  let s := forEach (List.range 8) (fun c s => clearCore (q * 8 + c) s) s
  modCluster q (fun cl => { cl with mfc := [], mfcLog := [], mfcNext := [], held := [], ticks := [] }) s

/-- R53: PW0 and PW1 at task start. -/
def startPw (cl : Cluster) : Tbl W64 :=
  [(0, 0xF000800000000000), (1, w64 (0xB000000000000000 + sharedTop cl / 8 * 2 ^ 35 + 0x40000))]

/-- R16: the gang map. -/
def gangMap (vcn : Nat) (cores : List Nat) : W64 :=
  w64 (2 ^ 63 + vcn * 2 ^ 48 + (List.range 8).foldl (fun a i => a + (cores[i]?.getD 15) * 2 ^ (4 * i)) 0)

/-- R16, R53, R210: a member at task start, which is an acquire (log entry 12: TSTAT.IE is 1; TCMP is 0, so that IPEND.TIMER is 1, R148). -/
def startCtx (cl : Cluster) (tid i n vcn gcn part : Nat) (k : Task) (rtptr map : W64) : Ctx :=
  { regs := { pc := k.entry, g := ([(2, 0x8000), (3, rtptr), (4, k.arg), (5, w64 i), (6, w64 n), (7, map), (8, k.tag), (9, k.tag)]
        : Tbl W64).filter fun p => p.2 ≠ 0 }
    priv := .u
    ts := { tstat := 1 }
    csr := { asid := k.asid, pw := startPw cl, tcmp := 0, timer := true }
    task := some tid, member := i, part := part, vcn := vcn, gcn := gcn, resident := true, acq := some 3 }

/-- R351: EVENT codes raised while no hart was resident reach the hart that becomes resident. -/
def takeEvents (c : Nat) (s : State) : State :=
  let g := (s.ctx c).gcn
  let l := (s.core g).events
  if l.isEmpty then s
  else modCtx c (fun h => { h with csr := { h.csr with event := true, eventCodes := h.csr.eventCodes ++ l } })
    (modCore g (fun k => { k with events := [] }) s)

/-- R315: the BAU of a core comes with the core, but on a lent cluster, where it stays the lender's; R281: what a context
of another partition left in it is cleared. -/
def enterBau (g p : Nat) (s : State) : State :=
  if (s.cluster (pcnOf g)).lent.isSome ∨ (s.core g).bauPart = some p then s
  else modCore g (fun k => { k with bauPart := some p }) (clearBau g s)

/-- R16, R281: a core takes a context of a partition: what an earlier context of another partition left is cleared. -/
def enterCore (g p : Nat) (s : State) : State :=
  let s := if (s.core g).lastPart = some p then s else clearCore g s
  enterBau g p (modCore g (fun k => { k with lastPart := some p }) s)

/-- Physical accumulator banks of a core that a context holds. -/
def banksOf (k : Core) (c : Nat) : List Nat := [0, 1].filter fun p => tget k.accBanks p none = some c

/-- R334: which physical banks a context takes whose LB is `lb`: both for two live banks, none for none; for one, a bank
that it holds already (its shadow bank, or the one that carries the live bank), else a free one, else one whose holder's
content goes to its image. -/
def pickBanks (k : Core) (c : Nat) (lb : BitVec 2) : List Nat :=
  if lb = 3 then [0, 1]
  else if lb = 0 then []
  else match banksOf k c with
    | [p] => [p]
    | [] => if tget k.accBanks 0 none = none then [0] else if tget k.accBanks 1 none = none then [1] else [0]
    | _ => [if lb = 1 then 0 else 1]

/-- R334: a context gives up its physical banks; what they held is in its image. -/
def dropBanks (c : Nat) (k : Core) : Core := { k with accBanks := k.accBanks.filter fun p => p.2 ≠ some c }

/-- R334, castling (R244): the context takes the physical banks that its LB needs on a core and leaves the other to a
shadow bank there. -/
def takeBanks (g c : Nat) (lb : BitVec 2) (s : State) : State :=
  modCore g (fun k =>
    let k' := dropBanks c k
    { k' with accBanks := (pickBanks k c lb).foldl (fun t p => tput t p (some c)) k'.accBanks }) s

/-- R15, R16: start the members of a task on cores of a cluster. -/
def startGang (tid vcn q : Nat) (cores : List Nat) (s : State) : State :=
  let k := s.task tid
  let n := cores.length
  let base := s.nextId
  let rt := (s.owner (s.launch k.launch).vf).rtptr
  let s := { s with nextId := base + n }
  let s := forEach cores.zipIdx (fun p s =>
    let g := q * 8 + p.1
    let s := enterCore g k.part s
    let s := modCtx (base + p.2) (fun _ => startCtx (s.cluster q) tid p.2 n vcn g k.part k rt (gangMap vcn cores)) s
    takeEvents (base + p.2) (takeBanks g (base + p.2) 3 s)) s
  modTask tid (fun k => { k with
    phase := .placed, vcn := vcn, members := stride base 1 n, residentAt := s.gtime, holdsSlot := false }) s

/-- R26: the instruction at which a hart waits is a blocking point. -/
def isBlocking (w : Wait) : Bool :=
  match w with
  | .lds .. | .remoteLoad .. | .bwait _ | .gbar | .rwf .. | .rwe .. | .cwait .. | .tkwait _ => true
  | _ => false

/-- R251: the array has begun a transfer, which it finishes before the hart is saved, or is within a row of AXMM or AXGANG, which
stops at the next row boundary. -/
def arrayMid (h : Ctx) : Bool :=
  match h.eng.aq with
  | e :: _ => (match e.instr with | .axmm .. | .axgang .. => e.rowDone | _ => decide (0 < e.row))
  | [] => false

/-- R333, R244: the image of a context: scratchpad, full/empty words, the columns in LC, tags. -/
def imageOf (s : State) (h : Ctx) : Image :=
  let k := sramKey (pcnOf h.gcn) (coreOf h.gcn * 0x8000)
  let core := s.core h.gcn
  { pad := sliceBytes s.mem k 0x8000
    fe := sliceFe s k 0x8000
    rows := (core.rows.map fun p => (p.1, p.2 &&& h.eng.arr.lc)).filter fun p => p.2 ≠ 0
    tags := core.tags }

/-- R244: accumulators of banks outside LB are not saved. -/
def liveAcc (e : Engines) : Tbl (BitVec 144) := e.acc.filter fun p => e.arr.lb.getLsbD (p.1 / 64)

/-- R333, R334: save a context: the image is taken, the core is free; a single live bank stays in its physical bank as the
shadow bank. The image of R333 names no line of the instruction cache: the context starts again with none (DESIGN CHOICE, log
entry 9). -/
def saveCtx (c : Nat) (s : State) : State :=
  let s := commitChunk c s
  if !(s.ctx c).resident then s
  else
    let s := carry c s
    let h := s.ctx c
    let im := imageOf s h
    let s := modCtx c (fun h => { h with
      image := some im
      resident := false
      icache := []
      wait := match h.wait with | .remoteLoad .. => .none | w => w
      eng := { h.eng with acc := liveAcc h.eng } }) s
    let s := takeBanks h.gcn c h.eng.arr.lb s
    if h.eng.arr.lb = 3 then modCore h.gcn (dropBanks c) s else s

/-- R158: a hart saved while it waits in LDS or LDSE begins its wait again. -/
def rewait (t : Nat) (w : Wait) : Wait := match w with | .lds d ea e _ => .lds d ea e t | w => w

/-- R19, R244, R339: restore a context on its core of a cluster. -/
def restoreCtx (c q : Nat) (s : State) : State :=
  let h := s.ctx c
  match h.image with
  | none => s
  | some im =>
    let g := q * 8 + coreOf h.gcn
    let s := if g = h.gcn then s else modCore h.gcn (dropBanks c) s
    let s := enterCore g h.part s
    let s := placeSram (sramKey q (coreOf g * 0x8000)) 0x8000 im s
    let s := takeBanks g c h.eng.arr.lb (modCore g (fun k => { k with rows := im.rows, tags := im.tags }) s)
    takeEvents c (modCtx c (fun h => { h with image := none, resident := true, gcn := g, wait := rewait s.gtime h.wait }) s)

/-- R19: a gang resumes as a whole; the step takes a recorded trap first (R164, R336). -/
def restoreGang (tid q : Nat) (s : State) : State :=
  let s := forEach (s.task tid).members (fun c s => restoreCtx c q s) s
  modTask tid (fun k => { k with phase := if k.phase = .ending then .ending else .placed, residentAt := s.gtime }) s

/-- R17, R129: the cores of a gang are released. -/
def releaseCores (tid : Nat) (s : State) : State :=
  forEach (s.task tid).members (fun m s =>
    modCtx m (fun h => { h with resident := false, image := none }) (modCore (s.ctx m).gcn (dropBanks m) s)) s

/-- R17: the cores of a gang are released when every member has exited. -/
def exitGang (tid : Nat) (s : State) : State :=
  if (s.task tid).members.all fun m => (s.ctx m).exited.isSome then
    modTask tid (fun k => { k with phase := if k.phase = .placed then .exited else k.phase }) (releaseCores tid s)
  else s

/-- R19, R323: a gang is saved as a whole and becomes resumable; GTIME is its new eligibility time. -/
def saveGang (tid : Nat) (s : State) : State :=
  let s := forEach (s.task tid).members (fun c s => saveCtx c s) s
  modTask tid (fun k => { k with phase := if k.phase = .placed then .evicted else k.phase, eligAt := s.gtime }) s

/-! ### Instructions under way (R151, R154, R193, R328, R336) -/

/-- R151: a cached translation or line of a page is dropped. -/
def dropped (mode va asid pageAsid page size : Nat) : Bool :=
  decide (mode = 0) || (decide (pageAsid = asid) && (decide (mode = 1) || (decide (page ≤ va) && decide (va < page + size))))

/-- R151: every TLB of the partition's clusters and every instruction cache of its cores drops. -/
def invalidate (p mode va asid : Nat) (s : State) : State :=
  { s with
    clusters := s.clusters.map fun x =>
      if serves x.2 = some p then (x.1, { x.2 with tlb := x.2.tlb.filter fun e => !dropped mode va asid e.asid e.va e.size })
      else x
    ctxs := s.ctxs.map fun x =>
      if x.2.part = p then
        (x.1, { x.2 with icache := x.2.icache.filter fun l => !dropped mode va asid l.asid l.page l.pageSize })
      else x }

/-- R151: all have acknowledged: the drop is complete and TLBINV retires, unless its core has halted (R129). -/
def tlbinvDone (c : Nat) (s : State) : State :=
  let h := s.ctx c
  match h.wait with
  | .tlbinv m va asid => let s := invalidate h.part m va asid s; if h.halted then s else retire c s
  | _ => s
/-- R154: the announcement has reached every die. -/
def stopatDone (c : Nat) (s : State) : State :=
  match (s.ctx c).wait with
  | .stopat d st _ => if (s.ctx c).halted then s else finishG c d st s
  | _ => s
/-- R328, R336: an instruction under way that completes before its hart stops; TYIELD drops the rest of its delay. -/
def finishStall (c : Nat) (s : State) : State :=
  match (s.ctx c).wait with
  | .tyield _ => if (s.ctx c).halted then s else retire c s
  | .tlbinv .. => tlbinvDone c s
  | .stopat .. => stopatDone c s
  | _ => s

/-- R328: what an ended member still waits for: the answer to a request of TSPAWN (R191), which is carried out. -/
def endedWait (w : Wait) : Wait := match w with | .tspawn id d => .tspawn id d | _ => .none

/-- R328: the work of a member of a task that a dispatcher status ends. It stops at the boundary after the instruction under way (R384), what
that has sent takes effect, and the task's record waits for it (`requesting`). LSTAT.PC of an overlay run that ends KILLED is the
address of its next instruction (DESIGN CHOICE, log entry 92). A BKMETA that has not started is a bank command (R290) and so is cancelled
(DESIGN CHOICE, log entry 107). -/
def endMember (c : Nat) (s : State) : State :=
  let s := carry c (finishStall c (commitChunk c s))
  let h := s.ctx c
  let s := if h.halted then setFlag c 4 s else s
  let keepQ := h.eng.q.filter (·.started)
  let keepB := h.eng.bq.filter (·.started)
  let running := match (s.bank h.gcn).run with
    | some r => decide (r.cid = c) && r.ended.isNone
    | none => false
  let cut := decide (keepQ.length < h.eng.q.length) || decide (keepB.length < h.eng.bq.length) || running
  let s := if cut then setFlag c 5 s else s
  let s := if running then endRun h.gcn 6 0 s else s
  modCtx c (fun h => { h with
    exited := some (h.exited.getD 0)
    wait := endedWait h.wait
    armed := none
    eng := { h.eng with q := keepQ, bq := keepB, aq := [], aresults := [], posted := none } }) s

/-- R18, R328: a dispatcher status (KIND of R327) ends a task. -/
def endTask (tid kind : Nat) (s : State) : State :=
  let k := s.task tid
  if k.phase = .ending ∨ k.phase = .recorded ∨ k.phase = .done then s
  else
    modTask tid (fun k => { k with phase := .ending, status := some kind })
      (forEach k.members (fun c s => endMember c s) s)

/-- R352, R328: EXHAUST ends the issuing task with FRAME_EXHAUSTED. The entry is cut short at the split offset, once the
parts before it are done: no counter is bumped, and FC is set (DESIGN CHOICE, log entry 84). -/
def execFresumeExhaust (p fid : Nat) (s : State) : Host.Outcome State Fault Refusal :=
  .next (if partsDone s p fid then
      resolve p 2 fid (fun c e s =>
        let s := setFlag c 5 (dropEntry c e.eid s)
        match (s.ctx c).task with
        | some t => endTask t 3 s
        | none => s) s
    else s)

end Sys2Proof.Machine
end

