-- ==== Sys2Proof/Machine/Mark.lean ====
section
/-!
DEFINITION. Mark fields, mark instructions, ticks and the home mark unit (R214 to R236).
-/

namespace Sys2Proof.Machine

/-! ### Fields (R215 to R218) -/

/-- R215: the fields of an MFC word. -/
def mV (v : W64) : Bool := v.getLsbD 63
def mScope (v : W64) : Nat := bits v 61 2
def mClip (v : W64) : Bool := v.getLsbD 60
def mF (v : W64) : Nat := bits v 48 9
def mW (v : W64) : Nat := 2 ^ bits v 44 4
def mH (v : W64) : Nat := 2 ^ bits v 40 4
def mBase (v : W64) : Nat := bits v 0 15

/-- The cell lies in the field (R217). -/
def inField (v : W64) (cell : Nat) : Bool := mV v && decide (mBase v ≤ cell) && decide (cell < mBase v + mW v * mH v)

/-- R218: the horizon of a scope. -/
def horizon (v : W64) : Nat := if mScope v = 0 then 64 else if mScope v = 1 then 1024 else 4096

/-- The field that holds a cell at a stamp (R229). -/
def fieldAt (cl : Cluster) (cell stamp : Nat) : Option Nat := (List.range 8).find? fun n => inField (mfcAt cl n stamp) cell

/-- R225: the largest horizon of the field's configurations in force from stamp − 4,096 to stamp. A configuration with
V = 0 has no scope instance and does not count; where none counts the horizon is 64 (DESIGN CHOICE, log entry 58). -/
def holdHorizon (cl : Cluster) (n stamp : Nat) : Nat :=
  let l := mfcAt cl n (stamp - 4096) :: (cl.mfcLog.filter fun k => k.n = n ∧ stamp < k.e + 4096 ∧ k.e ≤ stamp).map (·.v)
  ((l.filter fun v => mV v).map horizon).foldl max 64

/-- Memory key of a cell (R61, R214). -/
def cellKey (q : Nat) (cl : Cluster) (cell : Nat) : Nat := sramKey q (sharedTop cl + 2 * cell)
/-- R61: the cell exists in the mark space of a cluster. -/
def hasCell (cl : Cluster) (cell : Nat) : Bool := decide (cell < cl.msize * 4096)
/-- The value of a cell; a cell that a smaller MSIZE has taken away reads 0 (log entry 55). -/
def getCell (s : State) (q cell : Nat) : Nat :=
  if hasCell (s.cluster q) cell then leNat (readBytes s.mem (cellKey q (s.cluster q) cell) 2) else 0
/-- Mark space takes no part in the cluster order (R212): a cell is written without a squash. A cell that a smaller MSIZE
has taken away keeps nothing (log entry 55). -/
def setCell (q cell v : Nat) (s : State) : State :=
  if hasCell (s.cluster q) cell then { s with mem := writeBytes s.mem (cellKey q (s.cluster q) cell) (leBytes 2 v) } else s

/-- R8. -/
def sat16 (n : Nat) : Nat := min n 65535

/-- R217: the neighbour of a cell in a direction, if it exists. -/
def neighbour (v : W64) (cell dir : Nat) : Option Nat :=
  let i := cell - mBase v
  let x : Int := (i % mW v : Nat)
  let y : Int := (i / mW v : Nat)
  let dx : Int := if dir = 1 ∨ dir = 4 ∨ dir = 5 then 1 else if dir = 3 ∨ dir = 6 ∨ dir = 7 then -1 else 0
  let dy : Int := if dir = 0 ∨ dir = 4 ∨ dir = 7 then -1 else if dir = 2 ∨ dir = 5 ∨ dir = 6 then 1 else 0
  let nx := x + dx
  let ny := y + dy
  if mClip v then
    if nx < 0 ∨ (mW v : Int) ≤ nx ∨ ny < 0 ∨ (mH v : Int) ≤ ny then none
    else some (mBase v + ny.toNat * mW v + nx.toNat)
  else some (mBase v + (ny % (mH v : Int)).toNat * mW v + (nx % (mW v : Int)).toNat)

/-- R232: the strongest neighbour; ties keep the earlier direction. -/
def senseN (s : State) (q : Nat) (v : W64) (cell d r : Nat) : W64 :=
  let best := (List.range d).foldl (fun (b : Option (Nat × Nat)) j =>
    let dir := (r + j) % d
    match neighbour v cell dir with
    | none => b
    | some n =>
      let x := getCell s q n
      match b with
      | none => some (x, dir)
      | some (y, _) => if y < x then some (x, dir) else b) none
  match best with
  | none => 0xF0000
  | some (x, dir) => w64 (dir * 65536 + x)

/-- R233: four cells of the row. -/
def senseL (s : State) (q : Nat) (v : W64) (cell : Nat) : W64 :=
  let i := cell - mBase v
  let x := i % mW v
  let row := mBase v + i / mW v * mW v
  w64 (leNat ((List.range 4).flatMap fun j =>
    leBytes 2 (if mClip v then (if x + j < mW v then getCell s q (row + x + j) else 0) else getCell s q (row + (x + j) % mW v))))

/-- R231 to R234: a mark operation at its place in the field's order: its value and the new state. -/
def markApply (q n : Nat) (op : MarkOp) (s : State) : W64 × State :=
  let v := mfcAt (s.cluster q) n op.stamp
  let m := getCell s q op.cell
  if op.fn = 1 then (0, setCell q op.cell (sat16 (m + op.b.toNat)) s)
  else if op.fn = 2 then (0, setCell q op.cell (max m (sat16 op.b.toNat)) s)
  else if op.fn = 3 then (senseN s q v op.cell 4 (bits op.b 0 2), s)
  else if op.fn = 4 then (senseN s q v op.cell 8 (bits op.b 0 3), s)
  else if op.fn = 5 then (senseL s q v op.cell, s)
  else if op.b = 0 then (w64 m, s) else (v, s)

/-- R222: a mark fades by ceil(m × F / 256). -/
def fade (m f : Nat) : Nat := m - (m * f + 255) / 256

/-- R222: a tick fades every cell of a valid field. -/
def fadeField (q n stamp : Nat) (s : State) : State :=
  let v := mfcAt (s.cluster q) n stamp
  if mV v then
    forEach (List.range (mW v * mH v)) (fun i s => setCell q (mBase v + i) (fade (getCell s q (mBase v + i)) (mF v)) s) s
  else s

/-- The cells of a field are set to zero (R223). -/
def clearField (q : Nat) (v : W64) (s : State) : State :=
  if mV v then forEach (List.range (mW v * mH v)) (fun i s => setCell q (mBase v + i) 0 s) s else s

/-- The configuration of a field that a change replaces (R223). -/
def beforeChange (cl : Cluster) (k : MarkChange) : W64 :=
  (((cl.mfcLog.takeWhile fun x => x ≠ k).filter fun x => x.n = k.n).getLast?.map (·.v)).getD (tget cl.mfc k.n 0)

/-- R223: a configuration change takes its place: the cells of the extents are cleared. -/
def configEffect (q : Nat) (k : MarkChange) (s : State) : State :=
  let old := beforeChange (s.cluster q) k
  let moved := mV old != mV k.v || decide (mBase old ≠ mBase k.v) || decide (bits old 40 8 ≠ bits k.v 40 8)
  let s := if moved then clearField q k.v (clearField q old s) else s
  modCluster q (fun cl => { cl with mfcNext := cl.mfcNext.erase k }) s

/-- R225: keys of events: configuration change, tick, operation. -/
def opKey (op : MarkOp) : Nat × Nat × Nat := (op.stamp, 2 + op.gcn, op.seq)
def keyLt (a b : Nat × Nat × Nat) : Bool :=
  decide (a.1 < b.1) || (decide (a.1 = b.1) && (decide (a.2.1 < b.2.1) || (decide (a.2.1 = b.2.1) && decide (a.2.2 < b.2.2))))

/-- The pending tick or change of a field with the lowest key below `k`: cycle and, for a change, the change. -/
def nextDue (cl : Cluster) (n : Nat) (k : Nat × Nat × Nat) : Option (Nat × Option MarkChange) :=
  let t := ((cl.ticks.filter fun x => x.1 = n ∧ keyLt (x.2, 1, 0) k).map (·.2)).min?
  let c := (cl.mfcNext.filter fun x => x.n = n ∧ keyLt (x.e, 0, 0) k).head?
  match t, c with
  | none, none => none
  | some t, none => some (t, none)
  | none, some c => some (c.e, some c)
  | some t, some c => if c.e ≤ t then some (c.e, some c) else some (t, none)

/-- R222, R225: the pending tick or change that comes first before an event of field `n` of key `k`, with its field: of the
field itself those below `k`, of another field those 4,096 cycles or more before, since cells change hands no sooner
(R216, R223). -/
def firstDue (cl : Cluster) (n : Nat) (k : Nat × Nat × Nat) : Option (Nat × Nat × Option MarkChange) :=
  ((List.range 8).filterMap fun m =>
    (nextDue cl m (if m = n then k else (k.1 - 4095, 0, 0))).map fun x => (m, x)).foldl
    (fun b x => match b with
      | none => some x
      | some y => if x.2.1 < y.2.1 then some x else b) none

/-- R225: apply the pending ticks and changes that come before an event of field `n` of key `k`, in the order of their
cycles (at most `fuel`). -/
def drain (fuel q n : Nat) (k : Nat × Nat × Nat) (s : State) : State :=
  match fuel with
  | 0 => s
  | fuel + 1 =>
    match firstDue (s.cluster q) n k with
    | none => s
    | some (_, _, some c) => drain fuel q n k (configEffect q c s)
    | some (m, t, none) =>
      drain fuel q n k (modCluster q (fun cl => { cl with ticks := cl.ticks.erase (m, t) }) (fadeField q m t s))

/-- Everything pending before an event of a field. -/
def drainAll (q n : Nat) (k : Nat × Nat × Nat) (s : State) : State :=
  drain ((s.cluster q).ticks.length + (s.cluster q).mfcNext.length) q n k s

/-- R229 check 4: the cell that an arriving operation names, after the receiver's export window. A window with an odd
DELTA gives an odd offset, which names the cell that holds the byte (DESIGN CHOICE, log entry 59). -/
def markCell (cl : Cluster) (p : Packet) (op : MarkOp) : Option Nat :=
  (if op.window then receive cl p.ofs 2 3 else some p.ofs).map fun o => (o - 0x100000) / 2

/-- R225, R229: the field of a packet's operation at its stamp. -/
def markField (s : State) (p : Packet) (op : MarkOp) : Option Nat :=
  (markCell (s.cluster p.pcn) p op).bind fun x => fieldAt (s.cluster p.pcn) x op.stamp

/-- R225: an operation of the field with a key below `k` is held or still in flight. -/
def opBefore (s : State) (q n : Nat) (k : Nat × Nat × Nat) : Bool :=
  let cl := s.cluster q
  (cl.held.any fun o => decide (fieldAt cl o.cell o.stamp = some n) && keyLt (opKey o) k) ||
    s.net.any fun p => match p.body with
      | .mark o => decide (p.pcn = q) && keyLt (opKey o) k && decide (markField s p o = some n)
      | _ => false

/-- R223, R225: nothing of another field of the cluster is outstanding whose key lies 4,096 cycles or more before a stamp: a
configuration change that may clear cells which this field holds by now (R216), or an operation on such cells. -/
def settled (s : State) (q n stamp : Nat) : Bool :=
  let cl := s.cluster q
  let old (o : MarkOp) : Bool := decide (o.stamp + 4096 ≤ stamp)
  !((cl.mfcNext.any fun k => decide (k.n ≠ n) && decide (k.e + 4096 ≤ stamp)) ||
    (cl.held.any fun o => old o && decide (fieldAt cl o.cell o.stamp ≠ some n)) ||
    s.net.any fun p => match p.body with
      | .mark o => decide (p.pcn = q) && old o && (match markField s p o with | some m => decide (m ≠ n) | none => false)
      | _ => false)

/-- R222: a tick that an operation of lower key held back takes place once nothing of lower key is outstanding. -/
def catchUp (q : Nat) (s : State) : State :=
  forEach (s.cluster q).ticks (fun x s =>
    if (s.cluster q).ticks.contains x && !opBefore s q x.1 (x.2, 1, 0) && settled s q x.1 x.2
    then drainAll q x.1 (x.2, 1, 1) s else s) s

/-! ### Instructions (R228 to R236) -/

/-- R224, R229 checks 1 to 3: a mark operation leaves its core with GTIME as stamp, and the hart stalls (R230). -/
def markOp (fn : Nat) (store : Bool) (d a : R5) (b : W64) (s : State) : State :=
  coreOnly s fun c h =>
    let ea := getG h.regs a
    outside c (fun h s =>
      let q := pcnOf h.gcn
      let op (cell : Nat) (w : Bool) : MarkOp :=
        { id := s.nextId, cid := c, gcn := h.gcn, seq := (s.core h.gcn).markSeq, stamp := s.gtime, cell := cell, fn := fn, b := b, window := w }
      let go (pcn ofs cell : Nat) (w : Bool) : State :=
        setWait c (.mark s.nextId d (decide (3 ≤ fn))) (modCore h.gcn (fun k => { k with markSeq := k.markSeq + 1 })
          (send { id := s.nextId, cid := c, part := h.part, addr := ea, pcn := pcn, ofs := ofs, body := .mark (op cell w) } s))
      if ea.getLsbD 0 then trapHere c 4 ea s
      else if !ea.getLsbD 63 then
        if ea.toNat < 0x100000 ∨ 0x100000 + (s.cluster q).msize * 0x2000 < ea.toNat + 2 then trapHere c 5 ea s
        else go q ea.toNat ((ea.toNat - 0x100000) / 2) false
      else match senderCheck s h ea store true with
        | .fail => trapHere c 6 ea s
        | .ok pcn _ => go pcn (bits ea 0 21) 0 true) s

/-- R231. -/
def execDep (a b : R5) (s : State) : Host.Outcome State Fault Refusal :=
  .next (coreOnly s fun _ h => markOp 1 true 0 a (getG h.regs b) s)
/-- R231. -/
def execDepx (a b : R5) (s : State) : Host.Outcome State Fault Refusal :=
  .next (coreOnly s fun _ h => markOp 2 true 0 a (getG h.regs b) s)
/-- R232. -/
def execSns4 (d a b : R5) (s : State) : Host.Outcome State Fault Refusal :=
  .next (coreOnly s fun _ h => markOp 3 false d a (getG h.regs b) s)
/-- R232. -/
def execSns8 (d a b : R5) (s : State) : Host.Outcome State Fault Refusal :=
  .next (coreOnly s fun _ h => markOp 4 false d a (getG h.regs b) s)
/-- R233. -/
def execSnsl (d a : R5) (s : State) : Host.Outcome State Fault Refusal := .next (markOp 5 false d a 0 s)
/-- R234. -/
def execMrd (d a sel : R5) (s : State) : Host.Outcome State Fault Refusal :=
  .next (coreOnly s fun c _ => if 2 ≤ sel.toNat then illegal c (.mrd d a sel) s else markOp 6 false d a (w64 sel.toNat) s)

/-- R220, R221: the schedules of a partition as START, FIRST, INTERVAL, oldest first, from the one that module reset
leaves. -/
def schedules (p : Partition) : List (Nat × Nat × Nat) := (0, 1, 0) :: p.oldTk ++ [(p.tksb, p.tksn, p.tksi)]

/-- R220: the current tick number at a GTB cycle: under the last schedule that has begun. -/
def tickNumber (p : Partition) (t : Nat) : Nat :=
  match ((schedules p).filter fun x => x.1 ≤ t).getLast? with
  | some (b, f, i) => if i = 0 then f - 1 else f + (t - b) / i
  | none => 0

/-- The first tick after t of each schedule that stands at it. -/
def ticksAfter (t : Nat) : List (Nat × Nat × Nat) → List Nat
  | [] => []
  | (b, _, i) :: r =>
    let x := if t < b then b else b + ((t - b) / i + 1) * i
    let stands : Bool := match r with | [] => true | (b', _, _) :: _ => decide (x < b')
    if i ≠ 0 ∧ stands then x :: ticksAfter t r else ticksAfter t r

/-- R235: GTB cycle of the first tick after t. -/
def nextTick (p : Partition) (t : Nat) : W64 :=
  if p.tksi = 0 then 0xFFFFFFFFFFFFFFFF
  else match ticksAfter t (schedules p) with
    | [] => 0xFFFFFFFFFFFFFFFF
    | x :: r => w64 (r.foldl min x)

/-- R235. -/
def execTknum (d sel : R5) (s : State) : Host.Outcome State Fault Refusal :=
  .next (coreOnly s fun c _ =>
    if 3 ≤ sel.toNat then illegal c (.tknum d sel) s
    else outside c (fun h s =>
      let p := s.part h.part
      finishG c d (if sel.toNat = 0 then w64 (tickNumber p s.gtime) else if sel.toNat = 1 then nextTick p s.gtime else w64 p.tksi) s) s)

/-- R236. -/
def execTkwait (a : R5) (s : State) : Host.Outcome State Fault Refusal :=
  .next (coreOnly s fun c _ => outside c (fun h s =>
    let v := getG h.regs a
    if tickNumber (s.part h.part) s.gtime < v.toNat then setWait c (.tkwait v) s else retire c s) s)
/-- R236. -/
def execTkwaitWake (c : Nat) (s : State) : Host.Outcome State Fault Refusal :=
  .next (
    let h := s.ctx c
    match h.wait with
    | .tkwait v => if mayWake s h && decide (v.toNat ≤ tickNumber (s.part h.part) s.gtime) then retire c s else s
    | _ => s)

/-! ### Events -/

/-- R218: whether a core lies in the scope instance of a field of cluster q. -/
def markScopeOk (v : W64) (q gcn : Nat) : Bool :=
  if mScope v = 0 then decide (pcnOf gcn = q)
  else if mScope v = 1 then decide (dieOf (pcnOf gcn) = dieOf q) else true

/-- R31: the GTB cycle within which a mark instruction completes: its hold horizon and 200 core cycles after its issue. -/
def markDue (s : State) (cl : Cluster) (n : Nat) (op : MarkOp) : Nat :=
  op.stamp + holdHorizon cl n op.stamp + 2000 / Config.clock (s.cluster (pcnOf op.gcn)).power.point

/-- Replace an operation by its answer, which reaches the hart by `due`. -/
def markAnswer (id : Nat) (due : Option Nat) (b : Body) (s : State) : State :=
  { s with net := s.net.map fun p => if p.id = id then { p with body := b, due := due } else p }

/-- R225: the held operation of the lowest key of a field. -/
def lowestHeld (cl : Cluster) (n : Nat) : Option MarkOp :=
  match cl.held.filter fun o => fieldAt cl o.cell o.stamp = some n with
  | [] => none
  | o :: r => some (r.foldl (fun a b => if keyLt (opKey b) (opKey a) then b else a) o)

/-- R225, R229 checks 4 and 5: the home mark unit accepts or rejects an arriving operation; a deposit is answered on
acceptance. -/
def execMarkOpArrival (id : Nat) (s : State) : Host.Outcome State Fault Refusal :=
  .next (match packet s id with
    | none => s
    | some p =>
      match p.body with
      | .mark op => catchUp p.pcn <|
        let cl := s.cluster p.pcn
        match markCell cl p op with
        | none => markAnswer id none (.markReject 6) s
        | some o =>
          let op := { op with cell := o }
          match fieldAt cl op.cell op.stamp with
          | none => markAnswer id none (.markReject 0x14) s
          | some n =>
            let due := some (markDue s cl n op)
            if !markScopeOk (mfcAt cl n op.stamp) p.pcn op.gcn then markAnswer id due (.markReject 0x14) s
            else
              let s := modCluster p.pcn (fun cl => { cl with held := cl.held ++ [op] }) s
              if op.fn ≤ 2 then markAnswer id due (.markReply 0) s else unsend id s
      | _ => s)

/-- R225: the held operation of the lowest key of a field is applied once GTIME reaches stamp + H, after every pending
tick and change of lower key; a value is sent back. -/
def execMarkOpApply (q n : Nat) (s : State) : Host.Outcome State Fault Refusal :=
  .next (
    let cl := s.cluster q
    match lowestHeld cl n with
    | none => s
    | some op =>
      if s.gtime < op.stamp + holdHorizon cl n op.stamp ∨ opBefore s q n (opKey op) ∨ !settled s q n op.stamp then s
      else
        let s := drainAll q n (opKey op) s
        let (v, s) := markApply q n op s
        let s := catchUp q (modCluster q (fun cl => { cl with held := cl.held.erase op }) s)
        if op.fn ≤ 2 then s
        else { s with net := s.net ++ [{
          id := op.id, cid := op.cid, part := 0, addr := 0, pcn := q, ofs := 0, due := some (markDue s cl n op), body := .markReply v }] })

/-- R220: the GTB cycle of the next tick of a partition. -/
def dueTick (t : Partition) : Option Nat :=
  let n := t.taken + 1
  let (b, f, i) := (((schedules t).filter fun x => x.2.1 ≤ n).getLast?).getD (0, 1, 0)
  if !t.live ∨ i = 0 then none else some (b + (n - f) * i)

/-- R219, R222, R225: the next tick of a partition takes place at its GTB cycle in every cluster that serves it: each valid
field fades at its place in its order, at once when nothing of lower key is outstanding. -/
def execTick (p : Nat) (s : State) : Host.Outcome State Fault Refusal :=
  .next (
    let t := s.part p
    match dueTick t with
    | none => s
    | some at_ =>
      if s.gtime < at_ then s
      else
      let s := modPart p (fun t => { t with taken := t.taken + 1 }) s
      forEach (clustersOf s p) (fun q s =>
        forEach (List.range 8) (fun k s =>
          if opBefore s q k (at_, 1, 0) || !settled s q k at_ then modCluster q (fun cl => { cl with ticks := cl.ticks ++ [(k, at_)] }) s
          else fadeField q k at_ (drainAll q k (at_, 1, 0) s)) s) s)

/-- R223, R225: a change can take its place: nothing of lower key is outstanding. -/
def changeReady (s : State) (q : Nat) (k : MarkChange) : Bool := !opBefore s q k.n (k.e, 0, 0) && settled s q k.n k.e

/-- R223, R225: an accepted change of a field takes effect once GTIME reaches E and nothing of lower key is
outstanding. -/
def execMarkConfigEffect (q n : Nat) (s : State) : Host.Outcome State Fault Refusal :=
  .next (match (s.cluster q).mfcNext.filter fun k => k.n = n with
    | [] => s
    | k :: _ => if s.gtime < k.e ∨ !changeReady s q k then s else catchUp q (configEffect q k (drainAll q n (k.e, 0, 0) s)))

/-- R328: an answer to an ended member is dropped. -/
def dropAnswer (p : Packet) (s : State) : State :=
  match p.body with
  | .markReply _ | .markReject _ => if (s.ctx p.cid).exited.isSome then unsend p.id s else s
  | _ => s

/-- R229, R230: the reply reaches the hart, which completes its mark instruction or takes the trap precisely; a saved
hart does so on resumption. -/
def execMarkReply (id : Nat) (s : State) : Host.Outcome State Fault Refusal :=
  .next (match packet s id with
    | none => s
    | some p =>
      let c := p.cid
      let h := s.ctx c
      match h.wait with
      | .mark id' d write =>
        if id' ≠ id ∨ !canMove s h then s
        else match p.body with
          | .markReply v => retire c (if write then putG c d v (unsend id s) else unsend id s)
          | .markReject code => trapHere c code p.addr (unsend id s)
          | _ => s
      | _ => dropAnswer p s)

/-! ### Bounds (R31, R219) -/

/-- R31, R219: the last GTB cycle at which a packet of a mark instruction may still be in flight. An operation of a core
inside the scope instance reaches its home mark unit before stamp + H; one of a core outside is rejected there within the
bound of its instruction. -/
def flightDue (s : State) (p : Packet) : Option Nat :=
  match p.body with
  | .mark op =>
    match markField s p op with
    | some n =>
      let v := mfcAt (s.cluster p.pcn) n op.stamp
      some (if markScopeOk v p.pcn op.gcn then op.stamp + horizon v - 1 else markDue s (s.cluster p.pcn) n op)
    | none => none
  | .markReply _ | .markReject _ => if canMove s (s.ctx p.cid) then p.due else none
  | _ => none

/-- R31, R225: the last GTB cycle at which a held operation may still be held: its bound, but for what operations of lower
key on its field need. -/
def heldDue (s : State) (cl : Cluster) (op : MarkOp) : Option Nat :=
  (fieldAt cl op.cell op.stamp).map fun n =>
    (cl.held.filter fun o => decide (fieldAt cl o.cell o.stamp = some n) && keyLt (opKey o) (opKey op)).foldl
      (fun t o => max t (o.stamp + holdHorizon cl n o.stamp)) (markDue s cl n op)

/-- R223: the GTB cycle that time does not pass before an accepted change takes its place: E, or at once when what must come
first is done. -/
def changeDue (s : State) (q : Nat) (k : MarkChange) : Option Nat :=
  if s.gtime < k.e then some k.e else if changeReady s q k then some s.gtime else none

/-- R31, R223: the bounds of the held operations and of the changes of a cluster. -/
def heldDues (s : State) (q : Nat) (cl : Cluster) : List Nat :=
  cl.held.filterMap (heldDue s cl) ++ cl.mfcNext.filterMap (changeDue s q)

/-- R31, R219, R222, R223: the GTB cycles that time does not pass before a mark operation, its answer, a tick or a change of
a field has taken place. -/
def markDues (s : State) : List Nat :=
  s.net.filterMap (flightDue s) ++ s.clusters.flatMap (fun x => heldDues s x.1 x.2) ++ s.parts.filterMap fun x => dueTick x.2

/-- No mark operation that a field of a cluster is to apply is on its way there or held there. -/
def marksIdle (s : State) (q : Nat) : Bool :=
  (s.cluster q).held.isEmpty && !s.net.any fun p => match p.body with
    | .mark _ => decide (p.pcn = q) && (flightDue s p).isSome
    | _ => false

end Sys2Proof.Machine
end

