-- ==== Sys2Proof/Machine/Sched.lean ====
section
/-!
DEFINITION. The dispatcher: launches, task records, dependence and versions, dispatch, eviction, completion records and
the watchdog (R16 to R25, R317 to R329, R335, R363 to R365).
-/

namespace Sys2Proof.Machine

/-! ### Launches and records -/

/-- Append a completion record (R327). -/
def addRec (v : Nat) (r : Rec) (s : State) : State := modOwner v (fun o => { o with recs := o.recs ++ [r] }) s

/-- R362, R363: QCFG of a class. -/
def qcfgOf (o : Owner) (c : Nat) : W64 := tget o.qcfg c 0x0004000000000000

/-- R316: fields of VFCFG. -/
def vfPart (o : Owner) : Nat := bits o.vfcfg 56 8
def vfWeight (o : Owner) : Nat := bits o.vfcfg 48 8
def vfQslot (o : Owner) : Nat := bits o.vfcfg 36 12
def vfDepq (o : Owner) : Nat := bits o.vfcfg 24 12
def vfRpool (o : Owner) : Nat := bits o.vfcfg 14 10
def vfMinres (o : Owner) : Nat := bits o.vfcfg 8 6
def vfHanglim (o : Owner) : Nat := bits o.vfcfg 0 8

/-- R22, R363: the dispatcher reads the next launch descriptor of a queue once the launch before it has been read to its
end. A queue that runs past host address 2^47 goes on at host address 0 (DESIGN CHOICE, log entry 95). The record of a rejected launch
shows the class of its queue as CLASS, also where the descriptor names another (DESIGN CHOICE, log entry 101). -/
def execLaunchRead (v c : Nat) (s : State) : Host.Outcome State Fault Refusal :=
  .next (
    let o := s.owner v
    let q := qcfgOf o c
    let head := tget o.qhead c 0
    if Config.vfs ≤ v ∨ 4 ≤ c ∨ !q.getLsbD 63 ∨ tget o.qtail c 0 = head ∨ (tget o.reading c none).isSome ∨ o.migrating then s
    else
      let k := Config.hostBase + (bits q 12 35 * 4096 + 32 * (head % 2 ^ bits q 48 5)) % 0x800000000000
      let d := BitVec.ofNat 256 (leNat (readBytes s.mem k 32))
      let s := modOwner v (fun o => { o with qhead := tset 0 o.qhead c ((head + 1) % 0x100000000) }) s
      let bad := decide (bits d 192 64 ≠ 0) || decide (bits d 48 16 ≠ 0) || decide (bits d 2 30 ≠ 0) ||
        decide (bits d 32 16 = 0) || decide (bits d 64 64 % 128 ≠ 0) || decide (bits d 0 2 ≠ c)
      if bad then addRec v { kind := 1, cls := c } s
      else
        let l := s.nextId
        modOwner v (fun o => { o with reading := tput o.reading c (some l) })
          (modLaunch l (fun _ => {
            vf := v
            cls := c
            budget := bits d 128 64
            tasks := bits d 64 64
            ntask := bits d 32 16
            asid := bits o.lasid 0 16 }) { s with nextId := l + 1 }))

/-- A task record as read: none when it cannot be translated or read (R20). -/
def readRecord (p asid va : Nat) (s : State) : Option (BitVec 1024) × State :=
  match walk p asid va s with
  | (.entry e, s) =>
    if malformed s p e ∨ !permits e 54 ∨ spanRetired s e (va - pteVa e) 128 then (none, s)
    else
      let o := va - pteVa e
      if e.getLsbD 47 then (some (BitVec.ofNat 1024 (leNat (readBytes s.mem (pteBase e + o) 128))), s)
      else
        let k := pageToPhys o (pteBase e) (pteIl e)
        let r := (List.range 4).foldl (fun (q : List Byte × Bool × State) j =>
          let (r, s) := readCol (k / 0x800000) (k % 0x800000 / 32 + j) 1 q.2.2
          (q.1 ++ r.bytes, q.2.1 || r.unc, s)) ([], false, s)
        (if r.2.1 then none else some (BitVec.ofNat 1024 (leNat r.1)), r.2.2)
  | (_, s) => (none, s)

/-- R20: a range descriptor: first tile and count. -/
def rangeOf (w : Nat) : Nat × Nat := (w / 0x10000 % 2 ^ 41, w % 0x10000)

/-- R20: used ranges of a set of four descriptors from bit `lo`. -/
def rangesOf (d : BitVec 1024) (lo : Nat) : List (Nat × Nat) :=
  ((List.range 4).map fun i => rangeOf (bits d (lo + 64 * i) 64)).filter fun r => r.2 ≠ 0

/-- R20: the check of a record. -/
def recordBad (d : BitVec 1024) : Bool :=
  let n := bits d 0 4
  decide (n = 0) || decide (8 < n) || (d.getLsbD 8 && decide (4 < n)) || decide (bits d 832 192 ≠ 0) ||
    decide (bits d 192 64 ≠ 0) || decide (bits d 9 55 ≠ 0) || decide (bits d 4 4 ≠ 0) || decide (bits d 64 2 ≠ 0) ||
    decide (bits d 121 7 ≠ 0) ||
    (List.range 8).any fun i =>
      let w := bits d (256 + 64 * i) 64
      decide (w / 2 ^ 57 ≠ 0) || decide (2 ^ 41 < (rangeOf w).1 + (rangeOf w).2)

/-- R21: two sets of ranges share a tile. -/
def overlap (a b : List (Nat × Nat)) : Bool :=
  a.any fun x => b.any fun y => decide (x.1 < y.1 + y.2) && decide (y.1 < x.1 + x.2)

/-- R21: the tiles of a set, each once. -/
def tilesOf (a : List (Nat × Nat)) : List Nat := (a.flatMap fun r => stride r.1 1 r.2).dedup

/-- R318, R317, R322: a task has completed once its completion record is written (log entry 16). -/
def completed (k : Task) : Bool := decide (k.phase = .done)

/-- R318: in-flight tasks of an owner enqueued before `enq`, in enqueue order. -/
def inFlight (s : State) (v enq : Nat) : List (Nat × Task) :=
  s.tasks.filter fun p => decide ((s.launch p.2.launch).vf = v) && decide (p.2.enq < enq) && !completed p.2

/-- R317: slots and dependence entries that tasks of an owner hold. -/
def heldSlots (s : State) (v : Nat) : Nat := (s.tasks.filter fun p => (s.launch p.2.launch).vf = v ∧ p.2.holdsSlot).length
def heldDeps (s : State) (v : Nat) : Nat := (s.tasks.filter fun p => (s.launch p.2.launch).vf = v ∧ p.2.holdsDep).length

/-- R317: the owner has a free slot and a free entry. -/
def quotaFree (s : State) (v : Nat) : Bool :=
  decide (heldSlots s v < vfQslot (s.owner v)) && decide (heldDeps s v < vfDepq (s.owner v))

/-- The base of a frame. -/
def frameBase (v : Nat) (o : Owner) (i : Nat) : Nat :=
  match o.pool.find? fun p => p.1 = i with
  | some p => p.2
  | none => Config.poolFrame v i

/-- R319: a free frame of the owner's pool within RPOOL that can stand for a page: at a base that a page entry can hold
(R343), in the partition's banks (R67), under the page's interleave and grade (R345), and in no retired frame (R356). -/
def freeFrame (s : State) (v p : Nat) (e : BitVec 128) : Option Nat :=
  let o := s.owner v
  (List.range (vfRpool o)).find? fun i =>
    let b := frameBase v o i
    !o.used.contains i && decide (b % 0x10000 = 0) && placeOk s p b (pteIl e) 0x10000 && gradesOk s b (pteIl e) 0x10000 (pteGr e) &&
      !framesRetired s b (pteIl e) 0 0x10000

/-- R322: a version of a later-enqueued writer of the tile supersedes a version, once and for all: also one that is installed
already. -/
def superseded (s : State) (ver : Nat) : Bool :=
  let w := s.version ver
  s.versions.any fun p => decide (p.2.vf = w.vf) && decide (p.2.tile = w.tile) && decide (p.2.asid = w.asid) &&
    decide (p.1 ≠ ver) && decide ((s.task w.writer).enq < (s.task p.2.writer).enq)

/-- R321: a version of a tile of an address space that no installation and no later version has retired, with its writer's
enqueue number. -/
def openVersions (s : State) (v asid t : Nat) : List (Nat × Option Nat) :=
  (s.versions.filter fun p => decide (p.2.vf = v) && decide (p.2.tile = t) && decide (p.2.asid = asid) && !p.2.installed &&
    !p.2.freed && !superseded s p.1).map fun p => ((s.task p.2.writer).enq, some p.1)

/-- R321: the current version of a tile of an address space: that of the latest-enqueued of the in-flight writers and of the
completed ones whose version is not installed yet (log entry 32); none for the mapped frame. Tiles of one number in two
address spaces share no version (DESIGN CHOICE, log entry 73). -/
def currentVersion (s : State) (v asid : Nat) (fl : List (Nat × Task)) (t : Nat) : Option Nat :=
  let writers := (fl.filter fun p => hasTile p.2.wr t && decide (p.2.asid.toNat = asid)).map fun p =>
    (p.2.enq, (p.2.own.find? fun q => q.1 = t).map (·.2))
  ((writers ++ openVersions s v asid t).foldl (fun (b : Option (Nat × Option Nat)) x =>
    match b with
    | none => some x
    | some y => if y.1 < x.1 then some x else b) none).bind (·.2)

/-- R319, R320: a tile of the write set in conflict is renamed, or the task waits for the tasks in conflict, also where the
tile's page entry is malformed or its walk meets an uncorrectable column or a retired bucket (DESIGN CHOICE, log entry 82). -/
def renameTile (v tid t : Nat) (fl : List (Nat × Task)) (s : State) : State :=
  let k := s.task tid
  let against := fl.filter fun p => hasTile p.2.rd t || hasTile p.2.wr t
  if against.isEmpty then s
  else
    let wait (s : State) : State := modTask tid (fun k => { k with waits := k.waits ++ against.map (·.1) }) s
    match walk k.part k.asid.toNat (t * 0x10000) s with
    | (.entry e, s) =>
      if malformed s k.part e ∨ pteBig e ∨ e.getLsbD 47 then wait s
      else match freeFrame s v k.part e with
        | none => wait s
        | some i =>
          let id := s.nextId
          let src := match currentVersion s v k.asid.toNat fl t with
            | some w => (s.version w).frame
            | none => pteBase e
          let o := s.owner v
          modTask tid (fun k => { k with own := k.own ++ [(t, id)] })
            (modVersion id (fun _ => {
                vf := v
                tile := t
                asid := k.asid.toNat
                writer := tid
                frame := frameBase v o i
                il := pteIl e
                gr := pteGr e
                slot := i
                source := if hasTile k.rd t then some src else none })
              (modOwner v (fun o => { o with used := o.used ++ [i] }) { s with nextId := id + 1 }))
    | (_, s) => wait s

/-- R322: a completed writer's version is installed once no later writer's version exists and every reader of an older
one has completed; a superseded one is freed once its readers have completed. So is one whose tile has no page entry to
rewrite (DEDUCED, log entry 32), or whose walk meets an uncorrectable column or a retired bucket: its data are lost (DESIGN
CHOICE, log entry 99). -/
def installVersion (ver : Nat) (s : State) : State :=
  let w := s.version ver
  let k := s.task w.writer
  let readers (x : Nat) : Bool := s.tasks.any fun p => !completed p.2 && p.2.reads.contains (w.tile, x)
  let older := s.tasks.any fun p => decide ((s.launch p.2.launch).vf = w.vf) && decide (p.2.enq < k.enq) && hasTile p.2.rd w.tile &&
    decide (p.2.asid.toNat = w.asid) && !completed p.2
  let p := k.part
  if w.freed ∨ w.installed ∨ !w.filled ∨ !completed k then s
  else if superseded s ver then
    if readers ver then s
    else modOwner w.vf (fun o => { o with used := o.used.erase w.slot }) (modVersion ver (fun x => { x with freed := true }) s)
  else if older then s
  else match walk p w.asid (w.tile * 0x10000) s with
    | (.entry e, s) =>
      let old := pteBase e
      let e' := BitVec.ofNat 128 (e.toNat - bits e 16 32 * 0x10000 + w.frame)
      let t := (s.part p).ptcfg
      let ln := bits t 48 5
      let h := (w64 (w.asid * 2 ^ 32 + w.tile * 0x10000 / 0x2000000 % 2 ^ 32) * 0x9E3779B97F4A7C15).toNat / 2 ^ (64 - ln)
      let at_ := ((List.range 64).map fun i => pageToPhys (128 * ((h + i / 8) % 2 ^ ln) + 16 * (i % 8)) (bits t 0 48) (bits t 61 2)).find?
        fun k => decide (leNat (physRead k 16 1 s).1 = e.toNat)
      let s := match at_ with
        | some k => (physWrite k (leBytes 16 e'.toNat) 1 s).2
        | none => s
      let drop (l : List TlbEntry) : List TlbEntry := l.filter fun x => ¬(x.asid = w.asid ∧ x.va = w.tile * 0x10000)
      let s := forEach (clustersOf s p) (fun q s => modCluster q (fun cl => { cl with tlb := drop cl.tlb }) s) s
      let s := { s with ctxs := s.ctxs.map fun x => if x.2.part = p then
        (x.1, { x.2 with icache := x.2.icache.filter fun l => ¬(l.asid = w.asid ∧ l.page = w.tile * 0x10000) }) else x }
      modOwner w.vf (fun o => { o with pool := tput o.pool w.slot old, used := o.used.erase w.slot })
        (modVersion ver (fun x => { x with installed := true }) s)
    | (_, s) => modOwner w.vf (fun o => { o with used := o.used.erase w.slot }) (modVersion ver (fun x => { x with freed := true }) s)

/-- R322, log entry 32: every version that can be installed is, before the dispatcher takes the next record. -/
def installAll (s : State) : State := s.versions.foldl (fun s p => installVersion p.1 s) s

/-- R317 to R321: a checked record becomes a waiting task. -/
def enqueue (v l : Nat) (asid : BitVec 16) (d : BitVec 1024) (s : State) : State :=
  let s := installAll s
  let tid := s.nextId
  let rd := rangesOf d 256
  let wr := rangesOf d 512
  let fl := inFlight s v tid
  let cur := (tilesOf rd).filterMap fun t => (currentVersion s v asid.toNat fl t).map fun w => (t, w)
  let k : Task :=
    { launch := l, part := vfPart (s.owner v), entry := w64 (bits d 64 64), arg := w64 (bits d 128 64), tag := w64 (bits d 768 64),
      asid := asid, n := bits d 0 4, grp := d.getLsbD 8, rd := rd, wr := wr, reads := cur, enq := tid, holdsSlot := true, holdsDep := true }
  let s := modTask tid (fun _ => k) { s with nextId := tid + 1 }
  (tilesOf wr).foldl (fun s t => renameTile v tid t fl s) s

/-- R20, R317: one record of a launch: bad ones complete at once with BAD_RECORD; others need quota. The answer says
whether the record is taken. -/
def takeRecord (v l : Nat) (asid : BitVec 16) (va : Nat) (s : State) : Bool × State :=
  match readRecord (vfPart (s.owner v)) asid.toNat va s with
  | (none, s) => (true, addRec v { kind := 1, launch := some l } s)
  | (some d, s) =>
    if recordBad d then (true, addRec v { kind := 1, launch := some l, tag := w64 (bits d 768 64) } s)
    else if quotaFree s v then (true, enqueue v l asid d s)
    else (false, s)

/-- R317: the dispatcher enqueues the next record of the launch that it is reading. -/
def execTaskEnqueue (v c : Nat) (s : State) : Host.Outcome State Fault Refusal :=
  .next (gate .dispatcher (fun s => match tget (s.owner v).reading c none with
    | none => s
    | some l =>
      let la := s.launch l
      if la.ntask ≤ la.next then modOwner v (fun o => { o with reading := tdel o.reading c }) s
      else
        let r := takeRecord v l (BitVec.ofNat 16 la.asid) (la.tasks + 128 * la.next) s
        if !r.1 then r.2
        else
          let s := modLaunch l (fun k => { k with next := k.next + 1 }) r.2
          if la.next + 1 < la.ntask then s else modOwner v (fun o => { o with reading := tdel o.reading c }) s) s)

/-! ### Versions and eligibility -/

/-- R320, R356: a line of a frame reaches the line of a version buffer: nothing of a retired frame is recovered, so that poison
stands for it, and nothing is written to one (DESIGN CHOICE, log entry 71). R320 does not name the cluster whose DMA engine fills the buffer:
after it no engine meets a column of the source as it was before (R196; DESIGN CHOICE, log entry 53). Metadata of the version buffer's columns stay as its frame
held them (DESIGN CHOICE, log entry 106). -/
def copyLine (src : Option (Nat × Nat)) (dst : Nat × Nat) (s : State) : State :=
  let gone (k : Nat) : Bool := isRetired s (k / 0x800000) (k % 0x800000)
  let (l, s) := match src with
    | none => (List.replicate dst.2 0, s)
    | some (k, n) =>
      if gone k then ((List.replicate (n / 32) poisonCol).flatten, s)
      else
        let r := physRead k n 1 s
        (r.1, forEach (List.range (n / 32)) (fun i s => settle (k / 0x800000) (k % 0x800000 / 32 + i) s) r.2)
  if gone dst.1 then s else (physWrite dst.1 l 1 s).2

/-- R320: a version buffer is filled with a copy of its source, once every earlier writer of the tile has completed, or
with zero. -/
def execVersionFill (ver : Nat) (s : State) : Host.Outcome State Fault Refusal :=
  .next (
    let w := s.version ver
    let k := s.task w.writer
    if w.filled ∨ (w.source.isSome ∧ (inFlight s w.vf k.enq).any fun p => hasTile p.2.wr w.tile) then s
    else gate .dispatcher (fun s =>
      let line (i : Nat) (f : Nat) : Nat × Nat := (pageToPhys (128 * i) f w.il, 128)
      modVersion ver (fun x => { x with filled := true })
        (forEach (List.range 512) (fun i s => copyLine (w.source.map (line i)) (line i w.frame) s) s)) s)

/-- R319, R322: a tile that a task writes in place still has a version of an earlier writer that is to be installed; one that
a later writer's version supersedes never is. -/
def awaitsInstall (s : State) (v : Nat) (k : Task) : Bool :=
  s.versions.any fun x => decide (x.2.vf = v) && !x.2.installed && !x.2.freed && hasTile k.wr x.2.tile &&
    decide (x.2.asid = k.asid.toNat) && !superseded s x.1 &&
    !(k.own.any fun p => decide (p.1 = x.2.tile)) && decide ((s.task x.2.writer).enq < k.enq)

/-- R318, R319: a task becomes eligible once no earlier in-flight task writes what it reads, its buffers are filled, the
tasks it was serialised against have completed, and their versions of tiles that it writes in place are installed. -/
def execTaskEligible (tid : Nat) (s : State) : Host.Outcome State Fault Refusal :=
  .next (
    let k := s.task tid
    let v := (s.launch k.launch).vf
    if k.phase ≠ .waiting ∨ k.n = 0 ∨ ((inFlight s v k.enq).any fun p => overlap p.2.wr k.rd) ∨
        (k.own.any fun p => !(s.version p.2).filled) ∨ (k.waits.any fun t => !completed (s.task t)) ∨ awaitsInstall s v k then s
    else modTask tid (fun k => { k with phase := .eligible, eligAt := s.gtime }) s)

/-- R322: a completed writer's version is installed, or freed when it is superseded. -/
def execVersionInstall (ver : Nat) (s : State) : Host.Outcome State Fault Refusal :=
  .next (gate .dispatcher (installVersion ver) s)

/-! ### Dispatch (R323 to R326) -/

/-- Free cores of a cluster. -/
def freeCores (s : State) (q : Nat) : List Nat := (List.range 8).filter fun c => (s.residentOn (q * 8 + c)).isNone

/-- R325: the cores that a new task takes of a list of free cores. -/
def pickCores (free : List Nat) (n : Nat) (grp : Bool) : Option (List Nat) :=
  if grp then
    let lo := free.filter (· < 4)
    let hi := free.filter (4 ≤ ·)
    if n ≤ lo.length then some (lo.take n) else if n ≤ hi.length then some (hi.take n) else none
  else if n ≤ free.length then some (free.take n) else none

/-- The cluster that a VCN of a partition names, when it is present and not linked (R314, R369). -/
def clusterAt (p : Partition) (v : Nat) : Option Nat :=
  let e := tget p.map v 0
  if v < p.count ∧ e.getLsbD 63 ∧ !e.getLsbD 62 then some (bits e 0 14) else none

/-- R333: slots of a core that hold a saved context of a partition: the core's own for the owner of the cluster, the loan
slot for the borrower of a lent one. -/
def usedSlots (s : State) (g p : Nat) : Nat :=
  (s.ctxs.filter fun x => decide (x.2.gcn = g) && decide (x.2.part = p) && x.2.image.isSome).length

/-- R332, R333: slots of a core for a partition: four of its own, or the loan slot of a lent core (log entry 30). -/
def slotCount (s : State) (g p : Nat) : Nat := if (s.cluster (pcnOf g)).lent = some p then 1 else 4

/-- R325, R333: VCN, cluster and cores for a new task: the cluster with the fewest free cores, then the lowest VCN. A core
that a new context takes has a slot free for a stop. -/
def placeNew (s : State) (k : Task) : Option (Nat × Nat × List Nat) :=
  let p := s.part k.part
  (List.range p.count).foldl (fun (best : Option (Nat × Nat × List Nat)) v =>
    match clusterAt p v with
    | none => best
    | some q =>
      let free := freeCores s q
      match pickCores (free.filter fun c => usedSlots s (q * 8 + c) k.part < slotCount s (q * 8 + c) k.part) k.n k.grp with
      | none => best
      | some cores => match best with
        | none => some (v, q, cores)
        | some (_, q', _) => if free.length < (freeCores s q').length then some (v, q, cores) else best) none

/-- R325: the cluster of a resumable gang, when its own cores are free there. -/
def placeOld (s : State) (k : Task) : Option Nat :=
  match clusterAt (s.part k.part) k.vcn with
  | none => none
  | some q => if k.members.all fun m => (s.residentOn (q * 8 + coreOf (s.ctx m).gcn)).isNone then some q else none

/-- R323: a task is a candidate that fits. -/
def fits (s : State) (k : Task) : Bool :=
  if k.phase = .eligible then (placeNew s k).isSome
  else if k.phase = .evicted then (placeOld s k).isSome
  else false

/-- Lexicographic order of keys. -/
def lexLt : List Nat → List Nat → Bool
  | a :: r, b :: q => decide (a < b) || (decide (a = b) && lexLt r q)
  | [], _ :: _ => true
  | _, [] => false

/-- The first of the elements with the least key. -/
def leastBy {α : Type} (key : α → List Nat) : List α → Option α
  | [] => none
  | a :: r => match leastBy key r with
    | none => some a
    | some b => if lexLt (key b) (key a) then some b else some a

/-- R323: the fitting candidates of a partition. -/
def candidates (s : State) (p : Nat) : List (Nat × Task) := s.tasks.filter fun t => decide (t.2.part = p) && fits s t.2

/-- R323: order within one owner and class: resumable gangs by eligibility, then new tasks in enqueue order. -/
def ownKey (t : Nat × Task) : List Nat := if t.2.phase = .eligible then [1, t.2.enq] else [0, t.2.eligAt, t.2.enq]

/-- The next owner of a list after one, cyclically. -/
def nextOwner (l : List Nat) (o : Nat) : Nat := ((l.find? fun x => o < x).orElse fun _ => l.head?).getD 0

/-- R324: deficit round robin in a class. -/
def drr (fuel p c o : Nat) (l : List Nat) (cand : List (Nat × Task)) (s : State) : Option Nat × State :=
  match fuel with
  | 0 => (none, s)
  | fuel + 1 =>
    let key := o * 4 + c
    match leastBy ownKey (cand.filter fun t => (s.launch t.2.launch).vf = o) with
    | none => drr fuel p c (nextOwner l o) l cand (modPart p (fun t => { t with deficit := tset 0 t.deficit key 0 }) s)
    | some t =>
      let d := tget (s.part p).deficit key 0
      if d < t.2.n then
        drr fuel p c (nextOwner l o) l cand
          (modPart p (fun k => { k with deficit := tset 0 k.deficit key (d + vfWeight (s.owner o)) }) s)
      else (some t.1, modPart p (fun k => { k with
        deficit := tset 0 k.deficit key (d - t.2.n), pointer := tset 0 k.pointer c o }) s)

/-- R25, R323: the class of a task's launch. -/
def classOf (s : State) (k : Task) : Nat := (s.launch k.launch).cls

/-- Owners of a partition, ascending. -/
def ownersOf (s : State) (p : Nat) : List Nat := (s.owners.filter fun o => vfPart o.2 = p).map (·.1)

/-- R323: place a chosen candidate. -/
def place (tid : Nat) (s : State) : State :=
  let k := s.task tid
  if k.phase = .eligible then
    match placeNew s k with
    | some (v, q, cores) => startGang tid v q cores s
    | none => s
  else match placeOld s k with
    | some q => restoreGang tid q s
    | none => s

/-- R323: a dispatch opportunity places one gang. -/
def execDispatchOpportunity (p : Nat) (s : State) : Host.Outcome State Fault Refusal :=
  .next (
    let t := s.part p
    let cand := candidates s p
    if !t.live ∨ t.stopped ∨ s.gtime % 16 ≠ 0 ∨ (t.dispatches ≠ 0 ∧ t.lastDispatch = s.gtime) ∨ cand.isEmpty then s
    else
      let n := t.dispatches + 1
      let s := modPart p (fun t => { t with dispatches := n, lastDispatch := s.gtime }) s
      if n % 64 = 0 then
        match leastBy (fun x : Nat × Task => [x.2.eligAt, (s.launch x.2.launch).vf, x.2.enq]) cand with
        | some x => place x.1 s
        | none => s
      else
        let c := (cand.map fun x => classOf s x.2).foldl min 3
        let l := ownersOf s p
        let o := ((l.find? fun x => tget t.pointer c 0 ≤ x).orElse fun _ => l.head?).getD 0
        match drr (l.length * 10 + 1) p c o l (cand.filter fun x => classOf s x.2 = c) s with
        | (some tid, s) => place tid s
        | (none, s) => s)

/-- R335: eviction of a gang all of whose members block. -/
def execEvictGang (tid : Nat) (s : State) : Host.Outcome State Fault Refusal :=
  .next (
    let k := s.task tid
    let o := s.owner (s.launch k.launch).vf
    let blocked := k.members.all fun m => (s.ctx m).exited.isSome || (isBlocking (s.ctx m).wait && !(s.ctx m).halted && !arrayMid (s.ctx m))
    let slots := k.members.all fun m => usedSlots s (s.ctx m).gcn k.part + 2 ≤ slotCount s (s.ctx m).gcn k.part
    let gone := saveGang tid s
    let wanted := s.tasks.any fun t => decide (t.2.part = k.part) && decide (t.2.phase = .eligible) && decide (classOf s t.2 < classOf s k) &&
      (placeNew s t.2).isNone && (placeNew gone t.2).isSome
    if k.phase ≠ .placed ∨ !blocked ∨ (k.members.all fun m => (s.ctx m).exited.isSome) ∨
        s.gtime < k.residentAt + vfMinres o * 65536 ∨ !slots ∨ !wanted then s
    else gone)

/-! ### Completion (R18, R191, R327, R365) -/

/-- R18: the status that the members give. -/
def exitStatus (s : State) (k : Task) : W32 :=
  ((k.members.map fun m => ((s.ctx m).exited.getD 0)).find? fun x => x ≠ 0).getD 0

/-- R328, R384: an instruction of a member whose request is still to be carried out: a remote atomic that returns a value, one of the sync
engine or the marks, or TSPAWN. -/
def requesting (s : State) (c : Nat) : Bool :=
  ((s.net ++ (s.part (s.ctx c).part).saved).any fun p => decide (p.cid = c) && match p.body with
    | .atomic _ _ _ _ true | .barrive _ | .bmake _ | .bfree _ | .mark _ | .tspawn .. => true
    | _ => false) || s.clusters.any fun x => x.2.held.any fun o => decide (o.cid = c) && decide (3 ≤ o.fn)

/-- R191, R194: work of a member, or accesses that the completion record covers, still outstanding. -/
def working (s : State) (c : Nat) : Bool :=
  let h := s.ctx c
  !h.eng.q.isEmpty || !h.eng.bq.isEmpty || !h.eng.madds.isEmpty || pendingIn h 3 false || requesting s c ||
    (match (s.bank h.gcn).run with | some r => decide (r.cid = c) | none => false)

/-- R364: EVCFG.LOC, the event ring lies in device SRAM. -/
def ringInSram (o : Owner) : Bool := o.evcfg.getLsbD 62

/-- R361: a record in host memory is a SYSTEM-scope release: no access of the task is unacknowledged. -/
def released (s : State) (k : Task) : Bool :=
  ringInSram (s.owner (s.launch k.launch).vf) || k.members.all fun m => !pendingIn (s.ctx m) 4 false

/-- R18, R191, R328: a task is complete when every member has exited and all its engine work has settled; its record
becomes ready. -/
def execTaskComplete (tid : Nat) (s : State) : Host.Outcome State Fault Refusal :=
  .next (
    let k := s.task tid
    let ready := decide (k.phase = .ending) || (decide (k.phase = .exited) && !k.members.isEmpty)
    if !ready ∨ (k.members.any fun m => (s.ctx m).exited.isNone ∨ working s m) ∨ !released s k then s
    else
      let s := forEach k.members (fun m s => recordCovers m (if (s.ctx m).eng.poison.isSome then setFlag m 1 s else s)) s
      let kind := k.status.getD 0
      addRec (s.launch k.launch).vf
        { kind := kind, tag := k.tag, status := if kind = 0 then exitStatus s k else 0, launch := some k.launch, task := some tid }
        (modTask tid (fun k => { k with phase := .recorded, holdsSlot := false }) s))

/-- R327, R372: whole microjoules of an exact energy, modulo 2^64 (log entry 60). -/
def wholeMicro (x : ℚ) : Nat := x.floor.toNat % 0x10000000000000000

/-- R327: the words of a record, word 0 first. -/
def recordWords (s : State) (r : Rec) : List Nat :=
  let la := match r.launch with | some l => s.launch l | none => { cls := r.cls }
  let k := match r.task with | some t => s.task t | none => {}
  [2 ^ 63 + r.kind * 2 ^ 56 + la.cls * 2 ^ 54 + bit la.reached * 2 ^ 53 + k.flags.toNat * 2 ^ 32 + r.status.toNat,
    r.tag.toNat, s.gtime, wholeMicro k.energy]

/-- R364: the ring that a value of EVCFG and EVBASE describe meets the conditions. -/
def ringPlaceOk (s : State) (o : Owner) (v : W64) : Bool :=
  let b := o.evbase
  if v.getLsbD 62 then
    b.getLsbD 63 && decide (bits b 21 27 = 0) && decide (b.toNat % 32 = 0) &&
      (match clusterAt (s.part (vfPart o)) (bits b 48 15) with
      | some q => inShared (s.cluster q) (bits b 0 21) (32 * 2 ^ bits v 48 5)
      | none => false)
  else decide (b.toNat % 4096 = 0) && decide (b.toNat + 32 * 2 ^ bits v 48 5 ≤ 0x800000000000)

/-- R364: the ring's slot for the next record: memory key, and whether it lies in device SRAM. -/
def eventSlot (s : State) (v : Nat) : Option (Nat × Bool) :=
  let o := s.owner v
  let i := 32 * (o.evtail % 2 ^ bits o.evcfg 48 5)
  if o.evcfg.getLsbD 62 then
    (clusterAt (s.part (vfPart o)) (bits o.evbase 48 15)).map fun q => (sramKey q (bits o.evbase 0 21 + i), true)
  else some (Config.hostBase + bits o.evbase 0 47 + i, false)

/-- R129, R317: the dependence entry is freed; cores that a dispatcher status ended are released. -/
def releaseGang (tid : Nat) (s : State) : State :=
  modTask tid (fun k => { k with phase := .done, holdsDep := false }) (releaseCores tid s)

/-- R365: MSI-X marks every written record as signalled. -/
def signal (v : Nat) (s : State) : State :=
  modOwner v (fun o => { o with unsignalled := 0, msix := o.msix ++ [bits o.evcfg 0 11] }) s

/-- R365: the oldest ready record is written when the ring has room, and no write that comes first (R205) is on its way to its slot; its
dependence entry is freed and its cores are released. A ring that does not meet R364 counts as disabled (R359; log entry 61). -/
def execEventRecordWrite (v : Nat) (s : State) : Host.Outcome State Fault Refusal :=
  .next (
    let o := s.owner v
    match o.recs with
    | [] => s
    | r :: rest =>
      match eventSlot s v with
      | none => s
      | some (k, sram) =>
        if !o.evcfg.getLsbD 63 ∨ !ringPlaceOk s o o.evcfg ∨ (r.task.any fun t => !released s (s.task t)) ∨
          2 ^ bits o.evcfg 48 5 ≤ (o.evtail + 0x100000000 - o.evhead) % 0x100000000 ∨
          (sram && coveredFirst s 3 (keyCluster k) (k - sramKey (keyCluster k) 0) 32) then s
        else
          let l := (recordWords s r).flatMap fun w => leBytes 8 w
          let s := if sram then setFe (wordsOf k 32) true (sramWrite k l none s) else { s with mem := writeBytes s.mem k l }
          let s := match r.task with | some t => releaseGang t s | none => s
          let s := modOwner v (fun o => { o with
            recs := rest, evtail := (o.evtail + 1) % 0x100000000, unsignalled := o.unsignalled + 1,
            oldest := if o.unsignalled = 0 then s.gtime else o.oldest }) s
          if bits o.evcfg 40 8 ≠ 0 ∧ (s.owner v).unsignalled ≥ bits o.evcfg 40 8 then signal v s else s)

/-- R365: CTIME has passed since the oldest unsignalled record. -/
def execEventInterruptTimeout (v : Nat) (s : State) : Host.Outcome State Fault Refusal :=
  .next (
    let o := s.owner v
    let t := bits o.evcfg 24 16
    if t = 0 ∨ o.unsignalled = 0 ∨ s.gtime < o.oldest + t * 1024 then s else signal v s)

/-- R329: the hang counter has reached its limit. -/
def execHangExpiry (tid : Nat) (s : State) : Host.Outcome State Fault Refusal :=
  .next (
    let k := s.task tid
    let lim := vfHanglim (s.owner (s.launch k.launch).vf)
    if k.phase ≠ .placed ∨ lim = 0 ∨ k.hang < lim * 0x1000000 then s else endTask tid 2 s)

/-! ### Energy and the watchdog's time -/

/-- R25: the energy of a cluster since the meter's last count is divided among its tasks in proportion to the core cycles
that they occupied, exactly (log entry 60), and charged to their launches; a launch whose budget is reached becomes class
3. -/
def meter (q uj : Nat) (s : State) : State :=
  let occ := (s.cluster q).occupied
  let all := (occ.map (·.2)).sum
  let s := modCluster q (fun cl => { cl with energy := cl.energy + uj, occupied := [] }) s
  forEach occ (fun x s =>
    let t := x.1
    let share : ℚ := (uj * x.2 : Nat) / (all : Nat)
    let l := (s.task t).launch
    let s := modTask t (fun k => { k with energy := k.energy + share }) s
    let s := modLaunch l (fun k =>
      let c := k.charged + share
      let hit := decide (k.budget ≠ 0) && decide ((k.budget : ℚ) ≤ c)
      { k with charged := c, reached := k.reached || hit, cls := if hit then 3 else k.cls }) s
    modOwner (s.launch l).vf (fun o => { o with uenergy := o.uenergy + share }) s) s

/-- R178, R290: the instruction at which a hart stands waits for an entry of the put/get or of the bank command queue. -/
def queueStall (h : Ctx) : Bool × Bool :=
  match fetchWord h h.regs.pc.toNat with
  | none => (false, false)
  | some w =>
    let m := (fMaj w).toNat
    ((decide (m = 0x26) || decide (m = 0x2F)) && queueFull h, decide (m = 0x2E) && decide (Config.queueLen ≤ h.eng.bq.length))

/-- R178: an entry, and the entries of its hart that it waits for before it can start or, with length 0, complete. -/
def withEarlier (h : Ctx) (e : Entry) : List Entry :=
  e :: if e.len = 0 then earlier h e.eid else if e.started then [] else (earlier h e.eid).filter fun x => !x.started

/-- R329, R330: an entry, or one that it waits for, has a parked request. -/
def entryParked (s : State) (h : Ctx) (e : Entry) : Bool := (withEarlier h e).any fun x => isParked s (.entry x.eid)

/-- R179, R182, R183: the completion of an entry of context `x` bumps counter n of context `m`. -/
def bumpsCounter (s : State) (x : Nat) (e : Entry) (m n : Nat) : Bool :=
  (e.lce && decide (x = m) && decide (e.lcnt = n)) || (e.rce && decide (e.rcnt = n) && match e.kind with
    | .getd => (List.range (bits e.dpat 56 3 + 1)).any fun j => decide (memberOn s x (bits e.dpat (4 * j) 4) = some m)
    | .putm => e.dests.any fun d => !d.done && decide (memberOn s x d.core = some m)
    | _ => bumpsFar e && e.far.getLsbD 63 && (match senderCheck s (s.ctx x) e.far false false with
      | .ok q none => decide (s.residentOn (q * 8 + bits e.far 0 21 / 0x8000) = some m)
      | _ => false))

/-- R56: an entry of context `x` fills the word at a local address of context `m`. -/
def fillsWord (s : State) (x : Nat) (e : Entry) (m ea : Nat) : Bool :=
  let g := (s.ctx x).gcn
  let g' := (s.ctx m).gcn
  match e.kind with
  | .get | .metaGet => decide (pcnOf g = pcnOf g') && spansMeet (localOfs g e.loc.toNat, e.len / farPer e.kind) (localOfs g' ea, 8)
  | .getd => (dealRuns e.len e.dpat 0 e.len).any fun r => decide (memberOn s x r.1 = some m) && spansMeet (r.2.1, r.2.2) (ea, 8)
  | _ => false

/-- R329: the put/get entries and memory-side adds that what a hart waits for needs, of whatever context: context and entry. -/
def awaitedEntries (s : State) (m : Nat) : List (Nat × Entry) :=
  let h := s.ctx m
  let own (f : Entry → Bool) : List (Nat × Entry) := ((h.eng.q ++ h.eng.madds).filter f).map fun e => (m, e)
  let all (f : Nat → Entry → Bool) : List (Nat × Entry) :=
    s.ctxs.flatMap fun p => (p.2.eng.q.filter (f p.1)).map fun e => (p.1, e)
  match h.wait with
  | .none | .acks => if (queueStall h).1 then own fun e => !e.accepted else []
  | .cwait n _ => all fun x e => bumpsCounter s x e m n
  | .lds _ ea _ _ => all fun x e => fillsWord s x e m ea
  | .rwf _ k _ => all fun x e => decide (e.kind = .putm) &&
      e.dests.any fun d => !d.done && decide (d.ring = k) && decide (memberOn s x d.core = some m)
  | .bkfence => own isVirtual
  | .mfence => own fun e => decide (e.kind = .madd)
  | _ => []

/-- R329: the banks whose commands what a hart waits for needs. -/
def awaitedBanks (s : State) (m : Nat) : List Nat :=
  let h := s.ctx m
  let bumps (n x : Nat) (k : BCmd) : Bool :=
    (decide (x = m) && ((k.ce && decide (k.cnt = n)) || (match k.kind with | .run _ => true | _ => false))) ||
      (k.rce && decide (k.rcnt = n) && (match k.kind with
        | .copy _ db _ _ => decide (memberOn s x (coreOf db) = some m)
        | _ => false))
  match h.wait with
  | .none => if (queueStall h).2 then [h.gcn] else []
  | .cwait n _ => (s.ctxs.filter fun p => p.2.eng.bq.any (bumps n p.1)).map (·.2.gcn)
  | .bkfence | .bkmeta => if h.eng.bq.isEmpty then [] else [h.gcn]
  | _ => []

/-- R330: a bank has a parked request of its overlay, or its owner one of the command that it executes. -/
def bankParked (s : State) (g : Nat) : Bool :=
  isParked s (.bau g) || s.ctxs.any fun p => decide (p.2.gcn = g) && isParked s (.bank p.1)

/-- R329, R330: a hart waits on a request that is parked: of its instruction fetch, of the records of its TSPAWN, of an entry, of a
bank command. -/
def waitsParked (s : State) (m : Nat) : Bool :=
  let h := s.ctx m
  (match h.wait with | .tspawn .. => isParked s (.spawn m) | _ => false) ||
  (decide (h.wait = .none ∨ h.wait = .acks) && (fetchWord h h.regs.pc.toNat).isNone && isParked s (.fetch m)) ||
    (awaitedEntries s m).any (fun x => entryParked s (s.ctx x.1) x.2) || (awaitedBanks s m).any (bankParked s)

/-- R329, R379: whether the cluster of a member runs below its requested clock or is throttled, or the member waits on a
parked request. -/
def throttled (s : State) (k : Task) : Bool :=
  k.members.any fun m =>
    let pw := (s.cluster (pcnOf (s.ctx m).gcn)).power
    decide (pw.req < pw.point) || pw.throttled || waitsParked s m

end Sys2Proof.Machine
end

