-- ==== Sys2Proof/Machine/Task.lean ====
section
/-!
DEFINITION. Task instructions (R190 to R194) and the events that end their stalls.
-/

namespace Sys2Proof.Machine

/-- R250: a posted array trap is taken at the current instruction, which does not execute. -/
def takePosted (c : Nat) (s : State) : State :=
  match (s.ctx c).eng.posted with
  | none => s
  | some (code, v) => trapHere c code v (modEng c (fun e => { e with posted := none }) s)

/-- R191: TSPAWN sends its request to the dispatcher and stalls; an array that is not acceptable enqueues nothing. It is a
release at PACKAGE scope (R194). -/
def execTspawn (d a b : R5) (s : State) : Host.Outcome State Fault Refusal :=
  .next (coreOnly s fun c _ => outside c (fun h s =>
    let base := getG h.regs a
    let n := (getG h.regs b).toNat
    if pendingIn h 3 false then setWait c .acks s
    else if base.toNat % 128 ≠ 0 ∨ bits base 57 7 ≠ 0 ∨ n = 0 ∨ 65535 < n ∨ 2 ^ 57 < base.toNat + 128 * n then finishG c d 0 s
    else setWait c (.tspawn s.nextId d)
      (send { id := s.nextId, cid := c, part := h.part, addr := base, pcn := pcnOf h.gcn, ofs := 0, body := .tspawn base n h.csr.asid }
        (cover c 3 s))) s)

/-- R191: the dispatcher takes records in order while the owner's quota lasts; the answer is how many it took. -/
def spawnRecords : Nat → Nat → Nat → Nat → BitVec 16 → Nat → State → Nat × State
  | 0, _, _, k, _, _, s => (k, s)
  | fuel + 1, v, l, k, asid, va, s =>
    match takeRecord v l asid va s with
    | (true, s) => spawnRecords fuel v l (k + 1) asid (va + 128) s
    | (false, s) => (k, s)

/-- R191, R317: how many records of a request the dispatcher takes for a context: none for a context without a task, and
none while the owner's QSLOT or DEPQ is 0. -/
def spawnFor (c : Nat) (base : W64) (n : Nat) (asid : BitVec 16) (s : State) : Nat × State :=
  match (s.ctx c).task with
  | none => (0, s)
  | some t =>
    let l := (s.task t).launch
    let o := s.owner (s.launch l).vf
    if vfQslot o = 0 ∨ vfDepq o = 0 then (0, s) else spawnRecords n (s.launch l).vf l 0 asid base.toNat s

/-- R191: the dispatcher takes the records of a hart's request on the fabric and acknowledges with the count enqueued; a
saved hart gets it in its saved register (R336), a halted core keeps its state (R129). -/
def execTspawnAck (c : Nat) (s : State) : Host.Outcome State Fault Refusal :=
  .next (
    match (s.ctx c).wait with
    | .tspawn id d =>
      match ((packet s id).map (·.body) : Option Body) with
      | some (.tspawn base n asid) =>
        gate (.spawn c) (fun s =>
          let r := spawnFor c base n asid s
          let s := unsend id r.2
          if (s.ctx c).halted then s else finishG c d (w64 r.1) s) s
      | _ => s
    | _ => s)

/-- R17, R191, R250: TEXIT ends the member once its array queue is empty; the last one releases the gang's cores. -/
def execTexit (a : R5) (s : State) : Host.Outcome State Fault Refusal :=
  .next (coreOnly s fun c _ => outside c (fun h s =>
    if h.eng.posted.isSome then takePosted c s
    else if !h.eng.aq.isEmpty then s
    else
      let s := modCtx c (fun h => { h with
        exited := some ((getG h.regs a).truncate 32)
        armed := none
        csr := { h.csr with retired := h.csr.retired + 1 } }) s
      match h.task with
      | some t => exitGang t s
      | none => s) s)

/-- R192: the value that TARG's selector picks. -/
def targValue (s : State) (h : Ctx) (sel : Nat) : W64 :=
  let k := match h.task with | some t => s.task t | none => {}
  let cores := match h.task with
    | some t => (s.task t).members.map fun m => coreOf (s.ctx m).gcn
    | none => [coreOf h.gcn]
  if sel = 0 then k.arg
  else if sel = 1 then w64 h.member
  else if sel = 2 then w64 cores.length
  else if sel = 3 then gangMap h.vcn cores
  else if sel = 4 then k.tag else 0

/-- R192. -/
def execTarg (d a : R5) (s : State) : Host.Outcome State Fault Refusal :=
  .next (coreOnly s fun c _ => outside c (fun h s => finishG c d (targValue s h (bits (getG h.regs a) 0 3)) s) s)

/-- R193: TYIELD stalls for a number of core cycles. -/
def execTyield (a : R5) (s : State) : Host.Outcome State Fault Refusal :=
  .next (coreOnly s fun c _ => outside c (fun h s =>
    let n := min (getG h.regs a).toNat 65535
    if n = 0 then retire c s else setWait c (.tyield (h.csr.cycle.toNat + n)) s) s)

/-- R193: the delay has passed. -/
def execTyieldEnd (c : Nat) (s : State) : Host.Outcome State Fault Refusal :=
  .next (
    let h := s.ctx c
    match h.wait with
    | .tyield u => if canMove s h && decide (u ≤ h.csr.cycle.toNat) then retire c s else s
    | _ => s)

end Sys2Proof.Machine
end

