-- ==== Sys2Proof/Machine/Array.lean ====
section
/-!
DEFINITION. The associative array (R237 to R279): issue of array instructions, and the events by which queued ones
execute.
-/

namespace Sys2Proof.Machine

/-! ### Fields, rows and tags -/

/-- Reason codes of ARRAY_SHAPE (R249), with the register concerned: the trap's code and TVALUE. -/
def shapeTrap (reason reg : Nat) : Option (Nat × W64) := some (0x19, w64 (reason + reg * 256))

/-- R239: START, width and FMT of a field register. -/
def fStart (f : FieldReg) : Nat := bits f.word 0 7
def fWidth (f : FieldReg) : Nat := bits f.word 8 7 + 1
def fFmt (f : FieldReg) : Nat := bits f.word 16 4
/-- R239: T, TK and TN of a field register. -/
def fTile (f : FieldReg) : Bool := f.word.getLsbD 47
def fTk (f : FieldReg) : Nat := bits f.word 32 6
def fTn (f : FieldReg) : Nat := bits f.word 40 7

/-- Field register v and shape record s. -/
def vReg (r : ArrayRegs) (n : Nat) : FieldReg := tget r.v n {}
def sReg (r : ArrayRegs) (n : Nat) : Shape := tget r.s n {}

/-- R240: the element of a field in a row. -/
def elemOf (k : Core) (f : FieldReg) (r : Nat) : Nat := bits (tget k.rows r 0) (fStart f) (fWidth f)
/-- R240: write the element of a field in a row. -/
def setElem (f : FieldReg) (r x : Nat) (k : Core) : Core :=
  let m : BitVec 128 := BitVec.ofNat 128 (2 ^ fWidth f - 1)
  let row := tget k.rows r 0
  { k with rows := tset 0 k.rows r ((row &&& ~~~(m <<< fStart f)) ||| ((BitVec.ofNat 128 x &&& m) <<< fStart f)) }

/-- Tag t of all rows. -/
def tagOf (k : Core) (t : Nat) : BitVec 2048 := tget k.tags t 0
def setTags (t : Nat) (x : BitVec 2048) (k : Core) : Core := { k with tags := tset 0 k.tags t x }
/-- Tag t of row r replaced. -/
def setTag (t r : Nat) (b : Bool) (k : Core) : Core :=
  setTags t (if b then tagOf k t ||| (1#2048 <<< r) else tagOf k t &&& ~~~(1#2048 <<< r)) k
/-- R238: the active rows. -/
def activeRows (k : Core) : List Nat := (List.range 2048).filter fun r => (tagOf k 0).getLsbD r
/-- Rows updated one after the other; every row reads only its own columns and tags. -/
def onRows (rows : List Nat) (f : Nat → Core → Core) (k : Core) : Core := rows.foldl (fun k r => f r k) k

/-! ### Issue (R246, R249) -/

/-- R246: the values captured at issue; `f` names the f register of a scale. -/
def arrayEntry (h : Ctx) (i : Instr) (a b f : R5) : AEntry :=
  { instr := i, pc := h.regs.pc, ga := getG h.regs a, gb := getG h.regs b
    sigma := (scaleOf (getF h.regs f).bits).getD 0
    regs := h.eng.arr, pw := h.csr.pw, priv := h.priv }

/-- R276: the codebook that an AXLDF or AXLDG copies at its issue is still to be written by the hart's own earlier accesses,
or by covered ones (R204, R248). -/
def issueBusy (s : State) (c : Nat) (i : Instr) : Bool :=
  let h := s.ctx c
  match i with
  | .axldf v a _ _ | .axldg v a _ _ => decide (fFmt (vReg h.eng.arr v.toNat) = 0xE) && localBusy s c (getG h.regs a).toNat 32
  | _ => false

/-- R246, R249: issue of a queued array instruction: illegal forms, the checks of its entry, a stall while the queue is
full, its effect on engine registers at issue, its place in the queue. -/
def axIssue (i : Instr) (a b f : R5) (chk : State → Ctx → Option (Nat × W64)) (upd : State → Ctx → ArrayRegs → ArrayRegs)
    (s : State) : State :=
  coreOnly s fun c _ =>
    if i.illFormed.isSome then illegal c i s
    else outside c (fun h s =>
      match chk s h with
      | some t => trapHere c t.1 t.2 s
      | none =>
        if Config.queueLen ≤ h.eng.aq.length ∨ issueBusy s c i then s
        else
          let s := modEng c (fun e => { e with arr := upd s h e.arr }) s
          retire c (modEng c (fun e => { e with aq := e.aq ++ [arrayEntry (s.ctx c) i a b f] }) s)) s

/-- An array instruction without checks of its own. -/
def axPlain (i : Instr) (a b : R5) (s : State) : State := axIssue i a b 0 (fun _ _ => none) (fun _ _ r => r) s

/-- An instruction that acts on the engine registers at issue and does not enter the queue (R246); `also` is what it does
besides to its core. -/
def axNow (i : Instr) (chk : Ctx → Option (Nat × W64)) (upd : Ctx → ArrayRegs → ArrayRegs)
    (also : Nat → State → State) (s : State) : State :=
  coreOnly s fun c _ =>
    if i.illFormed.isSome then illegal c i s
    else outside c (fun h s =>
      match chk h with
      | some t => trapHere c t.1 t.2 s
      | none => retire c (also c (modEng c (fun e => { e with arr := upd h e.arr }) s))) s

/-- R34: a reserved format code. -/
def fmtReserved (n : Nat) : Bool := decide (n = 7) || decide (n = 15)

/-- R261: the word of a field register from g[a]. -/
def setvWord (x : W64) : W64 := x &&& 0xF7F7F

/-- R261. -/
def execAxsetv (v a : R5) (s : State) : Host.Outcome State Fault Refusal :=
  .next (coreOnly s fun c h =>
    if fmtReserved (bits (getG h.regs a) 16 4) then illegal c (.axsetv v a) s
    else axNow (.axsetv v a) (fun h =>
      let x := getG h.regs a
      if bits x 20 44 ≠ 0 ∨ x.getLsbD 15 ∨ x.getLsbD 7 ∨ 127 < bits x 0 7 + bits x 8 7 then shapeTrap 3 a.toNat else none)
      (fun h r => { r with v := tset {} r.v v.toNat { word := setvWord (getG h.regs a) } }) (fun _ s => s) s)

/-- R254: AFMT, BFMT, CFMT of a pair. -/
def pairs : List (Nat × Nat × Nat) :=
  [(0x8, 0x8, 0x8), (0x9, 0x9, 0x9), (0xA, 0xA, 0x9), (0xB, 0xB, 0x9), (0xC, 0xC, 0x9), (0xC, 0xD, 0x9), (0xD, 0xC, 0x9),
    (0xD, 0xD, 0x9), (0x0, 0x0, 0x9), (0x4, 0x4, 0x9), (0x0, 0x4, 0x9), (0x1, 0x1, 0x9), (0xA, 0xE, 0x9), (0xB, 0xE, 0x9),
    (0xC, 0xE, 0x9), (0xD, 0xE, 0x9)]

/-- R253: fields of a shape record. -/
def shM (s : Shape) : Nat := bits s.w0 0 16
def shN (s : Shape) : Nat := bits s.w0 16 7
def shK (s : Shape) : Nat := bits s.w0 24 10
def shA (s : Shape) : Nat := bits s.w0 40 4
def shB (s : Shape) : Nat := bits s.w0 44 4
def shC (s : Shape) : Nat := bits s.w0 48 4
def shBase (s : Shape) : Nat := bits s.w0 52 4
def shKb (s : Shape) : Nat := bits s.w0 56 5
def shG (s : Shape) : Bool := s.w0.getLsbD 61
def shBank (s : Shape) : Nat := bits s.w0 62 1
def shAcc (s : Shape) : Bool := s.w0.getLsbD 63
def shAk (s : Shape) : Nat := bits s.w1 0 3
def shCk (s : Shape) : Nat := bits s.w1 4 3

/-- R262: word 0 fails a check. -/
def shapeBad0 (x : Shape) : Bool :=
  decide (bits x.w0 34 6 ≠ 0) || x.w0.getLsbD 23 || decide (shM x = 0) || decide (shN x = 0) || decide (64 < shN x) ||
    decide (shK x = 0) || decide (512 < shK x) || decide (shKb x ≠ (shK x + 31) / 32) || decide (16 < shBase x + shKb x) ||
    !pairs.contains (shA x, shB x, shC x)
/-- R262: word 1 fails a check. -/
def shapeBad1 (x : Shape) : Bool := decide (x.w1 &&& ~~~0x77#64 ≠ 0) || decide (shAk x = shCk x)

/-- R262. Where both words fail, the trap names the register of word 1, and for AK = CK that of word 1 too (DESIGN CHOICE,
log entry 62: R249 names a register, R262 gives no order). -/
def execAxsets (d a b : R5) (s : State) : Host.Outcome State Fault Refusal :=
  .next (coreOnly s fun c h =>
    let sh : Shape := { w0 := getG h.regs a, w1 := getG h.regs b }
    if fmtReserved (shA sh) || fmtReserved (shB sh) || fmtReserved (shC sh) then illegal c (.axsets d a b) s
    else axNow (.axsets d a b) (fun h =>
      let sh : Shape := { w0 := getG h.regs a, w1 := getG h.regs b }
      if shapeBad1 sh then shapeTrap 3 b.toNat else if shapeBad0 sh then shapeTrap 3 a.toNat else none)
      (fun h r => { r with s := tset {} r.s d.toNat { w0 := getG h.regs a, w1 := getG h.regs b } }) (fun _ s => s) s)

/-- R263. -/
def execAxget (d a : R5) (s : State) : Host.Outcome State Fault Refusal := .next (axPlain (.axget d a) a 0 s)

/-- R264: the selectors of a user pass are invalid. -/
def passBad (p : W64) : Bool :=
  let ic (lo : Nat) : Bool := decide (0x84 ≤ bits p lo 8) && decide (bits p lo 8 ≤ 0xFE)
  let oc (lo : Nat) : Bool := decide (0x80 ≤ bits p lo 8) && decide (bits p lo 8 ≤ 0xFE)
  decide (bits p 56 8 ≠ 0) || ic 0 || ic 8 || ic 16 || ic 24 || oc 32 || oc 40 ||
    !((decide (0x80 ≤ bits p 48 8) && decide (bits p 48 8 ≤ 0x83)) || decide (bits p 48 8 = 0xFF)) ||
    (decide (bits p 32 8 = bits p 40 8) && decide (bits p 32 8 ≠ 0xFF))

/-- R264. -/
def execAxtt (a b : R5) (s : State) : Host.Outcome State Fault Refusal :=
  .next (axNow (.axtt a b) (fun h => if passBad (getG h.regs b) then shapeTrap 3 b.toNat else none)
    (fun h r => { r with ptab := getG h.regs a, psel := getG h.regs b }) (fun _ s => s) s)

/-! ### Elementwise operations (R265 to R267) -/

/-- R267 check 2: the destination field shares a column with a source field without being identical to it. -/
def partOverlap (d a : FieldReg) : Bool :=
  decide (fStart a < fStart d + fWidth d) && decide (fStart d < fStart a + fWidth a) &&
    !(decide (fStart a = fStart d) && decide (fWidth a = fWidth d))

/-- R267: `ws` gives the width asked of each field named, in the order in which they are tested; `src` the sources. Of several
fields that fail, the trap names the first: the destination before the sources of a format form, the source of a CVT before
its destination, and of a width-only form the source (DESIGN CHOICE, log entry 63). -/
def axeCheck (ws : List (R5 × Nat)) (d : Option R5) (src : List R5) (h : Ctx) : Option (Nat × W64) :=
  let v (n : R5) : FieldReg := vReg h.eng.arr n.toNat
  match ws.find? fun p => fWidth (v p.1) ≠ p.2 with
  | some p => shapeTrap 1 p.1.toNat
  | none =>
    match d with
    | none => none
    | some d => if src.any fun a => partOverlap (v d) (v a) then shapeTrap 2 d.toNat else none

/-- Issue of a format form with a destination field. -/
def axeFmt (i : Instr) (d a b f : R5) (s : State) : State :=
  let n := fmtWidth f.toNat
  axIssue i 0 0 0 (fun _ h => axeCheck [(d, n), (a, n), (b, n)] (some d) [a, b] h) (fun _ _ r => r) s

/-- Issue of a compare form. -/
def axeCmp (i : Instr) (a b f : R5) (s : State) : State :=
  let n := fmtWidth f.toNat
  axIssue i 0 0 0 (fun _ h => axeCheck [(a, n), (b, n)] none [] h) (fun _ _ r => r) s

/-- Issue of a width-only form. -/
def axeWidth (i : Instr) (d : R5) (src : List R5) (s : State) : State :=
  axIssue i 0 0 0 (fun _ h => axeCheck (src.map fun a => (a, fWidth (vReg h.eng.arr d.toNat))) (some d) src h)
    (fun _ _ r => r) s

/-- R265. -/
def execAxeAdd (d a b f : R5) (s : State) : Host.Outcome State Fault Refusal := .next (axeFmt (.axeAdd d a b f) d a b f s)
/-- R265. -/
def execAxeSub (d a b f : R5) (s : State) : Host.Outcome State Fault Refusal := .next (axeFmt (.axeSub d a b f) d a b f s)
/-- R265. -/
def execAxeAddSat (d a b f : R5) (s : State) : Host.Outcome State Fault Refusal := .next (axeFmt (.axeAddSat d a b f) d a b f s)
/-- R265. -/
def execAxeSubSat (d a b f : R5) (s : State) : Host.Outcome State Fault Refusal := .next (axeFmt (.axeSubSat d a b f) d a b f s)
/-- R265. -/
def execAxeMin (d a b f : R5) (s : State) : Host.Outcome State Fault Refusal := .next (axeFmt (.axeMin d a b f) d a b f s)
/-- R265. -/
def execAxeMax (d a b f : R5) (s : State) : Host.Outcome State Fault Refusal := .next (axeFmt (.axeMax d a b f) d a b f s)
/-- R265. -/
def execAxeMul (d a b f : R5) (s : State) : Host.Outcome State Fault Refusal := .next (axeFmt (.axeMul d a b f) d a b f s)
/-- R265: the one format is F32. -/
def execAxeFma (d a b : R5) (s : State) : Host.Outcome State Fault Refusal := .next (axeFmt (.axeFma d a b) d a b 9 s)
/-- R265. -/
def execAxeCmpeq (d a b f : R5) (s : State) : Host.Outcome State Fault Refusal := .next (axeCmp (.axeCmpeq d a b f) a b f s)
/-- R265. -/
def execAxeCmplt (d a b f : R5) (s : State) : Host.Outcome State Fault Refusal := .next (axeCmp (.axeCmplt d a b f) a b f s)
/-- R265, R267: the source has the width of its own FMT; a CB4 source does not suit (R38). -/
def execAxeCvt (d a f : R5) (s : State) : Host.Outcome State Fault Refusal :=
  .next (axIssue (.axeCvt d a f) 0 0 0 (fun _ h =>
    let va := vReg h.eng.arr a.toNat
    if fFmt va = 0xE then shapeTrap 1 a.toNat
    else axeCheck [(a, fmtWidth (fFmt va)), (d, fmtWidth f.toNat)] (some d) [a] h) (fun _ _ r => r) s)
/-- R265. -/
def execAxeAnd (d a b : R5) (s : State) : Host.Outcome State Fault Refusal := .next (axeWidth (.axeAnd d a b) d [a, b] s)
/-- R265. -/
def execAxeOr (d a b : R5) (s : State) : Host.Outcome State Fault Refusal := .next (axeWidth (.axeOr d a b) d [a, b] s)
/-- R265. -/
def execAxeXor (d a b : R5) (s : State) : Host.Outcome State Fault Refusal := .next (axeWidth (.axeXor d a b) d [a, b] s)
/-- R265. -/
def execAxeNot (d a : R5) (s : State) : Host.Outcome State Fault Refusal := .next (axeWidth (.axeNot d a) d [a] s)
/-- R265. -/
def execAxeMov (d a : R5) (s : State) : Host.Outcome State Fault Refusal := .next (axeWidth (.axeMov d a) d [a] s)
/-- R265. -/
def execAxeSel (d a b : R5) (s : State) : Host.Outcome State Fault Refusal := .next (axeWidth (.axeSel d a b) d [a, b] s)
/-- R265. -/
def execAxeShl (d a n : R5) (s : State) : Host.Outcome State Fault Refusal := .next (axeWidth (.axeShl d a n) d [a] s)
/-- R265. -/
def execAxeShr (d a n : R5) (s : State) : Host.Outcome State Fault Refusal := .next (axeWidth (.axeShr d a n) d [a] s)
/-- R265. -/
def execAxeSra (d a n : R5) (s : State) : Host.Outcome State Fault Refusal := .next (axeWidth (.axeSra d a n) d [a] s)

/-- R45, R266: a floating operand of the array, flushed. -/
def aVal (f x : Nat) : FVal := flushIn (fmtOf f) (fdec (fmtOf f) x)
/-- R266: an integer result wraps, a floating one is rounded to nearest even and flushed. -/
def axeArithOf (f : Nat) (int : Int → Int → Int) (fp : Fmt → FVal → FVal → Nat × Nat) (x y : Nat) : Nat :=
  if isInt f then wrapTo (fmtWidth f) (int (intVal f x) (intVal f y)) else (fp (fmtOf f) (aVal f x) (aVal f y)).1
/-- R266: equality (0), order (1) of two elements. -/
def axeLess (f : Nat) (lt : Bool) (x y : Nat) : Bool :=
  if isInt f then (if lt then decide (intVal f x < intVal f y) else decide (intVal f x = intVal f y))
  else decide (fcmp (aVal f x) (aVal f y) = if lt then 0 else 1)

/-- What an elementwise operation writes in a row. -/
inductive AxeOut where
  | field (v : R5) (x : Nat)
  | tag (t : R5) (b : Bool)
  deriving DecidableEq, Repr

/-- R265, R266: the operations: `x` gives a field's element in the row, `n` its width, `fa` its FMT, `t1` the row's tag
t1. -/
def axeOut (i : Instr) (x n fa : R5 → Nat) (t1 : Bool) : Option AxeOut :=
  match i with
  | .axeAdd d a b f => some (.field d (axeArithOf f.toNat (· + ·) (fun m u v => faddV m 1 true u v) (x a) (x b)))
  | .axeSub d a b f => some (.field d (axeArithOf f.toNat (· - ·) (fun m u v => faddV m 1 true u v.neg) (x a) (x b)))
  | .axeAddSat d a b f =>
    some (.field d (wrapTo (fmtWidth f.toNat) (clampTo f.toNat (intVal f.toNat (x a) + intVal f.toNat (x b)))))
  | .axeSubSat d a b f =>
    some (.field d (wrapTo (fmtWidth f.toNat) (clampTo f.toNat (intVal f.toNat (x a) - intVal f.toNat (x b)))))
  | .axeMin d a b f => some (.field d (if axeLess f.toNat true (x b) (x a) then x b else x a))
  | .axeMax d a b f => some (.field d (if axeLess f.toNat true (x a) (x b) then x b else x a))
  | .axeMul d a b f => some (.field d (axeArithOf f.toNat (· * ·) (fun m u v => fmulV m 1 true u v) (x a) (x b)))
  | .axeFma d a b => some (.field d (fmaV (fmtOf 9) 1 true (aVal 9 (x a)) (aVal 9 (x b)) (aVal 9 (x d))).1)
  | .axeCmpeq d a b f => some (.tag d (axeLess f.toNat false (x a) (x b)))
  | .axeCmplt d a b f => some (.tag d (axeLess f.toNat true (x a) (x b)))
  | .axeCvt d a f => some (.field d (convert (fa a) f.toNat 1 true (x a)).1)
  | .axeAnd d a b => some (.field d (x a &&& x b))
  | .axeOr d a b => some (.field d (x a ||| x b))
  | .axeXor d a b => some (.field d (x a ^^^ x b))
  | .axeNot d a => some (.field d (2 ^ n d - 1 - x a))
  | .axeMov d a => some (.field d (x a))
  | .axeSel d a b => some (.field d (if t1 then x a else x b))
  | .axeShl d a k => some (.field d (x a * 2 ^ k.toNat))
  | .axeShr d a k => some (.field d (x a / 2 ^ k.toNat))
  | .axeSra d a k =>
    some (.field d (wrapTo (n d) ((if 2 ^ (n a - 1) ≤ x a then (x a : Int) - 2 ^ n a else x a) / 2 ^ k.toNat)))
  | _ => none

/-- R266: an elementwise instruction on one row. -/
def axeRow (e : AEntry) (r : Nat) (k : Core) : Core :=
  let v (n : R5) : FieldReg := vReg e.regs n.toNat
  match axeOut e.instr (fun n => elemOf k (v n) r) (fun n => fWidth (v n)) (fun n => fFmt (v n)) ((tagOf k 1).getLsbD r) with
  | some (.field d x) => setElem (v d) r x k
  | some (.tag t b) => setTag t.toNat r b k
  | none => k

/-! ### Matrix products, issue (R268, R269) -/

/-- Bytes of an element (R254). -/
def fmtBytes (f : Nat) : Nat := fmtWidth f / 8

/-- R269: the checks of AXMM and AXGANG, in order. Where several registers fail one check the trap names the first tested:
the field of the lowest block, ring AK before CK, VALID and FEED before SLOTB (DESIGN CHOICE, log entry 91). Where the scale's register holds
no F64 value (K = 1, R40), TVALUE of ARRAY_SCALE is its 64 bits as they stand (DESIGN CHOICE, log entry 112). -/
def mmCheck (sn f : R5) (p : Nat) (g : Bool) (h : Ctx) : Option (Nat × W64) :=
  let sh := sReg h.eng.arr sn.toNat
  let ra := getRing h (shAk sh)
  let rc := getRing h (shCk sh)
  let blocks := List.range (shKb sh)
  let v (b : Nat) : FieldReg := vReg h.eng.arr (shBase sh + b)
  let tk (b : Nat) : Nat := if b + 1 < shKb sh then 32 else shK sh - 32 * (shKb sh - 1)
  if shapeBad0 sh || shapeBad1 sh then shapeTrap 3 sn.toNat
  else if pairs[p]? ≠ some (shA sh, shB sh, shC sh) ∨ shG sh ≠ g then shapeTrap 4 sn.toNat
  else if !ra.valid then shapeTrap 5 (shAk sh)
  else if !rc.valid || rc.feed then shapeTrap 5 (shCk sh)
  else if ra.slotb < shK sh * fmtBytes (shA sh) then shapeTrap 5 (shAk sh)
  else if rc.slotb < shN sh * fmtBytes (shC sh) then shapeTrap 5 (shCk sh)
  else match blocks.find? fun b => fFmt (v b) ≠ shB sh ∨ fWidth (v b) ≠ fmtWidth (shB sh) with
    | some b => shapeTrap 1 (shBase sh + b)
    | none =>
      match blocks.find? fun b => !fTile (v b) ∨ fTn (v b) ≠ shN sh ∨ fTk (v b) ≠ tk b with
      | some b => shapeTrap 6 (shBase sh + b)
      | none => if (scaleOf (getF h.regs f).bits).isNone then some (0x18, (getF h.regs f).bits) else none

/-- R268, R269. -/
def execAxmm (sn f p : R5) (s : State) : Host.Outcome State Fault Refusal :=
  .next (axIssue (.axmm sn f p) 0 0 f (fun _ h => mmCheck sn f p.toNat false h) (fun _ _ r => r) s)
/-- R268, R269. -/
def execAxgang (sn f p : R5) (s : State) : Host.Outcome State Fault Refusal :=
  .next (axIssue (.axgang sn f p) 0 0 f (fun _ h => mmCheck sn f p.toNat true h) (fun _ _ r => r) s)

/-! ### Search, reductions, tags and moves, issue -/

/-- R270. -/
def execAxmatch (t a b v : R5) (s : State) : Host.Outcome State Fault Refusal := .next (axPlain (.axmatch t a b v) a b s)
/-- R271. -/
def execAxfirst (d t : R5) (s : State) : Host.Outcome State Fault Refusal := .next (axPlain (.axfirst d t) 0 0 s)
/-- R271. -/
def execAxcount (d t : R5) (s : State) : Host.Outcome State Fault Refusal := .next (axPlain (.axcount d t) 0 0 s)

/-- R272, R273: the field has the width of the format. -/
def widthCheck (v f : R5) (h : Ctx) : Option (Nat × W64) :=
  if fWidth (vReg h.eng.arr v.toNat) ≠ fmtWidth f.toNat then shapeTrap 1 v.toNat else none

/-- R272. -/
def execAxmin (d v t f : R5) (s : State) : Host.Outcome State Fault Refusal :=
  .next (axIssue (.axmin d v t f) 0 0 0 (fun _ h => widthCheck v f h) (fun _ _ r => r) s)
/-- R272. -/
def execAxmax (d v t f : R5) (s : State) : Host.Outcome State Fault Refusal :=
  .next (axIssue (.axmax d v t f) 0 0 0 (fun _ h => widthCheck v f h) (fun _ _ r => r) s)
/-- R273. -/
def execAxsum (d v b f : R5) (s : State) : Host.Outcome State Fault Refusal :=
  .next (axIssue (.axsum d v b f) 0 0 0 (fun _ h => widthCheck v f h) (fun _ _ r => r) s)
/-- R274. -/
def execAxtag (t a o : R5) (s : State) : Host.Outcome State Fault Refusal :=
  .next (axIssue (.axtag t a o) a 0 0 (fun _ h =>
    if o = 8 ∧ 2048 < bits (getG h.regs a) 32 12 then shapeTrap 3 a.toNat else none) (fun _ _ r => r) s)

/-- R275: the checks of AXLD and AXST at issue. -/
def axldCheck (v a b : R5) (h : Ctx) : Option (Nat × W64) :=
  let w := fWidth (vReg h.eng.arr v.toNat)
  let x := getG h.regs a
  let g := getG h.regs b
  if ¬[4, 8, 16, 32, 64, 128].contains w then shapeTrap 1 v.toNat
  else if bits g 16 12 = 0 ∨ 2048 < bits g 0 11 + bits g 16 12 ∨ g &&& ~~~0x0FFF07FF#64 ≠ 0 then shapeTrap 3 b.toNat
  else if x.toNat % (if w = 128 then 8 else max 1 (w / 8)) ≠ 0 then some (4, x)
  else none

/-- R275. -/
def execAxld (v a b : R5) (s : State) : Host.Outcome State Fault Refusal :=
  .next (axIssue (.axld v a b) a b 0 (fun _ h => axldCheck v a b h) (fun _ _ r => r) s)
/-- R275. -/
def execAxst (v a b : R5) (s : State) : Host.Outcome State Fault Refusal :=
  .next (axIssue (.axst v a b) a b 0 (fun _ h => axldCheck v a b h) (fun _ _ r => r) s)

/-- R276: the checks of AXLDF and AXLDG at issue. -/
def axldfCheck (v a b f : R5) (_ : State) (h : Ctx) : Option (Nat × W64) :=
  let fv := vReg h.eng.arr v.toNat
  let x := getG h.regs a
  let g := getG h.regs b
  let cb := decide (fFmt fv = 0xE)
  if fFmt fv = 0x2 ∨ fFmt fv = 0x3 ∨ fFmt fv = 0x5 ∨ fFmt fv = 0x6 ∨ fWidth fv ≠ fmtWidth (fFmt fv) then shapeTrap 1 v.toNat
  else if bits g 0 6 = 0 ∨ 32 < bits g 0 6 ∨ bits g 8 7 = 0 ∨ 64 < bits g 8 7 ∨ g &&& ~~~0x7F3F#64 ≠ 0 then shapeTrap 3 b.toNat
  else if x.toNat % (if cb then 2 else fmtBytes (fFmt fv)) ≠ 0 then some (4, x)
  else if cb && !(inPad x.toNat 32 && protOk h.csr.pw h.priv x.toNat 32 { x := true }) then some (5, x)
  else if (scaleOf (getF h.regs f).bits).isNone then some (0x18, (getF h.regs f).bits)
  else none

/-- R276: what a field register records at issue. -/
def recordTile (v a b f : R5) (s : State) (h : Ctx) (r : ArrayRegs) : ArrayRegs :=
  let fv := vReg r v.toNat
  let g := getG h.regs b
  let l := readBytes s.mem (localKey h.gcn (getG h.regs a).toNat) 32
  let nv : FieldReg :=
    { word := (fv.word &&& 0xFFFFF) ||| w64 (2 ^ 47 + bits g 8 7 * 2 ^ 40 + bits g 0 6 * 2 ^ 32)
      sigma := (scaleOf (getF h.regs f).bits).getD 0
      codebook := if fFmt fv = 0xE then (List.range 16).map fun i => BitVec.ofNat 16 (leNat ((l.drop (2 * i)).take 2)) else [] }
  { r with v := tset {} r.v v.toNat nv }

/-- R276. -/
def execAxldf (v a b f : R5) (s : State) : Host.Outcome State Fault Refusal :=
  .next (axIssue (.axldf v a b f) a b f (axldfCheck v a b f) (recordTile v a b f) s)
/-- R260, R276. -/
def execAxldg (v a b f : R5) (s : State) : Host.Outcome State Fault Refusal :=
  .next (axIssue (.axldg v a b f) a b f (axldfCheck v a b f) (recordTile v a b f) s)

/-- R334: a resident context needs physical banks for the logical banks of a mask, more than it holds: it takes them, and
what a saved context had there is in its image. -/
def needBanks (c : Nat) (lb : BitVec 2) (s : State) : State :=
  let g := (s.ctx c).gcn
  if (banksOf (s.core g) c).length < (if lb = 3 then 2 else if lb = 0 then 0 else 1) then takeBanks g c lb s else s

/-- The mask of one logical accumulator bank. -/
def bankBit (n : Nat) : BitVec 2 := if n = 0 then 1 else 2

/-- R277, R334: LC and LB; where more banks are live than the context holds, it takes them. -/
def execAxlive (a b n : R5) (s : State) : Host.Outcome State Fault Refusal :=
  .next (axNow (.axlive a b n) (fun _ => none)
    (fun h r => { r with lc := getG h.regs b ++ getG h.regs a, lb := n.truncate 2 })
    (fun c => needBanks c (n.truncate 2)) s)

/-- R250, R278: AXWAIT takes a posted trap, or waits for the queue. -/
def execAxwait (a : R5) (s : State) : Host.Outcome State Fault Refusal :=
  .next (coreOnly s fun c _ => outside c (fun h s =>
    let n := getG h.regs a
    if h.eng.posted.isSome then takePosted c s
    else if n.toNat < h.eng.aq.length then setWait c (.axwait n) s else retire c s) s)

/-- R278: the queue count has fallen to the operand. -/
def execAxwaitEnd (c : Nat) (s : State) : Host.Outcome State Fault Refusal :=
  .next (
    let h := s.ctx c
    match h.wait with
    | .axwait n => if mayWake s h && decide (h.eng.aq.length ≤ n.toNat) then retire c s else s
    | _ => s)

/-- R279. -/
def execAxpass (a : R5) (s : State) : Host.Outcome State Fault Refusal := .next (axPlain (.axpass a) a 0 s)

/-! ### Execution of queued instructions (R246 to R251) -/

/-- R247: an array result reaches g[d]; it precedes the open chunk, so a squash keeps it. -/
def putArrayG (c : Nat) (d : R5) (v : W64) (s : State) : State :=
  modCtx c (fun h => { h with
    regs := setG h.regs d v
    chunk := h.chunk.map fun k => { k with start := setG k.start d v } }) s

/-- R372: array-busy cycles of the owner (R245). -/
def chargePass (c n : Nat) (s : State) : State :=
  match vfOf s c with
  | some v => modOwner v (fun o => { o with upass := o.upass + w64 n }) s
  | none => s

/-- R245: frame widths of a pair, WB of CB4 taken as 16. -/
def rowCycles (sh : Shape) : Nat := shKb sh * frameWidth (shA sh) * frameWidth (shB sh)

/-- R245, R372: cycles for which a transfer of n bytes occupies the array. -/
def transferCycles (n : Nat) : Nat := (n + 127) / 128

/-- R245: cycles for which an instruction occupies the array; a matrix product is counted row by row. -/
def arrayCycles (e : AEntry) : Nat :=
  let w (v : R5) : Nat := fWidth (vReg e.regs v.toNat)
  let fp (f : R5) (b h x n : Nat) : Nat :=
    if f = 0xA then b else if f = 0xB then h else if f = 0x9 then x else n
  match e.instr with
  | .axeAdd _ _ _ f | .axeSub _ _ _ f => fp f 92 110 296 (fmtWidth f.toNat)
  | .axeAddSat _ _ _ f | .axeSubSat _ _ _ f | .axeMin _ _ _ f | .axeMax _ _ _ f => 2 * fmtWidth f.toNat
  | .axeMul _ _ _ f => fp f 84 140 620 (fmtWidth f.toNat * fmtWidth f.toNat)
  | .axeFma _ _ _ => 980
  | .axeCmpeq _ _ _ f | .axeCmplt _ _ _ f => fmtWidth f.toNat + (if isInt f.toNat then 0 else 4)
  | .axeCvt _ a f => 2 * (w a + fmtWidth f.toNat)
  | .axeAnd d _ _ | .axeOr d _ _ | .axeXor d _ _ | .axeSel d _ _ | .axeNot d _ | .axeMov d _ => w d
  | .axeShl d _ _ | .axeShr d _ _ | .axeSra d _ _ => w d
  | .axmatch .. | .axtag .. | .axpass .. | .axfirst .. | .axcount .. => 1
  | .axmin _ _ _ f | .axmax _ _ _ f => fmtWidth f.toNat
  | .axsum _ _ _ f => if f = 9 then 72 else fmtWidth f.toNat
  | .axget .. => 4
  | .axld .. | .axst .. | .axldf .. | .axldg .. => match entrySpan 0 e with | some (_, n) => transferCycles n | none => 0
  | _ => 0

/-- The head of the queue completes. -/
def finishArray (c : Nat) (e : AEntry) (s : State) : State :=
  chargePass c (arrayCycles e) (modEng c (fun k => { k with aq := k.aq.tail }) s)

/-- The head of the queue with another progress. -/
def setHead (c : Nat) (f : AEntry → AEntry) (s : State) : State :=
  modEng c (fun k => { k with aq := match k.aq with | e :: r => f e :: r | [] => [] }) s

/-- The next element or row. -/
def advance (e : AEntry) : AEntry := { e with row := e.row + 1, rowDone := false }

/-- R250: a deferred fault: AFPC and AFROW, the rest of the queue is discarded, the trap is posted. -/
def arrayFault (c code : Nat) (v : W64) (pc : W64) (row : Nat) (s : State) : State :=
  modEng c (fun k => { k with afpc := pc, afrow := row, aq := [], posted := some (code, v) }) s

/-- R250, R372: a transfer stops with a fault after n bytes. -/
def transferFault (c code : Nat) (v pc : W64) (row n : Nat) (s : State) : State :=
  chargePass c (transferCycles n) (arrayFault c code v pc row s)

/-- R17, R257, R259: TVALUE of GANG_ABORT. -/
def abortValue (member row : Nat) : W64 := w64 (member * 2 ^ 32 + row)

/-- R257, R260, R276: T ← 0 in the destination field of an AXLDF or AXLDG. -/
def clearTile (c : Nat) (i : Instr) (s : State) : State :=
  match i with
  | .axldf v _ _ _ | .axldg v _ _ _ =>
    modEng c (fun k =>
      let f := vReg k.arr v.toNat
      let f' : FieldReg := { f with word := f.word &&& ~~~0x800000000000#64 }
      { k with arr := { k.arr with v := tset {} k.arr.v v.toNat f' } }) s
  | _ => s

/-- Accumulator j of a bank (R243). -/
def getAcc (k : Engines) (bank j : Nat) : BitVec 144 := tget k.acc (bank * 64 + j) 0
def setAcc (bank j : Nat) (v : Int) (k : Engines) : Engines :=
  { k with acc := tset 0 k.acc (bank * 64 + j) (BitVec.ofInt 144 v) }

/-- R263: the value that AXGET's selector picks. -/
def axgetValue (e : AEntry) (k : Engines) : W64 :=
  let sel := bits e.ga 0 8
  let acc (n : Nat) : BitVec 144 := getAcc k (bits e.ga 8 1) (n % 64)
  if sel < 0x10 then (vReg e.regs sel).word
  else if sel < 0x18 then (sReg e.regs (sel - 0x10)).w0
  else if sel < 0x20 then (sReg e.regs (sel - 0x18)).w1
  else if sel = 0x20 then e.regs.ptab
  else if sel = 0x21 then e.regs.psel
  else if sel = 0x22 then e.regs.lc.truncate 64
  else if sel = 0x23 then e.regs.lc.extractLsb' 64 64
  else if sel = 0x24 then e.regs.lb.zeroExtend 64
  else if sel = 0x25 then k.afpc
  else if sel = 0x26 then w64 k.afrow
  else if sel < 0x30 then 0
  else if sel < 0x40 then BitVec.ofInt 64 (vReg e.regs (sel - 0x30)).sigma
  else if sel < 0x80 then (acc sel).truncate 64
  else if sel < 0xC0 then (acc sel).extractLsb' 64 64
  else ((acc sel).extractLsb' 128 16).signExtend 64

/-- R241: the user pass on one row. -/
def passRow (tab p : W64) (o r : Nat) (k : Core) : Core :=
  let row := tget k.rows r 0
  let x (lo : Nat) : Nat :=
    let c := bits p lo 8
    if c = 0xFF then 0
    else if 0x80 ≤ c then bit ((tagOf k (c - 0x80)).getLsbD r)
    else bit (row.getLsbD ((c + o) % 128))
  let q := 4 * (8 * x 24 + 4 * x 16 + 2 * x 8 + x 0)
  let put (lo : Nat) (v : Bool) (y : BitVec 128) : BitVec 128 :=
    if bits p lo 8 = 0xFF then y
    else if v then y ||| (1#128 <<< ((bits p lo 8 + o) % 128)) else y &&& ~~~(1#128 <<< ((bits p lo 8 + o) % 128))
  if tab.getLsbD (q + 3) then
    let k := { k with rows := tset 0 k.rows r (put 40 (tab.getLsbD (q + 1)) (put 32 (tab.getLsbD q) row)) }
    if bits p 48 8 = 0xFF then k else setTag (bits p 48 8 - 0x80) r (tab.getLsbD (q + 2)) k
  else k

/-- R270: the key compared with an element of width w. -/
def matchKey (e : AEntry) (w : Nat) : Nat := (e.ga.toNat + e.gb.toNat * 2 ^ 64) % 2 ^ w

/-- R272: smallest or largest of a list of values. -/
def extreme (mx : Bool) (l : List Int) : Int :=
  match l with
  | [] => 0
  | x :: r => r.foldl (fun a b => if mx then max a b else min a b) x

/-- R272: AXMIN and AXMAX. -/
def axExtreme (c : Nat) (e : AEntry) (mx : Bool) (d v t : R5) (f : Nat) (s : State) : State :=
  let g := (s.ctx c).gcn
  let k := s.core g
  let rows := activeRows k
  let el (r : Nat) : Int := intVal f (elemOf k (vReg e.regs v.toNat) r)
  if rows.isEmpty then putArrayG c d 0 s
  else
    let x := extreme mx (rows.map el)
    putArrayG c d (BitVec.ofInt 64 x) (modCore g (onRows rows fun r k => setTag t.toNat r (decide (el r = x)) k) s)

/-- R273: the result and the accumulators of AXSUM over elements x in format f. -/
def axsumOf (f : Nat) (x : Nat → Nat) (active : Nat → Bool) : W64 × (Nat → Int) :=
  let file (j : Nat) : List Nat := stride (32 * j) 1 32
  if isInt f then
    let acc (j : Nat) : Int := ((file j).map fun r => if active r then intVal f (x r) else 0).sum
    (BitVec.ofInt 64 ((List.range 64).map acc).sum, acc)
  else
    let el (r : Nat) : FVal := if active r then elemVal f (x r) else .fin false 0 0
    let all := (List.range 2048).map el
    let pos := all.any fun v => v.isInf && !v.sign
    let neg := all.any fun v => v.isInf && v.sign
    let none_ (_ : Nat) : Int := 0
    if all.any FVal.isPoison then (0x7FE0005A, none_)
    else if all.any FVal.isNan || (pos && neg) then (0x7FC00000, none_)
    else if pos || neg then (w64 (infBits (fmtOf 9) neg), none_)
    else
      let fr (j : Nat) : Int × List Int := frame 9 32 0 ((file j).map el)
      let acc (j : Nat) : Int := (fr j).2.sum
      let t := sumScaled ((List.range 64).map fun j => (acc j, (fr j).1 - 31))
      (w64 (roundInt (fmtOf 9) 1 false false t.1 t.2).1, acc)

/-- R274: the new tag. -/
def axtagOf (op : Nat) (g : W64) (t : Nat → BitVec 2048) (old : BitVec 2048) : BitVec 2048 :=
  let x := t (bits g 0 2)
  let y := t (bits g 2 2)
  let row := bits g 16 11
  if op = 0 then 0
  else if op = 1 then BitVec.allOnes 2048
  else if op = 2 then x
  else if op = 3 then ~~~x
  else if op = 4 then x &&& y
  else if op = 5 then x ||| y
  else if op = 6 then x ^^^ y
  else if op = 7 then x &&& ~~~y
  else if op = 8 then BitVec.ofNat 2048 (2 ^ bits g 32 12 - 1) <<< row
  else if op = 9 then old ||| (1#2048 <<< row)
  else old &&& ~~~(1#2048 <<< row)

/-- R275: address and bytes of element e of a transfer of width w. -/
def elemAddr (a w e : Nat) : Nat × Nat := if w = 4 then (a + e / 2, 1) else (a + e * w / 8, w / 8)

/-- R54, R143: the array's check of a scratchpad span with the values captured at issue. -/
def arrayOk (e : AEntry) (a n : Nat) (need : Need) : Bool := inPad a n && protOk e.pw e.priv a n need

/-- R275: the next element of an AXLD or AXST. -/
def moveElem (c : Nat) (e : AEntry) (st : Bool) (v : R5) (s : State) : State :=
  let h := s.ctx c
  let k := s.core h.gcn
  let fv := vReg e.regs v.toNat
  let w := fWidth fv
  let (a, n) := elemAddr e.ga.toNat w e.row
  let r := bits e.gb 0 11 + e.row
  let sh := if w = 4 then 4 * (e.row % 2) else 0
  if !arrayOk e a n { x := !st, w := st } then transferFault c 5 (w64 a) e.pc e.row ((e.row * w + 7) / 8) s
  else if st && (lockedByte h a n).isSome then transferFault c 0x10 (w64 a) e.pc e.row ((e.row * w + 7) / 8) s
  else
    let key := localKey h.gcn a
    let old := leNat (readBytes s.mem key n)
    let s :=
      if !(tagOf k 0).getLsbD r then s
      else if st then
        let x := elemOf k fv r
        sramWrite key (leBytes n (if w = 4 then old - (old / 2 ^ sh % 16) * 2 ^ sh + x * 2 ^ sh else x)) (some c) s
      else modCore h.gcn (setElem fv r (if w = 4 then old / 2 ^ sh % 16 else old)) s
    if e.row + 1 = bits e.gb 16 12 then finishArray c e s else setHead c advance s

/-- R276: first byte and bytes of row k of a tile of N elements. -/
def tileSpan (f a n k : Nat) : Nat × Nat :=
  if f = 0xE then (a + 32 + k * n / 2, (k * n + n - 1) / 2 - k * n / 2 + 1)
  else (a + k * n * fmtBytes f, n * fmtBytes f)

/-- R38, R276: element j of row k of a tile. -/
def tileElem (s : State) (g f a n k j : Nat) : Nat :=
  if f = 0xE then
    let i := k * n + j
    leNat (readBytes s.mem (localKey g (a + 32 + i / 2)) 1) / 2 ^ (4 * (i % 2)) % 16
  else leNat (readBytes s.mem (localKey g (a + (k * n + j) * fmtBytes f)) (fmtBytes f))

/-- The destination field of an AXLDF or AXLDG. -/
def tileField (i : Instr) : R5 := match i with | .axldf v _ _ _ | .axldg v _ _ _ => v | _ => 0

/-- R260, R276: the next B row of a tile, from the source of context `src`, into the arrays of contexts `l`. -/
def moveTileRow (src : Nat) (e : AEntry) (l : List Nat) (s : State) : State :=
  let g := (s.ctx src).gcn
  let f := fFmt (vReg e.regs (tileField e.instr).toNat)
  let kk := bits e.gb 0 6
  let n := bits e.gb 8 7
  let (a, len) := tileSpan f e.ga.toNat n e.row
  if e.row < kk ∧ !arrayOk e a len { x := true } then
    forEach l (fun c s =>
      match (s.ctx c).eng.aq with
      | x :: _ =>
        let done := a - e.ga.toNat
        clearTile c x.instr (if c = src then transferFault c 5 (w64 a) x.pc e.row done s
          else transferFault c 0x1A (abortValue (s.ctx src).member e.row) x.pc e.row done s)
      | [] => s) s
  else
    let el (j : Nat) : Nat := if e.row < kk ∧ j < n then tileElem s g f e.ga.toNat n e.row j else 0
    forEach l (fun c s =>
      match (s.ctx c).eng.aq with
      | x :: _ =>
        let fv := vReg x.regs (tileField x.instr).toNat
        let s := modCore (s.ctx c).gcn (fun k =>
          onRows ((List.range 64).filter fun j => (tagOf k 0).getLsbD (32 * j + e.row))
            (fun j k => setElem fv (32 * j + e.row) (el j) k) k) s
        if e.row = 31 then finishArray c x s else setHead c advance s
      | [] => s) s

/-- R15: the number of members of a context's gang, exited ones included. -/
def gangSize (s : State) (c : Nat) : Nat := match (s.ctx c).task with | none => 1 | some t => (s.task t).members.length

/-- The members that have not exited. -/
def liveMembers (s : State) (t : Nat) : List Nat := (s.task t).members.filter fun m => (s.ctx m).exited.isNone

/-- R246: the instruction at the head of the queue executes; AXLD, AXST, AXLDF and AXLDG move their next element or B
row. Matrix products have events of their own. -/
def runHead (c : Nat) (e : AEntry) (s : State) : State :=
  let h := s.ctx c
  let g := h.gcn
  let k := s.core g
  match e.instr with
  | .axget d _ => finishArray c e (putArrayG c d (axgetValue e h.eng) s)
  | .axmatch t _ _ v =>
    let fv := vReg e.regs v.toNat
    finishArray c e (modCore g (onRows (activeRows k) fun r k =>
      setTag t.toNat r (decide (elemOf k fv r = matchKey e (fWidth fv))) k) s)
  | .axfirst d t =>
    let rows := (activeRows k).filter fun r => (tagOf k t.toNat).getLsbD r
    finishArray c e (modEng c (fun x => { x with
      aresults := x.aresults ++ [(d, match rows with | r :: _ => w64 r | [] => BitVec.allOnes 64)] }) s)
  | .axcount d t =>
    let rows := (activeRows k).filter fun r => (tagOf k t.toNat).getLsbD r
    finishArray c e (modEng c (fun x => { x with aresults := x.aresults ++ [(d, w64 rows.length)] }) s)
  | .axmin d v t f => finishArray c e (axExtreme c e false d v t f.toNat s)
  | .axmax d v t f => finishArray c e (axExtreme c e true d v t f.toNat s)
  | .axsum d v b f =>
    let x := axsumOf f.toNat (fun r => elemOf k (vReg e.regs v.toNat) r) (fun r => (tagOf k 0).getLsbD r)
    finishArray c e (putArrayG c d x.1
      (modEng c (fun y => (List.range 64).foldl (fun y j => setAcc b.toNat j (x.2 j) y) y)
        (needBanks c (h.eng.arr.lb ||| bankBit b.toNat) s)))
  | .axtag t _ o =>
    finishArray c e (modCore g (fun k => setTags t.toNat (axtagOf o.toNat e.ga (tagOf k) (tagOf k t.toNat)) k) s)
  | .axpass _ => finishArray c e (modCore g (onRows (activeRows k) (passRow e.regs.ptab e.regs.psel (bits e.ga 0 7))) s)
  | .axld v _ _ => moveElem c e false v s
  | .axst v _ _ => moveElem c e true v s
  | .axldf _ _ _ _ => moveTileRow c e [c] s
  | .axldg _ _ _ _ =>
    if gangSize s c = 1 then moveTileRow c e [c] s
    else if e.joined && decide (h.member = 0) then
      match h.task with
      | some t => moveTileRow c e (liveMembers s t) s
      | none => s
    else s
  | .axmm _ _ _ | .axgang _ _ _ => s
  | _ => finishArray c e (modCore g (onRows (activeRows k) (axeRow e)) s)

/-- R204, R248: a transfer waits for writes that are still on their way to its bytes. -/
def transferBusy (s : State) (c : Nat) (e : AEntry) : Bool :=
  match entrySpan (s.ctx c).member e with
  | some (a, n) => spanBusy s c a n
  | none => false

/-- R246, R248. -/
def execArrayInstrExecute (c : Nat) (s : State) : Host.Outcome State Fault Refusal :=
  .next (
    let h := s.ctx c
    match h.eng.aq with
    | e :: _ => if h.resident ∧ !transferBusy s c e then runHead c e s else s
    | [] => s)

/-- R247: a result of AXFIRST or AXCOUNT is written. Array instructions that a core had queued before it halted run on and
write their registers and the array, as R130 lets engine work of a trap do (DESIGN CHOICE, log entry 78). -/
def execArrayResultWrite (c : Nat) (s : State) : Host.Outcome State Fault Refusal :=
  .next (match (s.ctx c).eng.aresults with
    | (d, v) :: r => putArrayG c d v (modEng c (fun k => { k with aresults := r }) s)
    | [] => s)

/-! ### Matrix products (R252, R255, R257 to R259) -/

/-- The shape record of a matrix product. -/
def mmShape (e : AEntry) : Shape := match e.instr with | .axmm n _ _ | .axgang n _ _ => sReg e.regs n.toNat | _ => {}

/-- Addresses of the A slot and of the claimed C slot of the next row. -/
def mmSlots (h : Ctx) (sh : Shape) : Nat × Nat :=
  let ra := getRing h (shAk sh)
  let rc := getRing h (shCk sh)
  (slotAddr ra ra.head, slotAddr rc rc.tail)

/-- R255, R258: the A ring holds a filled slot and the C ring a free one. -/
def mmReady (h : Ctx) (sh : Shape) : Bool :=
  decide (1 ≤ filled (getRing h (shAk sh))) && decide (1 ≤ freeSlots (getRing h (shCk sh)))

/-- R204: the slots of the next row of a matrix product can be accessed: no write that must come first is on its way
there. -/
def mmFree (s : State) (c : Nat) (e : AEntry) : Bool :=
  let sh := mmShape e
  let t := mmSlots (s.ctx c) sh
  !spanBusy s c t.1 (shK sh * fmtBytes (shA sh)) && !spanBusy s c t.2 (shN sh * fmtBytes (shC sh))

/-- R252: element k of file j of block b, a CB4 element replaced by its codebook value. -/
def bElem (k : Core) (e : AEntry) (sh : Shape) (b j i : Nat) : FVal :=
  let fv := vReg e.regs (shBase sh + b)
  let f := if shB sh = 0xE then 0xA else shB sh
  if i < fTk fv ∧ j < fTn fv ∧ (tagOf k 0).getLsbD (32 * j + i) then
    let x := elemOf k fv (32 * j + i)
    elemVal f (if shB sh = 0xE then (fv.codebook[x]?.getD 0).toNat else x)
  else elemVal f 0

/-- R255: column j of a row: C and the exact sum of its last block. -/
def mmColumn (s : State) (h : Ctx) (e : AEntry) (j : Nat) : Nat × Int :=
  let sh := mmShape e
  let (a0, c0) := mmSlots h sh
  let k := s.core h.gcn
  let asz := fmtBytes (shA sh)
  let csz := fmtBytes (shC sh)
  let a (i : Nat) : Nat := if i < shK sh then leNat (readBytes s.mem (localKey h.gcn (a0 + i * asz)) asz) else 0
  let c := if shAcc sh then leNat (readBytes s.mem (localKey h.gcn (c0 + j * csz)) csz) else 0
  (List.range (shKb sh)).foldl (fun (p : Nat × Int) b =>
    blockStep (shC sh) (shA sh) (if shB sh = 0xE then 0xA else shB sh) e.sigma (vReg e.regs (shBase sh + b)).sigma p.1
      ((List.range 32).map fun i => elemVal (shA sh) (a (32 * b + i)))
      ((List.range 32).map fun i => bElem k e sh b j i)) (c, 0)

/-- R54, R255: the A slot of a row is checked for X. -/
def mmReadOk (h : Ctx) (e : AEntry) : Bool :=
  arrayOk e (mmSlots h (mmShape e)).1 (shK (mmShape e) * fmtBytes (shA (mmShape e))) { x := true }
/-- R54, R255: the C slot of a row is checked for W, and with CACC = 1, where the array reads it besides, not for X (DESIGN
CHOICE, log entry 77). -/
def mmWriteOk (h : Ctx) (e : AEntry) : Bool :=
  arrayOk e (mmSlots h (mmShape e)).2 (shN (mmShape e) * fmtBytes (shC (mmShape e))) { w := true }

/-- R243, R255: the passes of a row: the accumulators, and the C slot where its check passes. -/
def mmCompute (c : Nat) (e : AEntry) (s : State) : State :=
  let h := s.ctx c
  let sh := mmShape e
  let cols := (List.range (shN sh)).map (mmColumn s h e)
  let s := needBanks c (h.eng.arr.lb ||| bankBit (shBank sh)) s
  let s := modEng c (fun k => cols.zipIdx.foldl (fun k p => setAcc (shBank sh) p.2 p.1.2 k) k) s
  let s := chargePass c (rowCycles sh) s
  if mmWriteOk h e then
    sramWrite (localKey h.gcn (mmSlots h sh).2) (cols.flatMap fun p => leBytes (fmtBytes (shC sh)) p.1) (some c) s
  else s

/-- R255: a row commits: the C slot is published, the A slot consumed, and the last row completes the instruction. -/
def mmCommit (c : Nat) (e : AEntry) (s : State) : State :=
  let h := s.ctx c
  let sh := mmShape e
  let ra := getRing h (shAk sh)
  let rc := getRing h (shCk sh)
  let s := setRing c (shCk sh) { rc with tail := (rc.tail + 1) % 0x100000000 } (slotsFe c rc rc.tail 1 true s)
  let s := setRing c (shAk sh) { ra with head := (ra.head + 1) % 0x100000000 } (slotsFe c ra ra.head 1 false s)
  if e.row + 1 = shM sh then finishArray c e s else setHead c advance s

/-- R248, R255, R259: a row of several members in lockstep; `l` pairs each member's context with its entry. With `later` the C slots
are written and wait for their publication, so that a scalar access may meet either value before it (R381). -/
def mmRow (l : List (Nat × AEntry)) (later : Bool) (s : State) : State :=
  let fail (bad : List (Nat × AEntry)) (second : Bool) (s : State) : State :=
    match bad with
    | [] => s
    | (b, _) :: _ => forEach l (fun p s =>
      if bad.contains p then
        let t := mmSlots (s.ctx p.1) (mmShape p.2)
        arrayFault p.1 5 (w64 (if second then t.2 else t.1)) p.2.pc p.2.row s
      else arrayFault p.1 0x1A (abortValue (s.ctx b).member p.2.row) p.2.pc p.2.row s) s
  let badA := l.filter fun p => !mmReadOk (s.ctx p.1) p.2
  let badC := l.filter fun p => !mmWriteOk (s.ctx p.1) p.2
  if l.all fun p => p.2.rowDone then forEach l (fun p s => mmCommit p.1 p.2 s) s
  else if !badA.isEmpty then fail badA false s
  else
    let s := forEach l (fun p s => mmCompute p.1 p.2 s) s
    if !badC.isEmpty then fail badC true s
    else if later then forEach l (fun p s => setHead p.1 (fun e => { e with rowDone := true }) s) s
    else forEach l (fun p s => mmCommit p.1 p.2 s) s

/-- R255: the next row of an AXMM, or of an AXGANG in a gang of one (R260). -/
def execAxmmRow (c : Nat) (s : State) : Host.Outcome State Fault Refusal :=
  .next (
    let h := s.ctx c
    match h.eng.aq with
    | e :: _ =>
      let alone := match e.instr with
        | .axmm _ _ _ => true
        | .axgang _ _ _ => decide (gangSize s c = 1)
        | _ => false
      if h.resident && alone && (e.rowDone || (mmReady h (mmShape e) && mmFree s c e)) then mmRow [(c, e)] s.choice.later s else s
    | [] => s)

/-- A gang operation, not of a gang of one. -/
def isGangOp (i : Instr) : Bool := match i with | .axgang .. | .axldg .. => true | _ => false

/-- The heads of the members' queues that are gang operations and have not joined. -/
def waitingOps (s : State) (l : List Nat) : List (Nat × AEntry) :=
  l.filterMap fun c => match (s.ctx c).eng.aq with
    | e :: _ => if isGangOp e.instr && !e.joined then some (c, e) else none
    | [] => none

/-- R257: what the join compares: kind, fn and shape fields, or FMT, WM1, K, N, σ and codebook. -/
def joinKey (e : AEntry) : Nat × R5 × W64 × Int × List (BitVec 16) :=
  match e.instr with
  | .axgang n _ p => (0, p, (sReg e.regs n.toNat).w0 &&& ~~~0x60F0000000000000#64, 0, [])
  | .axldg v _ _ _ =>
    let f := vReg e.regs v.toNat
    (1, 0, f.word &&& ~~~0x7F#64, f.sigma, if fFmt f = 0xE then f.codebook else [])
  | _ => (2, 0, 0, 0, [])

/-- R17, R257: the operation aborts before its first row. -/
def abortOps (l : List (Nat × AEntry)) (who : Nat) (s : State) : State :=
  forEach l (fun p s => clearTile p.1 p.2.instr (arrayFault p.1 0x1A (abortValue who 0) p.2.pc 0 s)) s

/-- R257: a gang operation joins once it heads every member's queue. -/
def execGangOpJoin (t : Nat) (s : State) : Host.Outcome State Fault Refusal :=
  .next (
    let all := (s.task t).members
    let live := liveMembers s t
    let ops := waitingOps s live
    if all.length ≤ 1 then s
    else match all.find? fun m => (s.ctx m).exited.isSome with
      | some m => abortOps ops (s.ctx m).member s
      | none =>
        if ops.length ≠ all.length ∨ !(all.all fun m => (s.ctx m).resident) then s
        else match ops with
          | [] => s
          | (_, e0) :: _ => match ops.find? fun p => joinKey p.2 ≠ joinKey e0 with
            | some p => abortOps ops (s.ctx p.1).member s
            | none => forEach all (fun m s => setHead m (fun e => { e with joined := true }) s) s)

/-- R258: the next row of an AXGANG in every member. -/
def execAxgangRow (t : Nat) (s : State) : Host.Outcome State Fault Refusal :=
  .next (
    let all := (s.task t).members
    let ops := all.filterMap fun c => match (s.ctx c).eng.aq with
      | e :: _ => (match e.instr with | .axgang _ _ _ => if e.joined then some (c, e) else none | _ => none)
      | [] => none
    if all.isEmpty ∨ ops.length ≠ all.length then s
    else if ops.all fun p => (s.ctx p.1).resident && (p.2.rowDone || (mmReady (s.ctx p.1) (mmShape p.2) && mmFree s p.1 p.2)) then
      mmRow ops s.choice.later s
    else s)

end Sys2Proof.Machine
end

