-- ==== Sys2Proof/Machine/System.lean ====
section
/-!
DEFINITION. System, control and privileged instructions (R133 to R154), interrupts and asynchronous exceptions (R131,
R132, R384), and the commit events (R30, R200).
-/

namespace Sys2Proof.Machine

/-! ### System instructions -/

/-- R134: ECALL traps with the next instruction's address. -/
def execEcall (d a b k : R5) (s : State) : Host.Outcome State Fault Refusal :=
  let _ := (d, a, b, k)
  .next (coreOnly s fun c _ => outside c (fun h s =>
    takeTrap c false (if h.priv = .u then 8 else if h.priv = .s then 9 else 10) 0 (h.regs.pc + 4) s) s)

/-- R135. -/
def execEbreak (d a b k : R5) (s : State) : Host.Outcome State Fault Refusal :=
  let _ := (d, a, b, k)
  .next (coreOnly s fun c _ => outside c (fun _ s => trapHere c 0xB 0 s) s)

/-- R136: the check of TRET at the hart's level. -/
def tretOk (p : Priv) (st : W64) : Bool :=
  decide (p ≠ .u) && st.getLsbD 4 && decide (bits st 6 58 = 0) && decide (bits st 2 2 ≠ 2) && decide (bits st 2 2 ≤ p.code)

/-- R136: the return: the status, the privilege and the PC of the level, and the armed step. -/
def returnFrom (h : Ctx) : Ctx :=
  let t := if h.priv = .s then h.ts else h.tm
  let st := t.tstat
  let t' := { t with tstat := tstatWord st (st.getLsbD 1) true 0 false false }
  let h' := if h.priv = .s then { h with ts := t' } else { h with tm := t' }
  { h' with priv := privOf (bits st 2 2), regs := { h.regs with pc := t.tpc } }

/-- R136 to R138: TRET. A TRET that was itself the stepped instruction is followed by its STEP trap; a step that it would
arm itself is dropped (DESIGN CHOICE, log entry 35: R138 says nothing of a second arming). -/
def execTret (s : State) : Host.Outcome State Fault Refusal :=
  .next (coreOnly s fun c h =>
    let st := (if h.priv = .s then h.ts else h.tm).tstat
    if !tretOk h.priv st then illegal c .tret s
    else
      let s := commitChunk c s
      let at_ := h.regs.pc
      let s := modCtx c (fun h => { returnFrom h with csr := { h.csr with retired := h.csr.retired + 1 } }) s
      if h.armed.isSome then stepTrap c at_ s
      else modCtx c (fun k => { k with armed := if st.getLsbD 5 then some h.priv else none }) s)

/-- R139: an interrupt that ends WFI is pending. -/
def wfiEnds (s : State) (h : Ctx) : Bool :=
  h.csr.event || (h.csr.imask.getLsbD 0 && decide (h.csr.tcmp.toNat ≤ s.gtime)) || (h.csr.imask.getLsbD 1 && h.csr.soft)

/-- R139. -/
def execWfi (s : State) : Host.Outcome State Fault Refusal :=
  .next (coreOnly s fun c h =>
    if h.priv = .u then illegal c .wfi s
    else outside c (fun h s => if wfiEnds s h then retire c s else setWait c .wfi s) s)

/-- R139: WFI retires when an interrupt becomes pending. -/
def execWfiWake (c : Nat) (s : State) : Host.Outcome State Fault Refusal :=
  .next (
    let h := s.ctx c
    if h.wait = .wfi ∧ canMove s h ∧ wfiEnds s h then retire c s else s)

/-- R140. -/
def execIcinv (s : State) : Host.Outcome State Fault Refusal :=
  .next (coreOnly s fun c _ => outside c (fun _ s => retire c (modCtx c (fun h => { h with icache := [] }) s)) s)

/-! ### CSR instructions (R141) -/

/-- R141: read. -/
def execCsrr (d : R5) (n : BitVec 12) (s : State) : Host.Outcome State Fault Refusal :=
  .next (csrOp (.csrr d n) d 0 n.toNat true none s)
/-- R141: swap. -/
def execCsrs (d a : R5) (n : BitVec 12) (s : State) : Host.Outcome State Fault Refusal :=
  .next (csrOp (.csrs d a n) d a n.toNat true (some fun _ _ x => x) s)
/-- R141: combine under a mask. -/
def execCsrc (d a : R5) (n : BitVec 12) (s : State) : Host.Outcome State Fault Refusal :=
  .next (csrOp (.csrc d a n) d a n.toNat true (some fun old m x => (old &&& ~~~m) ||| (x &&& m)) s)
/-- R141: write. -/
def execCsrw (a : R5) (n : BitVec 12) (s : State) : Host.Outcome State Fault Refusal :=
  .next (csrOp (.csrw a n) 0 a n.toNat false (some fun _ _ x => x) s)

/-! ### Privileged instructions (R150 to R154) -/

/-- R151: TLBINV stalls for the acknowledgements. -/
def execTlbinv (a b m : R5) (s : State) : Host.Outcome State Fault Refusal :=
  .next (coreOnly s fun c h =>
    if h.priv = .u ∨ 3 ≤ m.toNat then illegal c (.tlbinv a b m) s
    else outside c (fun h s =>
      setWait c (.tlbinv m.toNat (getG h.regs a).toNat (bits (getG h.regs b) 0 16)) s) s)

/-- R151. -/
def execTlbinvAck (c : Nat) (s : State) : Host.Outcome State Fault Refusal := .next (tlbinvDone c s)

/-- R152: g[d] takes the ASID, and then ASID takes g[a], with the new g[d] where both are one register (R7). -/
def execAsidset (d a : R5) (s : State) : Host.Outcome State Fault Refusal :=
  .next (coreOnly s fun c h =>
    if h.priv = .u then illegal c (.asidset d a) s
    else outside c (fun h s => retire c (modCtx c (fun k => { k with csr := { k.csr with asid := (getG k.regs a).truncate 16 } })
      (putG c d (h.csr.asid.zeroExtend 64) s))) s)

/-- R153. -/
def execProtset (a n : R5) (s : State) : Host.Outcome State Fault Refusal :=
  .next (coreOnly s fun c h =>
    if h.priv = .u ∨ 8 ≤ n.toNat then illegal c (.protset a n) s
    else outside c (fun h s => retire c (csrWrite c (0x410 + n.toNat) (getG h.regs a) s)) s)

/-- R154: the status of an announcement. -/
def stopStatus (s : State) (p t : Nat) : Nat :=
  if !(s.part p).live then 3
  else if t < s.gtime + 2048 then 1
  else if (s.part p).stop.isSome then 2 else 0

/-- R154: STOPAT, M mode; the announcement reaches every die within 1,024 GTB cycles. -/
def execStopat (d a b : R5) (s : State) : Host.Outcome State Fault Refusal :=
  .next (coreOnly s fun c h =>
    if h.priv ≠ .m then illegal c (.stopat d a b) s
    else outside c (fun h s =>
      let t := (getG h.regs a).toNat
      let p := bits (getG h.regs b) 0 8
      let st := stopStatus s p t
      setWait c (.stopat d (w64 st) s.gtime) (if st = 0 then modPart p (fun k => { k with stop := some t }) s else s)) s)

/-- R154. -/
def execStopAnnounced (c : Nat) (s : State) : Host.Outcome State Fault Refusal := .next (stopatDone c s)

/-! ### Interrupts and asynchronous exceptions -/

/-- R131, R384: where an asynchronous trap finds the hart. `at_`: taken at once with TPC at the current instruction;
`after`: the delay of TYIELD ends and TPC is the next instruction; `later`: once the instruction has retired. -/
inductive Boundary where
  | at_ | after | later
  deriving DecidableEq, Repr

/-- R131, R139, R193, R384. BARW, which the table of R384 does not name, holds a trap back until it has arrived, as BARRIVE
does; from then on it waits as BWAIT (DESIGN CHOICE, log entry 80). -/
def boundary (w : Wait) : Boundary :=
  match w with
  | .none | .lds .. | .remoteLoad .. | .bwait _ | .gbar | .rwf .. | .rwe .. | .cwait .. | .tkwait _ => .at_
  | .fence .. | .stl .. | .bkfence | .mfence | .axwait _ => .at_
  | .tyield _ => .after
  | .acks | .wfi | .tlbinv .. | .stopat .. | .tspawn .. | .remoteAtomic .. | .sync .. | .mark .. | .bkmeta => .later

/-- A trap taken asynchronously at the boundary where the hart stands. -/
def takeAt (c : Nat) (int : Bool) (code : Nat) (v : W64) (s : State) : State :=
  match boundary (s.ctx c).wait with
  | .at_ => takeTrap c int code v (s.ctx c).regs.pc s
  | .after =>
    let s := retire c s
    takeTrap c int code v (s.ctx c).regs.pc s
  | .later => s

/-- R132, R384: a pending interrupt that may be taken is taken; asynchronous exceptions go first. -/
def execTakeInterrupt (c : Nat) (s : State) : Host.Outcome State Fault Refusal :=
  .next (
    let h := s.ctx c
    if !canMove s h ∨ h.recorded.isSome ∨ pendingAsync h then s
    else match takenInterrupt s h with
      | none => s
      | some (code, v) => takeAt c true code v s)

/-- R60, R131, R250, R384: a posted array trap or a pending REMOTE_STORE is taken. With a step armed it is taken before the
stepped instruction, and the step is discarded with it (DESIGN CHOICE, log entry 35: R138 holds off interrupts only). -/
def execTakeAsyncException (c : Nat) (s : State) : Host.Outcome State Fault Refusal :=
  .next (
    let h := s.ctx c
    if !canMove s h ∨ h.recorded.isSome ∨ boundary h.wait = .later then s
    else match h.eng.posted, h.pendStores with
      | some (code, v), _ => takeAt c false code v (modEng c (fun e => { e with posted := none }) s)
      | none, v :: r => takeAt c false 7 v (modCtx c (fun h => { h with pendStores := r }) s)
      | none, [] => s)

/-- R164, R230, R336: a resumed hart takes a trap recorded while it was saved, before any instruction. -/
def takeRecorded (c : Nat) (s : State) : State :=
  match (s.ctx c).recorded with
  | none => s
  | some (code, v) => trapHere c code v (modCtx c (fun h => { h with recorded := none }) s)

/-- R148: IPEND.TIMER follows GTIME and TCMP. -/
def execTimerMatch (c : Nat) (s : State) : Host.Outcome State Fault Refusal :=
  .next (modCtx c (fun h => { h with csr := { h.csr with timer := decide (h.csr.tcmp.toNat ≤ s.gtime) } }) s)

/-- R148: the Arbiter's acknowledgement clears the oldest EVENT. -/
def execEventAcknowledgement (c : Nat) (s : State) : Host.Outcome State Fault Refusal :=
  .next (modCtx c (fun h =>
    let l := h.csr.eventCodes.tail
    { h with csr := { h.csr with event := !l.isEmpty, eventCodes := l } }) s)

/-- R82, R83: a word that decodes to no instruction; any other word is no such event. -/
def execIllegalInstruction (w : W32) (s : State) : Host.Outcome State Fault Refusal :=
  .next (match decode w, s.cur with
    | .ok _, _ => s
    | .error _, .hart c => illegalWord c w s
    | .error _, .bau g => endRun g 1 0 s)

/-! ### Interlocks -/

/-- R247: the g registers that an instruction word names, by major opcode (R76, R77). -/
def namedRegs (w : W32) : List R5 :=
  let d := fD w
  let a := fA w
  let b := fB w
  let op := (fFn w).toNat
  match (fMaj w).toNat with
  | 0x00 | 0x0A | 0x22 | 0x23 | 0x25 | 0x28 | 0x30 | 0x33 => [d, a, b]
  | 0x01 | 0x02 | 0x03 | 0x04 | 0x05 | 0x06 | 0x07 | 0x0B | 0x0C | 0x0D | 0x0E | 0x0F | 0x10 | 0x12 | 0x13 | 0x14 | 0x15
  | 0x16 | 0x17 | 0x18 | 0x19 | 0x1A | 0x1B | 0x1C | 0x1D | 0x32 => [d, a]
  | 0x08 | 0x09 | 0x11 => [d]
  | 0x1E | 0x1F => [a]
  | 0x20 => if 0x22 ≤ op ∧ op < 0x28 ∨ 0x2C ≤ op then [a] else if 0x14 ≤ op ∧ op < 0x22 ∨ 0x2A ≤ op then [d] else []
  | 0x26 | 0x2E => [d, a, b, fC w]
  | 0x27 => if op = 1 then [a, b] else if op ≤ 3 then [d, b] else [b]
  | 0x29 => if op = 1 then [a] else if op = 3 then [d, a] else [a, b]
  | 0x2C => if op = 1 then [a, b] else if op = 7 then [a] else [d]
  | 0x2D => [a, b]
  | 0x2F => [a, b, fC w]
  | _ => []

/-- R247: the g register that a queued array instruction is still to write. -/
def arrayDest (i : Instr) : Option R5 :=
  match i with
  | .axget d _ | .axfirst d _ | .axcount d _ | .axmin d _ _ _ | .axmax d _ _ _ | .axsum d _ _ _ => if d = 0 then none else some d
  | _ => none

/-- R247: the word names a register that an array instruction is still to write. -/
def regBusy (h : Ctx) (w : W32) : Bool :=
  (namedRegs w).any fun r =>
    (h.eng.aq.any fun e => decide (arrayDest e.instr = some r)) || h.eng.aresults.any fun p => decide (p.1 = r)

/-- R164: loads, stores, atomics, synchronising accesses and engine issues wait for the acknowledgement of a posted SC
atomic: PUT, GET, PUTM, GETD, the instructions that enter the array queue, BKLOAD, BKRUN, BKCOPY, BKMETA and the memory-side
adds among them (log entry 24). Marks are ordered by no acquire (R227), and a wait for an engine holds nothing back (R382). -/
def waitsAcquire (w : W32) : Bool :=
  let m := (fMaj w).toNat
  let fn := (fFn w).toNat
  (decide (0x13 ≤ m) && decide (m ≤ 0x1F)) || decide (m = 0x22) || decide (m = 0x23) ||
    (decide (m = 0x26) && decide (1 ≤ fn) && decide (fn ≤ 4)) || (decide (m = 0x29) && decide (fn = 3)) ||
    (decide (0x2A ≤ m) && decide (m ≤ 0x2C)) || (decide (m = 0x2D) && decide (fn ≠ 5) && decide (fn ≠ 6)) ||
    (decide (m = 0x2E) && !decide (fn = 4) && !decide (fn = 5)) || (decide (m = 0x2F) && decide (1 ≤ fn) && decide (fn ≤ 3))

/-- The issue of a word is held by a stall. -/
def stalled (h : Ctx) (w : W32) : Bool := regBusy h w || (!h.scAcq.isEmpty && waitsAcquire w)

/-! ### Commit (R30, R200) -/

/-- R143: the word writes a register that the cores of a cluster share: WPT, XW or MSIZE. -/
def writesShared (w : W32) : Bool :=
  match decode w with
  | .ok (.csrs _ _ n) | .ok (.csrc _ _ n) | .ok (.csrw _ n) =>
    (decide (0x420 ≤ n.toNat) && decide (n.toNat < 0x438)) || decide (n.toNat = 0xC07)
  | _ => false

/-- R199: the open chunk of a hart has ended: a limit closed it, solo mode ends it, or the next instruction is of a major
that belongs to no chunk. A chunk that ends at a write of a cluster-shared register commits with the write, so that such
writes apply in the order of the commits (R143). -/
def chunkEnded (h : Ctx) : Bool :=
  h.solo || (h.chunk.map (·.closed)).getD false ||
    (match fetchWord h h.regs.pc.toNat with | some w => decide (0x22 ≤ (fMaj w).toNat) && !writesShared w | none => false)

/-- R200: the commit arbiter commits the chunk of a hart once it has ended (R199). -/
def execChunkCommit (c : Nat) (s : State) : Host.Outcome State Fault Refusal :=
  .next (if chunkEnded (s.ctx c) then commitChunk c s else s)

/-- R30, R199: the next instruction of a hart may belong to a chunk, which in solo mode takes a grant. -/
def chunkNext (h : Ctx) : Bool := (fetchWord h h.regs.pc.toNat).any fun w => decide ((fMaj w).toNat < 0x22)

/-- R29, R30: a hart has a request for a grant pending: it could issue an instruction of a chunk that no interlock holds. -/
def wantsGrant (s : State) (h : Ctx) : Bool :=
  h.solo && canMove s h && decide (h.wait = .none) && chunkNext h && !(fetchWord h h.regs.pc.toNat).any (stalled h)

/-- R30: the arbiter grants a hart in solo mode its next instruction: of the requests of a cluster the oldest, ties to the
lower core number. -/
def execSoloGrant (c : Nat) (s : State) : Host.Outcome State Fault Refusal :=
  .next (
    let h := s.ctx c
    let first := s.ctxs.all fun p => !(wantsGrant s p.2 && decide (pcnOf p.2.gcn = pcnOf h.gcn) &&
      (decide (p.2.soloSince < h.soloSince) || (decide (p.2.soloSince = h.soloSince) && decide (p.2.gcn < h.gcn))))
    if wantsGrant s h && first then { s with soloTurn := some c } else s)

end Sys2Proof.Machine
end

