-- ==== Sys2Proof/Machine/Preempt.lean ====
section
/-!
DEFINITION. Partitions and their clusters (R313 to R315, R327), the zugzwang stop (R336 to R340), migration (R341).
-/

namespace Sys2Proof.Machine

/-! ### Lasting faults (R355, R356) -/

/-- Lasting faults of the event log. -/
def loggedFaults (l : List Log) : List FaultUnit := (l.filterMap fun e => match e with | .fault u => some u | _ => none).dedup

/-- R355: the units whose fault is lasting and not yet isolated. -/
def openFaults (s : State) : List FaultUnit :=
  let all := s.banks.flatMap (fun b => (if b.2.lasting.isSome then [FaultUnit.bank b.1] else []) ++
      b.2.lastingRows.map fun r => FaultUnit.row b.1 r.1) ++
    s.clusters.filterMap fun x => if x.2.lasting.isSome then some (FaultUnit.cluster x.1) else none
  all.filter fun u => s.mod.lasting.contains u || !(loggedFaults s.mod.log).contains u

/-- The physical cluster that is fenced with a unit. -/
def fencedWith (u : FaultUnit) : Option Nat :=
  match u with
  | .bank g => some (pcnOf g)
  | .row _ _ => none
  | .cluster q => some q

/-- R355, R356: a cluster is to be fenced for a lasting fault. -/
def faulty (s : State) (q : Nat) : Bool :=
  !(s.cluster q).fenced && (openFaults s).any fun u => decide (fencedWith u = some q)

/-- R355, R356: a cluster that serves a partition is to be fenced. -/
def faultHere (s : State) (p : Nat) : Bool := (clustersOf s p).any (faulty s)

/-- Resident contexts of a partition. -/
def residents (s : State) (p : Nat) : List Nat := (s.ctxs.filter fun x => x.2.resident && decide (x.2.part = p)).map (·.1)

/-! ### The stop (R336) -/

/-- The state of an outcome that has one. -/
def after (s : State) (o : Host.Outcome State Fault Refusal) : State :=
  match o with
  | .next t => t
  | .fault _ => s
  | .refused _ => s

/-- R204, R213: the remote writes that a hart's transfer waits for are applied: covered ones, then the hart's own, each in the
order of issue (`comesFirst`). -/
def landFirst (c : Nat) (s : State) : State :=
  let covered (p : Packet) : Bool := ordersAfter s p.cover c
  let l := s.net.filter fun p => p.dev.isNone && reqWrites p.body && (covered p || decide (p.cid = c))
  forEach (l.filter covered ++ l.filter fun p => !covered p)
    (fun p s => after s (match p.body with | .store _ => execRemoteAccessArrival p.id s | _ => execSyncEngineAtomic p.id s)) s

/-- R251: before its hart is saved the array finishes the transfer that it executes, after the writes that come before it, or the row
of AXMM or AXGANG that it is in; the members of a gang are in the same row (R258). -/
def finishTransfer : Nat → Nat → State → State
  | 0, _, s => s
  | n + 1, c, s =>
    if arrayMid (s.ctx c) then
      match (s.ctx c).eng.aq with
      | e :: _ =>
        if e.rowDone then mmCommit c e s
        else
          let s := if transferBusy s c e then landFirst c s else s
          finishTransfer n c (runHead c e s)
      | [] => s
    else s

/-- R336: what the stop does to a hart before it is saved: the instruction in progress completes, is dropped to execute
again, or keeps its wake condition or its pending result. -/
def stopHart (c : Nat) (s : State) : State :=
  match (s.ctx c).wait with
  | .acks | .fence .. | .stl .. | .bkfence | .mfence | .axwait _ | .wfi => setWait c .none s
  | _ => finishStall c s

/-- R336: every hart of the partition stops and is saved; a stop during a stop saves nothing more (R339). -/
def execZugzwangStop (p : Nat) (s : State) : Host.Outcome State Fault Refusal :=
  .next (
    let t := s.part p
    match t.stop with
    | none => s
    | some at_ =>
      if s.gtime < at_ then s
      else if t.stopped then modPart p (fun t => { t with stop := none }) s
      else
        let l := residents s p
        let s := forEach l (fun c s => commitChunk c s) s
        let s := forEach l (fun c s => finishTransfer 2048 c s) s
        let s := forEach l (fun c s => if (s.ctx c).halted || (s.ctx c).exited.isSome then s else stopHart c s) s
        let s := forEach l (fun c s => saveCtx c s) s
        let tasks := (s.tasks.filter fun k => decide (k.2.part = p) && decide (k.2.phase = .placed)).map (·.1)
        let s := forEach tasks (fun k s => modTask k (fun k => { k with phase := .evicted, eligAt := s.gtime }) s) s
        modPart p (fun t => { t with
          stop := none, stopped := true, stoppedAt := at_, complete := false, flushed := [], routers := [] }) s)

/-! ### The flush (R337) -/

/-- R337: at T + 64 a die of the partition sends the flush token. -/
def execFlushToken (p die : Nat) (s : State) : Host.Outcome State Fault Refusal :=
  .next (
    let t := s.part p
    if !t.stopped ∨ s.gtime < t.stoppedAt + 64 ∨ t.flushed.contains die then s
    else modPart p (fun t => { t with flushed := die :: t.flushed }) s)

/-- The packets of R337: requests that a router saves. -/
def isRequest (b : Body) : Bool :=
  match b with
  | .load _ | .store _ | .atomic .. | .barrive _ | .bmake _ | .bfree _ | .tspawn .. => true
  | _ => false

/-- Replies of the same kinds. -/
def isReply (b : Body) : Bool :=
  match b with
  | .loadReply _ | .atomicReply _ | .syncReply _ | .staleBarrier _ | .ack | .reject => true
  | _ => false

/-- Model (log entry 31): the router that holds a packet: its issuer's for a request, its target's for a reply. -/
def routerOf (s : State) (k : Packet) : Nat := if isRequest k.body then pcnOf (s.ctx k.cid).gcn else k.pcn

/-- R337: the dispatcher handles a moved reply: the reply of an abandoned load is discarded, an atomic's value goes to
the saved register, a rejection is kept as a pending trap. -/
def handleReply (k : Packet) (s : State) : State :=
  match k.body with
  | .loadReply v => loadArrives k v s
  | .atomicReply v => atomicArrives k v s
  | .ack => acknowledge k s
  | .reject => rejected k s
  | .syncReply _ | .staleBarrier _ => after s (execSyncReply k.id s)
  | _ => s

/-- R337: a router that has the token moves the partition's packets into its save buffer. -/
def execRouterFlush (p q : Nat) (s : State) : Host.Outcome State Fault Refusal :=
  .next (
    let t := s.part p
    if !t.stopped ∨ !t.flushed.contains (dieOf q) ∨ t.routers.contains q then s
    else
      let here := s.net.filter fun k => decide (k.part = p) && decide (routerOf s k = q)
      let reqs := here.filter fun k => isRequest k.body
      let s := { s with net := s.net.filter fun k => !(reqs.contains k) }
      let s := forEach (here.filter fun k => isReply k.body) handleReply s
      modPart p (fun t => { t with routers := q :: t.routers, saved := t.saved ++ reqs }) s)

/-- R339: a saved request is injected again, or rejected where its target cluster left the partition, as a fenced one has
(R356). -/
def reinjected (s : State) (p : Nat) (k : Packet) : Packet :=
  match k.body with
  | .load _ | .store _ | .atomic .. =>
    if k.dev.isNone && ((s.cluster k.pcn).fenced || decide (serves (s.cluster k.pcn) ≠ some p)) then { k with body := .reject } else k
  | _ => k

/-- R339: of the saved gangs whose cores are free the Arbiter restores some directly; which ones is a free value (log entry
31). The others are resumable. -/
def restoreSome (l : List Nat) (s : State) : State :=
  forEach l (fun t s =>
    match placeOld s (s.task t) with
    | none => s
    | some q =>
      let (v, s) := drawNat s
      if v % 2 = 1 then restoreGang t q s else s) s

/-- R339: gangs of a partition that are saved. -/
def savedGangs (s : State) (p : Nat) : List Nat :=
  (s.tasks.filter fun k => decide (k.2.part = p) && decide (k.2.phase = .evicted)).map (·.1)

/-- R339: the partition runs again: saved requests are injected before any new packet. -/
def restart (p : Nat) (s : State) : State :=
  let t := s.part p
  let s := { s with net := t.saved.map (reinjected s p) ++ s.net }
  modPart p (fun t => { t with
    stopped := false, complete := false, resumeHeld := false, saved := [], flushed := [], routers := []
    stop := match t.stop with | some u => if u ≤ s.gtime then none else some u | none => none }) s

/-! ### Map entries and the return of lent clusters (R314, R315, R340) -/

/-- R314: a map entry with PRESENT 1. -/
def presentEntry (q : Nat) : W64 := w64 (2 ^ 63 + q)
/-- The virtual cluster number that a map gives a physical cluster: that of a PRESENT entry, else the highest, which is that
of its last stay in the partition. -/
def vcnFor (t : Partition) (q : Nat) : Option Nat :=
  let l := (List.range t.count).reverse.filter fun v =>
    decide (bits (tget t.map v 0) 0 14 = q) && !(tget t.map v 0).getLsbD 62 && t.map.any fun e => e.1 = v
  (l.find? fun v => (tget t.map v 0).getLsbD 63).orElse fun _ => l.head?
/-- Set or clear PRESENT of the entry of a physical cluster. -/
def setPresent (p q : Nat) (on : Bool) (s : State) : State :=
  match vcnFor (s.part p) q with
  | none => s
  | some v => modPart p (fun t => { t with map := tput t.map v (if on then presentEntry q else w64 q) }) s

/-- R59: XW0 at assignment: all permissions, 0 to 0x10_FFFF, DELTA 0. -/
def firstWindow : W64 := 0xF800000000110000
/-- R58, R313: WPT0 over VCN 0 to n − 1. -/
def firstWpt (n : Nat) : W64 := w64 (2 ^ 63 + (n - 1) * 2 ^ 32)

/-- R377: a cluster's point is requested; a request whose voltage lies below the floor is denied and logged. -/
def requestPoint (q c : Nat) (s : State) : State :=
  if Config.millivolts c < (s.cluster q).power.floor then logEvent (.denied q) s
  else modCluster q (fun cl => { cl with power := { cl.power with req := c } }) s

/-- R366, R376: under a cap no point faster than it is requested: a cluster that has one, or whose request is one, is asked
for the cap's point. -/
def holdCap (p q : Nat) (s : State) : State :=
  let w := (s.cluster q).power
  if min w.point w.req < (s.part p).cap then requestPoint q (s.part p).cap s else s

/-- R313, R340: a lent cluster is cleared and returns to its lender, whose cap holds it; PRESENT there, unless it is fenced
(R356). -/
def returnCluster (lender q : Nat) (s : State) : State :=
  let s := modCluster q (fun cl => { cl with
    lent := none, xw := [(0, firstWindow)], wpt := [(0, firstWpt (s.part lender).count)], tlb := [] }) (clearCluster q s)
  holdCap lender q (setPresent lender q (!(s.cluster q).fenced) s)

/-- R340: shared memory outside mark space of a recalled cluster is saved, the cluster is cleared and returned. -/
def recallOne (lender borrower q : Nat) (s : State) : State :=
  let s := landWords q s
  let k := sramKey q Config.sharedBase
  let n := sharedTop (s.cluster q) - Config.sharedBase
  let im : Image := { pad := sliceBytes s.mem k n, fe := sliceFe s k n }
  let s := match vcnFor (s.part borrower) q with
    | some v => modPart borrower (fun t => { t with shared := tput t.shared v im }) s
    | none => s
  returnCluster lender q (setPresent borrower q false s)

/-! ### Resumption (R339) -/

/-- R340: the borrowed clusters whose lenders have recalled them. -/
def recalled (s : State) (p : Nat) : List (Nat × Nat) :=
  ((s.part p).recalls.map (·.1)).dedup.flatMap fun l =>
    (s.clusters.filter fun x => x.2.part = some l ∧ x.2.lent = some p).map fun x => (l, x.1)

/-- R339, R340: the partition resumes once the clusters that its lenders have recalled are back; while a mark operation is
under way to one of them (R16), or one of its clusters is to be fenced within R355's bound (R356), the request is held. -/
def resume (p : Nat) (s : State) : State :=
  if !faultHere s p && (recalled s p).all fun x => marksIdle s x.2 then
    let s := restart p (modPart p (fun t => { t with recalls := [] }) (forEach (recalled s p) (fun x s => recallOne x.1 p x.2 s) s))
    restoreSome (savedGangs s p) s
  else modPart p (fun t => { t with resumeHeld := true }) s

/-- R337: the token has crossed every die and every context is written; R339: a held request to resume is applied, then or,
where a recalled or a faulty cluster holds it up (`resume`), once that allows it. -/
def execStopComplete (p : Nat) (s : State) : Host.Outcome State Fault Refusal :=
  .next (
    let t := s.part p
    let l := clustersOf s p
    if !t.stopped ∨ (t.complete ∧ !t.resumeHeld) ∨ !(l.all fun q => t.flushed.contains (dieOf q) && t.routers.contains q) ∨ !(residents s p).isEmpty
    then s
    else
      let s := modPart p (fun t => { t with complete := true }) s
      if t.resumeHeld then resume p s else s)

/-- R339: the Arbiter resumes the partition; a request during a stop that is not complete is held. -/
def execPartitionResume (p : Nat) (s : State) : Host.Outcome State Fault Refusal :=
  .next (
    let t := s.part p
    if !t.stopped then s
    else if t.complete then resume p s
    else modPart p (fun t => { t with resumeHeld := true }) s)

/-! ### Assignment, lending and recall (R313, R315, R340) -/

/-- R340: shared memory of a recalled cluster comes back where its VCN is mapped with PRESENT 1. Saved bytes that lie in the
mark space of the new cluster, where its MSIZE is larger, are written into its cells (DESIGN CHOICE, log entry 90). -/
def restoreShared (p v q : Nat) (s : State) : State :=
  let t := s.part p
  match t.shared.find? fun x => x.1 = v with
  | none => s
  | some x =>
    let n := sharedTop (s.cluster q) - Config.sharedBase
    modPart p (fun t => { t with shared := t.shared.filter fun y => y.1 ≠ v }) (placeSram (sramKey q Config.sharedBase) n x.2 s)

/-- No task is resident on a cluster, and no entry of an exited member runs there. -/
def clusterIdle (s : State) (q : Nat) : Bool :=
  s.ctxs.all fun x => decide (pcnOf x.2.gcn ≠ q) || !(x.2.resident || (x.2.exited.isSome && working s x.1))

/-- R314: virtual cluster numbers have 15 bits. -/
def vcnLimit : Nat := 32768

/-- R61, R313: the Arbiter assigns a cluster to a partition: it is cleared, its MSIZE (firmware's choice, a free value), its
windows and write permissions are set, the cap holds it (R366), and it appears at the next virtual cluster number. While the
partition borrows clusters, which lie above its own (R315), the Arbiter assigns it none (DESIGN CHOICE, log entry 74). -/
def execAssignCluster (p q : Nat) (s : State) : Host.Outcome State Fault Refusal :=
  .next (
    let cl := s.cluster q
    if 256 ≤ p ∨ Config.clusters ≤ q ∨ cl.part.isSome ∨ cl.lent.isSome ∨ cl.fenced ∨ faulty s q ∨ !clusterIdle s q ∨ !marksIdle s q ∨
        vcnLimit ≤ (s.part p).count ∨ s.clusters.any (fun x => x.2.lent = some p) then s
    else
      let v := (s.part p).count
      let (m, s) := drawNat (clearCluster q s)
      let s := modCluster q (fun cl => { cl with
        part := some p, msize := min 8 (m % 16), xw := [(0, firstWindow)], wpt := [], tlb := [] }) s
      let s := modPart p (fun t => { t with live := true, count := v + 1, map := tput t.map v (presentEntry q) }) s
      holdCap p q
        (forEach (clustersOf s p) (fun q s => modCluster q (fun cl => { cl with wpt := tput cl.wpt 0 (firstWpt (v + 1)) }) s) s))

/-- R315: a cluster is lent without its banks; it appears above the borrower's own clusters, and the borrower's cap holds it
(R366). WPT0 of the lent cluster covers the new count, that of the borrower's other clusters stays (DESIGN CHOICE, log entry 111). -/
def execLendCluster (p q : Nat) (s : State) : Host.Outcome State Fault Refusal :=
  .next (
    let cl := s.cluster q
    match cl.part with
    | none => s
    | some l =>
      if l = p ∨ cl.lent.isSome ∨ cl.fenced ∨ faulty s q ∨ !(s.part p).live ∨ !clusterIdle s q ∨ !marksIdle s q ∨ vcnLimit ≤ (s.part p).count
      then s
      else
        let v := (s.part p).count
        let s := clearCluster q s
        let s := modCluster q (fun cl => { cl with
          lent := some p, xw := [(0, firstWindow)], wpt := [(0, firstWpt (v + 1))], tlb := [] }) s
        holdCap p q (setPresent l q false (modPart p (fun t => { t with count := v + 1, map := tput t.map v (presentEntry q) }) s)))

/-- R340: a recall is asked of a borrower. -/
def askRecall (lender borrower : Nat) (s : State) : State :=
  modPart borrower (fun t => { t with
    recalls := if t.recalls.any fun x => x.1 = lender then t.recalls else t.recalls ++ [(lender, s.gtime)] }) s

/-- R340: recall: a stop of the borrower is announced or brought forward; once it is complete, and no mark operation is
under way to them, the clusters return and the borrower resumes. -/
def execRecallLentClusters (lender borrower : Nat) (s : State) : Host.Outcome State Fault Refusal :=
  .next (
    let t := s.part borrower
    if !(s.clusters.any fun x => x.2.part = some lender ∧ x.2.lent = some borrower) then s
    else
      let asked := askRecall lender borrower s
      if !t.stopped then
        let at_ := s.gtime + 2048
        modPart borrower (fun t => { t with stop := some (match t.stop with | some u => min u at_ | none => at_) }) asked
      else if t.complete then resume borrower asked
      else asked)

/-- A cluster of its own is free once partition p is gone. -/
def releaseCluster (p : Nat) (cl : Cluster) : Cluster :=
  if cl.part = some p then { cl with part := none, xw := [], wpt := [], tlb := [] } else cl

/-- Clusters of a partition that serve another one (R315). -/
def lentOut (s : State) (p : Nat) : Bool := s.clusters.any fun x => decide (x.2.part = some p) && x.2.lent.isSome

/-- R327, R328: the Arbiter withdraws a partition: its tasks end with KILLED, then those lent to it return and its own
clusters are free. Clusters that it has lent are recalled first. -/
def execWithdrawPartition (p : Nat) (s : State) : Host.Outcome State Fault Refusal :=
  .next (
    let live := (s.tasks.filter fun k => decide (k.2.part = p) && !decide (k.2.phase = .done)).map (·.1)
    if !(s.part p).live then s
    else if live.isEmpty then
      let back := (s.clusters.filter fun x => decide (x.2.lent = some p)).map (·.1)
      if lentOut s p ∨ !back.all (marksIdle s) then s else
      let s := forEach back (fun q s => match (s.cluster q).part with | some l => returnCluster l q s | none => s) s
      let s := { s with clusters := s.clusters.map fun (x : Nat × Cluster) => (x.1, releaseCluster p x.2) }
      { s with parts := tput s.parts p {} }
    else forEach live (fun k s => endTask k 4 s) s)

/-! ### Migration (R341) -/

/-- R322, R341: launches being read, tasks, records and versions of an owner that are not finished. -/
def ownerBusy (s : State) (v : Nat) : Bool :=
  (s.owner v).reading.any (fun x => x.2.isSome) || !(s.owner v).recs.isEmpty ||
  (s.tasks.any fun k => decide ((s.launch k.2.launch).vf = v) && !decide (k.2.phase = .done)) ||
    (s.versions.any fun x => decide (x.2.vf = v) && !(x.2.installed || x.2.freed))

/-- R341, R372: what stays of an owner that has left: the usage counters, which only module reset clears, and the frames of the
rename pool, since no rename state moves. -/
def leftOwner (o : Owner) : Owner :=
  { ucyc := o.ucyc, upass := o.upass, udram := o.udram, uenergy := o.uenergy, pool := o.pool, used := o.used }

/-- R341: what leaves with an owner: all but that. -/
def movedOwner (o : Owner) : Owner := { o with ucyc := 0, upass := 0, udram := 0, uenergy := 0, pool := [], used := [] }

/-- R315, R341: memory of a partition: SRAM of the clusters that serve it, borrowed ones with them, and the banks of its own, which it does
not lend. -/
def partMemory (s : State) (p : Nat) : Memory :=
  s.mem.filter fun c =>
    if isDram c.1 then (s.cluster (c.1 / 0x800000 / 8)).part = some p
    else Config.sramBase ≤ c.1 ∧ serves (s.cluster (keyCluster c.1)) = some p

/-- R56, R341: full/empty bits of that SRAM that are 1. -/
def partBits (s : State) (p : Nat) : Tbl Bool :=
  s.fe.filter fun x => Config.sramBase ≤ 8 * x.1 ∧ serves (s.cluster (keyCluster (8 * x.1))) = some p

/-- R68, R341: metadata of the columns of a partition's banks. -/
def partMeta (s : State) (p : Nat) : Tbl (Tbl (BitVec 28)) :=
  (s.banks.filter fun b => (s.cluster (b.1 / 8)).part = some p).map fun b => (b.1, b.2.mdata)

/-- R341: the dispatcher stops reading the owner's queues; at the task boundary the Arbiter moves the owner's pointers, its
barrier objects and memory to another device, with the command of its mailbox that waits. The barrier objects of a partition
go with its last owner (log entry 41). An owner is one of the 64 virtual functions (R313, R358). -/
def execMigrateOwner (v : Nat) (s : State) : Host.Outcome State Fault Refusal :=
  .next (
    let o := s.owner v
    let p := vfPart o
    if Config.vfs ≤ v then s
    else if !o.migrating then modOwner v (fun o => { o with migrating := true }) s
    else if ownerBusy s v then s
    else
      let last := (ownersOf s p).all fun x => decide (x = v)
      let out : Moved :=
        { vf := v, owner := movedOwner o, barriers := if last then (s.part p).barriers else [], mem := partMemory s p, fe := partBits s p
          mdata := partMeta s p }
      let s := if last then modPart p (fun t => { t with barriers := [] }) s else s
      modMod (fun m => { m with moved := m.moved ++ [out], doors := m.doors.filter fun f => f ≠ v })
        { s with owners := tput s.owners v (leftOwner o) })

end Sys2Proof.Machine
end

