-- ==== Sys2Proof/Machine/Sha.lean ====
section
/-!
DEFINITION. SHA-512, the digest that R374 names. The function is the one of the published standard FIPS 180-4
(PRESUMED, log entry 65); bytes are taken most significant first.
-/

namespace Sys2Proof.Machine

/-- The integer part of the square root or cube root of a number, searched from bit `n - 1` down: the largest x below 2^n
with x^k ≤ m. -/
def rootBits (k m : Nat) : Nat → Nat → Nat
  | 0, x => x
  | n + 1, x => rootBits k m n (if (x + 2 ^ n) ^ k ≤ m then x + 2 ^ n else x)

/-- The first 64 fractional bits of a k-th root of a prime. -/
def rootFrac (k p : Nat) : Nat := rootBits k (p * 2 ^ (64 * k)) 70 0 % 2 ^ 64

/-- The first n primes from `c` upward, at most `fuel` candidates. -/
def primesFrom : Nat → Nat → Nat → List Nat
  | 0, _, _ => []
  | fuel + 1, n, c =>
    if n = 0 then []
    else if (List.range (c - 2)).all fun i => c % (i + 2) ≠ 0 then c :: primesFrom fuel (n - 1) (c + 1)
    else primesFrom fuel n (c + 1)

/-- The round constants: cube roots of the first 80 primes. -/
def shaRounds : List W64 := (primesFrom 420 80 2).map fun p => w64 (rootFrac 3 p)
/-- The initial state: square roots of the first 8 primes. -/
def shaInit : List W64 := (primesFrom 20 8 2).map fun p => w64 (rootFrac 2 p)

/-- Big-endian words of 8 bytes. -/
def shaWords : Nat → List Byte → List W64
  | 0, _ => []
  | n + 1, l => w64 (leNat (l.take 8).reverse) :: shaWords n (l.drop 8)

/-- The message schedule, newest word first. -/
def shaSchedule : Nat → List W64 → List W64
  | 0, l => l
  | n + 1, l =>
    let w (i : Nat) : W64 := l[i - 1]?.getD 0
    let s0 := (w 15).rotateRight 1 ^^^ (w 15).rotateRight 8 ^^^ (w 15 >>> 7)
    let s1 := (w 2).rotateRight 19 ^^^ (w 2).rotateRight 61 ^^^ (w 2 >>> 6)
    shaSchedule n ((w 16 + s0 + w 7 + s1) :: l)

/-- One round on the eight working words. -/
def shaRound (v : List W64) (kw : W64) : List W64 :=
  match v with
  | [a, b, c, d, e, f, g, h] =>
    let t1 := h + (e.rotateRight 14 ^^^ e.rotateRight 18 ^^^ e.rotateRight 41) + ((e &&& f) ^^^ (~~~e &&& g)) + kw
    let t2 := (a.rotateRight 28 ^^^ a.rotateRight 34 ^^^ a.rotateRight 39) + ((a &&& b) ^^^ (a &&& c) ^^^ (b &&& c))
    [t1 + t2, a, b, c, d + t1, e, f, g]
  | v => v

/-- One block of 128 bytes. -/
def shaBlock (v : List W64) (b : List Byte) : List W64 :=
  let ws := (shaSchedule 64 (shaWords 16 b).reverse).reverse
  List.zipWith (· + ·) v ((List.zipWith (· + ·) shaRounds ws).foldl shaRound v)

/-- The blocks of a message, `n` of them. -/
def shaBlocks : Nat → List W64 → List Byte → List W64
  | 0, v, _ => v
  | n + 1, v, l => shaBlocks n (shaBlock v (l.take 128)) (l.drop 128)

/-- SHA-512 of a list of bytes: 64 bytes. -/
def sha512 (l : List Byte) : List Byte :=
  let z := (239 - l.length % 128) % 128
  let m := l ++ 0x80 :: List.replicate z 0 ++ (leBytes 16 (8 * l.length)).reverse
  (shaBlocks (m.length / 128) shaInit m).flatMap fun w => (leBytes 8 w.toNat).reverse

end Sys2Proof.Machine
end

