-- ==== Sys2Proof/Machine/HostPort.lean ====
section
/-!
DEFINITION. The host port: register writes, the mailbox, page-table and grade configuration, host memory accesses,
attestation (R316, R342, R349, R359 to R367, R372, R374).
-/

namespace Sys2Proof.Machine

/-! ### Register writes (R316, R351, R359, R362, R368 to R370) -/

/-- R316: a weight of 0 is stored as 1. -/
def vfcfgValue (v : W64) : W64 := if bits v 48 8 = 0 then v ||| 0x0001000000000000 else v

/-- R363, R364: LSIZE outside 4 to 16 is stored as 4. -/
def fixLsize (v : W64) : W64 := if bits v 48 5 < 4 ∨ 16 < bits v 48 5 then (v &&& ~~~0x001F000000000000#64) ||| 0x0004000000000000 else v

/-- R314, R340, R369: the Arbiter writes a map entry; saved shared memory comes back to a cluster made PRESENT. -/
def writeMapEntry (p vcn : Nat) (v : W64) (s : State) : State :=
  let e := v &&& 0xCFFF000000003FFF
  let s := modPart p (fun t => { t with map := tput t.map vcn e, count := max t.count (vcn + 1) }) s
  if e.getLsbD 63 ∧ !e.getLsbD 62 ∧ serves (s.cluster (bits e 0 14)) = some p then restoreShared p vcn (bits e 0 14) s else s

/-- R366: MBDOOR starts a command; a write while BUSY is ignored. -/
def ringDoor (v : Nat) (x : W64) (s : State) : State :=
  if (s.owner v).mbdoor.isSome then s
  else modMod (fun m => { m with doors := m.doors ++ [v] }) (modOwner v (fun o => { o with mbdoor := some (bits x 0 8) }) s)

/-- R358: a write to a register of one of the 64 virtual functions. -/
def writeVf (f : Nat) (g : Owner → Owner) (s : State) : State := if f < Config.vfs then modOwner f g s else s

/-- R313: a write to a register of one of the 256 partitions. -/
def writePart (p : Nat) (g : Partition → Partition) (s : State) : State := if p < 256 then modPart p g s else s

/-- A register write of the host or the Arbiter. FQCFG is stored as it is written, also with a COUNT, a BASE or a ring that
R351 does not provide for (DESIGN CHOICE, log entry 72), and VFCFG also where the sum of QSLOT or DEPQ over a home die
exceeds R316's 4,096 (DESIGN CHOICE, log entry 93). -/
def writeReg (r : HostReg) (v : W64) (s : State) : State :=
  match r with
  | .rtptr f => writeVf f (fun o => { o with rtptr := v }) s
  | .lasid f => writeVf f (fun o => { o with lasid := v &&& 0xFFFF }) s
  | .evbase f => writeVf f (fun o => { o with evbase := v }) s
  | .evhead f => writeVf f (fun o => { o with evhead := bits v 0 32 }) s
  | .mbreq f i => if i < 8 then writeVf f (fun o => { o with mbreq := tset 0 o.mbreq i v }) s else s
  | .mbdoor f => if f < Config.vfs then ringDoor f v s else s
  | .vfcfg f => writeVf f (fun o => { o with vfcfg := vfcfgValue v }) s
  | .mapEntry p vcn => if p < 256 ∧ vcn < vcnLimit then writeMapEntry p vcn v s else s
  | .fqcfg p => writePart p (fun t => { t with fqcfg := v &&& 0x80070FFF0007FFFF }) s
  | .keyId p => writePart p (fun t => { t with key := bits v 0 8 }) s
  | .devid => modMod (fun m => { m with devid := bits v 0 12 }) s
  | .route d => if d < 4096 then modMod (fun m => { m with
      links := tput m.links d (afterPorts s.gtime m { tget m.links d {} with route := v &&& 0xFFFF }) }) s else s
  | .decoderBase i => if i < 16 then modMod (fun m => { m with decoderBase := tset 0 m.decoderBase i v }) s else s
  | .decoderMap i => if i < 16 then modMod (fun m => { m with decoderMap := tset 0 m.decoderMap i v }) s else s
  | .aperture p i => if i < 16 then writePart p (fun t => { t with aperture := tset 0 t.aperture i v }) s else s
  | .reserved _ _ => s

/-- R362. -/
def execRegisterWrite (r : HostReg) (v : W64) (s : State) : Host.Outcome State Fault Refusal := .next (writeReg r v s)

/-- R363: QTAIL; a write that makes the queue longer than 2^LSIZE is ignored and logged. -/
def execQtailWrite (f c : Nat) (v : W64) (s : State) : Host.Outcome State Fault Refusal :=
  .next (
    let o := s.owner f
    let n := (bits v 0 32 + 0x100000000 - tget o.qhead c 0) % 0x100000000
    if Config.vfs ≤ f ∨ 4 ≤ c then s
    else if 2 ^ bits (qcfgOf o c) 48 5 < n then logEvent (.refused 0x363) s
    else modOwner f (fun o => { o with qtail := tset 0 o.qtail c (bits v 0 32) }) s)

/-- R363: QCFG; a write while QHEAD ≠ QTAIL is ignored. -/
def execQcfgWrite (f c : Nat) (v : W64) (s : State) : Host.Outcome State Fault Refusal :=
  .next (
    let o := s.owner f
    if Config.vfs ≤ f ∨ 4 ≤ c ∨ tget o.qhead c 0 ≠ tget o.qtail c 0 then s
    else modOwner f (fun o => { o with qcfg := tput o.qcfg c (fixLsize (v &&& 0x801F7FFFFFFFF000)) }) s)

/-- R364. -/
def execEvcfgWrite (f : Nat) (v : W64) (s : State) : Host.Outcome State Fault Refusal :=
  .next (
    let o := s.owner f
    let x := fixLsize (v &&& 0xC01FFFFFFF0007FF)
    let x := if x.getLsbD 63 ∧ !ringPlaceOk s o x then x &&& 0x7FFFFFFFFFFFFFFF else x
    writeVf f (fun o => { o with evcfg := x }) s)

/-- R362: the 8-byte word at an offset of a virtual function's register block; a reserved offset and MBDOOR read zero. -/
def vfWord (s : State) (f off : Nat) : W64 :=
  let o := s.owner f
  let c := (off - 0x40) / 32
  if off = 0x000 then o.vfcfg
  else if off = 0x008 then s.mod.rasstat
  else if off = 0x010 then o.ucyc
  else if off = 0x018 then o.upass
  else if off = 0x020 then o.udram
  else if off = 0x028 then w64 (wholeMicro o.uenergy)
  else if off = 0x030 then o.rtptr
  else if off = 0x038 then o.lasid
  else if 0x040 ≤ off ∧ off < 0x0C0 then
    if off % 32 = 0 then qcfgOf o c
    else if off % 32 = 8 then w64 (tget o.qtail c 0)
    else if off % 32 = 16 then w64 (tget o.qhead c 0) else 0
  else if off = 0x100 then o.evbase
  else if off = 0x108 then o.evcfg
  else if off = 0x110 then w64 o.evhead
  else if off = 0x118 then w64 o.evtail
  else if 0x200 ≤ off ∧ off < 0x240 then tget o.mbreq ((off - 0x200) / 8) 0
  else if off = 0x308 then w64 (bit o.mbdoor.isSome * 2 ^ 63 + o.mbstat % 256)
  else if 0x400 ≤ off ∧ off < 0x500 then w64 (leNat ((List.range 8).map fun i => tget o.mbrsp (off - 0x400 + i) 0))
  else 0

/-- R356: a table of `size` bytes reaches a retired frame. -/
def tableRetired (s : State) (base il size : Nat) : Bool :=
  let n := ilBanks il
  (List.range n).any fun i =>
    let o := base % 0x800000
    (s.bank (base / 0x800000 + i)).retired.any fun f => decide (f * 0x10000 < o + size / n) && decide (o < (f + 1) * 0x10000)

/-- R342, R356: a PTCFG that the Arbiter accepts; also with V = 0 no other IL, LN or BASE is written (log entry 64). -/
def ptcfgOk (s : State) (p : Nat) (v : W64) : Bool :=
  let ln := bits v 48 5
  let il := bits v 61 2
  (decide (il = 1) || decide (il = 2)) && decide (8 ≤ ln) && decide (ln ≤ 18) &&
    placeOk s p (bits v 0 48) il (2 ^ (ln + 7)) && !tableRetired s (bits v 0 48) il (2 ^ (ln + 7))

/-- R342: PTCFG; a walk is one step here, so none is in progress. -/
def execPtcfgWrite (p : Nat) (v : W64) (s : State) : Host.Outcome State Fault Refusal :=
  .next (
    let x := v &&& 0xE01FFFFFFFFFFFFF
    if ptcfgOk s p x then modPart p (fun t => { t with ptcfg := x }) s else logEvent (.refused 0x342) s)

/-- R61, R313: the Arbiter writes MSIZE while no task is resident. -/
def execMsizeWrite (q : Nat) (v : W64) (s : State) : Host.Outcome State Fault Refusal := .next (writeMsize q none v s)

/-! ### The mailbox (R366, R367) -/

/-- Byte i of MBREQ. -/
def reqByte (o : Owner) (i : Nat) : Nat := bits (tget o.mbreq (i / 8) 0) (8 * (i % 8)) 8
/-- R367: request bytes outside the given ranges are zero. -/
def reqClear (o : Owner) (used : List (Nat × Nat)) : Bool :=
  (List.range 64).all fun i => (used.any fun r => decide (r.1 ≤ i) && decide (i < r.1 + r.2)) || decide (reqByte o i = 0)

/-- R366, R367: a command ends: MBRSP, then the status; the next VF's command may run. After status 1 MBRSP reads all zero
(DESIGN CHOICE, log entry 96). -/
def mailboxDone (f status : Nat) (rsp : List Byte) (s : State) : State :=
  let s := if status = 1 then logEvent (.refused 0x366) s else s
  let t : Tbl Byte := rsp.zipIdx.foldl (fun t p => tset 0 t p.2 p.1) []
  modMod (fun m => { m with doors := m.doors.tail })
    (modOwner f (fun o => { o with mbrsp := t, mbdoor := none, mbstat := status }) s)

/-- R366: a command of a VF is next: commands run one at a time in the order of their MBDOOR writes. -/
def mailboxNext (s : State) (f : Nat) (codes : Nat → Bool) : Bool :=
  decide (s.mod.doors.head? = some f) && (match (s.owner f).mbdoor with | some k => codes k | none => false)

/-- R215: bits of a field configuration register. -/
def mfcMask : W64 := 0xF1FFFF0000007FFF

/-- R216: cells of two configurations overlap. -/
def cellsOverlap (a b : W64) : Bool :=
  mV a && mV b && decide (mBase a < mBase b + mW b * mH b) && decide (mBase b < mBase a + mW a * mH a)

/-- R215, R216: the Arbiter refuses a configuration of field n accepted at GTB cycle t. SCOPE 3 and F above 256 are never
written, also with V = 0 (log entry 64). Other fields are compared as they are in force at t and under every change that is
not in force yet. -/
def mfcBad (t : Nat) (cl : Cluster) (n : Nat) (v : W64) : Bool :=
  let cells := mW v * mH v
  decide (256 < mF v) || decide (mScope v = 3) ||
    (mV v && (decide (15 < bits v 44 4 + bits v 40 4) || decide (mBase v % cells ≠ 0) || decide (cl.msize * 4096 < mBase v + cells) ||
      decide (v &&& ~~~mfcMask ≠ 0) ||
      ((List.range 8).any fun k => decide (k ≠ n) && cellsOverlap v (mfcAt cl k t)) ||
      cl.mfcLog.any fun k => decide (k.n ≠ n) && decide (t < k.e) && cellsOverlap v k.v))

/-- R223, R366: FIELD; the Arbiter chooses the effect cycle, a free value at least 4,096 cycles away. -/
def execField (f : Nat) (s : State) : Host.Outcome State Fault Refusal :=
  .next (
    let o := s.owner f
    if !mailboxNext s f (· = 1) then s
    else
      let w := tget o.mbreq 0 0
      let n := reqByte o 2
      let v := tget o.mbreq 1 0
      match clusterAt (s.part (vfPart o)) (bits w 0 15) with
      | none => mailboxDone f 1 [] s
      | some q =>
        if w.getLsbD 15 ∨ 7 < n ∨ !reqClear o [(0, 3), (8, 8)] ∨ mfcBad s.gtime (s.cluster q) n v then mailboxDone f 1 [] s
        else
          let (d, s) := drawNat s
          let e := s.gtime + 4096 + d
          let k : MarkChange := { n := n, e := e, v := v &&& mfcMask }
          mailboxDone f 0 (leBytes 8 e) (modCluster q (fun cl => { cl with
            mfcLog := insertChange k cl.mfcLog, mfcNext := insertChange k cl.mfcNext }) s))

/-- R221, R366: TICKS. A request whose TKSI has bits 63:32 set is refused, as R367 refuses a field out of range, although R5 lets a write
to reserved bits be ignored (DESIGN CHOICE, log entry 100). -/
def execTicks (f : Nat) (s : State) : Host.Outcome State Fault Refusal :=
  .next (
    let o := s.owner f
    if !mailboxNext s f (· = 2) then s
    else
      let b := (tget o.mbreq 0 0).toNat
      let i := (tget o.mbreq 1 0).toNat
      if !reqClear o [(0, 16)] ∨ 2 ^ 32 ≤ i ∨ (i ≠ 0 ∧ i < 4096) ∨ b < s.gtime + 2048 then mailboxDone f 1 [] s
      else
        let first := tickNumber (s.part (vfPart o)) (b - 1) + 1
        mailboxDone f 0 (leBytes 8 first) (modPart (vfPart o) (fun t => { t with
          oldTk := (t.oldTk ++ [(t.tksb, t.tksn, t.tksi)]).filter fun x => x.1 < b
          tksb := b, tksn := first, tksi := i }) s))

/-- R366, R376: CAP; a cap slower than a cluster's present or requested point is requested at once. -/
def execCap (f : Nat) (s : State) : Host.Outcome State Fault Refusal :=
  .next (
    let o := s.owner f
    let c := reqByte o 0
    if !mailboxNext s f (· = 4) then s
    else if !reqClear o [(0, 1)] ∨ 5 < c then mailboxDone f 1 [] s
    else
      let p := vfPart o
      let s := modPart p (fun t => { t with cap := c }) s
      mailboxDone f 0 [BitVec.ofNat 8 c]
        (forEach (clustersOf s p) (fun q s => holdCap p q s) s))

/-- R372: bytes 0 to 87 of the usage record. -/
def usageRecord (s : State) (f : Nat) : List Byte :=
  let o := s.owner f
  leBytes 8 o.ucyc.toNat ++ leBytes 8 o.upass.toNat ++ leBytes 8 o.udram.toNat ++ leBytes 8 (wholeMicro o.uenergy) ++
    leBytes 8 s.gtime ++ leBytes 8 s.mod.resets ++ ((List.range 32).map fun i => BitVec.ofNat 8 (reqByte o i)) ++
    leBytes 2 f ++ leBytes 6 0

/-- A signature of n bytes (a free value). -/
def signed (tag n : Nat) (l : List Byte) : List Byte := (List.range n).map fun i => (Config.signature tag l)[i]?.getD 0

/-- R366, R367, R372: SNAPSHOT. -/
def execSnapshot (f : Nat) (s : State) : Host.Outcome State Fault Refusal :=
  .next (
    let o := s.owner f
    if !mailboxNext s f (· = 3) then s
    else if !reqClear o [(0, 32)] then mailboxDone f 1 [] s
    else mailboxDone f 0 (usageRecord s f ++ signed 1 132 (usageRecord s f)) s)

/-- R366: a code that names no command. -/
def execMailboxUnknown (f : Nat) (s : State) : Host.Outcome State Fault Refusal :=
  .next (if mailboxNext s f (fun k => decide (k < 1 ∨ 4 < k)) then mailboxDone f 1 [] s else s)

/-! ### Host memory accesses and attestation (R361, R374) -/

/-- R361: a device range lies in banks of one partition, outside every save area (R332): so in one bank. -/
def hostRangeOk (s : State) (k n : Nat) : Bool :=
  isDram k && decide (k % 0x800000 + n ≤ Config.saveBase) && (s.cluster (k / 0x800000 / 8)).part.isSome

/-- R361: the device physical address of `n` bytes at a host physical address, through a decoder (log entry 13). A decoder
whose range is not one of R361 maps nothing. -/
def decodeHost (s : State) (hpa n : Nat) : Option Nat :=
  let m := s.mod
  let hit (i : Nat) : Bool :=
    let b := tget m.decoderBase i 0
    let base := bits b 28 19 * 0x10000000
    let len := bits (tget m.decoderMap i 0) 40 24 * 0x10000
    b.getLsbD 63 && decide (base ≤ hpa) && decide (hpa + n ≤ base + len) && hostRangeOk s (bits (tget m.decoderMap i 0) 0 40) len
  ((List.range 16).find? hit).map fun i =>
    bits (tget m.decoderMap i 0) 0 40 + (hpa - bits (tget m.decoderBase i 0) 28 19 * 0x10000000)

/-- The parts of `n` bytes at a host physical address that lie in one 64 KiB block each: every edge of a decoder's range is
one of a block. -/
def hostBlocks (hpa n : Nat) : List (Nat × Nat) :=
  (List.range ((hpa + n - 1) / 0x10000 - hpa / 0x10000 + 1)).map fun i =>
    let lo := max hpa ((hpa / 0x10000 + i) * 0x10000)
    (lo, min (hpa + n) ((hpa / 0x10000 + i + 1) * 0x10000) - lo)

/-- R63, R361: where the bytes of a host access lie: in device memory through a decoder, else in host memory. -/
def hostRuns (s : State) (hpa n : Nat) : List (Nat × Nat) :=
  match decodeHost s hpa n with
  | some k => [(k, n)]
  | none => (hostBlocks hpa n).map fun b => ((decodeHost s b.1 b.2).getD (Config.hostBase + b.1), b.2)

/-- Read physical runs. -/
def readRuns (src : Nat) : List (Nat × Nat) → State → List Byte × State
  | [], s => ([], s)
  | (k, n) :: r, s =>
    let (a, s) := physRead k n src s
    let (b, s) := readRuns src r s
    (a ++ b, s)

/-- Write physical runs; `some i`: stopped at byte i (R69). -/
def writeRuns (src : Nat) : List (Nat × Nat) → List Byte → Nat → State → Option Nat × State
  | [], _, _, s => (none, s)
  | (k, n) :: r, l, at_, s =>
    match physWrite k (l.take n) src s with
    | (some i, s) => (some (at_ + i), s)
    | (none, s) => writeRuns src r (l.drop n) (at_ + n) s

/-- R361: a host access: through a decoder column by column with SRC 5, else of the host's own memory, which device accesses
reach too (R63). A host address that no physical address of the device names faults (log entry 8). A read takes its length
from `l`. -/
def execHostMemAccess (write : Bool) (hpa : Nat) (l : List Byte) (s : State) : Host.Outcome State Fault Refusal :=
  if Config.hostBase < hpa + l.length then .fault .noHostAddress
  else
    .next (gate .host (fun s =>
      let runs := hostRuns s hpa l.length
      if write then (writeRuns 5 runs l 0 s).2
      else
        let r := readRuns 5 runs s
        modMod (fun m => { m with hostRead := r.1 }) r.2) s)

/-- R374: the measured bytes of a partition's configuration. -/
def partBytes (t : Partition) : List Byte :=
  leBytes 8 t.count ++ leBytes 8 t.key ++ leBytes 8 t.ptcfg.toNat ++ leBytes 8 t.fqcfg.toNat ++
    (List.range t.count).flatMap fun i => leBytes 8 (tget t.map i 0).toNat

/-- R374: the measurements, for PF0 (0) or VF `fn - 1`, with their signature. The spec lays out neither the response nor the
bytes that are signed (DESIGN CHOICE, log entry 65). -/
def measurements (s : State) (fn : Nat) : List Byte :=
  let w := s.mod.fw
  let base := sha512 w.image0 ++ sha512 w.image1 ++ leBytes 1 w.active ++ leBytes 8 (if w.active = 0 then w.version0 else w.version1)
  let part := if fn = 0 then [] else sha512 (partBytes (s.part (vfPart (s.owner (fn - 1)))))
  base ++ part ++ signed 3 132 (base ++ part)

/-- R374, R358: PF0 and the 64 virtual functions answer. -/
def execSpdmRequest (fn : Nat) (s : State) : Host.Outcome State Fault Refusal :=
  .next (if Config.vfs < fn then s else modMod (fun m => { m with spdm := m.spdm ++ [measurements s fn] }) s)

end Sys2Proof.Machine
end

