-- ==== Sys2Proof/Machine/Link.lean ====
section
/-!
DEFINITION. Themupel Links (R211, R368 to R371): operations of a peer device, ports and routes.
-/

namespace Sys2Proof.Machine

/-! ### Operations received (R211, R369, R370) -/

/-- R369, R370: an operation of a peer is applied: its value, or none where it is rejected. A read or write of an aperture of which no single
decoder maps every byte is rejected whole (DESIGN CHOICE, log entry 115). -/
def applyLink (paired : Bool) (op : LinkOp) (s : State) : Option (List Byte) × State :=
  match op with
  | .load q ofs n =>
    (match if paired then receive (s.cluster q) ofs n 0 else none with
    | none => (none, s)
    | some o => (some (readBytes s.mem (sramKey q o) n), s))
  | .put q ofs l =>
    (match if paired then receive (s.cluster q) ofs (max 1 l.length) 1 else none with
    | none => (none, s)
    | some o =>
      if remoteLocked s q o l.length then (none, s)
      else (some [], setFe (wordsOf (sramKey q o) l.length) true (sramWrite (sramKey q o) l none s)))
  | .store q ofs l =>
    (match if paired then receive (s.cluster q) ofs l.length 1 else none with
    | none => (none, s)
    | some o => if remoteLocked s q o l.length then (none, s) else (some [], sramWrite (sramKey q o) l none s))
  | .atomic q ofs k y e =>
    (match if paired then receive (s.cluster q) ofs (amoSize k) 2 else none with
    | none => (none, s)
    | some o =>
      if remoteLocked s q o (amoSize k) then (none, s)
      else
        let r := amoApply k (sramKey q o) y e none s
        (some (leBytes (amoSize k) r.1.toNat), r.2))
  | .bump q core n =>
    if !paired then (none, s)
    else (some [], match s.residentOn (q * 8 + core) with | some c => bump c (n % 64) 1 s | none => s)
  | .write hpa l =>
    (match decodeHost s hpa l.length with
    | none => (none, s)
    | some k =>
      match physWrite k l 5 s with
      | (none, s) => (some [], s)
      | (some _, s) => (none, s))
  | .read hpa n =>
    (match decodeHost s hpa n with
    | none => (none, s)
    | some k =>
      let r := physRead k n 5 s
      (some r.1, r.2))

/-- R204, R205: an operation of a peer on SRAM waits for writes that a release covers and that are still on their way to its
bytes. -/
def linkBusy (s : State) (op : LinkOp) : Bool :=
  let busy (q ofs n kind : Nat) : Bool :=
    match receive (s.cluster q) ofs n kind with
    | some o => coveredFirst s 4 q o n
    | none => false
  match op with
  | .load q ofs n => busy q ofs n 0
  | .put q ofs l | .store q ofs l => busy q ofs l.length 1
  | .atomic q ofs k _ _ => busy q ofs (amoSize k) 2
  | .bump .. | .write .. | .read .. => false

/-- R211: an answer goes to a peer; `n` is the sequence number expected next. -/
def answerLink (dev seq n : Nat) (v : Option (List Byte)) (s : State) : State :=
  modMod (fun m =>
    let l := tget m.links dev {}
    { m with links := tput m.links dev { l with seqIn := n, answers := l.answers ++ [(seq, v)] } }) s

/-- R211: an operation of a peer arrives with its pair's sequence number: the next one is applied and answered, an
earlier one is answered again and discarded, a later one waits for those before it (`linkBusy`: and for covered writes). -/
def execLinkOpReceive (dev seq : Nat) (paired : Bool) (op : LinkOp) (s : State) : Host.Outcome State Fault Refusal :=
  .next (
    let l := tget s.mod.links dev {}
    if !routeUp s.mod l ∨ l.seqIn < seq then s
    else if seq < l.seqIn then answerLink dev seq l.seqIn ((l.answers.find? fun a => a.1 = seq).bind (·.2)) s
    else if paired && linkBusy s op then s
    else gate (.link dev) (fun s =>
      let r := applyLink paired op s
      answerLink dev seq (l.seqIn + 1) r.1 r.2) s)

/-! ### Ports and routes (R368, R371) -/

/-- R371: the links after a change of ports. -/
def markRoutes (t : Nat) (m : Module) : Module :=
  { m with links := m.links.map fun (x : Nat × Link) => (x.1, afterPorts t m x.2) }

/-- R371: a port goes down and is logged; where it carries a pair's traffic, operations not acknowledged are sent again over the first
port of the route that is up. -/
def execLinkPortDown (p : Nat) (s : State) : Host.Outcome State Fault Refusal :=
  .next (
    if 12 ≤ p ∨ s.mod.portDown.contains p then s
    else logEvent (.port p) (modMod (fun m =>
      markRoutes s.gtime { m with portDown := p :: m.portDown }) s))

/-- R371: a port comes up; the operations of a route that had none are sent again. -/
def execLinkPortUp (p : Nat) (s : State) : Host.Outcome State Fault Refusal :=
  .next (modMod (fun m =>
    markRoutes s.gtime { m with portDown := m.portDown.filter fun x => x ≠ p }) s)

/-- The far end of an entry lies on a peer device: a linked cluster or an aperture. -/
def entryOn (s : State) (h : Ctx) (e : Entry) (dev : Nat) : Bool :=
  if e.far.getLsbD 63 then
    match senderCheck s h e.far false false with
    | .ok _ (some d) => decide (d = dev)
    | _ => false
  else e.part.any fun p => decide ((apertureOf s h.part (p.base + p.poff)).map (·.1) = some dev)

/-- R371: started entries to a peer fail under R180. -/
def failEntries (dev : Nat) (s : State) (x : Nat × Ctx) : Nat × Ctx :=
  let fail (e : Entry) : Entry :=
    if e.started && e.failed.isNone && decide (e.pos < e.len) && entryOn s x.2 e dev then
      { e with failed := some (notDone e 0) }
    else e
  (x.1, { x.2 with eng := { x.2.eng with q := x.2.eng.q.map fail } })

/-- R371: no port of the route came up within 1,000,000 cycles: every operation not acknowledged fails; the sequence space
goes on. The far bump of an entry that has completed (R179) has no entry left to fail: it is lost (DESIGN CHOICE, log entry 116). -/
def execLinkRouteTimeout (dev : Nat) (s : State) : Host.Outcome State Fault Refusal :=
  .next (
    let l := tget s.mod.links dev {}
    match l.down with
    | none => s
    | some t =>
      if s.gtime < t + 1000000 then s
      else
        let s := forEach l.unacked (fun p s => match p.body with
          | .load _ | .store _ | .atomic .. => rejected p s
          | .put _ eid | .get _ eid | .bump _ _ eid => rejectedEntry p eid s
          | _ => acknowledge p s) s
        let ctxs := s.ctxs.map (failEntries dev s)
        { s with ctxs := ctxs })

end Sys2Proof.Machine
end

