-- ==== Sys2Proof/Machine/Power.lean ====
section
/-!
DEFINITION. Operating points, power and temperature (R375 to R379), reset and firmware (R373), errors, lasting faults,
isolation and the grade map (R68, R349, R355 to R357).
-/

namespace Sys2Proof.Machine

/-! ### Operating points (R375 to R379) -/

/-- The cap in force at a cluster (R366). -/
def capOf (s : State) (q : Nat) : Nat := match serves (s.cluster q) with | some p => (s.part p).cap | none => 0

/-- R376: the governor's evaluation: both counters are reset and a neighbouring point may be requested. With ACT = 0 there
is no ratio and the request stays as it was (DEDUCED, log entry 97). -/
def execGovernorEval (q : Nat) (s : State) : Host.Outcome State Fault Refusal :=
  .next (
    let p := (s.cluster q).power
    if s.gtime % 10000 ≠ 0 then s
    else
      let s := modCluster q (fun cl => { cl with power := { cl.power with act := 0, stl := 0 } }) s
      if p.act = 0 then s
      else if p.act ≤ 2 * p.stl ∧ p.point < 5 then requestPoint q (max (p.point + 1) (capOf s q)) s
      else if 5 * p.stl ≤ p.act ∧ 0 < p.point ∧ capOf s q ≤ p.point - 1 then requestPoint q (p.point - 1) s
      else s)

/-- R377: the slowest point, at most `n`, whose voltage meets a floor. -/
def floorPoint (mv : Nat) : Nat → Nat
  | 0 => 0
  | n + 1 => if Config.millivolts (n + 1) < mv then floorPoint mv n else n + 1

/-- R377, R379: the point at which a cluster is to run: the requested one, one slower while throttled, and none below the
voltage floor. -/
def targetPoint (p : Power) : Nat := floorPoint p.floor (if p.throttled then min 5 (p.req + 1) else p.req)

/-- R377: one step towards the point: to lower the clock, the clock falls first; to raise it, the voltage rises first. -/
def execOperatingPointStep (q : Nat) (s : State) : Host.Outcome State Fault Refusal :=
  .next (
    let p := (s.cluster q).power
    let t := targetPoint p
    if p.stepping.isSome ∨ p.point = t then s
    else if p.point < t then modCluster q (fun cl => { cl with power := { cl.power with point := p.point + 1 } }) s
    else modCluster q (fun cl => { cl with power := { cl.power with stepping := some (p.point - 1), stepSince := s.gtime } }) s)

/-- R377: the regulator reports the voltage settled: the clock rises. -/
def execVoltageSettled (q : Nat) (s : State) : Host.Outcome State Fault Refusal :=
  .next (match (s.cluster q).power.stepping with
    | none => s
    | some p => modCluster q (fun cl => { cl with power := { cl.power with point := p, stepping := none } }) s)

/-- R377: the Arbiter sets the voltage floor; above the present voltage the cluster steps up. A request under way whose
voltage lies below the floor is denied and logged: the cluster stays at its point. A faster request stands. -/
def execVoltageFloorChange (q mv : Nat) (s : State) : Host.Outcome State Fault Refusal :=
  .next (
    let p := (s.cluster q).power
    let denied := decide (Config.millivolts p.req < mv)
    let s := modCluster q (fun cl => { cl with power := { cl.power with
      floor := mv, req := if denied then floorPoint mv p.point else p.req } }) s
    if denied ∧ p.req ≠ p.point then logEvent (.denied q) s else s)

/-- R379: clusters of a package are taken in turn: those between the last one taken and `q` are throttled already. -/
def nextInTurn (s : State) (q : Nat) : Bool :=
  let from_ (x : Nat) : Nat := (x + Config.clusters - s.mod.lastTaken - 1) % Config.clusters
  decide ((s.clusters.filter fun x => decide (x.1 < Config.clusters) && x.2.power.throttled && decide (from_ x.1 < from_ q)).length = from_ q)

/-- R379: while a limit is exceeded one cluster per 100 µs is throttled, round robin from a cluster of the hottest die, which
the first event of an excess names (log entry 26). A cluster that would fall below its voltage floor stays at its point,
and the denial is logged (R377). -/
def execPowerThrottle (q : Nat) (s : State) : Host.Outcome State Fault Refusal :=
  .next (
    let p := (s.cluster q).power
    if Config.clusters ≤ q ∨ p.throttled ∨ (s.mod.overLimit ∧ (s.gtime < s.mod.lastThrottle + 100000 ∨ !nextInTurn s q)) then s
    else
      let s := modCluster q (fun cl => { cl with power := { cl.power with throttled := true } })
        (modMod (fun m => { m with overLimit := true, lastThrottle := s.gtime, lastTaken := q }) s)
      if Config.millivolts (min 5 (p.req + 1)) < p.floor then logEvent (.denied q) s else s)

/-- R379: neither limit is exceeded any more. -/
def execPowerLimitCleared (s : State) : Host.Outcome State Fault Refusal :=
  .next (
    let clear (cl : Cluster) : Cluster := { cl with power := { cl.power with throttled := false } }
    modMod (fun m => { m with overLimit := false }) { s with clusters := s.clusters.map fun x => (x.1, clear x.2) })

/-! ### Reset and firmware (R355, R373, R379) -/

/-- R355: since when a lasting fault is to be isolated, after a module reset: one that was isolated before is isolated anew,
from the reset on; of one that was not, the time goes on. -/
def keepSince (s : State) (u : FaultUnit) (since : Nat) : Nat := if (openFaults s).contains u then since else s.now

/-- What bank `g` keeps over a module reset: the Arbiter's counts and, with the contents, damage and keys (log entry 34). -/
def keepBank (s : State) (g : Nat) (b : Bank) : Bank :=
  { damage := b.damage, keys := b.keys, corrected := b.corrected, badCols := b.badCols, badRows := b.badRows, rewritten := b.rewritten
    lasting := b.lasting.map (keepSince s (.bank g))
    lastingRows := b.lastingRows.map fun x => (x.1, keepSince s (.row g x.1) x.2) }

/-- What cluster `q` keeps: the Arbiter's counts (R355). -/
def keepCluster (s : State) (q : Nat) (cl : Cluster) : Cluster :=
  { corrected := cl.corrected, uncorrected := cl.uncorrected, lasting := cl.lasting.map (keepSince s (.cluster q)) }

/-- The machine after a module reset: what `State.reset` gives, with DRAM and host memory, the event log and the count
of resets kept (R355, R372; log entry 34). -/
def resetModule (fw : Firmware) (s : State) : State :=
  { State.reset with
    cur := s.cur, agenda := s.agenda, choice := s.choice, moveNo := s.moveNo, freeNo := s.freeNo, nextId := s.nextId
    mem := s.mem.filter fun c => c.1 < Config.sramBase
    banks := s.banks.map fun x => (x.1, keepBank s x.1 x.2)
    clusters := s.clusters.map fun x => (x.1, keepCluster s x.1 x.2)
    mod := { log := s.mod.log, resets := s.mod.resets + 1, lasting := loggedFaults s.mod.log, fw := fw, epoch := s.now } }

/-- R373: at a module reset a pending image runs, on trial. -/
def switchFirmware (w : Firmware) : Firmware :=
  if w.pending then { w with active := 1 - w.active, pending := false, trial := true } else w

/-- Module reset. -/
def execModuleReset (s : State) : Host.Outcome State Fault Refusal := .next (resetModule (switchFirmware s.mod.fw) s)

/-- R379: at 115 °C the module logs the event and enters reset. -/
def execThermalReset (s : State) : Host.Outcome State Fault Refusal :=
  .next (resetModule (switchFirmware s.mod.fw) (logEvent .thermal s))

/-- R373: an image is accepted, or refused and logged (the logging: DESIGN CHOICE, log entry 98). -/
def execFirmwareImage (image : List Byte) (version : Nat) (s : State) : Host.Outcome State Fault Refusal :=
  .next (
    let w := s.mod.fw
    if Config.signatureValid image ∧ w.fused ≤ version then
      modMod (fun m => { m with fw :=
        if w.active = 0 then { w with image1 := image, version1 := version, pending := true }
        else { w with image0 := image, version0 := version, pending := true } }) s
    else logEvent (.refused 0x373) s)

/-- R373: 2 s in GTB cycles. -/
def healthLimit : Nat := 2000000000

/-- R373: the image on trial reports healthy: the fused minimum rises to its version. -/
def execFirmwareHealthy (s : State) : Host.Outcome State Fault Refusal :=
  .next (
    let w := s.mod.fw
    if w.trial ∧ s.gtime ≤ healthLimit then
      modMod (fun m => { m with fw := { w with trial := false, fused := max w.fused (if w.active = 0 then w.version0 else w.version1) } }) s
    else s)

/-- R373: no health report within 2 s: the module starts again from the other slot, and the failure is logged. An image that
was accepted into that slot meanwhile starts on trial. -/
def execFirmwareHealthTimeout (s : State) : Host.Outcome State Fault Refusal :=
  .next (
    let w := s.mod.fw
    if w.trial ∧ healthLimit ≤ s.gtime then
      resetModule { w with active := 1 - w.active, trial := w.pending, pending := false } (logEvent .firmware s)
    else s)

/-! ### Errors (R68, R355) -/

/-- Toggle an element of a sorted list. -/
def toggle (n : Nat) : List Nat → List Nat
  | [] => [n]
  | x :: r => if x = n then r else if n < x then n :: x :: r else x :: toggle n r

/-- R68, R355: a soft error: a stored bit flips, or an SRAM error is met. -/
def execSoftError (e : SoftError) (s : State) : Host.Outcome State Fault Refusal :=
  .next (match e with
    | .column g col bit_ => if 288 ≤ bit_ then s
        else modBank g (fun b => { b with damage := tset [] b.damage col (toggle bit_ (tget b.damage col [])) }) s
    | .clusterCorrected q => modCluster q (fun cl =>
        let l := (s.now :: cl.corrected).take 17
        { cl with corrected := l, lasting := if cl.lasting.isNone && manyCorrected l then some s.now else cl.lasting }) s
    | .clusterUncorrectable q core =>
      let s := modCluster q (fun cl => { cl with uncorrected := true, lasting := some (cl.lasting.getD s.now) }) s
      match s.residentOn (q * 8 + core) with
      | some c => haltCore c 0 0 (commitChunk c s)
      | none => s)

/-- R355: since when a unit's events are a lasting fault, on the clock of the event log. -/
def lastingSince (s : State) (u : FaultUnit) : Option Nat :=
  match u with
  | .bank g => (s.bank g).lasting
  | .row g r => ((s.bank g).lastingRows.find? fun x => x.1 = r).map (·.2)
  | .cluster q => (s.cluster q).lasting

/-- R355: a unit's events have become a lasting fault. -/
def isLasting (s : State) (u : FaultUnit) : Bool := (lastingSince s u).isSome

/-- R357: a service request is raised. -/
def raiseService (s : State) : State := modMod (fun m => { m with rasstat := m.rasstat ||| 0x8000000000000000 }) s

/-- R355, R357: a lasting fault is logged, and a service request raised. -/
def execLastingFault (u : FaultUnit) (s : State) : Host.Outcome State Fault Refusal :=
  .next (
    if !isLasting s u ∨ s.mod.lasting.contains u ∨ (loggedFaults s.mod.log).contains u then s
    else raiseService (logEvent (.fault u) (modMod (fun m => { m with lasting := m.lasting ++ [u] }) s)))

/-! ### Isolation (R356, R357) -/

/-- R356: EVENT 0x0011 at the core that FQCFG names, where the partition's table reaches a retired frame: whatever FQCFG.V, not
while the map entry of VCN 0 is absent, and anew with each later retirement (DESIGN CHOICE, log entry 88). -/
def tableEvent (p : Nat) (s : State) : State :=
  let t := s.part p
  let v := t.ptcfg
  if v.getLsbD 63 && tableRetired s (bits v 0 48) (bits v 61 2) (2 ^ (bits v 48 5 + 7)) then
    match clusterAt t 0 with
    | some q => raiseEvent (q * 8 + bits t.fqcfg 48 3) 0x11 s
    | none => s
  else s

/-- R356, R357: frames of a bank are retired and counted; what is translated and not yet done is translated again. -/
def retireFrames (g : Nat) (l : List Nat) (s : State) : State :=
  let new := l.filter fun f => !(s.bank g).retired.contains f
  let s := untranslateAll (modBank g (fun b => { b with retired := new ++ b.retired }) s)
  let s := modMod (fun m => { m with rasstat := m.rasstat + w64 new.length }) s
  match new, (s.cluster (pcnOf g)).part with
  | _ :: _, some p => tableEvent p s
  | _, _ => s

/-- R356: a fault leaves the list once isolated. -/
def isolated (u : FaultUnit) (s : State) : State := modMod (fun m => { m with lasting := m.lasting.erase u }) s

/-- R356: the partition of a fenced cluster stops at the earliest accepted cycle; a stop announced for later is brought
forward (log entry 49). -/
def stopFor (p : Nat) (s : State) : State :=
  modPart p (fun t => { t with stop := if t.stopped then t.stop else some (min (t.stop.getD (s.gtime + 2048)) (s.gtime + 2048)) }) s

/-- R356: a cluster leaves its partition: its map entry, the gangs of its VCN, that one too whose members have all exited
while its record is not yet written (DESIGN CHOICE, log entry 94). -/
def dropCluster (p q : Nat) (s : State) : State :=
  let v := vcnFor (s.part p) q
  let s := setPresent p q false s
  let gone := (s.tasks.filter fun k => decide (k.2.part = p) && decide (some k.2.vcn = v) &&
    (decide (k.2.phase = .placed) || decide (k.2.phase = .evicted) || decide (k.2.phase = .exited))).map (·.1)
  forEach gone (fun k s => endTask k 4 s) s

/-- R357: a cluster is marked as fenced and counted in RASSTAT.FENCED. -/
def markFenced (q : Nat) (s : State) : State :=
  modMod (fun m => { m with rasstat := m.rasstat + 0x100000000 }) (modCluster q (fun cl => { cl with fenced := true }) s)

/-- R356: the saved gangs of a lender whose VCN a fenced cluster takes away for good, where it is fenced while it is lent. -/
def dropLent (p q : Nat) (s : State) : State :=
  match (s.cluster q).part with
  | some l => if l = p then s else dropCluster l q s
  | none => s

/-- R356: a cluster is fenced, once for all its faults: at once where it serves no partition, else once its partition's stop
is complete: of a lent cluster that of its borrower, whose cores run on it (DESIGN CHOICE, log entry 87). -/
def fence (u : FaultUnit) (q : Nat) (s : State) : State :=
  if (s.cluster q).fenced then isolated u s
  else match serves (s.cluster q) with
  | none => isolated u (markFenced q s)
  | some p =>
    if (s.part p).stopped && (s.part p).complete then resume p (isolated u (dropLent p q (dropCluster p q (markFenced q s)))) else stopFor p s

/-- R356: isolation, a step at a time: a row's frame is retired; a bank's frames are retired and its cluster fenced. -/
def execIsolateFault (u : FaultUnit) (s : State) : Host.Outcome State Fault Refusal :=
  .next (
    if !s.mod.lasting.contains u then s
    else
      let s := raiseService s
      match u with
      | .row g r => isolated u (retireFrames g [r / 64] s)
      | .bank g => fence u (pcnOf g) (retireFrames g (List.range 120) s)
      | .cluster q => fence u q s)

/-! ### The grade map (R285, R349) -/

/-- A byte of a page lies in a 1 KiB region of a bank. -/
def pageHits (e : BitVec 128) (g region : Nat) : Bool :=
  let n := ilBanks (pteIl e)
  let base := pteBase e
  let lo := base % 0x800000 / 1024
  !e.getLsbD 47 && decide (base / 0x800000 ≤ g) && decide (g < base / 0x800000 + n) && decide (lo ≤ region) &&
    decide (region < lo + (pteSize e / n + 1023) / 1024)

/-- Entries of a bucket of a table. -/
def bucketAt (s : State) (v : W64) (i : Nat) : List (BitVec 128) :=
  let k := pageToPhys (128 * i) (bits v 0 48) (bits v 61 2)
  entriesOf 8 (readBytes s.mem k 128)

/-- R349: a cached or walkable entry maps the region with a grade. -/
def gradeMapped (s : State) (g region grade : Nat) : Bool :=
  let bad (e : BitVec 128) : Bool := e.getLsbD 63 && decide (pteGr e = grade) && pageHits e g region
  (s.clusters.any fun x => x.2.tlb.any fun t => bad t.pte) ||
    s.parts.any fun x =>
      let v := x.2.ptcfg
      v.getLsbD 63 && (List.range (2 ^ bits v 48 5)).any fun i => (bucketAt s v i).any bad

/-- The number of a grade. -/
def gradeNo (g : Grade) : Nat := match g with | .s => 0 | .d => 1 | .p => 2

/-- R349: a column is read under the old grade, SRC 6; what it delivers. -/
def gradeRead (g col : Nat) (s : State) : List Byte × State :=
  let r := readCol g col 6 s
  (r.1.bytes, if r.1.unc then logEvent (.gradeError g col) r.2 else r.2)

/-- R349: the Arbiter changes the grade of a region; every column is rewritten, its metadata zero. -/
def execGradeChange (g region : Nat) (grade : Grade) (s : State) : Host.Outcome State Fault Refusal :=
  .next (
    if Config.cores ≤ g ∨ 8192 ≤ region ∨ gradeMapped s g region (tget (s.bank g).grades region 0) then s
    else gate .arbiter (fun s =>
      let cols := stride (region * 32) 1 32
      let r := cols.foldl (fun (p : List (List Byte) × State) c =>
        let x := gradeRead g c p.2
        (p.1 ++ [x.1], x.2)) ([], s)
      let s := modBank g (fun b => { b with grades := tset 0 b.grades region (gradeNo grade) }) r.2
      forEach (cols.zip r.1) (fun x s => modBank g (fun b => { b with mdata := tdel b.mdata x.1 }) (writeCol g x.1 x.2 s)) s) s)

end Sys2Proof.Machine
end

