-- ==== Sys2Proof/Machine/Clock.lean ====
section
/-!
DEFINITION. The passing of GTB time (R1, R149) and what it waits for: where the spec gives a moment or a bound, the event
takes place before time passes it (R383). Counters that follow time: CYCLE, ACT and STL, UCYC, occupied core cycles, hang
counters.
-/

namespace Sys2Proof.Machine

/-! ### Moments and bounds, as GTB cycles that time does not pass before their events (log entry 66) -/

/-- The first multiple of n that is not before a cycle. -/
def nextMultiple (n t : Nat) : Nat := (t + n - 1) / n * n

/-- R154: STOPAT retires within 1,024 cycles. -/
def stopatDue (h : Ctx) : Option Nat :=
  match h.wait with
  | .stopat _ _ since => if h.halted then none else some (since + 1024)
  | _ => none

/-- R336, R337: a stop takes place at T, sends its tokens at T + 64 and completes by T + 500,000. -/
def stopDues (s : State) (p : Nat) (t : Partition) : List Nat :=
  t.stop.toList ++
    (if t.stopped && (clustersOf s p).any fun q => !t.flushed.contains (dieOf q) then [t.stoppedAt + 64] else []) ++
    (if t.stopped && !t.complete then [t.stoppedAt + 500000] else [])

/-- R323: a dispatch opportunity at every multiple of 16 with a candidate that fits. -/
def dispatchDue (s : State) (p : Nat) (t : Partition) : Option Nat :=
  if !t.live ∨ t.stopped ∨ (candidates s p).isEmpty then none
  else if t.dispatches ≠ 0 ∧ t.lastDispatch = s.gtime then some (nextMultiple 16 (s.gtime + 1))
  else some (nextMultiple 16 s.gtime)

/-- R340: a recall completes within 1 ms of the request. -/
def recallDues (s : State) (p : Nat) (t : Partition) : List Nat :=
  (t.recalls.filter fun r => s.clusters.any fun x => decide (x.2.part = some r.1) && decide (x.2.lent = some p)).map fun r =>
    r.2 + 1000000

/-- R329: whether a task's hang counter advances. -/
def hangRuns (s : State) (k : Task) : Bool :=
  let live := k.members.filter fun m => (s.ctx m).exited.isNone
  decide (k.phase = .placed) && !live.isEmpty && live.all (fun m => (s.ctx m).resident) && !throttled s k

/-- R329: the hang counter of a task reaches its limit. -/
def hangDue (s : State) (k : Task) : Option Nat :=
  let lim := vfHanglim (s.owner (s.launch k.launch).vf) * 0x1000000
  if lim = 0 ∨ !hangRuns s k then none else some (s.gtime + (lim - k.hang))

/-- R371: operations on a route without a port fail after 1,000,000 cycles. -/
def linkDue (l : Link) : Option Nat := if l.unacked.isEmpty then none else l.down.map fun t => t + 1000000

/-- R376, R377: the governor's evaluation of a cluster that has counted, or that has resident harts to count, and the end of
a step of its voltage within 5 µs. -/
def powerDues (s : State) (q : Nat) (p : Power) : List Nat :=
  (if p.act ≠ 0 then [nextMultiple 10000 s.gtime]
    else if s.ctxs.any fun x => x.2.resident && decide (pcnOf x.2.gcn = q) then [nextMultiple 10000 (s.gtime + 1)] else []) ++
    (if p.stepping.isSome then [p.stepSince + 5000] else [])

/-- R379: while a limit is exceeded a cluster is taken every 100 µs. -/
def throttleDue (s : State) : Option Nat :=
  if s.mod.overLimit && decide ((s.clusters.filter fun x => decide (x.1 < Config.clusters) && x.2.power.throttled).length < Config.clusters)
  then some (s.mod.lastThrottle + 100000) else none

/-- R365: CTIME after the oldest unsignalled record. -/
def signalDue (o : Owner) : Option Nat :=
  if bits o.evcfg 24 16 = 0 ∨ o.unsignalled = 0 then none else some (o.oldest + bits o.evcfg 24 16 * 1024)

/-- R355, R356: a lasting fault is isolated within 5 ms; where that takes a stop of a partition, the stop is announced in
time for that. The partition is not resumed before (`resume`), and no other one takes the cluster. -/
def faultDue (s : State) (u : FaultUnit) : Option Nat :=
  (lastingSince s u).map fun since =>
    let end_ := since + 5000000 - s.mod.epoch
    match fencedWith u with
    | none => end_
    | some q =>
      match if (s.cluster q).fenced then none else serves (s.cluster q) with
      | none => end_
      | some p =>
        let t := s.part p
        let announce := end_ - 502112
        if t.stopped then end_
        else match t.stop with
          | none => announce
          | some u => if u ≤ s.gtime + 2048 ∨ u + 500000 ≤ end_ then end_ else announce

/-- R31, R154, R219, R222, R289, R323, R329, R330, R336, R337, R340, R355, R365, R371, R373, R376, R377, R379. -/
def dues (s : State) : List Nat :=
  markDues s ++
    s.banks.filterMap (fun b => windowDue s b.2) ++
    s.banks.filterMap (fun b => if b.2.slot then some (b.2.lastCol + 1280) else none) ++
    s.ctxs.filterMap (fun x => stopatDue x.2) ++
    s.parts.flatMap (fun x => stopDues s x.1 x.2 ++ (dispatchDue s x.1 x.2).toList ++ recallDues s x.1 x.2) ++
    s.tasks.filterMap (fun x => hangDue s x.2) ++
    s.mod.links.filterMap (fun x => linkDue x.2) ++
    s.clusters.flatMap (fun x => powerDues s x.1 x.2.power) ++
    (throttleDue s).toList ++
    s.owners.filterMap (fun x => signalDue x.2) ++
    (openFaults s).filterMap (faultDue s) ++
    (if s.mod.fw.trial then [healthLimit] else [])

/-- How many cycles pass when `dt` are asked for: none past a moment whose event has not taken place. -/
def roomFor (s : State) (dt : Nat) : Nat := (dues s).foldl (fun n t => min n (t - s.gtime)) dt

/-! ### Counters that follow time -/

/-- R375: core cycles of a cluster between two GTB cycles. -/
def coreCycles (cl : Cluster) (t dt : Nat) : Nat :=
  (t + dt) * Config.clock cl.power.point / 10 - t * Config.clock cl.power.point / 10

/-- R149, R148: CYCLE of a resident hart advances; IPEND.TIMER follows GTIME. -/
def tickCtx (s : State) (dt : Nat) (h : Ctx) : Ctx :=
  { h with csr := { h.csr with
    cycle := if h.resident then h.csr.cycle + w64 (coreCycles (s.cluster (pcnOf h.gcn)) s.gtime dt) else h.csr.cycle
    timer := decide (h.csr.tcmp.toNat ≤ (s.gtime + dt) % 0x10000000000000000) } }

/-- R376: ACT counts the core cycles of resident harts, STL those in which a hart issued nothing: all of them for a hart
that waits, was halted or has ended; of the others the count is a free value. -/
def tickPower (here : List Ctx) (n draw : Nat) (p : Power) : Power :=
  let idle := (here.filter fun h => decide (h.wait ≠ .none) || h.halted || h.exited.isSome).length
  { p with act := p.act + here.length * n, stl := p.stl + idle * n + draw % ((here.length - idle) * n + 1) }

/-- R25: core cycles occupied by each task. -/
def occupy (here : List Ctx) (n : Nat) (t : Tbl Nat) : Tbl Nat :=
  (here.filterMap fun h => h.task).foldl (fun t k => tset 0 t k (tget t k 0 + n)) t

/-- R372: UCYC counts the core cycles of an owner's resident harts. -/
def chargeCycles (dt : Nat) (s : State) : State :=
  forEach (s.ctxs.filter fun p => p.2.resident) (fun p s =>
    match p.2.task with
    | none => s
    | some t =>
      modOwner (s.launch (s.task t).launch).vf (fun o =>
        { o with ucyc := o.ucyc + w64 (coreCycles (s.cluster (pcnOf p.2.gcn)) s.gtime dt) }) s) s

/-- R329: the hang counters advance by `dt` cycles. -/
def advanceHang (dt : Nat) (s : State) : State :=
  { s with tasks := s.tasks.map fun t => if hangRuns s t.2 then (t.1, { t.2 with hang := t.2.hang + dt }) else t }

/-- `dt` cycles pass. -/
def elapse (dt : Nat) (s : State) : State :=
  let (draw, s) := drawNat s
  let s := advanceHang dt (chargeCycles dt s)
  { s with
    gtime := s.gtime + dt
    ctxs := s.ctxs.map fun p => (p.1, tickCtx s dt p.2)
    clusters := s.clusters.map fun q =>
      let here := (s.ctxs.filter fun p => p.2.resident && pcnOf p.2.gcn = q.1).map (·.2)
      let n := coreCycles q.2 s.gtime dt
      (q.1, { q.2 with power := tickPower here n draw q.2.power, occupied := occupy here n q.2.occupied }) }

/-- R1, R149, R383: `dt` cycles of the global time base pass, or fewer where an event is due before. -/
def passTime (dt : Nat) (s : State) : State := elapse (roomFor s dt) s

end Sys2Proof.Machine
end

