-- ==== Sys2Proof/Machine/Bank.lean ====
section
/-!
DEFINITION. Bank commands (R290 to R302), the stream slots of a stack (R289), and the events by which commands run.
-/

namespace Sys2Proof.Machine

/-! ### Issue (R295) -/

/-- R315: on a core of a lent cluster major 0x2E is illegal. -/
def bankInstr (i : Instr) (f : Nat → Ctx → State → State) (s : State) : State :=
  coreOnly s fun c h =>
    if (s.cluster (pcnOf h.gcn)).lent.isSome then illegal c i s else outside c (f c) s

/-- R290: a command takes a queue entry, or issue stalls while all 16 are held: those of this hart, so that commands of a hart that is
saved take none from the hart that is resident (DESIGN CHOICE, log entry 104). -/
def queueCmd (c : Nat) (k : BCmd) (next : State → State) (s : State) : State :=
  if Config.queueLen ≤ (s.ctx c).eng.bq.length then s else next (modEng c (fun e => { e with bq := e.bq ++ [k] }) s)

/-- R296. -/
def execBkload (a b : R5) (s : State) : Host.Outcome State Fault Refusal :=
  .next (bankInstr (.bkload a b) (fun c h s =>
    let x := getG h.regs a
    let ctl := getG h.regs b
    if x.toNat % 8 ≠ 0 then trapHere c 4 x s
    else if !(inPad x.toNat 4096 && protOk h.csr.pw h.priv x.toNat 4096 { x := true }) then trapHere c 5 x s
    else queueCmd c { kind := .load x, ce := ctl.getLsbD 7, cnt := bits ctl 0 6 } (retire c) s) s)

/-- R297. -/
def execBkrun (a b : R5) (s : State) : Host.Outcome State Fault Refusal :=
  .next (bankInstr (.bkrun a b) (fun c h s =>
    let ctl := getG h.regs b
    queueCmd c { kind := .run ((getG h.regs a).truncate 32), ce := ctl.getLsbD 7, cnt := bits ctl 0 6 } (retire c) s) s)

/-- R298, R332: a range of a bank reaches the save area. -/
def reachesSave (o n : Nat) : Bool := decide (n ≠ 0) && decide (Config.saveBase < o + n)

/-- R298; check 1 is that of an illegal instruction, before every other (R82). -/
def execBkcopy (a b k : R5) (s : State) : Host.Outcome State Fault Refusal :=
  .next (coreOnly s fun c h => if bits (getG h.regs k) 48 8 ≠ 0 then illegal c (.bkcopy a b k) s else
    bankInstr (.bkcopy a b k) (fun c h s =>
    let x := getG h.regs a
    let y := getG h.regs b
    let g := getG h.regs k
    let n := bits g 0 32
    let o := bits y 0 23
    let core := 4 * (coreOf h.gcn / 4) + bits y 24 2
    if x.toNat % 32 ≠ 0 ∨ o % 32 ≠ 0 ∨ n % 32 ≠ 0 then trapHere c 4 x s
    else if bits x 23 41 ≠ 0 ∨ y &&& ~~~0x37FFFFF#64 ≠ 0 ∨ Config.bankBytes < x.toNat + n ∨ Config.bankBytes < o + n ∨
        !(gangCores s c).contains core then trapHere c 6 y s
    else if reachesSave x.toNat n then trapHere c 6 x s
    else if reachesSave o n then trapHere c 6 y s
    else queueCmd c
      { kind := .copy x.toNat (pcnOf h.gcn * 8 + core) o n, ce := g.getLsbD 39, cnt := bits g 32 6, rce := g.getLsbD 47, rcnt := bits g 40 6 }
      (retire c) s) s)

/-- R299: what BKFENCE waits for. -/
def bankBusy (h : Ctx) : Bool :=
  !h.eng.bq.isEmpty || h.eng.q.any fun e => isVirtual e && decide (e.kind ≠ .madd)

/-- R292, R299: the hart's column writes are performed, and BKFENCE takes a pending poison, or retires. -/
def bkfenceDone (c : Nat) (s : State) : State :=
  let s := performed c s
  match (s.ctx c).eng.poison with
  | some p => trapHere c 0x1C p.tvalue (modEng c (fun e => { e with poison := none }) s)
  | none => retire c s

/-- R299. -/
def execBkfence (s : State) : Host.Outcome State Fault Refusal :=
  .next (bankInstr .bkfence (fun c h s => if bankBusy h then setWait c .bkfence s else bkfenceDone c s) s)

/-- R299: the stall of BKFENCE ends. -/
def execBkfenceWaitEnd (c : Nat) (s : State) : Host.Outcome State Fault Refusal :=
  .next (
    let h := s.ctx c
    if h.wait = .bkfence ∧ mayWake s h ∧ !bankBusy h then bkfenceDone c s else s)

/-- R300: the record that a selector picks. -/
def bankRecord (b : Bank) (e : Engines) (sel : Nat) : W64 :=
  if sel = 0 then b.berr0 else if sel = 1 then b.berr1 else if sel = 2 then b.lstat
  else match e.poison with | some p => p.tvalue | none => 0

/-- R300. -/
def execBkerr (d a : R5) (s : State) : Host.Outcome State Fault Refusal :=
  .next (bankInstr (.bkerr d a) (fun c h s =>
    let x := getG h.regs a
    let v := bankRecord (s.bank h.gcn) h.eng (bits x 0 2)
    finishG c d v (if x.getLsbD 2 ∧ bits x 0 2 < 2 then modBank h.gcn (fun b => { b with berr0 := 0, berr1 := 0 }) s else s)) s)

/-- R302. -/
def execBkmeta (d a b k : R5) (s : State) : Host.Outcome State Fault Refusal :=
  .next (bankInstr (.bkmeta d a b k) (fun c h s =>
    let x := getG h.regs a
    if x.toNat % 32 ≠ 0 then trapHere c 4 x s
    else if bits x 23 41 ≠ 0 ∨ reachesSave x.toNat 32 then trapHere c 6 x s
    else queueCmd c { kind := .mdx d x.toNat (getG h.regs b) (getG h.regs k) } (setWait c .bkmeta) s) s)

/-! ### Completion (R290 to R292) -/

/-- R290: commands of one bank execute one at a time; another context of the same core may have one running. -/
def bankFree (s : State) (c : Nat) : Bool :=
  let g := (s.ctx c).gcn
  (s.bank g).run.isNone && s.ctxs.all fun p =>
    decide (p.1 = c) || decide (p.2.gcn ≠ g) || (match p.2.eng.bq with | k :: _ => !k.started | [] => true)

/-- The command at the head of a context's queue. -/
def headCmd (s : State) (c : Nat) : Option BCmd := (s.ctx c).eng.bq.head?

/-- Replace the command at the head. -/
def setHeadCmd (c : Nat) (k : BCmd) (s : State) : State :=
  modEng c (fun e => { e with bq := match e.bq with | _ :: r => k :: r | [] => [] }) s

/-- R291, R292: the command at the head completes: its counter is bumped by 1, the first uncorrectable column read makes
a pending poison where none is pending, and it leaves the queue. `second`: a counter of the owner that it bumps besides. -/
def completeCmd (c : Nat) (psn : Option Nat) (kind : Nat) (second : Option Nat) (s : State) : State :=
  let was (n : Nat) : Nat × W64 := (n, getCc (s.ctx c) n)
  match headCmd s c with
  | none => s
  | some k =>
    let s := if k.ce then bump c k.cnt 1 s else s
    modEng c (fun e => { e with
      bq := e.bq.tail
      poison := match e.poison, psn with
        | none, some o => some
          { tvalue := w64 (kind * 2 ^ 24 + o % 2 ^ 23), counter := if k.ce then some (was k.cnt) else none, second := second.map was }
        | p, _ => p }) s

/-- R291, R296: a BKLOAD reads the scratchpad (the image of a saved hart, R338), once the hart's own stores to the span have
arrived there (R293), and writes code memory. -/
def execBkloadComplete (c : Nat) (s : State) : Host.Outcome State Fault Refusal :=
  .next (match headCmd s c with
    | some k =>
      (match k.kind with
      | .load x =>
        if bankFree s c && !spanBusy s c x.toNat 4096 then
          let l := readLocal s c x.toNat 4096
          let code : Tbl W32 := (List.range 1024).foldl (fun t i =>
            tset 0 t i (BitVec.ofNat 32 (leNat ((l.drop (4 * i)).take 4)))) []
          completeCmd c none 0 none (modBank (s.ctx c).gcn (fun b => { b with code := code }) s)
        else s
      | _ => s)
    | none => s)

/-- R282: the start of a run. -/
def startRun (c : Nat) (arg : W32) (b : Bank) : Bank :=
  { b with g := tset 0 [] 4 arg, pc := 0, lanes := [], lpoison := [], run := some { cid := c } }

/-- R282: BKRUN starts the overlay. -/
def execOverlayStart (c : Nat) (s : State) : Host.Outcome State Fault Refusal :=
  .next (match headCmd s c with
    | some k =>
      (match k.kind with
      | .run arg =>
        if bankFree s c && !k.started then
          setHeadCmd c { k with started := true } (modBank (s.ctx c).gcn (startRun c arg) s)
        else s
      | _ => s)
    | none => s)

/-- R284: LSTAT. -/
def lstatWord (pc code status : Nat) (psn : Bool) : W64 := w64 (pc * 2 ^ 32 + bit psn * 2 ^ 24 + code * 2 ^ 16 + status)

/-- R284, R289, R291: the run ends: LSTAT, the slot, the held rows, the command. -/
def execOverlayEnd (g : Nat) (s : State) : Host.Outcome State Fault Refusal :=
  .next (match (s.bank g).run with
    | some r =>
      (match r.ended with
      | some (code, status, pc) =>
        let s := modBank g (fun b => { b with lstat := lstatWord pc code status r.psn.isSome, run := none, slot := false }) s
        completeCmd r.cid r.psn 1 none (modMod (fun m => { m with streamQ := m.streamQ.filter fun x => x ≠ g }) s)
      | none => s)
    | none => s)

/-! ### Stream slots (R289) -/

/-- Model: the requester number of a BKCOPY of bank g in the stack's queue; a BAU's is its bank's number. -/
def copyReq (g : Nat) : Nat := Config.cores + g
/-- The stack of a requester. -/
def reqStack (r : Nat) : Nat := stackOf (r % Config.cores)

/-- R289: slots that a stack has granted. -/
def slotsHeld (s : State) (stack : Nat) : Nat :=
  (s.banks.filter fun p => p.2.slot && decide (stackOf p.1 = stack)).length +
    (s.ctxs.filter fun p => decide (stackOf p.2.gcn = stack) && p.2.eng.bq.any (·.slot)).length

/-- A request for a slot joins the stack's queue. -/
def requestSlot (r : Nat) (s : State) : State :=
  modMod (fun m => { m with streamQ := if m.streamQ.contains r then m.streamQ else m.streamQ ++ [r] }) s

/-- A copy that waits for a slot under a requester number gets it. -/
def grantCopy (r : Nat) (h : Ctx) : Ctx :=
  let give (k : BCmd) : BCmd := { k with slot := k.slot || k.started }
  if copyReq h.gcn = r then { h with eng := { h.eng with bq := h.eng.bq.map give } } else h

/-- R289: the stack grants a slot to the first request. -/
def execStreamSlotGrant (stack : Nat) (s : State) : Host.Outcome State Fault Refusal :=
  .next (match s.mod.streamQ.find? fun r => reqStack r = stack with
    | none => s
    | some r =>
      if 512 ≤ slotsHeld s stack then s
      else
        let s := modMod (fun m => { m with streamQ := m.streamQ.erase r }) s
        if r < Config.cores then modBank r (fun b => { b with slot := true, lastCol := s.gtime }) s
        else { s with ctxs := s.ctxs.map fun p => (p.1, grantCopy r p.2) })

/-- R289: a slot is released after 1,024 BAU cycles (of 800 MHz) without a column access. -/
def execStreamSlotIdleRelease (g : Nat) (s : State) : Host.Outcome State Fault Refusal :=
  .next (
    let b := s.bank g
    if b.slot ∧ b.lastCol + 1280 ≤ s.gtime then modBank g (fun b => { b with slot := false }) s else s)

/-! ### BKCOPY and BKMETA (R298, R301, R302) -/

/-- R298: one column is copied over the group bus. In a retired frame too it is read and written as elsewhere: R356 names
translated accesses and those of a BAU (DESIGN CHOICE, log entry 86). -/
def execBkcopyColumn (c : Nat) (s : State) : Host.Outcome State Fault Refusal :=
  .next (match headCmd s c with
    | some k =>
      (match k.kind with
      | .copy src db dst n =>
        let g := (s.ctx c).gcn
        if !bankFree s c ∨ n ≤ 32 * k.pos then s
        else if !k.slot then requestSlot (copyReq g) (setHeadCmd c { k with started := true } s)
        else
          let col := src / 32 + k.pos
          let col' := dst / 32 + k.pos
          gate (.bank c) (fun s =>
            let (r, s) := readCol g col 2 s
            let s := chargeDram c 64 (unfenced c db col' true s (writeCol db col' r.bytes s))
            setHeadCmd c { k with
              pos := k.pos + 1
              psn := if k.psn.isNone && r.unc then some (src + 32 * k.pos) else k.psn } s) s
      | _ => s)
    | none => s)

/-- R298: the copy completes and bumps its counters. -/
def execBkcopyComplete (c : Nat) (s : State) : Host.Outcome State Fault Refusal :=
  .next (match headCmd s c with
    | some k =>
      (match k.kind with
      | .copy _ db _ n =>
        if bankFree s c ∧ 32 * k.pos = n then
          let dest := memberOn s c (coreOf db)
          let s := completeCmd c k.psn 2 (if k.rce && decide (dest = some c) then some k.rcnt else none) s
          if k.rce then (match dest with | some m => bump m k.rcnt 1 s | none => s) else s
        else s
      | _ => s)
    | none => s)

/-- R197, R301, R302: the exchange of a BKMETA, whose write is performed at PACKAGE scope as it retires; the result reaches g[d] and the
instruction retires. -/
def execBkmetaComplete (c : Nat) (s : State) : Host.Outcome State Fault Refusal :=
  .next (match headCmd s c with
    | some k =>
      (match k.kind with
      | .mdx d o v m =>
        if !bankFree s c then s
        else
          let g := (s.ctx c).gcn
          gate (.bank c) (fun s =>
            let x := exchangeMeta 64 g (o / 32) (v.truncate 28) (m.truncate 28) s
            let s := completeCmd c none 3 none x.2
            if (s.ctx c).wait = .bkmeta ∧ !(s.ctx c).halted then finishG c d (w64 x.1) s else s) s
      | _ => s)
    | none => s)

end Sys2Proof.Machine
end

