-- ==== Sys2Proof/Machine/Bau.lean ====
section
/-!
DEFINITION. Instructions that only a bank arithmetic unit executes: columns, lanes, the end of a run (R285 to R289, R303
to R306).
-/

namespace Sys2Proof.Machine

/-! ### Lanes -/

/-- A lane register and its poison bits (R281). -/
def getLane (b : Bank) (n : R5) : BitVec 256 := tget b.lanes n.toNat 0
def getPoison (b : Bank) (n : R5) : BitVec 16 := tget b.lpoison n.toNat 0
def setLane (n : R5) (x : BitVec 256) (p : BitVec 16) (b : Bank) : Bank :=
  { b with lanes := tset 0 b.lanes n.toNat x, lpoison := tset 0 b.lpoison n.toNat p }

/-- R288: a lane as it is written to memory: poisoned parts as 0x7E5A. -/
def laneBytes (b : Bank) (n : R5) : List Byte :=
  (List.range 16).flatMap fun q =>
    leBytes 2 (if (getPoison b n).getLsbD q then 0x7E5A else bits (getLane b n) (16 * q) 16)

/-- The lane that holds 32 bytes. -/
def laneOf (l : List Byte) : BitVec 256 := BitVec.ofNat 256 (leNat l)

/-- R288: the poison bits that cover element e of width n. -/
def partMask (n e : Nat) : BitVec 16 := if n = 8 then 1 <<< (e / 2) else if n = 16 then 1 <<< e else 3 <<< (2 * e)

/-- R288, R305: an element of the result of a LANE form: `int` and `fp` give the value; a poisoned element keeps its
poison. -/
def laneElem (f : Nat) (poisoned : Bool) (int : Int) (fp : Nat) : Nat :=
  if isInt f then wrapTo (fmtWidth f) int else if poisoned then (fmtOf f).poison else fp

/-- R304, R305: an elementwise LANE form. `third` tells whether the old destination is a source. -/
def laneMap (d a b : R5) (f : Nat) (third : Bool) (int : Int → Int → Int → Int) (fp : Nat → Nat → Nat → Nat)
    (k : Bank) : Bank :=
  let n := fmtWidth f
  let src := getPoison k a ||| getPoison k b ||| (if third then getPoison k d else 0)
  let el (x : R5) (e : Nat) : Nat := bits (getLane k x) (n * e) n
  let r := (List.range (256 / n)).foldl (fun (p : Nat × BitVec 16) e =>
    let bad := decide (src &&& partMask n e ≠ 0)
    let x := el a e
    let y := el b e
    let z := el d e
    let v := laneElem f bad (int (intVal f x) (intVal f y) (intVal f z)) (fp x y z)
    (p.1 + v * 2 ^ (n * e), if bad then p.2 ||| partMask n e else p.2)) (0, 0)
  setLane d (BitVec.ofNat 256 r.1) r.2 k

/-- A BAU instruction: an ill-formed word ends the run with ILLEGAL (R83); the rest runs and the PC advances. -/
def laneOp (i : Instr) (f : Bank → Bank) (s : State) : State :=
  bauOnly i s fun g _ => if i.illFormed.isSome then endRun g 1 0 s else bauNext g (modBank g f s)

/-- The decoded operands of a floating LANE form. -/
def lv (f x : Nat) : FVal := fdec (fmtOf f) x

/-- R305. -/
def execLaneAdd (d a b f : R5) (s : State) : Host.Outcome State Fault Refusal :=
  .next (laneOp (.laneAdd d a b f) (laneMap d a b f.toNat false (fun x y _ => x + y)
    (fun x y _ => (faddV (fmtOf f.toNat) 1 false (lv f.toNat x) (lv f.toNat y)).1)) s)
/-- R305. -/
def execLaneSub (d a b f : R5) (s : State) : Host.Outcome State Fault Refusal :=
  .next (laneOp (.laneSub d a b f) (laneMap d a b f.toNat false (fun x y _ => x - y)
    (fun x y _ => (faddV (fmtOf f.toNat) 1 false (lv f.toNat x) (lv f.toNat y).neg).1)) s)
/-- R305. -/
def execLaneMul (d a b f : R5) (s : State) : Host.Outcome State Fault Refusal :=
  .next (laneOp (.laneMul d a b f) (laneMap d a b f.toNat false (fun x y _ => x * y)
    (fun x y _ => (fmulV (fmtOf f.toNat) 1 false (lv f.toNat x) (lv f.toNat y)).1)) s)
/-- R305. -/
def execLaneFma (d a b f : R5) (s : State) : Host.Outcome State Fault Refusal :=
  .next (laneOp (.laneFma d a b f) (laneMap d a b f.toNat true (fun x y z => x * y + z)
    (fun x y z => (fmaV (fmtOf f.toNat) 1 false (lv f.toNat x) (lv f.toNat y) (lv f.toNat z)).1)) s)
/-- R119, R305. -/
def execLaneMin (d a b f : R5) (s : State) : Host.Outcome State Fault Refusal :=
  .next (laneOp (.laneMin d a b f) (laneMap d a b f.toNat false (fun x y _ => min x y)
    (fun x y _ => (fminmax (fmtOf f.toNat) false x y).1)) s)
/-- R119, R305. -/
def execLaneMax (d a b f : R5) (s : State) : Host.Outcome State Fault Refusal :=
  .next (laneOp (.laneMax d a b f) (laneMap d a b f.toNat false (fun x y _ => max x y)
    (fun x y _ => (fminmax (fmtOf f.toNat) true x y).1)) s)

/-- The signed integer and exponent of a finite value. -/
def scaledOf (v : FVal) : Int × Int := match v with | .fin s m e => (if s then -(m : Int) else m, e) | _ => (0, 0)

/-- R305: the floating sum of elements, with the cases of R49. -/
def rsumF (f : Nat) (l : List Nat) : Nat :=
  let m := fmtOf f
  let v := l.map (fdec m)
  let pos := v.any fun x => x.isInf && !x.sign
  let neg := v.any fun x => x.isInf && x.sign
  if v.any FVal.isPoison then m.poison
  else if v.any FVal.isNan || (pos && neg) then m.cnan
  else if pos || neg then infBits m neg
  else
    let t := sumScaled (v.map scaledOf)
    (roundInt m 1 false (v.all fun x => x.isZero && x.sign) t.1 t.2).1

/-- R305: RSUM. -/
def execRsum (d a f : R5) (s : State) : Host.Outcome State Fault Refusal :=
  .next (laneOp (.rsum d a f) (fun k =>
    let n := fmtWidth f.toNat
    let l := (List.range (256 / n)).map fun e => bits (getLane k a) (n * e) n
    let bad := decide (getPoison k a ≠ 0)
    setLane d (BitVec.ofNat 256 (laneElem f.toNat bad (l.map (intVal f.toNat)).sum (rsumF f.toNat l)))
      (if bad then partMask n 0 else 0) k) s)

/-- R288, R304: SPLAT. -/
def execSplat (d a f : R5) (s : State) : Host.Outcome State Fault Refusal :=
  .next (laneOp (.splat d a f) (fun k =>
    let n := fmtWidth f.toNat
    let x := (getBG k a).toNat % 2 ^ n
    setLane d (BitVec.ofNat 256 ((List.range (256 / n)).foldl (fun t e => t + x * 2 ^ (n * e)) 0)) 0 k) s)

/-- R305. -/
def execLaneAnd (d a b : R5) (s : State) : Host.Outcome State Fault Refusal :=
  .next (laneOp (.laneAnd d a b) (fun k => setLane d (getLane k a &&& getLane k b) (getPoison k a ||| getPoison k b) k) s)
/-- R305. -/
def execLaneOr (d a b : R5) (s : State) : Host.Outcome State Fault Refusal :=
  .next (laneOp (.laneOr d a b) (fun k => setLane d (getLane k a ||| getLane k b) (getPoison k a ||| getPoison k b) k) s)
/-- R305. -/
def execLaneXor (d a b : R5) (s : State) : Host.Outcome State Fault Refusal :=
  .next (laneOp (.laneXor d a b) (fun k => setLane d (getLane k a ^^^ getLane k b) (getPoison k a ||| getPoison k b) k) s)
/-- R304. -/
def execLaneMov (d a : R5) (s : State) : Host.Outcome State Fault Refusal :=
  .next (laneOp (.laneMov d a) (fun k => setLane d (getLane k a) (getPoison k a) k) s)
/-- R304. -/
def execLget (d a w : R5) (s : State) : Host.Outcome State Fault Refusal :=
  .next (laneOp (.lget d a w) (fun k => setBG d ((getLane k a).extractLsb' (32 * w.toNat) 32) k) s)
/-- R288, R304. -/
def execLput (d a w : R5) (s : State) : Host.Outcome State Fault Refusal :=
  .next (laneOp (.lput d a w) (fun k =>
    let m : BitVec 256 := 0xFFFFFFFF#256 <<< (32 * w.toNat)
    setLane d ((getLane k d &&& ~~~m) ||| ((getBG k a).zeroExtend 256 <<< (32 * w.toNat)))
      (getPoison k d &&& ~~~(3#16 <<< (2 * w.toNat))) k) s)

/-- R304: 32 bytes of data memory at g[a]. -/
def laneMem (i : Instr) (a : R5) (f : Nat → Bank → Bank) (s : State) : State :=
  bauOnly i s fun g b =>
    if i.illFormed.isSome then endRun g 1 0 s
    else bauMem g [a] (getBG b a).toNat 32 (f (getBG b a).toNat) s

/-- R288, R304. -/
def execLld (d a : R5) (s : State) : Host.Outcome State Fault Refusal :=
  .next (laneMem (.lld d a) a (fun o k => setLane d (BitVec.ofNat 256 (dataRead k o 32)) 0 k) s)
/-- R288, R304. -/
def execLst (d a : R5) (s : State) : Host.Outcome State Fault Refusal :=
  .next (laneMem (.lst d a) a (fun o k => dataWrite o (laneBytes k d) k) s)

/-! ### Columns (R285, R303) -/

/-- R285, R289, R293, R332, R356: a column access of a run: the offset's checks, the stream slot, the hot-row throttle; the
row is held, the access takes place, its bytes are counted (R372), the PC advances. `act` tells those bytes. -/
def columnOp (i : Instr) (a : R5) (act : Nat → Nat → State → Nat × State) (s : State) : State :=
  bauOnly i s fun g b =>
    let o := (getBG b a).toNat
    if i.illFormed.isSome then endRun g 1 0 s
    else if o % 32 ≠ 0 then endRun g 4 0 s
    else if Config.saveBase ≤ o ∨ isRetired s g o then endRun g 5 0 s
    else if !b.slot then requestSlot g s
    else gate (.bau g) (fun s =>
      let s := modBank g (fun b => { b with
        lastCol := s.gtime
        run := b.run.map fun r => { r with rows := if r.rows.contains (o / 1024) then r.rows else o / 1024 :: r.rows } }) s
      let (n, s) := act g (o / 32) s
      bauNext g (match b.run with | some r => chargeDram r.cid n s | none => s)) s

/-- R303: CLD. -/
def execCld (d a : R5) (s : State) : Host.Outcome State Fault Refusal :=
  .next (columnOp (.cld d a) a (fun g col s =>
    let (r, s) := readCol g col 0 s
    (32, modBank g (fun b => setLane d (laneOf r.bytes) (if r.unc then BitVec.allOnes 16 else 0)
      { b with run := b.run.map fun k => { k with psn := if r.unc && k.psn.isNone then some (col * 32) else k.psn } }) s)) s)

/-- R293: a column that the running overlay of a bank has written. -/
def byRun (g col : Nat) (data : Bool) (s t : State) : State :=
  match (s.bank g).run with | some r => unfenced r.cid g col data s t | none => t

/-- R303: CST. -/
def execCst (d a : R5) (s : State) : Host.Outcome State Fault Refusal :=
  .next (columnOp (.cst d a) a (fun g col s => (32, byRun g col true s (writeCol g col (laneBytes (s.bank g) d) s))) s)

/-- R303: CST.M also replaces the metadata bits of the grade. -/
def execCstM (d a b : R5) (s : State) : Host.Outcome State Fault Refusal :=
  .next (columnOp (.cstM d a b) a (fun g col s =>
    let m := (getBG (s.bank g) b).truncate 28 &&& gradeMask (gradeOf (s.bank g) col)
    let t := writeCol g col (laneBytes (s.bank g) d) s
    (32, byRun g col true s
      (if gradeOf (s.bank g) col = 0 then t else modBank g (fun k => { k with mdata := tset 0 k.mdata col m }) t))) s)

/-- R301, R303: CLDM. An uncorrectable column leaves LSTAT.PSN as it was: R301 says that nothing is poisoned, while R284's
words for PSN name every uncorrectable column that the run read (DESIGN CHOICE, log entry 76). -/
def execCldm (d a b k : R5) (s : State) : Host.Outcome State Fault Refusal :=
  .next (columnOp (.cldm d a b k) a (fun g col s =>
    let x := exchangeMeta 32 g col ((getBG (s.bank g) b).truncate 28) ((getBG (s.bank g) k).truncate 28) s
    let rewrites := exchangeRewrites 32 g col ((getBG (s.bank g) k).truncate 28) x.1 s
    (if rewrites then 64 else 32, modBank g (setBG d (BitVec.ofNat 32 x.1)) (if rewrites then byRun g col false s x.2 else x.2))) s)

/-! ### The end of a run and signals (R306) -/

/-- R306: BDONE. -/
def execBdone (a : R5) (s : State) : Host.Outcome State Fault Refusal :=
  .next (bauOnly (.bdone a) s fun g b =>
    if (Instr.bdone a).illFormed.isSome then endRun g 1 0 s else endRun g 0 (bits (getBG b a) 0 16) s)

/-- R306: BSIG. -/
def execBsig (a : R5) (s : State) : Host.Outcome State Fault Refusal :=
  .next (bauOnly (.bsig a) s fun g b =>
    if (Instr.bsig a).illFormed.isSome then endRun g 1 0 s
    else bauNext g (match b.run with | some r => bump r.cid (bits (getBG b a) 0 6) 1 s | none => s))

end Sys2Proof.Machine
end

