-- ==== Sys2Proof/Machine/Float.lean ====
section
/-!
DEFINITION. Scalar floating point (R116 to R126). Every form applies the checks of the mode field (R41), also where the
result is exact.
-/

namespace Sys2Proof.Machine

/-- R118. -/
def execFadd (d a b : R5) (m : BitVec 3) (t : BitVec 1) (s : State) : Host.Outcome State Fault Refusal :=
  .next (fpF (.fadd d a b m t) m t d (fun mode r => faddV (scalarFmt t) mode false (fval t r a) (fval t r b)) s)
/-- R118. -/
def execFsub (d a b : R5) (m : BitVec 3) (t : BitVec 1) (s : State) : Host.Outcome State Fault Refusal :=
  .next (fpF (.fsub d a b m t) m t d (fun mode r => let y := fval t r b; faddV (scalarFmt t) mode false (fval t r a) y.neg) s)
/-- R118. -/
def execFmul (d a b : R5) (m : BitVec 3) (t : BitVec 1) (s : State) : Host.Outcome State Fault Refusal :=
  .next (fpF (.fmul d a b m t) m t d (fun mode r => fmulV (scalarFmt t) mode false (fval t r a) (fval t r b)) s)
/-- R118. -/
def execFdiv (d a b : R5) (m : BitVec 3) (t : BitVec 1) (s : State) : Host.Outcome State Fault Refusal :=
  .next (fpF (.fdiv d a b m t) m t d (fun mode r => fdivV (scalarFmt t) mode (fval t r a) (fval t r b)) s)
/-- R118. -/
def execFsqrt (d a : R5) (m : BitVec 3) (t : BitVec 1) (s : State) : Host.Outcome State Fault Refusal :=
  .next (fpF (.fsqrt d a m t) m t d (fun mode r => fsqrtV (scalarFmt t) mode (fval t r a)) s)
/-- R119. -/
def execFmin (d a b : R5) (m : BitVec 3) (t : BitVec 1) (s : State) : Host.Outcome State Fault Refusal :=
  .next (fpF (.fmin d a b m t) m t d (fun _ r => fminmax (scalarFmt t) false (readF t (getF r a)) (readF t (getF r b))) s)
/-- R119. -/
def execFmax (d a b : R5) (m : BitVec 3) (t : BitVec 1) (s : State) : Host.Outcome State Fault Refusal :=
  .next (fpF (.fmax d a b m t) m t d (fun _ r => fminmax (scalarFmt t) true (readF t (getF r a)) (readF t (getF r b))) s)
/-- R120. -/
def execFsgnj (d a b : R5) (m : BitVec 3) (t : BitVec 1) (s : State) : Host.Outcome State Fault Refusal :=
  .next (fpF (.fsgnj d a b m t) m t d (fun _ r => fsgn (scalarFmt t) (fun _ y => y) (readF t (getF r a)) (readF t (getF r b))) s)
/-- R120. -/
def execFsgnjn (d a b : R5) (m : BitVec 3) (t : BitVec 1) (s : State) : Host.Outcome State Fault Refusal :=
  .next (fpF (.fsgnjn d a b m t) m t d (fun _ r => fsgn (scalarFmt t) (fun _ y => !y) (readF t (getF r a)) (readF t (getF r b))) s)
/-- R120. -/
def execFsgnjx (d a b : R5) (m : BitVec 3) (t : BitVec 1) (s : State) : Host.Outcome State Fault Refusal :=
  .next (fpF (.fsgnjx d a b m t) m t d (fun _ r => fsgn (scalarFmt t) (fun x y => x != y) (readF t (getF r a)) (readF t (getF r b))) s)
/-- R121. -/
def execFeq (d a b : R5) (m : BitVec 3) (t : BitVec 1) (s : State) : Host.Outcome State Fault Refusal :=
  .next (fpG (.feq d a b m t) m d (fun _ r =>
    let (x, fl) := compareF t (fun o => o == 1) true (getF r a) (getF r b); (w64 x, fl)) s)
/-- R121. -/
def execFlt (d a b : R5) (m : BitVec 3) (t : BitVec 1) (s : State) : Host.Outcome State Fault Refusal :=
  .next (fpG (.flt d a b m t) m d (fun _ r =>
    let (x, fl) := compareF t (fun o => o == 0) false (getF r a) (getF r b); (w64 x, fl)) s)
/-- R121. -/
def execFle (d a b : R5) (m : BitVec 3) (t : BitVec 1) (s : State) : Host.Outcome State Fault Refusal :=
  .next (fpG (.fle d a b m t) m d (fun _ r =>
    let (x, fl) := compareF t (fun o => decide (o ≤ 1)) false (getF r a) (getF r b); (w64 x, fl)) s)
/-- R122. -/
def execFclass (d a : R5) (m : BitVec 3) (t : BitVec 1) (s : State) : Host.Outcome State Fault Refusal :=
  .next (fpG (.fclass d a m t) m d (fun _ r => (w64 (fclassOf (scalarFmt t) (readF t (getF r a))), 0)) s)
/-- R123. -/
def execFcvtI64Fmt (d a : R5) (m : BitVec 3) (t : BitVec 1) (s : State) : Host.Outcome State Fault Refusal :=
  .next (fpG (.fcvtI64Fmt d a m t) m d (fun mode r => let (x, fl) := cvtReg 0x3 mode t (getF r a); (w64 x, fl)) s)
/-- R123. -/
def execFcvtI32Fmt (d a : R5) (m : BitVec 3) (t : BitVec 1) (s : State) : Host.Outcome State Fault Refusal :=
  .next (fpG (.fcvtI32Fmt d a m t) m d (fun mode r => let (x, fl) := cvtReg 0x2 mode t (getF r a); ((BitVec.ofNat 32 x).signExtend 64, fl)) s)
/-- R123. -/
def execFcvtN32Fmt (d a : R5) (m : BitVec 3) (t : BitVec 1) (s : State) : Host.Outcome State Fault Refusal :=
  .next (fpG (.fcvtN32Fmt d a m t) m d (fun mode r => let (x, fl) := cvtReg 0x6 mode t (getF r a); (w64 x, fl)) s)
/-- R123. -/
def execFcvtFmtI64 (d a : R5) (m : BitVec 3) (t : BitVec 1) (s : State) : Host.Outcome State Fault Refusal :=
  .next (fpF (.fcvtFmtI64 d a m t) m t d (fun mode r => cvtIF (scalarFmt t) mode false (intVal 0x3 (getG r a).toNat)) s)
/-- R123. -/
def execFcvtFmtI32 (d a : R5) (m : BitVec 3) (t : BitVec 1) (s : State) : Host.Outcome State Fault Refusal :=
  .next (fpF (.fcvtFmtI32 d a m t) m t d (fun mode r => cvtIF (scalarFmt t) mode false (intVal 0x2 (getG r a).toNat)) s)
/-- R123. -/
def execFcvtFmtN32 (d a : R5) (m : BitVec 3) (t : BitVec 1) (s : State) : Host.Outcome State Fault Refusal :=
  .next (fpF (.fcvtFmtN32 d a m t) m t d (fun mode r => cvtIF (scalarFmt t) mode false (intVal 0x6 (getG r a).toNat)) s)
/-- R123: F64 to F32. -/
def execFcvtF32F64 (d a : R5) (m : BitVec 3) (s : State) : Host.Outcome State Fault Refusal :=
  .next (fpF (.fcvtF32F64 d a m) m 1 d (fun mode r => cvtFF (fmtOf 9) mode false (fval 0 r a)) s)
/-- R123: F32 to F64. -/
def execFcvtF64F32 (d a : R5) (m : BitVec 3) (s : State) : Host.Outcome State Fault Refusal :=
  .next (fpF (.fcvtF64F32 d a m) m 0 d (fun mode r => cvtFF (fmtOf 8) mode false (fval 1 r a)) s)
/-- R124: copies f[a] whatever its K. -/
def execFmvfg (d a : R5) (m : BitVec 3) (t : BitVec 1) (s : State) : Host.Outcome State Fault Refusal :=
  .next (fpG (.fmvfg d a m t) m d (fun _ r =>
    let x := (getF r a).bits; (if t = 0 then x else (x.truncate 32).signExtend 64, 0)) s)
/-- R124. -/
def execFmvgf (d a : R5) (m : BitVec 3) (t : BitVec 1) (s : State) : Host.Outcome State Fault Refusal :=
  .next (fpF (.fmvgf d a m t) m t d (fun _ r =>
    let x := (getG r a).toNat; (if t = 0 then x else x % 2 ^ 32, 0)) s)
/-- R126. -/
def execFmadd (d a b c : R5) (t : BitVec 1) (m : BitVec 3) (s : State) : Host.Outcome State Fault Refusal :=
  .next (fpF (.fmadd d a b c t m) m t d (fun mode r => fmaV (scalarFmt t) mode false (fval t r a) (fval t r b) (fval t r c)) s)
/-- R126. -/
def execFmsub (d a b c : R5) (t : BitVec 1) (m : BitVec 3) (s : State) : Host.Outcome State Fault Refusal :=
  .next (fpF (.fmsub d a b c t m) m t d (fun mode r => fmaV (scalarFmt t) mode false (fval t r a) (fval t r b) (fval t r c).neg) s)
/-- R126. -/
def execFnmadd (d a b c : R5) (t : BitVec 1) (m : BitVec 3) (s : State) : Host.Outcome State Fault Refusal :=
  .next (fpF (.fnmadd d a b c t m) m t d (fun mode r => fmaV (scalarFmt t) mode false (fval t r a).neg (fval t r b) (fval t r c).neg) s)
/-- R126. -/
def execFnmsub (d a b c : R5) (t : BitVec 1) (m : BitVec 3) (s : State) : Host.Outcome State Fault Refusal :=
  .next (fpF (.fnmsub d a b c t m) m t d (fun mode r => fmaV (scalarFmt t) mode false (fval t r a).neg (fval t r b) (fval t r c)) s)

end Sys2Proof.Machine
end

