-- ==== Sys2Proof/Machine/Mem.lean ====
section
/-!
DEFINITION. Loads and stores, integer and typed (R108 to R115), with the data-memory forms of a BAU (R283).
-/

namespace Sys2Proof.Machine

/-- R108, R283. -/
def execLdb (d a : R5) (i : BitVec 16) (s : State) : Host.Outcome State Fault Refusal := .next (loadI 1 true d a i s)
/-- R108, R283. -/
def execLdbu (d a : R5) (i : BitVec 16) (s : State) : Host.Outcome State Fault Refusal := .next (loadI 1 false d a i s)
/-- R108, R283. -/
def execLdh (d a : R5) (i : BitVec 16) (s : State) : Host.Outcome State Fault Refusal := .next (loadI 2 true d a i s)
/-- R108, R283. -/
def execLdhu (d a : R5) (i : BitVec 16) (s : State) : Host.Outcome State Fault Refusal := .next (loadI 2 false d a i s)
/-- R108, R283. -/
def execLdw (d a : R5) (i : BitVec 16) (s : State) : Host.Outcome State Fault Refusal := .next (loadI 4 true d a i s)
/-- R108; illegal on a BAU (R283). -/
def execLdwu (d a : R5) (i : BitVec 16) (s : State) : Host.Outcome State Fault Refusal :=
  .next (coreOnly s fun _ _ => loadI 4 false d a i s)
/-- R108; illegal on a BAU (R283). -/
def execLdd (d a : R5) (i : BitVec 16) (s : State) : Host.Outcome State Fault Refusal :=
  .next (coreOnly s fun _ _ => loadI 8 false d a i s)
/-- R111, R283. -/
def execStb (d a : R5) (i : BitVec 16) (s : State) : Host.Outcome State Fault Refusal := .next (storeI 1 d a i s)
/-- R111, R283. -/
def execSth (d a : R5) (i : BitVec 16) (s : State) : Host.Outcome State Fault Refusal := .next (storeI 2 d a i s)
/-- R111, R283. -/
def execStw (d a : R5) (i : BitVec 16) (s : State) : Host.Outcome State Fault Refusal := .next (storeI 4 d a i s)
/-- R111; illegal on a BAU (R283). -/
def execStd (d a : R5) (i : BitVec 16) (s : State) : Host.Outcome State Fault Refusal :=
  .next (coreOnly s fun _ _ => storeI 8 d a i s)
/-- R114. -/
def execLdf (d a : R5) (t : BitVec 4) (o : BitVec 12) (s : State) : Host.Outcome State Fault Refusal :=
  .next (coreOnly s fun c h =>
    if t.toNat = 0x3 ∨ t.toNat = 0x7 ∨ 0xE ≤ t.toNat then illegal c (.ldf d a t o) s
    else load c (getG h.regs a + o.signExtend 64) (fmtWidth t.toNat / 8) (.f d t.toNat) s)
/-- R115: the source by its format bit, rounded in FSTAT.FRM; illegal when FRM holds 0, 6 or 7. A store in the source's own
format copies the bits (R44) and sets no flag, also for a signaling NaN or poison (DESIGN CHOICE, log entry 29: R115 and R50
speak of a conversion's flags). -/
def execStf (d a : R5) (t : BitVec 4) (o : BitVec 12) (s : State) : Host.Outcome State Fault Refusal :=
  .next (coreOnly s fun c h =>
    let mode := frm h.regs
    if mode = 0 ∨ 6 ≤ mode ∨ t.toNat = 0x7 ∨ 0xE ≤ t.toNat then illegal c (.stf d a t o) s
    else
      let f := getF h.regs d
      let (x, fl) := convert (if f.k then 0x9 else 0x8) t.toNat mode false f.bits.toNat
      store c (getG h.regs a + o.signExtend 64) (fmtWidth t.toNat / 8) x (fun r => setFlags r fl) s)

end Sys2Proof.Machine
end

