-- ==== Sys2Proof/Machine/Scalar.lean ====
section
/-!
DEFINITION. Integer arithmetic, immediates, multiplication, division and control transfer (R96 to R107), with their
32-bit forms on a BAU (R283).
-/

namespace Sys2Proof.Machine

/-- R97. -/
def execAdd (d a b : R5) (s : State) : Host.Outcome State Fault Refusal :=
  .next (alu2 (fun x y => x + y) (fun x y => x + y) d a b s)
/-- R97. -/
def execSub (d a b : R5) (s : State) : Host.Outcome State Fault Refusal :=
  .next (alu2 (fun x y => x - y) (fun x y => x - y) d a b s)
/-- R97. -/
def execAnd (d a b : R5) (s : State) : Host.Outcome State Fault Refusal :=
  .next (alu2 (fun x y => x &&& y) (fun x y => x &&& y) d a b s)
/-- R97. -/
def execOr (d a b : R5) (s : State) : Host.Outcome State Fault Refusal :=
  .next (alu2 (fun x y => x ||| y) (fun x y => x ||| y) d a b s)
/-- R97. -/
def execXor (d a b : R5) (s : State) : Host.Outcome State Fault Refusal :=
  .next (alu2 (fun x y => x ^^^ y) (fun x y => x ^^^ y) d a b s)
/-- R97. -/
def execAndn (d a b : R5) (s : State) : Host.Outcome State Fault Refusal :=
  .next (alu2 (fun x y => x &&& ~~~y) (fun x y => x &&& ~~~y) d a b s)
/-- R97, R283. -/
def execSll (d a b : R5) (s : State) : Host.Outcome State Fault Refusal :=
  .next (alu2 (fun x y => x <<< shAmt y) (fun x y => x <<< shAmt y) d a b s)
/-- R97, R283. -/
def execSrl (d a b : R5) (s : State) : Host.Outcome State Fault Refusal :=
  .next (alu2 (fun x y => x >>> shAmt y) (fun x y => x >>> shAmt y) d a b s)
/-- R97, R283. -/
def execSra (d a b : R5) (s : State) : Host.Outcome State Fault Refusal :=
  .next (alu2 (fun x y => x.sshiftRight (shAmt y)) (fun x y => x.sshiftRight (shAmt y)) d a b s)
/-- R97, R283. -/
def execRor (d a b : R5) (s : State) : Host.Outcome State Fault Refusal :=
  .next (alu2 (fun x y => ror x (shAmt y)) (fun x y => ror x (shAmt y)) d a b s)
/-- R97. -/
def execSlt (d a b : R5) (s : State) : Host.Outcome State Fault Refusal :=
  .next (alu2 (fun x y => flag 64 (decide (x.toInt < y.toInt))) (fun x y => flag 32 (decide (x.toInt < y.toInt))) d a b s)
/-- R97. -/
def execSltu (d a b : R5) (s : State) : Host.Outcome State Fault Refusal :=
  .next (alu2 (fun x y => flag 64 (decide (x.toNat < y.toNat))) (fun x y => flag 32 (decide (x.toNat < y.toNat))) d a b s)
/-- R97. -/
def execMin (d a b : R5) (s : State) : Host.Outcome State Fault Refusal :=
  .next (alu2 (fun x y => if x.toInt < y.toInt then x else y) (fun x y => if x.toInt < y.toInt then x else y) d a b s)
/-- R97. -/
def execMax (d a b : R5) (s : State) : Host.Outcome State Fault Refusal :=
  .next (alu2 (fun x y => if x.toInt < y.toInt then y else x) (fun x y => if x.toInt < y.toInt then y else x) d a b s)
/-- R97. -/
def execMinu (d a b : R5) (s : State) : Host.Outcome State Fault Refusal :=
  .next (alu2 (fun x y => if x.toNat < y.toNat then x else y) (fun x y => if x.toNat < y.toNat then x else y) d a b s)
/-- R97. -/
def execMaxu (d a b : R5) (s : State) : Host.Outcome State Fault Refusal :=
  .next (alu2 (fun x y => if x.toNat < y.toNat then y else x) (fun x y => if x.toNat < y.toNat then y else x) d a b s)
/-- R97; illegal on a BAU (R283). -/
def execAddw (d a b : R5) (s : State) : Host.Outcome State Fault Refusal :=
  .next (aluCore (wordOp fun x y => x + y) d a b s)
/-- R97; illegal on a BAU (R283). -/
def execSubw (d a b : R5) (s : State) : Host.Outcome State Fault Refusal :=
  .next (aluCore (wordOp fun x y => x - y) d a b s)
/-- R97, R283. -/
def execClz (d a : R5) (s : State) : Host.Outcome State Fault Refusal :=
  .next (alu1 (fun x => clz x) (fun x => clz x) d a s)
/-- R97, R283. -/
def execCtz (d a : R5) (s : State) : Host.Outcome State Fault Refusal :=
  .next (alu1 (fun x => ctz x) (fun x => ctz x) d a s)
/-- R97. -/
def execPopc (d a : R5) (s : State) : Host.Outcome State Fault Refusal :=
  .next (alu1 (fun x => popc x) (fun x => popc x) d a s)
/-- R97. -/
def execSextb (d a : R5) (s : State) : Host.Outcome State Fault Refusal :=
  .next (alu1 (fun x => sextLow x 8) (fun x => sextLow x 8) d a s)
/-- R97. -/
def execSexth (d a : R5) (s : State) : Host.Outcome State Fault Refusal :=
  .next (alu1 (fun x => sextLow x 16) (fun x => sextLow x 16) d a s)
/-- R97; illegal on a BAU (R283). -/
def execSextw (d a : R5) (s : State) : Host.Outcome State Fault Refusal :=
  .next (aluCore (fun x _ => sextLow x 32) d a 0 s)
/-- R97, R283. -/
def execBswap (d a : R5) (s : State) : Host.Outcome State Fault Refusal :=
  .next (alu1 (fun x => bswap x) (fun x => bswap x) d a s)
/-- R97, R283. -/
def execAddSat (d a b : R5) (s : State) : Host.Outcome State Fault Refusal :=
  .next (alu2 (fun x y => satS 64 (x.toInt + y.toInt)) (fun x y => satS 32 (x.toInt + y.toInt)) d a b s)
/-- R97, R283. -/
def execSubSat (d a b : R5) (s : State) : Host.Outcome State Fault Refusal :=
  .next (alu2 (fun x y => satS 64 (x.toInt - y.toInt)) (fun x y => satS 32 (x.toInt - y.toInt)) d a b s)
/-- R97, R283. -/
def execAdduSat (d a b : R5) (s : State) : Host.Outcome State Fault Refusal :=
  .next (alu2 (fun x y => satU 64 ((x.toNat : Int) + y.toNat)) (fun x y => satU 32 ((x.toNat : Int) + y.toNat)) d a b s)
/-- R97, R283. -/
def execSubuSat (d a b : R5) (s : State) : Host.Outcome State Fault Refusal :=
  .next (alu2 (fun x y => satU 64 ((x.toNat : Int) - y.toNat)) (fun x y => satU 32 ((x.toNat : Int) - y.toNat)) d a b s)
/-- R99, R283. -/
def execAddi (d a : R5) (i : BitVec 16) (s : State) : Host.Outcome State Fault Refusal :=
  .next (alu1 (fun x => x + (i.signExtend 64)) (fun x => x + (i.signExtend 32)) d a s)
/-- R99, R283. -/
def execAndi (d a : R5) (i : BitVec 16) (s : State) : Host.Outcome State Fault Refusal :=
  .next (alu1 (fun x => x &&& (i.zeroExtend 64)) (fun x => x &&& (i.zeroExtend 32)) d a s)
/-- R99, R283. -/
def execOri (d a : R5) (i : BitVec 16) (s : State) : Host.Outcome State Fault Refusal :=
  .next (alu1 (fun x => x ||| (i.zeroExtend 64)) (fun x => x ||| (i.zeroExtend 32)) d a s)
/-- R99, R283. -/
def execXori (d a : R5) (i : BitVec 16) (s : State) : Host.Outcome State Fault Refusal :=
  .next (alu1 (fun x => x ^^^ (i.zeroExtend 64)) (fun x => x ^^^ (i.zeroExtend 32)) d a s)
/-- R99, R283. -/
def execSlti (d a : R5) (i : BitVec 16) (s : State) : Host.Outcome State Fault Refusal :=
  .next (alu1 (fun x => flag 64 (decide (x.toInt < (i.signExtend 64).toInt))) (fun x => flag 32 (decide (x.toInt < (i.signExtend 32).toInt))) d a s)
/-- R99, R283. -/
def execSltiu (d a : R5) (i : BitVec 16) (s : State) : Host.Outcome State Fault Refusal :=
  .next (alu1 (fun x => flag 64 (decide (x.toNat < (i.signExtend 64).toNat))) (fun x => flag 32 (decide (x.toNat < (i.signExtend 32).toNat))) d a s)
/-- R100; on a BAU an amount of 32 or more is illegal (R283). -/
def shiftImm (f : W64 → Nat → W64) (f32 : W32 → Nat → W32) (d a : R5) (n : BitVec 6) (s : State) : State :=
  match s.cur with
  | .hart _ => alu1 (fun x => f x n.toNat) (fun x => x) d a s
  | .bau g => if 32 ≤ n.toNat then endRun g 1 0 s else alu1 (fun x => x) (fun x => f32 x n.toNat) d a s
/-- R100, R283. -/
def execSlli (d a : R5) (n : BitVec 6) (s : State) : Host.Outcome State Fault Refusal :=
  .next (shiftImm (fun x n => x <<< n) (fun x n => x <<< n) d a n s)
/-- R100, R283. -/
def execSrli (d a : R5) (n : BitVec 6) (s : State) : Host.Outcome State Fault Refusal :=
  .next (shiftImm (fun x n => x >>> n) (fun x n => x >>> n) d a n s)
/-- R100, R283. -/
def execSrai (d a : R5) (n : BitVec 6) (s : State) : Host.Outcome State Fault Refusal :=
  .next (shiftImm (fun x n => x.sshiftRight n) (fun x n => x.sshiftRight n) d a n s)
/-- R100, R283. -/
def execRori (d a : R5) (n : BitVec 6) (s : State) : Host.Outcome State Fault Refusal :=
  .next (shiftImm (fun x n => ror x n) (fun x n => ror x n) d a n s)
/-- R101, R283. -/
def execLui (d : R5) (i : BitVec 21) (s : State) : Host.Outcome State Fault Refusal :=
  .next (alu1 (fun _ => i.signExtend 64 <<< 16) (fun _ => i.signExtend 32 <<< 16) d 0 s)
/-- R101, R283: the PC-relative form. -/
def execAupc (d : R5) (i : BitVec 21) (s : State) : Host.Outcome State Fault Refusal :=
  .next (match s.cur with
    | .hart c => scalar c (fun r => setG r d (r.pc + (i.signExtend 64 <<< 16))) s
    | .bau g => bauOp g [d] (fun b => setBG d (BitVec.ofNat 32 b.pc + (i.signExtend 32 <<< 16)) b) s)
/-- R102. -/
def execMul (d a b : R5) (s : State) : Host.Outcome State Fault Refusal :=
  .next (alu2 (fun x y => x * y) (fun x y => x * y) d a b s)
/-- R102, R283. -/
def execMulh (d a b : R5) (s : State) : Host.Outcome State Fault Refusal :=
  .next (alu2 (fun x y => mulHigh 64 x.toInt y.toInt) (fun x y => mulHigh 32 x.toInt y.toInt) d a b s)
/-- R102, R283. -/
def execMulhu (d a b : R5) (s : State) : Host.Outcome State Fault Refusal :=
  .next (alu2 (fun x y => mulHigh 64 x.toNat y.toNat) (fun x y => mulHigh 32 x.toNat y.toNat) d a b s)
/-- R102, R283. -/
def execMulhsu (d a b : R5) (s : State) : Host.Outcome State Fault Refusal :=
  .next (alu2 (fun x y => mulHigh 64 x.toInt y.toNat) (fun x y => mulHigh 32 x.toInt y.toNat) d a b s)
/-- R102, R103. -/
def execDiv (d a b : R5) (s : State) : Host.Outcome State Fault Refusal :=
  .next (alu2 (fun x y => divS x y) (fun x y => divS x y) d a b s)
/-- R102, R103. -/
def execDivu (d a b : R5) (s : State) : Host.Outcome State Fault Refusal :=
  .next (alu2 (fun x y => divU x y) (fun x y => divU x y) d a b s)
/-- R102, R103. -/
def execRem (d a b : R5) (s : State) : Host.Outcome State Fault Refusal :=
  .next (alu2 (fun x y => remS x y) (fun x y => remS x y) d a b s)
/-- R102, R103. -/
def execRemu (d a b : R5) (s : State) : Host.Outcome State Fault Refusal :=
  .next (alu2 (fun x y => remU x y) (fun x y => remU x y) d a b s)
/-- R102; illegal on a BAU (R283). -/
def execMulw (d a b : R5) (s : State) : Host.Outcome State Fault Refusal :=
  .next (aluCore (wordOp fun x y => x * y) d a b s)
/-- R102, R103; illegal on a BAU (R283). -/
def execDivw (d a b : R5) (s : State) : Host.Outcome State Fault Refusal :=
  .next (aluCore (wordOp divS) d a b s)
/-- R102, R103; illegal on a BAU (R283). -/
def execDivuw (d a b : R5) (s : State) : Host.Outcome State Fault Refusal :=
  .next (aluCore (wordOp divU) d a b s)
/-- R102, R103; illegal on a BAU (R283). -/
def execRemw (d a b : R5) (s : State) : Host.Outcome State Fault Refusal :=
  .next (aluCore (wordOp remS) d a b s)
/-- R102, R103; illegal on a BAU (R283). -/
def execRemuw (d a b : R5) (s : State) : Host.Outcome State Fault Refusal :=
  .next (aluCore (wordOp remU) d a b s)
/-- R104, R283. -/
def execBeq (a b : R5) (o : BitVec 16) (s : State) : Host.Outcome State Fault Refusal :=
  .next (branch (fun x y => x == y) (fun x y => x == y) a b o s)
/-- R104, R283. -/
def execBne (a b : R5) (o : BitVec 16) (s : State) : Host.Outcome State Fault Refusal :=
  .next (branch (fun x y => x != y) (fun x y => x != y) a b o s)
/-- R104, R283. -/
def execBlt (a b : R5) (o : BitVec 16) (s : State) : Host.Outcome State Fault Refusal :=
  .next (branch (fun x y => decide (x.toInt < y.toInt)) (fun x y => decide (x.toInt < y.toInt)) a b o s)
/-- R104, R283. -/
def execBge (a b : R5) (o : BitVec 16) (s : State) : Host.Outcome State Fault Refusal :=
  .next (branch (fun x y => decide (y.toInt ≤ x.toInt)) (fun x y => decide (y.toInt ≤ x.toInt)) a b o s)
/-- R104, R283. -/
def execBltu (a b : R5) (o : BitVec 16) (s : State) : Host.Outcome State Fault Refusal :=
  .next (branch (fun x y => decide (x.toNat < y.toNat)) (fun x y => decide (x.toNat < y.toNat)) a b o s)
/-- R104, R283. -/
def execBgeu (a b : R5) (o : BitVec 16) (s : State) : Host.Outcome State Fault Refusal :=
  .next (branch (fun x y => decide (y.toNat ≤ x.toNat)) (fun x y => decide (y.toNat ≤ x.toNat)) a b o s)
/-- R105, R283. -/
def execJal (d : R5) (o : BitVec 21) (s : State) : Host.Outcome State Fault Refusal :=
  .next (match s.cur with
    | .hart c =>
      let pc := (s.ctx c).regs.pc
      let target := pc + (o.signExtend 64 <<< 2)
      jump c target (bits target 57 7 ≠ 0) (fun r => setG r d (pc + 4)) s
    | .bau g =>
      let pc := BitVec.ofNat 32 (s.bank g).pc
      bauJump g [d] (pc + (o.signExtend 32 <<< 2)) (setBG d (pc + 4)) s)
/-- R106, R283: g[a] is read before g[d] is written. -/
def execJalr (d a : R5) (i : BitVec 16) (s : State) : Host.Outcome State Fault Refusal :=
  .next (match s.cur with
    | .hart c =>
      let r := (s.ctx c).regs
      let target := getG r a + i.signExtend 64
      jump c target (bits target 57 7 ≠ 0 || bits target 0 2 ≠ 0) (fun q => setG q d (r.pc + 4)) s
    | .bau g =>
      let b := s.bank g
      bauJump g [d, a] (getBG b a + i.signExtend 32) (setBG d (BitVec.ofNat 32 b.pc + 4)) s)

end Sys2Proof.Machine
end

