-- ==== Sys2Proof/Machine/Dispatch.lean ====
section
/-!
DEFINITION. The meaning of every instruction and event: one arm each.
-/

namespace Sys2Proof.Machine

def exec (i : Instr) (s : State) : Host.Outcome State Fault Refusal :=
  match i with
  | .add d a b => Sys2Proof.Machine.execAdd d a b s
  | .sub d a b => Sys2Proof.Machine.execSub d a b s
  | .and d a b => Sys2Proof.Machine.execAnd d a b s
  | .or d a b => Sys2Proof.Machine.execOr d a b s
  | .xor d a b => Sys2Proof.Machine.execXor d a b s
  | .andn d a b => Sys2Proof.Machine.execAndn d a b s
  | .sll d a b => Sys2Proof.Machine.execSll d a b s
  | .srl d a b => Sys2Proof.Machine.execSrl d a b s
  | .sra d a b => Sys2Proof.Machine.execSra d a b s
  | .ror d a b => Sys2Proof.Machine.execRor d a b s
  | .slt d a b => Sys2Proof.Machine.execSlt d a b s
  | .sltu d a b => Sys2Proof.Machine.execSltu d a b s
  | .min d a b => Sys2Proof.Machine.execMin d a b s
  | .max d a b => Sys2Proof.Machine.execMax d a b s
  | .minu d a b => Sys2Proof.Machine.execMinu d a b s
  | .maxu d a b => Sys2Proof.Machine.execMaxu d a b s
  | .addw d a b => Sys2Proof.Machine.execAddw d a b s
  | .subw d a b => Sys2Proof.Machine.execSubw d a b s
  | .clz d a => Sys2Proof.Machine.execClz d a s
  | .ctz d a => Sys2Proof.Machine.execCtz d a s
  | .popc d a => Sys2Proof.Machine.execPopc d a s
  | .sextb d a => Sys2Proof.Machine.execSextb d a s
  | .sexth d a => Sys2Proof.Machine.execSexth d a s
  | .sextw d a => Sys2Proof.Machine.execSextw d a s
  | .bswap d a => Sys2Proof.Machine.execBswap d a s
  | .addSat d a b => Sys2Proof.Machine.execAddSat d a b s
  | .subSat d a b => Sys2Proof.Machine.execSubSat d a b s
  | .adduSat d a b => Sys2Proof.Machine.execAdduSat d a b s
  | .subuSat d a b => Sys2Proof.Machine.execSubuSat d a b s
  | .addi d a imm => Sys2Proof.Machine.execAddi d a imm s
  | .andi d a imm => Sys2Proof.Machine.execAndi d a imm s
  | .ori d a imm => Sys2Proof.Machine.execOri d a imm s
  | .xori d a imm => Sys2Proof.Machine.execXori d a imm s
  | .slti d a imm => Sys2Proof.Machine.execSlti d a imm s
  | .sltiu d a imm => Sys2Proof.Machine.execSltiu d a imm s
  | .slli d a sz => Sys2Proof.Machine.execSlli d a sz s
  | .srli d a sz => Sys2Proof.Machine.execSrli d a sz s
  | .srai d a sz => Sys2Proof.Machine.execSrai d a sz s
  | .rori d a sz => Sys2Proof.Machine.execRori d a sz s
  | .lui d imm => Sys2Proof.Machine.execLui d imm s
  | .aupc d imm => Sys2Proof.Machine.execAupc d imm s
  | .mul d a b => Sys2Proof.Machine.execMul d a b s
  | .mulh d a b => Sys2Proof.Machine.execMulh d a b s
  | .mulhu d a b => Sys2Proof.Machine.execMulhu d a b s
  | .mulhsu d a b => Sys2Proof.Machine.execMulhsu d a b s
  | .div d a b => Sys2Proof.Machine.execDiv d a b s
  | .divu d a b => Sys2Proof.Machine.execDivu d a b s
  | .rem d a b => Sys2Proof.Machine.execRem d a b s
  | .remu d a b => Sys2Proof.Machine.execRemu d a b s
  | .mulw d a b => Sys2Proof.Machine.execMulw d a b s
  | .divw d a b => Sys2Proof.Machine.execDivw d a b s
  | .divuw d a b => Sys2Proof.Machine.execDivuw d a b s
  | .remw d a b => Sys2Proof.Machine.execRemw d a b s
  | .remuw d a b => Sys2Proof.Machine.execRemuw d a b s
  | .beq a b o => Sys2Proof.Machine.execBeq a b o s
  | .bne a b o => Sys2Proof.Machine.execBne a b o s
  | .blt a b o => Sys2Proof.Machine.execBlt a b o s
  | .bge a b o => Sys2Proof.Machine.execBge a b o s
  | .bltu a b o => Sys2Proof.Machine.execBltu a b o s
  | .bgeu a b o => Sys2Proof.Machine.execBgeu a b o s
  | .jal d o => Sys2Proof.Machine.execJal d o s
  | .jalr d a imm => Sys2Proof.Machine.execJalr d a imm s
  | .ldb d a imm => Sys2Proof.Machine.execLdb d a imm s
  | .ldbu d a imm => Sys2Proof.Machine.execLdbu d a imm s
  | .ldh d a imm => Sys2Proof.Machine.execLdh d a imm s
  | .ldhu d a imm => Sys2Proof.Machine.execLdhu d a imm s
  | .ldw d a imm => Sys2Proof.Machine.execLdw d a imm s
  | .ldwu d a imm => Sys2Proof.Machine.execLdwu d a imm s
  | .ldd d a imm => Sys2Proof.Machine.execLdd d a imm s
  | .stb sz a imm => Sys2Proof.Machine.execStb sz a imm s
  | .sth sz a imm => Sys2Proof.Machine.execSth sz a imm s
  | .stw sz a imm => Sys2Proof.Machine.execStw sz a imm s
  | .std sz a imm => Sys2Proof.Machine.execStd sz a imm s
  | .ldf d a t o => Sys2Proof.Machine.execLdf d a t o s
  | .stf sz a t o => Sys2Proof.Machine.execStf sz a t o s
  | .fadd d a b m t => Sys2Proof.Machine.execFadd d a b m t s
  | .fsub d a b m t => Sys2Proof.Machine.execFsub d a b m t s
  | .fmul d a b m t => Sys2Proof.Machine.execFmul d a b m t s
  | .fdiv d a b m t => Sys2Proof.Machine.execFdiv d a b m t s
  | .fsqrt d a m t => Sys2Proof.Machine.execFsqrt d a m t s
  | .fmin d a b m t => Sys2Proof.Machine.execFmin d a b m t s
  | .fmax d a b m t => Sys2Proof.Machine.execFmax d a b m t s
  | .fsgnj d a b m t => Sys2Proof.Machine.execFsgnj d a b m t s
  | .fsgnjn d a b m t => Sys2Proof.Machine.execFsgnjn d a b m t s
  | .fsgnjx d a b m t => Sys2Proof.Machine.execFsgnjx d a b m t s
  | .feq d a b m t => Sys2Proof.Machine.execFeq d a b m t s
  | .flt d a b m t => Sys2Proof.Machine.execFlt d a b m t s
  | .fle d a b m t => Sys2Proof.Machine.execFle d a b m t s
  | .fclass d a m t => Sys2Proof.Machine.execFclass d a m t s
  | .fcvtI64Fmt d a m t => Sys2Proof.Machine.execFcvtI64Fmt d a m t s
  | .fcvtI32Fmt d a m t => Sys2Proof.Machine.execFcvtI32Fmt d a m t s
  | .fcvtN32Fmt d a m t => Sys2Proof.Machine.execFcvtN32Fmt d a m t s
  | .fcvtFmtI64 d a m t => Sys2Proof.Machine.execFcvtFmtI64 d a m t s
  | .fcvtFmtI32 d a m t => Sys2Proof.Machine.execFcvtFmtI32 d a m t s
  | .fcvtFmtN32 d a m t => Sys2Proof.Machine.execFcvtFmtN32 d a m t s
  | .fcvtF32F64 d a m => Sys2Proof.Machine.execFcvtF32F64 d a m s
  | .fcvtF64F32 d a m => Sys2Proof.Machine.execFcvtF64F32 d a m s
  | .fmvfg d a m t => Sys2Proof.Machine.execFmvfg d a m t s
  | .fmvgf d a m t => Sys2Proof.Machine.execFmvgf d a m t s
  | .fmadd d a b c t m => Sys2Proof.Machine.execFmadd d a b c t m s
  | .fmsub d a b c t m => Sys2Proof.Machine.execFmsub d a b c t m s
  | .fnmadd d a b c t m => Sys2Proof.Machine.execFnmadd d a b c t m s
  | .fnmsub d a b c t m => Sys2Proof.Machine.execFnmsub d a b c t m s
  | .lds d a => Sys2Proof.Machine.execLds d a s
  | .ldse d a => Sys2Proof.Machine.execLdse d a s
  | .stfl a b => Sys2Proof.Machine.execStfl a b s
  | .fefill a b => Sys2Proof.Machine.execFefill a b s
  | .feempty a b => Sys2Proof.Machine.execFeempty a b s
  | .fest d a => Sys2Proof.Machine.execFest d a s
  | .lda d a sz => Sys2Proof.Machine.execLda d a sz s
  | .stl a b sz => Sys2Proof.Machine.execStl a b sz s
  | .amoAdd d a b q sz => Sys2Proof.Machine.execAmoAdd d a b q sz s
  | .amoAnd d a b q sz => Sys2Proof.Machine.execAmoAnd d a b q sz s
  | .amoOr d a b q sz => Sys2Proof.Machine.execAmoOr d a b q sz s
  | .amoXor d a b q sz => Sys2Proof.Machine.execAmoXor d a b q sz s
  | .amoMin d a b q sz => Sys2Proof.Machine.execAmoMin d a b q sz s
  | .amoMax d a b q sz => Sys2Proof.Machine.execAmoMax d a b q sz s
  | .amoMinu d a b q sz => Sys2Proof.Machine.execAmoMinu d a b q sz s
  | .amoMaxu d a b q sz => Sys2Proof.Machine.execAmoMaxu d a b q sz s
  | .amoSwap d a b q sz => Sys2Proof.Machine.execAmoSwap d a b q sz s
  | .amoCas d a b q sz => Sys2Proof.Machine.execAmoCas d a b q sz s
  | .amoFaddF32 d a b q sz => Sys2Proof.Machine.execAmoFaddF32 d a b q sz s
  | .amoFaddF64 d a b q sz => Sys2Proof.Machine.execAmoFaddF64 d a b q sz s
  | .fence x y z sz => Sys2Proof.Machine.execFence x y z sz s
  | .fenceAcq x y z sz => Sys2Proof.Machine.execFenceAcq x y z sz s
  | .fenceRel x y z sz => Sys2Proof.Machine.execFenceRel x y z sz s
  | .barrive d a => Sys2Proof.Machine.execBarrive d a s
  | .bwait a => Sys2Proof.Machine.execBwait a s
  | .barw d a => Sys2Proof.Machine.execBarw d a s
  | .gbar => Sys2Proof.Machine.execGbar s
  | .bmake d a => Sys2Proof.Machine.execBmake d a s
  | .bfree d a => Sys2Proof.Machine.execBfree d a s
  | .put a b c => Sys2Proof.Machine.execPut a b c s
  | .get a b c => Sys2Proof.Machine.execGet a b c s
  | .putm a b c => Sys2Proof.Machine.execPutm a b c s
  | .getd b c => Sys2Proof.Machine.execGetd b c s
  | .cwait a b => Sys2Proof.Machine.execCwait a b s
  | .cread d a => Sys2Proof.Machine.execCread d a s
  | .cadd a b => Sys2Proof.Machine.execCadd a b s
  | .rinit k a b => Sys2Proof.Machine.execRinit k a b s
  | .rwf d k b => Sys2Proof.Machine.execRwf d k b s
  | .rwe d k b => Sys2Proof.Machine.execRwe d k b s
  | .rpub k b => Sys2Proof.Machine.execRpub k b s
  | .rcon k b => Sys2Proof.Machine.execRcon k b s
  | .dep a b => Sys2Proof.Machine.execDep a b s
  | .depx a b => Sys2Proof.Machine.execDepx a b s
  | .sns4 d a b => Sys2Proof.Machine.execSns4 d a b s
  | .sns8 d a b => Sys2Proof.Machine.execSns8 d a b s
  | .snsl d a => Sys2Proof.Machine.execSnsl d a s
  | .mrd d a sz => Sys2Proof.Machine.execMrd d a sz s
  | .tknum d sz => Sys2Proof.Machine.execTknum d sz s
  | .tkwait a => Sys2Proof.Machine.execTkwait a s
  | .axsetv v a => Sys2Proof.Machine.execAxsetv v a s
  | .axsets sz a b => Sys2Proof.Machine.execAxsets sz a b s
  | .axget d a => Sys2Proof.Machine.execAxget d a s
  | .axtt a b => Sys2Proof.Machine.execAxtt a b s
  | .axeAdd d a b f => Sys2Proof.Machine.execAxeAdd d a b f s
  | .axeSub d a b f => Sys2Proof.Machine.execAxeSub d a b f s
  | .axeAddSat d a b f => Sys2Proof.Machine.execAxeAddSat d a b f s
  | .axeSubSat d a b f => Sys2Proof.Machine.execAxeSubSat d a b f s
  | .axeMin d a b f => Sys2Proof.Machine.execAxeMin d a b f s
  | .axeMax d a b f => Sys2Proof.Machine.execAxeMax d a b f s
  | .axeMul d a b f => Sys2Proof.Machine.execAxeMul d a b f s
  | .axeFma d a b => Sys2Proof.Machine.execAxeFma d a b s
  | .axeCmpeq d a b f => Sys2Proof.Machine.execAxeCmpeq d a b f s
  | .axeCmplt d a b f => Sys2Proof.Machine.execAxeCmplt d a b f s
  | .axeCvt d a f => Sys2Proof.Machine.execAxeCvt d a f s
  | .axeAnd d a b => Sys2Proof.Machine.execAxeAnd d a b s
  | .axeOr d a b => Sys2Proof.Machine.execAxeOr d a b s
  | .axeXor d a b => Sys2Proof.Machine.execAxeXor d a b s
  | .axeNot d a => Sys2Proof.Machine.execAxeNot d a s
  | .axeMov d a => Sys2Proof.Machine.execAxeMov d a s
  | .axeSel d a b => Sys2Proof.Machine.execAxeSel d a b s
  | .axeShl d a sz => Sys2Proof.Machine.execAxeShl d a sz s
  | .axeShr d a sz => Sys2Proof.Machine.execAxeShr d a sz s
  | .axeSra d a sz => Sys2Proof.Machine.execAxeSra d a sz s
  | .axmm sz f p => Sys2Proof.Machine.execAxmm sz f p s
  | .axgang sz f p => Sys2Proof.Machine.execAxgang sz f p s
  | .axmatch t a b v => Sys2Proof.Machine.execAxmatch t a b v s
  | .axfirst d t => Sys2Proof.Machine.execAxfirst d t s
  | .axcount d t => Sys2Proof.Machine.execAxcount d t s
  | .axmin d v t f => Sys2Proof.Machine.execAxmin d v t f s
  | .axmax d v t f => Sys2Proof.Machine.execAxmax d v t f s
  | .axsum d v b f => Sys2Proof.Machine.execAxsum d v b f s
  | .axtag t a o => Sys2Proof.Machine.execAxtag t a o s
  | .axld v a b => Sys2Proof.Machine.execAxld v a b s
  | .axldf v a b f => Sys2Proof.Machine.execAxldf v a b f s
  | .axldg v a b f => Sys2Proof.Machine.execAxldg v a b f s
  | .axst v a b => Sys2Proof.Machine.execAxst v a b s
  | .axlive a b n => Sys2Proof.Machine.execAxlive a b n s
  | .axwait a => Sys2Proof.Machine.execAxwait a s
  | .axpass a => Sys2Proof.Machine.execAxpass a s
  | .bkload a b => Sys2Proof.Machine.execBkload a b s
  | .bkrun a b => Sys2Proof.Machine.execBkrun a b s
  | .bkcopy a b c => Sys2Proof.Machine.execBkcopy a b c s
  | .bkfence => Sys2Proof.Machine.execBkfence s
  | .bkerr d a => Sys2Proof.Machine.execBkerr d a s
  | .bkmeta d a b c => Sys2Proof.Machine.execBkmeta d a b c s
  | .maddF32 a b => Sys2Proof.Machine.execMaddF32 a b s
  | .maddI32 a b => Sys2Proof.Machine.execMaddI32 a b s
  | .maddV4 a b c => Sys2Proof.Machine.execMaddV4 a b c s
  | .mfence => Sys2Proof.Machine.execMfence s
  | .tspawn d a b => Sys2Proof.Machine.execTspawn d a b s
  | .texit a => Sys2Proof.Machine.execTexit a s
  | .targ d a => Sys2Proof.Machine.execTarg d a s
  | .tyield a => Sys2Proof.Machine.execTyield a s
  | .ecall d a b c => Sys2Proof.Machine.execEcall d a b c s
  | .ebreak d a b c => Sys2Proof.Machine.execEbreak d a b c s
  | .tret => Sys2Proof.Machine.execTret s
  | .wfi => Sys2Proof.Machine.execWfi s
  | .icinv => Sys2Proof.Machine.execIcinv s
  | .csrr d c => Sys2Proof.Machine.execCsrr d c s
  | .csrs d a c => Sys2Proof.Machine.execCsrs d a c s
  | .csrc d a c => Sys2Proof.Machine.execCsrc d a c s
  | .csrw a c => Sys2Proof.Machine.execCsrw a c s
  | .tlbinv a b m => Sys2Proof.Machine.execTlbinv a b m s
  | .asidset d a => Sys2Proof.Machine.execAsidset d a s
  | .protset a n => Sys2Proof.Machine.execProtset a n s
  | .stopat d a b => Sys2Proof.Machine.execStopat d a b s
  | .cld d a => Sys2Proof.Machine.execCld d a s
  | .cst d a => Sys2Proof.Machine.execCst d a s
  | .cstM d a b => Sys2Proof.Machine.execCstM d a b s
  | .cldm d a b c => Sys2Proof.Machine.execCldm d a b c s
  | .laneAdd d a b f => Sys2Proof.Machine.execLaneAdd d a b f s
  | .laneSub d a b f => Sys2Proof.Machine.execLaneSub d a b f s
  | .laneMul d a b f => Sys2Proof.Machine.execLaneMul d a b f s
  | .laneFma d a b f => Sys2Proof.Machine.execLaneFma d a b f s
  | .laneMin d a b f => Sys2Proof.Machine.execLaneMin d a b f s
  | .laneMax d a b f => Sys2Proof.Machine.execLaneMax d a b f s
  | .rsum d a f => Sys2Proof.Machine.execRsum d a f s
  | .splat d a f => Sys2Proof.Machine.execSplat d a f s
  | .laneAnd d a b => Sys2Proof.Machine.execLaneAnd d a b s
  | .laneOr d a b => Sys2Proof.Machine.execLaneOr d a b s
  | .laneXor d a b => Sys2Proof.Machine.execLaneXor d a b s
  | .laneMov d a => Sys2Proof.Machine.execLaneMov d a s
  | .lget d a w => Sys2Proof.Machine.execLget d a w s
  | .lput d a w => Sys2Proof.Machine.execLput d a w s
  | .lld d a => Sys2Proof.Machine.execLld d a s
  | .lst d a => Sys2Proof.Machine.execLst d a s
  | .bdone a => Sys2Proof.Machine.execBdone a s
  | .bsig a => Sys2Proof.Machine.execBsig a s
  | .takeInterrupt cid => Sys2Proof.Machine.execTakeInterrupt cid s
  | .takeAsyncException cid => Sys2Proof.Machine.execTakeAsyncException cid s
  | .timerMatch cid => Sys2Proof.Machine.execTimerMatch cid s
  | .instructionFetchFill cid => Sys2Proof.Machine.execInstructionFetchFill cid s
  | .chunkCommit cid => Sys2Proof.Machine.execChunkCommit cid s
  | .soloGrant cid => Sys2Proof.Machine.execSoloGrant cid s
  | .remoteAccessArrival id => Sys2Proof.Machine.execRemoteAccessArrival id s
  | .syncEngineAtomic id => Sys2Proof.Machine.execSyncEngineAtomic id s
  | .syncEngineBarrier id => Sys2Proof.Machine.execSyncEngineBarrier id s
  | .remoteLoadReply id => Sys2Proof.Machine.execRemoteLoadReply id s
  | .remoteAtomicReply id => Sys2Proof.Machine.execRemoteAtomicReply id s
  | .syncReply id => Sys2Proof.Machine.execSyncReply id s
  | .remoteAck id => Sys2Proof.Machine.execRemoteAck id s
  | .remoteRejection id => Sys2Proof.Machine.execRemoteRejection id s
  | .bwaitWake cid => Sys2Proof.Machine.execBwaitWake cid s
  | .gbarComplete task => Sys2Proof.Machine.execGbarComplete task s
  | .ldsWake cid => Sys2Proof.Machine.execLdsWake cid s
  | .cwaitWake cid => Sys2Proof.Machine.execCwaitWake cid s
  | .rwfWake cid => Sys2Proof.Machine.execRwfWake cid s
  | .rweWake cid => Sys2Proof.Machine.execRweWake cid s
  | .tkwaitWake cid => Sys2Proof.Machine.execTkwaitWake cid s
  | .fenceWaitEnd cid => Sys2Proof.Machine.execFenceWaitEnd cid s
  | .bkfenceWaitEnd cid => Sys2Proof.Machine.execBkfenceWaitEnd cid s
  | .mfenceWaitEnd cid => Sys2Proof.Machine.execMfenceWaitEnd cid s
  | .tlbinvAck cid => Sys2Proof.Machine.execTlbinvAck cid s
  | .stopAnnounced cid => Sys2Proof.Machine.execStopAnnounced cid s
  | .tspawnAck cid => Sys2Proof.Machine.execTspawnAck cid s
  | .tyieldEnd cid => Sys2Proof.Machine.execTyieldEnd cid s
  | .wfiWake cid => Sys2Proof.Machine.execWfiWake cid s
  | .axwaitEnd cid => Sys2Proof.Machine.execAxwaitEnd cid s
  | .arrayInstrExecute cid => Sys2Proof.Machine.execArrayInstrExecute cid s
  | .arrayResultWrite cid => Sys2Proof.Machine.execArrayResultWrite cid s
  | .axmmRow cid => Sys2Proof.Machine.execAxmmRow cid s
  | .gangOpJoin task => Sys2Proof.Machine.execGangOpJoin task s
  | .axgangRow task => Sys2Proof.Machine.execAxgangRow task s
  | .putgetSegment cid eid => Sys2Proof.Machine.execPutgetSegment cid eid s
  | .partTranslate cid eid => Sys2Proof.Machine.execPartTranslate cid eid s
  | .faultRecordWrite part fid => Sys2Proof.Machine.execFaultRecordWrite part fid s
  | .putgetComplete cid eid => Sys2Proof.Machine.execPutgetComplete cid eid s
  | .putgetFail cid eid => Sys2Proof.Machine.execPutgetFail cid eid s
  | .putmSlotClaim cid eid dest => Sys2Proof.Machine.execPutmSlotClaim cid eid dest s
  | .bkloadComplete cid => Sys2Proof.Machine.execBkloadComplete cid s
  | .overlayStart cid => Sys2Proof.Machine.execOverlayStart cid s
  | .overlayEnd gcn => Sys2Proof.Machine.execOverlayEnd gcn s
  | .bkcopyColumn cid => Sys2Proof.Machine.execBkcopyColumn cid s
  | .bkcopyComplete cid => Sys2Proof.Machine.execBkcopyComplete cid s
  | .bkmetaComplete cid => Sys2Proof.Machine.execBkmetaComplete cid s
  | .streamSlotGrant stack => Sys2Proof.Machine.execStreamSlotGrant stack s
  | .streamSlotIdleRelease gcn => Sys2Proof.Machine.execStreamSlotIdleRelease gcn s
  | .maddAccept cid eid => Sys2Proof.Machine.execMaddAccept cid eid s
  | .maddApply cid eid => Sys2Proof.Machine.execMaddApply cid eid s
  | .hotRowWindow gcn => Sys2Proof.Machine.execHotRowWindow gcn s
  | .hotRowAdmit gcn row => Sys2Proof.Machine.execHotRowAdmit gcn row s
  | .markOpArrival id => Sys2Proof.Machine.execMarkOpArrival id s
  | .markOpApply pcn n => Sys2Proof.Machine.execMarkOpApply pcn n s
  | .tick part => Sys2Proof.Machine.execTick part s
  | .markConfigEffect pcn n => Sys2Proof.Machine.execMarkConfigEffect pcn n s
  | .msizeWrite pcn v => Sys2Proof.Machine.execMsizeWrite pcn v s
  | .fresumeRetry part fid => Sys2Proof.Machine.execFresumeRetry part fid s
  | .fresumeFail part fid => Sys2Proof.Machine.execFresumeFail part fid s
  | .fresumeExhaust part fid => Sys2Proof.Machine.execFresumeExhaust part fid s
  | .registerWrite r v => Sys2Proof.Machine.execRegisterWrite r v s
  | .qtailWrite vf c v => Sys2Proof.Machine.execQtailWrite vf c v s
  | .qcfgWrite vf c v => Sys2Proof.Machine.execQcfgWrite vf c v s
  | .evcfgWrite vf v => Sys2Proof.Machine.execEvcfgWrite vf v s
  | .ptcfgWrite part v => Sys2Proof.Machine.execPtcfgWrite part v s
  | .launchRead vf c => Sys2Proof.Machine.execLaunchRead vf c s
  | .taskEnqueue vf c => Sys2Proof.Machine.execTaskEnqueue vf c s
  | .versionFill ver => Sys2Proof.Machine.execVersionFill ver s
  | .taskEligible task => Sys2Proof.Machine.execTaskEligible task s
  | .dispatchOpportunity part => Sys2Proof.Machine.execDispatchOpportunity part s
  | .evictGang task => Sys2Proof.Machine.execEvictGang task s
  | .taskComplete task => Sys2Proof.Machine.execTaskComplete task s
  | .eventRecordWrite vf => Sys2Proof.Machine.execEventRecordWrite vf s
  | .eventInterruptTimeout vf => Sys2Proof.Machine.execEventInterruptTimeout vf s
  | .versionInstall ver => Sys2Proof.Machine.execVersionInstall ver s
  | .hangExpiry task => Sys2Proof.Machine.execHangExpiry task s
  | .zugzwangStop part => Sys2Proof.Machine.execZugzwangStop part s
  | .flushToken part die => Sys2Proof.Machine.execFlushToken part die s
  | .routerFlush part pcn => Sys2Proof.Machine.execRouterFlush part pcn s
  | .stopComplete part => Sys2Proof.Machine.execStopComplete part s
  | .partitionResume part => Sys2Proof.Machine.execPartitionResume part s
  | .recallLentClusters lender borrower => Sys2Proof.Machine.execRecallLentClusters lender borrower s
  | .lendCluster part pcn => Sys2Proof.Machine.execLendCluster part pcn s
  | .assignCluster part pcn => Sys2Proof.Machine.execAssignCluster part pcn s
  | .withdrawPartition part => Sys2Proof.Machine.execWithdrawPartition part s
  | .migrateOwner vf => Sys2Proof.Machine.execMigrateOwner vf s
  | .field vf => Sys2Proof.Machine.execField vf s
  | .ticks vf => Sys2Proof.Machine.execTicks vf s
  | .snapshot vf => Sys2Proof.Machine.execSnapshot vf s
  | .cap vf => Sys2Proof.Machine.execCap vf s
  | .mailboxUnknown vf => Sys2Proof.Machine.execMailboxUnknown vf s
  | .hostMemAccess write hpa bytes => Sys2Proof.Machine.execHostMemAccess write hpa bytes s
  | .spdmRequest fn => Sys2Proof.Machine.execSpdmRequest fn s
  | .firmwareImage image version => Sys2Proof.Machine.execFirmwareImage image version s
  | .firmwareHealthy => Sys2Proof.Machine.execFirmwareHealthy s
  | .firmwareHealthTimeout => Sys2Proof.Machine.execFirmwareHealthTimeout s
  | .linkOpReceive dev seq paired op => Sys2Proof.Machine.execLinkOpReceive dev seq paired op s
  | .linkPortDown port => Sys2Proof.Machine.execLinkPortDown port s
  | .linkRouteTimeout dev => Sys2Proof.Machine.execLinkRouteTimeout dev s
  | .governorEval pcn => Sys2Proof.Machine.execGovernorEval pcn s
  | .operatingPointStep pcn => Sys2Proof.Machine.execOperatingPointStep pcn s
  | .voltageSettled pcn => Sys2Proof.Machine.execVoltageSettled pcn s
  | .voltageFloorChange pcn mv => Sys2Proof.Machine.execVoltageFloorChange pcn mv s
  | .powerThrottle pcn => Sys2Proof.Machine.execPowerThrottle pcn s
  | .thermalReset => Sys2Proof.Machine.execThermalReset s
  | .moduleReset => Sys2Proof.Machine.execModuleReset s
  | .lastingFault u => Sys2Proof.Machine.execLastingFault u s
  | .isolateFault u => Sys2Proof.Machine.execIsolateFault u s
  | .gradeChange gcn region g => Sys2Proof.Machine.execGradeChange gcn region g s
  | .illegalInstruction w => Sys2Proof.Machine.execIllegalInstruction w s
  | .eventAcknowledgement cid => Sys2Proof.Machine.execEventAcknowledgement cid s
  | .softError e => Sys2Proof.Machine.execSoftError e s
  | .markReply id => Sys2Proof.Machine.execMarkReply id s
  | .linkPortUp port => Sys2Proof.Machine.execLinkPortUp port s
  | .powerLimitCleared => Sys2Proof.Machine.execPowerLimitCleared s

end Sys2Proof.Machine
end

