-- ==== Sys2Proof/Machine/Issue.lean ====
section
/-!
DEFINITION. What a step may do: a hart issues (R29), a BAU issues (R282), time passes (R149), a meter counts (R25), or an
event takes place. An issue that a stall holds back leaves the state as it is.
-/

namespace Sys2Proof.Machine

/-! ### A hart issues -/

/-- R156, R203: the scope of the acquire that the completion of a word may be: LDA, an SC atomic, FENCE and FENCE.ACQ, BWAIT and BARW,
GBAR, CWAIT and CREAD, whose bumps may be of any scope (log entry 53), and RWF. -/
def acquires (w : W32) : Option Nat :=
  let fn := (fFn w).toNat
  let named := if (fC w).toNat ≤ 4 then some (fC w).toNat else none
  match (fMaj w).toNat with
  | 0x22 => if fn = 7 then named else none
  | 0x23 => if (fC w).getLsbD 0 then some (fn % 4 + 1) else none
  | 0x24 => if fn = 1 ∨ fn = 2 then named else none
  | 0x25 => if fn = 2 ∨ fn = 3 then some 3 else if fn = 4 then some 1 else none
  | 0x26 => if fn = 5 ∨ fn = 6 then some 4 else none
  | 0x27 => if fn = 2 then some 1 else none
  | _ => none

/-- Of two acquires under way the wider. -/
def widerScope (a b : Option Nat) : Option Nat :=
  match a, b with
  | some x, some y => some (max x y)
  | some x, none => some x
  | none, y => y

/-- R205, R208, R210: a hart issues a word. An acquire issued before, whose read has returned, orders what the hart does from now on; so
does TEXIT, for what the task's record releases (log entry 53). -/
def noteIssue (c : Nat) (w : W32) (s : State) : State :=
  let h := s.ctx c
  let done := if h.scAcq.isEmpty then h.acq else none
  let s := if done.isSome || (fMaj w == 0x30 && fFn w == 2) then carry c s else s
  modCtx c (fun h => match done with
    | some z => { h with acquired := tput h.acquired z s.gtime, acq := acquires w }
    | none => { h with acq := widerScope h.acq (acquires w) }) s

/-- R76 to R82: the fetched word is decoded and runs. -/
def issueWord (c : Nat) (w : W32) (s : State) : Host.Outcome State Fault Refusal :=
  match decode w with
  | .error _ => execIllegalInstruction w { s with cur := .hart c }
  | .ok i => if stalled (s.ctx c) w then .next s else exec i (noteIssue c w { s with cur := .hart c })

/-- R29, R26, R30, R132, R199: an issue slot of a hart. In order: a recorded trap, an asynchronous exception, an
interrupt, the commit of a full chunk, the fetch, the instruction. `granted`: the slot is a grant of solo mode, which only an
instruction of a chunk takes (R199). An instruction that a release holds back issues again, before any trap (R384), and in solo
mode within the grant that it has had. -/
def hartStep (granted : Bool) (c : Nat) (s : State) : Host.Outcome State Fault Refusal :=
  let h := s.ctx c
  if !canMove s h then .next s
  else if h.recorded.isSome then .next (takeRecorded c s)
  else if pendingAsync h && decide (h.wait ≠ .acks) then execTakeAsyncException c s
  else if (takenInterrupt s h).isSome && decide (h.wait ≠ .acks) then execTakeInterrupt c s
  else if h.wait ≠ .none ∧ h.wait ≠ .acks then .next s
  else if (h.chunk.map (·.closed)).getD false then execChunkCommit c s
  else match fetchWord h h.regs.pc.toNat with
    | none => execInstructionFetchFill c s
    | some w => if h.solo && !granted && decide (h.wait ≠ .acks) && chunkNext h then .next s else issueWord c w s

/-- R30: a slot of hart `c` under its grant, which lasts no longer than the instruction: a hart that is in solo mode after it, as
where a stall held the instruction, asks anew, behind the requests that are pending. -/
def grantStep (c : Nat) (s : State) : Host.Outcome State Fault Refusal :=
  match hartStep true c s with
  | .next t => .next (modCtx c (fun h => { h with soloSince := if h.solo then t.gtime else h.soloSince }) t)
  | o => o

/-! ### A BAU issues -/

/-- R282: the running overlay of a bank executes its next instruction; a word that is none ends it (R83). -/
def bauStep (g : Nat) (s : State) : Host.Outcome State Fault Refusal :=
  let b := s.bank g
  match b.run with
  | none => .next s
  | some r =>
    if r.ended.isSome then .next s
    else
      let w := tget b.code (b.pc / 4) 0
      match decode w with
      | .error _ => execIllegalInstruction w { s with cur := .bau g }
      | .ok i => exec i { s with cur := .bau g }

/-! ### A move -/

/-- Rows of the opcode table that have no encoding are events; ILLEGAL_INSTRUCTION takes place only at an issue. -/
def isEvent (i : Instr) : Bool :=
  match i with
  | .illegalInstruction _ => false
  | i => (encode i).isNone

/-- One move of the device. -/
def runMove (m : Move) (s : State) : Host.Outcome State Fault Refusal :=
  match m with
  | .time dt => .next (passTime dt s)
  | .hart c => hartStep false c s
  | .bau g => bauStep g s
  | .energy q uj => .next (meter q uj s)
  | .event i => if isEvent i then exec i s else .next s
  | .choose x => .next { s with choice := x }

/-! ### Placing an instruction to be fetched next -/

/-- A hart that can issue at once and holds a word in its instruction cache at its PC. -/
def holdWord (w : W32) (h : Ctx) : Ctx :=
  let va := h.regs.pc.toNat
  { h with
    resident := true, gcn := 0, halted := false, exited := none, solo := false, recorded := none, pendStores := []
    wait := .none, chunk := none, scAcq := []
    csr := { h.csr with imask := 0, event := false, eventCodes := [] }
    eng := { h.eng with posted := none, aq := [], aresults := [] }
    icache := [{ asid := h.csr.asid.toNat, va := va / 32
                 words := (List.range 8).map fun i => if i = va % 32 / 4 then w else 0
                 page := va / 0x10000 * 0x10000, pageSize := 0x10000 }] }

/-- A bank whose overlay holds a word in code memory at its PC. -/
def holdCode (w : W32) (b : Bank) : Bank := { b with run := some { cid := 0 }, code := tput b.code (b.pc / 4) w }

/-- The device with a word where its next step fetches: for a core the hart of context 0, for a BAU bank 0. -/
def placeWord (w : W32) (s : State) : State :=
  let s := { s with soloTurn := none }
  if 0x38 ≤ (fMaj w).toNat ∧ (fMaj w).toNat ≤ 0x3A then
    modBank 0 (holdCode w) { s with agenda := [.bau 0] }
  else
    let s := modCtx 0 (holdWord w) { s with agenda := [.hart 0] }
    modPart (s.ctx 0).part (fun p => { p with stop := none, stopped := false }) s

end Sys2Proof.Machine
end

