-- ==== Sys2Proof/Machine/Step.lean ====
section
/-!
DEFINITION. One step of the device: the grant of solo mode if one is given (R30), else the next move of the agenda, else
a free move (R383; log entry 1).
-/

namespace Sys2Proof.Machine

/-- One step. -/
def step (s : State) : Host.Outcome State Fault Refusal :=
  match s.soloTurn, s.agenda with
  | some c, _ => grantStep c { s with soloTurn := none }
  | none, m :: r => runMove m { s with agenda := r }
  | none, [] => runMove (Config.freeMove s.moveNo) { s with moveNo := s.moveNo + 1 }

/-- The state with an instruction word where the next step fetches (every instruction is one 32-bit word). -/
def State.withFetchWord (s : State) (nbits w : Nat) : State :=
  let _ := nbits
  placeWord (BitVec.ofNat 32 w) s

end Sys2Proof.Machine
end

