-- ==== Sys2Proof/Certificates/Slice0/Obligations.lean ====
section
/-!
DEFINITION. The statements for the provers. `Sys2Proof.Claim` holds their vocabulary: when a hart or a bank arithmetic unit
issues, what stays as it was, and tables that give for an instruction the result its rule states.
-/

namespace Sys2Proof.Claim
open Sys2Proof.Machine

/-- The hart of context `c` issues: not at the last instruction address (R107), with no step armed (R138) and not in solo
mode (R30). -/
structure HartIssues (s : State) (c : Nat) : Prop where
  cur : s.cur = .hart c
  notLast : (s.ctx c).regs.pc ≠ 0x01FFFFFFFFFFFFFC
  notArmed : (s.ctx c).armed = none
  notSolo : (s.ctx c).solo = false

/-- The same with no chunk open (R199). -/
structure HartAlone (s : State) (c : Nat) : Prop extends HartIssues s c where
  noChunk : (s.ctx c).chunk = none

/-- Memory and the table of harts are in canonical form: keys strictly rising, no byte 0 listed. -/
def Canonical (s : State) : Prop := s.mem.wf = true ∧ s.ctxs.Pairwise fun a b => a.1 < b.1

/-- Only the state of context `c` may differ: every other part of the device, every other hart and every byte of memory is as
before. -/
structure OnlyHart (c : Nat) (s t : State) : Prop where
  device : { t with ctxs := s.ctxs } = s
  harts : ∀ x, x ≠ c → t.ctx x = s.ctx x
  memory : ∀ a, readByte t.mem a = readByte s.mem a

/-- Only bank `g` may differ. -/
structure OnlyBank (g : Nat) (s t : State) : Prop where
  device : { t with banks := s.banks } = s
  banks : ∀ x, x ≠ g → t.bank x = s.bank x
  memory : ∀ a, readByte t.mem a = readByte s.mem a

/-- An instruction of majors 0x00 to 0x21 has run at hart `c`: its registers are `r`, its chunk holds `stores` (newest first)
and one instruction more, and nothing else of the device has changed (R199). -/
structure InChunk (c : Nat) (s t : State) (r : Regs) (stores : List (Nat × Byte)) : Prop where
  only : OnlyHart c s t
  regs : (t.ctx c).regs = r
  rest : { t.ctx c with regs := (s.ctx c).regs, chunk := (s.ctx c).chunk } = s.ctx c
  chunk : ∃ k, (t.ctx c).chunk = some k ∧ k.start = (openedChunk (s.ctx c)).start ∧ k.stores = stores ∧
    k.count = (openedChunk (s.ctx c)).count + 1

/-- The stores that the hart's chunk already holds. -/
def heldStores (h : Ctx) : List (Nat × Byte) := (openedChunk h).stores

/-- An instruction outside chunks has retired at hart `c` with registers `r` (R94, R149): it waits for nothing, is counted,
and nothing else has changed. -/
structure Retired (c : Nat) (s t : State) (r : Regs) : Prop where
  only : OnlyHart c s t
  hart : t.ctx c = { s.ctx c with
    regs := r, wait := .none, csr := { (s.ctx c).csr with retired := (s.ctx c).csr.retired + 1 } }

/-- The registers after an instruction at PC that does not transfer control. -/
def nextPc (r : Regs) (q : Regs) : Regs := { q with pc := r.pc + 4 }

/-- The exception of `code` with TVALUE `v` at the hart's current instruction (R128, R130). -/
def exception (c code : Nat) (v : W64) (s : State) : State := takeTrap c false code v (s.ctx c).regs.pc s

/-- The bank arithmetic unit of bank `g` issues (R282). -/
structure BauIssues (s : State) (g : Nat) : Prop where
  cur : s.cur = .bau g
  notLast : (s.bank g).pc ≠ 0xFFC

/-- A BAU instruction has run with the new unit `k`. -/
structure BauRan (g : Nat) (s t : State) (k : Bank) : Prop where
  only : OnlyBank g s t
  bank : t.bank g = k

/-- The run of bank `g` has reached its end with an END code (R284); nothing else has changed. -/
structure RunEnds (g code status : Nat) (s t : State) : Prop where
  only : OnlyBank g s t
  bank : t.bank g = { s.bank g with
    run := (s.bank g).run.map fun r => { r with ended := some (code, status, (s.bank g).pc) } }

/-! ### Integer results -/

/-- The pattern of an exact integer (R8). -/
def pat (w : Nat) (x : Int) : BitVec w := BitVec.ofInt w x
/-- 1 or 0. -/
def truth (w : Nat) (b : Bool) : BitVec w := BitVec.ofNat w b.toNat
/-- A value clamped into a range. -/
def clamp (lo hi x : Int) : Int := if x < lo then lo else if hi < x then hi else x
/-- Leading zero bits. -/
def leadingZeros {w : Nat} (x : BitVec w) : Nat := ((List.range w).takeWhile fun i => !x.getLsbD (w - 1 - i)).length
/-- Trailing zero bits. -/
def trailingZeros {w : Nat} (x : BitVec w) : Nat := ((List.range w).takeWhile fun i => !x.getLsbD i).length
/-- 1 bits. -/
def ones {w : Nat} (x : BitVec w) : Nat := ((List.range w).filter fun i => x.getLsbD i).length
/-- Byte `k` moved to byte `n - 1 - k`. -/
def swapped (n : Nat) {w : Nat} (x : BitVec w) : BitVec w :=
  BitVec.ofNat w (((List.range n).map fun k => (x.extractLsb' (8 * k) 8).toNat * 256 ^ (n - 1 - k)).sum)

/-- R97: the 29 operations at width `w`, with the shift amount in the low bits of y. -/
def aluResult (w : Nat) (x y : R5 → BitVec w) : Instr → Option (R5 × BitVec w)
  | .add d a b => some (d, pat w ((x a).toInt + (y b).toInt))
  | .sub d a b => some (d, pat w ((x a).toInt - (y b).toInt))
  | .and d a b => some (d, x a &&& y b)
  | .or d a b => some (d, x a ||| y b)
  | .xor d a b => some (d, x a ^^^ y b)
  | .andn d a b => some (d, x a &&& ~~~(y b))
  | .sll d a b => some (d, BitVec.ofNat w ((x a).toNat * 2 ^ ((y b).toNat % w)))
  | .srl d a b => some (d, BitVec.ofNat w ((x a).toNat / 2 ^ ((y b).toNat % w)))
  | .sra d a b => some (d, pat w ((x a).toInt / 2 ^ ((y b).toNat % w)))
  | .ror d a b => some (d, (x a).rotateRight ((y b).toNat % w))
  | .slt d a b => some (d, truth w (decide ((x a).toInt < (y b).toInt)))
  | .sltu d a b => some (d, truth w (decide ((x a).toNat < (y b).toNat)))
  | .min d a b => some (d, pat w (min (x a).toInt (y b).toInt))
  | .max d a b => some (d, pat w (max (x a).toInt (y b).toInt))
  | .minu d a b => some (d, BitVec.ofNat w (min (x a).toNat (y b).toNat))
  | .maxu d a b => some (d, BitVec.ofNat w (max (x a).toNat (y b).toNat))
  | .clz d a => some (d, BitVec.ofNat w (leadingZeros (x a)))
  | .ctz d a => some (d, BitVec.ofNat w (trailingZeros (x a)))
  | .popc d a => some (d, BitVec.ofNat w (ones (x a)))
  | .sextb d a => some (d, ((x a).truncate 8).signExtend w)
  | .sexth d a => some (d, ((x a).truncate 16).signExtend w)
  | .bswap d a => some (d, swapped (w / 8) (x a))
  | .addSat d a b => some (d, pat w (clamp (-(2 ^ (w - 1))) (2 ^ (w - 1) - 1) ((x a).toInt + (y b).toInt)))
  | .subSat d a b => some (d, pat w (clamp (-(2 ^ (w - 1))) (2 ^ (w - 1) - 1) ((x a).toInt - (y b).toInt)))
  | .adduSat d a b => some (d, pat w (clamp 0 (2 ^ w - 1) ((x a).toNat + (y b).toNat)))
  | .subuSat d a b => some (d, pat w (clamp 0 (2 ^ w - 1) ((x a).toNat - (y b).toNat)))
  | _ => none

/-- R97: the three operations that only a core has. -/
def wordResult (x : R5 → W64) : Instr → Option (R5 × W64)
  | .addw d a b => some (d, ((x a + x b).truncate 32).signExtend 64)
  | .subw d a b => some (d, ((x a - x b).truncate 32).signExtend 64)
  | .sextw d a => some (d, ((x a).truncate 32).signExtend 64)
  | _ => none

/-- R99, R100, R101: immediates and shifts by an amount. -/
def immResult (w : Nat) (pc : BitVec w) (x : R5 → BitVec w) : Instr → Option (R5 × BitVec w)
  | .addi d a i => some (d, pat w ((x a).toInt + i.toInt))
  | .andi d a i => some (d, x a &&& BitVec.ofNat w i.toNat)
  | .ori d a i => some (d, x a ||| BitVec.ofNat w i.toNat)
  | .xori d a i => some (d, x a ^^^ BitVec.ofNat w i.toNat)
  | .slti d a i => some (d, truth w (decide ((x a).toInt < i.toInt)))
  | .sltiu d a i => some (d, truth w (decide ((x a).toNat < (pat w i.toInt).toNat)))
  | .slli d a n => some (d, BitVec.ofNat w ((x a).toNat * 2 ^ n.toNat))
  | .srli d a n => some (d, BitVec.ofNat w ((x a).toNat / 2 ^ n.toNat))
  | .srai d a n => some (d, pat w ((x a).toInt / 2 ^ n.toNat))
  | .rori d a n => some (d, (x a).rotateRight n.toNat)
  | .lui d i => some (d, pat w (i.toInt * 2 ^ 16))
  | .aupc d i => some (d, pat w (pc.toInt + i.toInt * 2 ^ 16))
  | _ => none

/-- R103: signed division at width `w`. -/
def quotient (w : Nat) (x y : Int) : Int :=
  if y = 0 then (if x < 0 then -(2 ^ (w - 1)) else 2 ^ (w - 1) - 1)
  else if x = -(2 ^ (w - 1)) ∧ y = -1 then 2 ^ (w - 1) - 1
  else x.tdiv y
/-- R103: signed remainder. -/
def remainder (x y : Int) : Int := if y = 0 then x else x - y * x.tdiv y
/-- R103: unsigned division. -/
def quotientU (w x y : Nat) : Nat := if y = 0 then 2 ^ w - 1 else x / y
/-- R103: unsigned remainder. -/
def remainderU (x y : Nat) : Nat := if y = 0 then x else x - y * (x / y)

/-- R102, R103: multiplication and division at width `w`. -/
def mulResult (w : Nat) (x : R5 → BitVec w) : Instr → Option (R5 × BitVec w)
  | .mul d a b => some (d, pat w ((x a).toInt * (x b).toInt))
  | .mulh d a b => some (d, pat w ((x a).toInt * (x b).toInt / 2 ^ w))
  | .mulhu d a b => some (d, BitVec.ofNat w ((x a).toNat * (x b).toNat / 2 ^ w))
  | .mulhsu d a b => some (d, pat w ((x a).toInt * (x b).toNat / 2 ^ w))
  | .div d a b => some (d, pat w (quotient w (x a).toInt (x b).toInt))
  | .divu d a b => some (d, BitVec.ofNat w (quotientU w (x a).toNat (x b).toNat))
  | .rem d a b => some (d, pat w (remainder (x a).toInt (x b).toInt))
  | .remu d a b => some (d, BitVec.ofNat w (remainderU (x a).toNat (x b).toNat))
  | _ => none

/-- R102, R103: the W forms: 32-bit results of the low halves, sign-extended. -/
def mulWordResult (x : R5 → W64) : Instr → Option (R5 × W64)
  | .mulw d a b => some (d, (pat 32 (((x a).truncate 32).toInt * ((x b).truncate 32).toInt)).signExtend 64)
  | .divw d a b => some (d, (pat 32 (quotient 32 ((x a).truncate 32).toInt ((x b).truncate 32).toInt)).signExtend 64)
  | .divuw d a b =>
    some (d, (BitVec.ofNat 32 (quotientU 32 ((x a).truncate 32).toNat ((x b).truncate 32).toNat)).signExtend 64)
  | .remw d a b => some (d, (pat 32 (remainder ((x a).truncate 32).toInt ((x b).truncate 32).toInt)).signExtend 64)
  | .remuw d a b =>
    some (d, (BitVec.ofNat 32 (remainderU ((x a).truncate 32).toNat ((x b).truncate 32).toNat)).signExtend 64)
  | _ => none

/-- R104: when a branch is taken, and its offset. -/
def branchOf (w : Nat) (x : R5 → BitVec w) : Instr → Option (Bool × BitVec 16)
  | .beq a b o => some (decide (x a = x b), o)
  | .bne a b o => some (decide (x a ≠ x b), o)
  | .blt a b o => some (decide ((x a).toInt < (x b).toInt), o)
  | .bge a b o => some (decide ((x b).toInt ≤ (x a).toInt), o)
  | .bltu a b o => some (decide ((x a).toNat < (x b).toNat), o)
  | .bgeu a b o => some (decide ((x b).toNat ≤ (x a).toNat), o)
  | _ => none

/-- R104 to R106: the target of a transfer of control with the register that takes PC + 4 (g0 for a branch); none for an
untaken branch. -/
def transferOf (w : Nat) (pc : BitVec w) (x : R5 → BitVec w) : Instr → Option (R5 × BitVec w)
  | .jal d o => some (d, pat w (pc.toInt + 4 * o.toInt))
  | .jalr d a i => some (d, pat w ((x a).toInt + i.toInt))
  | i => match branchOf w x i with
    | some (true, o) => some (0, pat w (pc.toInt + 4 * o.toInt))
    | _ => none

/-- The register fields of a form that a BAU shares with a core (R83). -/
def bauFields : Instr → List R5
  | .add d a b | .sub d a b | .and d a b | .or d a b | .xor d a b | .andn d a b | .sll d a b | .srl d a b | .sra d a b
  | .ror d a b | .slt d a b | .sltu d a b | .min d a b | .max d a b | .minu d a b | .maxu d a b | .addSat d a b
  | .subSat d a b | .adduSat d a b | .subuSat d a b | .mul d a b | .mulh d a b | .mulhu d a b | .mulhsu d a b | .div d a b
  | .divu d a b | .rem d a b | .remu d a b => [d, a, b]
  | .clz d a | .ctz d a | .popc d a | .sextb d a | .sexth d a | .bswap d a | .addi d a _ | .andi d a _ | .ori d a _
  | .xori d a _ | .slti d a _ | .sltiu d a _ | .slli d a _ | .srli d a _ | .srai d a _ | .rori d a _ | .jalr d a _
  | .beq d a _ | .bne d a _ | .blt d a _ | .bge d a _ | .bltu d a _ | .bgeu d a _ | .ldb d a _ | .ldbu d a _ | .ldh d a _
  | .ldhu d a _ | .ldw d a _ | .stb d a _ | .sth d a _ | .stw d a _ => [d, a]
  | .lui d _ | .aupc d _ | .jal d _ => [d]
  | _ => []

/-- R283: the amount of a shift by an amount lies below 32. -/
def bauAmount : Instr → Bool
  | .slli _ _ n | .srli _ _ n | .srai _ _ n | .rori _ _ n => decide (n.toNat < 32)
  | _ => true

/-- Bits 63:57 of a virtual address are zero (R3). -/
def virtual (a : W64) : Bool := decide (a.toNat < 2 ^ 57)

end Sys2Proof.Claim

open Sys2Proof Sys2Proof.Machine Sys2Proof.Claim

/-- R96 to R98: every integer ALU form writes its result to g[d] (nothing for g0), goes to PC + 4 and changes nothing else. -/
def Sys2Proof.Claim.IntegerAluResults : Prop :=
  ∀ s c i d v, HartIssues s c →
    (aluResult 64 (getG (s.ctx c).regs) (getG (s.ctx c).regs) i <|> wordResult (getG (s.ctx c).regs) i) = some (d, v) →
    ∃ t, exec i s = .next t ∧
      InChunk c s t (nextPc (s.ctx c).regs (setG (s.ctx c).regs d v)) (heldStores (s.ctx c))

/-- R99 to R101: immediates, shifts by an amount, LUI and AUPC. -/
def Sys2Proof.Claim.IntegerImmediateResults : Prop :=
  ∀ s c i d v, HartIssues s c → immResult 64 (s.ctx c).regs.pc (getG (s.ctx c).regs) i = some (d, v) →
    ∃ t, exec i s = .next t ∧
      InChunk c s t (nextPc (s.ctx c).regs (setG (s.ctx c).regs d v)) (heldStores (s.ctx c))

/-- R102, R103: multiplication and division never trap and set no flag. -/
def Sys2Proof.Claim.MultiplyDivideResults : Prop :=
  ∀ s c i d v, HartIssues s c →
    (mulResult 64 (getG (s.ctx c).regs) i <|> mulWordResult (getG (s.ctx c).regs) i) = some (d, v) →
    ∃ t, exec i s = .next t ∧
      InChunk c s t (nextPc (s.ctx c).regs (setG (s.ctx c).regs d v)) (heldStores (s.ctx c))

/-- R104 to R106: a taken branch and a jump to an address with bits 63:57 zero (a multiple of 4 for JALR) go there, also from
the last instruction address; JAL and JALR leave PC + 4 in g[d]. An untaken branch goes to PC + 4. -/
def Sys2Proof.Claim.ControlTransfers : Prop :=
  (∀ s c i d target, s.cur = .hart c → (s.ctx c).armed = none → (s.ctx c).solo = false →
    transferOf 64 (s.ctx c).regs.pc (getG (s.ctx c).regs) i = some (d, target) →
    virtual target = true → ((∃ x y z, i = .jalr x y z) → target.toNat % 4 = 0) →
    ∃ t, exec i s = .next t ∧
      InChunk c s t { setG (s.ctx c).regs d ((s.ctx c).regs.pc + 4) with pc := target } (heldStores (s.ctx c))) ∧
  (∀ s c i o, HartIssues s c → branchOf 64 (getG (s.ctx c).regs) i = some (false, o) →
    ∃ t, exec i s = .next t ∧ InChunk c s t (nextPc (s.ctx c).regs (s.ctx c).regs) (heldStores (s.ctx c)))

/-- R104 to R106: a taken target with a bit of 63:57 set, or a JALR target that is not a multiple of 4, traps with INSTR_ADDR
before any effect, TVALUE the target. -/
def Sys2Proof.Claim.ControlTargetTraps : Prop :=
  ∀ s c i d target, s.cur = .hart c →
    transferOf 64 (s.ctx c).regs.pc (getG (s.ctx c).regs) i = some (d, target) →
    (virtual target = false ∨ (target.toNat % 4 ≠ 0 ∧ ∃ x y z, i = .jalr x y z)) →
    exec i s = .next (exception c 2 target s)

/-- R283: the shared integer forms at 32 bits on a bank arithmetic unit, with registers g0 to g15 and amounts below 32. -/
def Sys2Proof.Claim.BauIntegerResults : Prop :=
  ∀ s g i d v, BauIssues s g → (bauFields i).all (fun r => decide (r.toNat < 16)) = true → bauAmount i = true →
    (aluResult 32 (getBG (s.bank g)) (getBG (s.bank g)) i <|>
      immResult 32 (BitVec.ofNat 32 (s.bank g).pc) (getBG (s.bank g)) i <|> mulResult 32 (getBG (s.bank g)) i) = some (d, v) →
    ∃ t, exec i s = .next t ∧ BauRan g s t { setBG d v (s.bank g) with pc := (s.bank g).pc + 4 }

/-- R283: an integer form at 0xFFC executes and then ends the run with END 2. -/
def Sys2Proof.Claim.BauLastAddressEnds : Prop :=
  ∀ s g i d v, s.cur = .bau g → (s.bank g).pc = 0xFFC → (bauFields i).all (fun r => decide (r.toNat < 16)) = true →
    bauAmount i = true →
    (aluResult 32 (getBG (s.bank g)) (getBG (s.bank g)) i <|>
      immResult 32 (BitVec.ofNat 32 (s.bank g).pc) (getBG (s.bank g)) i <|> mulResult 32 (getBG (s.bank g)) i) = some (d, v) →
    ∃ t, exec i s = .next t ∧ BauRan g s t { setBG d v (s.bank g) with
      run := (s.bank g).run.map fun r => { r with ended := some (2, 0, 0xFFC) } }

/-- R83, R104 to R106, R283: control transfer on a bank arithmetic unit: a taken target in code memory that is a multiple of 4
is the next PC; any other ends the run with END 2. An untaken branch goes to PC + 4. -/
def Sys2Proof.Claim.BauControlTransfers : Prop :=
  (∀ s g i d target, s.cur = .bau g → (bauFields i).all (fun r => decide (r.toNat < 16)) = true →
    transferOf 32 (BitVec.ofNat 32 (s.bank g).pc) (getBG (s.bank g)) i = some (d, target) →
    ∃ t, exec i s = .next t ∧
      if target.toNat ≤ 0xFFC ∧ target.toNat % 4 = 0 then
        BauRan g s t { setBG d (BitVec.ofNat 32 (s.bank g).pc + 4) (s.bank g) with pc := target.toNat }
      else RunEnds g 2 0 s t) ∧
  (∀ s g i o, BauIssues s g → (bauFields i).all (fun r => decide (r.toNat < 16)) = true →
    branchOf 32 (getBG (s.bank g)) i = some (false, o) →
    ∃ t, exec i s = .next t ∧ BauRan g s t { s.bank g with pc := (s.bank g).pc + 4 })
namespace Sys2Proof.Claim
open Sys2Proof.Machine

/-! ### Scalar floating point (R40, R41, R116, R117) -/

/-- R41: the static mode that mode code `m` selects. -/
def Mode (r : Regs) (m : BitVec 3) (mode : Nat) : Prop :=
  1 ≤ mode ∧ mode ≤ 5 ∧ mode = if m.toNat = 0 then bits r.fstat 6 3 else m.toNat

/-- R40, R116: the bits an F64 form (t = 0) or an F32 form (t = 1) takes from f[a]; a register of the other kind gives the
canonical NaN. -/
def source (t : BitVec 1) (r : Regs) (a : R5) : Nat :=
  let x := getF r a
  if t = 0 then (if x.k = false then x.bits.toNat else 0x7FF8000000000000)
  else if x.k = true then x.bits.toNat % 2 ^ 32 else 0x7FC00000

/-- R40: f[a] is of the form's format. -/
def isOf (t : BitVec 1) (r : Regs) (a : R5) : Bool := decide ((getF r a).k = decide (t = 1))

/-- The value of a source. -/
def value (t : BitVec 1) (r : Regs) (a : R5) : FVal := fdec (fmtOf (if t = 0 then 8 else 9)) (source t r a)

/-- The format of a form. -/
def ft (t : BitVec 1) : Fmt := fmtOf (if t = 0 then 8 else 9)

/-- R40: f[d] takes the bits of a result, with K for an F32 result, beside the flags that it sets. -/
def toF (r : Regs) (d : R5) (t : BitVec 1) (x : Nat × Nat) : Regs × Nat :=
  (setF r d { bits := BitVec.ofNat 64 x.1, k := decide (t = 1) }, x.2)

/-- g[d] takes a result, beside the flags that it sets. -/
def toG (r : Regs) (d : R5) (v : W64) (flags : Nat) : Regs × Nat := (setG r d v, flags)

/-- R118 to R126: the mode code of a form, and for each static mode its registers with the result and the flags set. -/
def fpResult (r : Regs) : Instr → Option (BitVec 3 × (Nat → Regs × Nat))
  | .fadd d a b m t => some (m, fun q => toF r d t (faddV (ft t) q false (value t r a) (value t r b)))
  | .fsub d a b m t => some (m, fun q => toF r d t (faddV (ft t) q false (value t r a) (value t r b).neg))
  | .fmul d a b m t => some (m, fun q => toF r d t (fmulV (ft t) q false (value t r a) (value t r b)))
  | .fdiv d a b m t => some (m, fun q => toF r d t (fdivV (ft t) q (value t r a) (value t r b)))
  | .fsqrt d a m t => some (m, fun q => toF r d t (fsqrtV (ft t) q (value t r a)))
  | .fmin d a b m t => some (m, fun _ => toF r d t (fminmax (ft t) false (source t r a) (source t r b)))
  | .fmax d a b m t => some (m, fun _ => toF r d t (fminmax (ft t) true (source t r a) (source t r b)))
  | .fsgnj d a b m t => some (m, fun _ => toF r d t (fsgn (ft t) (fun _ y => y) (source t r a) (source t r b)))
  | .fsgnjn d a b m t => some (m, fun _ => toF r d t (fsgn (ft t) (fun _ y => !y) (source t r a) (source t r b)))
  | .fsgnjx d a b m t => some (m, fun _ => toF r d t (fsgn (ft t) (fun x y => x != y) (source t r a) (source t r b)))
  | .feq d a b m t =>
    some (m, fun _ => let x := fcompare (ft t) (fun o => o == 1) true (isOf t r a) (isOf t r b) (source t r a) (source t r b)
      toG r d (BitVec.ofNat 64 x.1) x.2)
  | .flt d a b m t =>
    some (m, fun _ => let x := fcompare (ft t) (fun o => o == 0) false (isOf t r a) (isOf t r b) (source t r a) (source t r b)
      toG r d (BitVec.ofNat 64 x.1) x.2)
  | .fle d a b m t =>
    some (m, fun _ => let x := fcompare (ft t) (fun o => decide (o ≤ 1)) false (isOf t r a) (isOf t r b) (source t r a) (source t r b)
      toG r d (BitVec.ofNat 64 x.1) x.2)
  | .fclass d a m t => some (m, fun _ => toG r d (BitVec.ofNat 64 (fclassOf (ft t) (source t r a))) 0)
  | .fcvtI64Fmt d a m t => some (m, fun q => let x := cvtFI 0x3 q (value t r a); toG r d (BitVec.ofNat 64 x.1) (if isOf t r a then x.2 else 0))
  | .fcvtI32Fmt d a m t =>
    some (m, fun q => let x := cvtFI 0x2 q (value t r a); toG r d ((BitVec.ofNat 32 x.1).signExtend 64) (if isOf t r a then x.2 else 0))
  | .fcvtN32Fmt d a m t => some (m, fun q => let x := cvtFI 0x6 q (value t r a); toG r d (BitVec.ofNat 64 x.1) (if isOf t r a then x.2 else 0))
  | .fcvtFmtI64 d a m t => some (m, fun q => toF r d t (cvtIF (ft t) q false (getG r a).toInt))
  | .fcvtFmtI32 d a m t => some (m, fun q => toF r d t (cvtIF (ft t) q false ((getG r a).truncate 32).toInt))
  | .fcvtFmtN32 d a m t => some (m, fun q => toF r d t (cvtIF (ft t) q false (((getG r a).truncate 32).toNat : Int)))
  | .fcvtF32F64 d a m => some (m, fun q => toF r d 1 (cvtFF (fmtOf 9) q false (value 0 r a)))
  | .fcvtF64F32 d a m => some (m, fun q => toF r d 0 (cvtFF (fmtOf 8) q false (value 1 r a)))
  | .fmvfg d a m t =>
    some (m, fun _ => toG r d (if t = 0 then (getF r a).bits else (((getF r a).bits).truncate 32).signExtend 64) 0)
  | .fmvgf d a m t => some (m, fun _ => toF r d t (if t = 0 then (getG r a).toNat else (getG r a).toNat % 2 ^ 32, 0))
  | .fmadd d a b c t m => some (m, fun q => toF r d t (fmaV (ft t) q false (value t r a) (value t r b) (value t r c)))
  | .fmsub d a b c t m => some (m, fun q => toF r d t (fmaV (ft t) q false (value t r a) (value t r b) (value t r c).neg))
  | .fnmadd d a b c t m =>
    some (m, fun q => toF r d t (fmaV (ft t) q false (value t r a).neg (value t r b) (value t r c).neg))
  | .fnmsub d a b c t m => some (m, fun q => toF r d t (fmaV (ft t) q false (value t r a).neg (value t r b) (value t r c)))
  | _ => none

/-- The rational number of a finite value (R35, R36). -/
def ratOf : FVal → Option ℚ
  | .fin s m e => some ((if s then -1 else 1) * (m : ℚ) * (2 : ℚ) ^ e)
  | _ => none

/-- The value of an encoding of a format as a rational number. -/
def ratIn (f : Fmt) (x : Nat) : Option ℚ := ratOf (fdec f x)

/-- A format represents a rational number. -/
def Represents (f : Fmt) (q : ℚ) : Prop := ∃ z, z < 2 ^ f.width ∧ ratIn f z = some q

/-- The instruction has left a result of value `q` in f[d], with the form's K and no new flag, and gone on. -/
def LeavesF (s t : State) (c : Nat) (d : R5) (ty : BitVec 1) (q : ℚ) : Prop :=
  let x := getF (t.ctx c).regs d
  ratIn (ft ty) x.bits.toNat = some q ∧ x.k = decide (ty = 1) ∧ (t.ctx c).regs.fstat = (s.ctx c).regs.fstat ∧
    (t.ctx c).regs.pc = (s.ctx c).regs.pc + 4

/-- The instruction has left `v` in g[d] (nothing for g0), no new flag, and gone on. -/
def LeavesG (s t : State) (c : Nat) (d : R5) (v : W64) : Prop :=
  (t.ctx c).regs = nextPc (s.ctx c).regs (setG (s.ctx c).regs d v)

/-- The exact value of an encoding is finite and not zero. -/
def finiteValue (f : Fmt) (x : Nat) (s : Bool) (m : Nat) (e : Int) : Prop := fdec f x = .fin s m e ∧ m ≠ 0

/-! ### Loads and stores (R108 to R115) -/

/-- Size, sign extension, destination, base and offset of an integer load. -/
def loadForm : Instr → Option (Nat × Bool × R5 × R5 × BitVec 16)
  | .ldb d a i => some (1, true, d, a, i)
  | .ldbu d a i => some (1, false, d, a, i)
  | .ldh d a i => some (2, true, d, a, i)
  | .ldhu d a i => some (2, false, d, a, i)
  | .ldw d a i => some (4, true, d, a, i)
  | .ldwu d a i => some (4, false, d, a, i)
  | .ldd d a i => some (8, false, d, a, i)
  | _ => none

/-- Size, data register, base and offset of an integer store. -/
def storeForm : Instr → Option (Nat × R5 × R5 × BitVec 16)
  | .stb d a i => some (1, d, a, i)
  | .sth d a i => some (2, d, a, i)
  | .stw d a i => some (4, d, a, i)
  | .std d a i => some (8, d, a, i)
  | _ => none

/-- R108: n bytes, sign- or zero-extended to 64 bits. -/
def extended (n : Nat) (sg : Bool) (v w : Nat) : BitVec w :=
  if sg then (BitVec.ofNat (8 * n) v).signExtend w else BitVec.ofNat w v

/-- The byte that hart `c` sees at a memory key: its newest held store there, else memory (R111, R200). -/
def sees (s : State) (c k : Nat) : Byte :=
  match (heldStores (s.ctx c)).find? fun p => p.1 = k with
  | some p => p.2
  | none => readByte s.mem k

/-- The n bytes that hart `c` sees, as a little-endian number. -/
def seesWord (s : State) (c k n : Nat) : Nat := leNat ((List.range n).map fun i => sees s c (k + i))

/-- A local address of n bytes, aligned, that the hart may reach, that no queued array transfer covers and that no remote write
which the access must see still has to reach (R51 to R54, R109, R196, R248). -/
structure Reaches (s : State) (c : Nat) (ea : W64) (n : Nat) (need : Need) : Prop where
  isLocal : ea.getLsbD 63 = false
  aligned : ea.toNat % n = 0
  permitted : localOk s (s.ctx c) ea.toNat n need = true
  free : localBusy s c ea.toNat n = false

/-- The memory key of a local address of hart `c`. -/
def keyOf (s : State) (c : Nat) (ea : W64) : Nat := localKey (s.ctx c).gcn ea.toNat

/-- R114: what LDF leaves: the bits of f[d], K, and the flags. -/
def typedLoad (t v : Nat) : Nat × Bool × Nat :=
  if t = 0x8 then (v, false, if (fdec (fmtOf 8) v).isPoison then 32 else if (fdec (fmtOf 8) v).sig then 16 else 0)
  else if t = 0x9 then (v, true, if (fdec (fmtOf 9) v).isPoison then 32 else if (fdec (fmtOf 9) v).sig then 16 else 0)
  else if t = 0x2 ∨ t = 0x6 then ((convert t 8 1 false v).1, false, (convert t 8 1 false v).2)
  else ((convert t 9 1 false v).1, true, (convert t 9 1 false v).2)

/-- A hart's access outside chunks that writes bytes `b` at key `k` of memory (R202): the hart retires with registers `r`;
every other byte is as before; another hart is as before, or its open chunk is squashed (R200, R201). -/
structure Wrote (c : Nat) (s t : State) (r : Regs) (k : Nat) (b : List Byte) : Prop where
  device : { t with ctxs := s.ctxs, mem := s.mem, fe := s.fe } = s
  hart : t.ctx c = { s.ctx c with
    regs := r, wait := .none, csr := { (s.ctx c).csr with retired := (s.ctx c).csr.retired + 1 } }
  harts : ∀ x, x ≠ c → t.ctx x = s.ctx x ∨ t.ctx x = squash s.gtime (s.ctx x)
  memory : ∀ a, readByte t.mem a = if k ≤ a ∧ a < k + b.length then b.getD (a - k) 0 else readByte s.mem a

/-- Full/empty bits of the words in `l` become `v`; the others are as before (R56). -/
def Bits (s t : State) (l : List Nat) (v : Bool) : Prop :=
  ∀ w, tget t.fe w false = if w ∈ l then v else tget s.fe w false

end Sys2Proof.Claim

open Sys2Proof Sys2Proof.Machine Sys2Proof.Claim

/-- R40, R41, R43, R116 to R126: a scalar floating-point form in a legal mode writes its result, with K, ORs its flags into
FSTAT and changes nothing else. That a source of the other kind sets no flag in FLT, FLE and FCVT either is the model's reading of R40
(log entry 75). -/
def Sys2Proof.Claim.FloatResults : Prop :=
  ∀ s c i m f q, HartIssues s c → fpResult (s.ctx c).regs i = some (m, f) → Mode (s.ctx c).regs m q →
    ∃ t, exec i s = .next t ∧
      InChunk c s t (nextPc (s.ctx c).regs
        { (f q).1 with fstat := (s.ctx c).regs.fstat ||| BitVec.ofNat 64 (f q).2 }) (heldStores (s.ctx c))

/-- R42, R118, R121, R126, R44, in rational arithmetic: where the format represents the exact sum, difference, product, quotient, square
root, fused product and sum, or converted number of finite sources, that is the result, with no flag, in every rounding mode; FEQ, FLT and
FLE compare the numbers; a number that is an integer of the range converts to it. -/
def Sys2Proof.Claim.FloatArithmetic : Prop :=
  ∀ s c d a b e m q ty x y z, HartIssues s c → Mode (s.ctx c).regs m q → ratOf (value ty (s.ctx c).regs a) = some x →
    ratOf (value ty (s.ctx c).regs b) = some y → ratOf (value ty (s.ctx c).regs e) = some z →
    let rep := Represents (ft ty)
    (rep (x + y) → ∃ t, exec (.fadd d a b m ty) s = .next t ∧ LeavesF s t c d ty (x + y)) ∧
    (rep (x - y) → ∃ t, exec (.fsub d a b m ty) s = .next t ∧ LeavesF s t c d ty (x - y)) ∧
    (rep (x * y) → ∃ t, exec (.fmul d a b m ty) s = .next t ∧ LeavesF s t c d ty (x * y)) ∧
    (y ≠ 0 → rep (x / y) → ∃ t, exec (.fdiv d a b m ty) s = .next t ∧ LeavesF s t c d ty (x / y)) ∧
    (∀ r : ℚ, 0 ≤ r → r * r = x → rep r → ∃ t, exec (.fsqrt d a m ty) s = .next t ∧ LeavesF s t c d ty r) ∧
    (rep (x * y + z) → ∃ t, exec (.fmadd d a b e ty m) s = .next t ∧ LeavesF s t c d ty (x * y + z)) ∧
    (rep (x * y - z) → ∃ t, exec (.fmsub d a b e ty m) s = .next t ∧ LeavesF s t c d ty (x * y - z)) ∧
    (rep (-(x * y) - z) → ∃ t, exec (.fnmadd d a b e ty m) s = .next t ∧ LeavesF s t c d ty (-(x * y) - z)) ∧
    (rep (-(x * y) + z) → ∃ t, exec (.fnmsub d a b e ty m) s = .next t ∧ LeavesF s t c d ty (-(x * y) + z)) ∧
    (∃ t, exec (.feq d a b m ty) s = .next t ∧ LeavesG s t c d (if x = y then 1 else 0)) ∧
    (∃ t, exec (.flt d a b m ty) s = .next t ∧ LeavesG s t c d (if x < y then 1 else 0)) ∧
    (∃ t, exec (.fle d a b m ty) s = .next t ∧ LeavesG s t c d (if x ≤ y then 1 else 0)) ∧
    (∀ n : Int, x = n → -(2 ^ 63) ≤ n → n < 2 ^ 63 → ∃ t, exec (.fcvtI64Fmt d a m ty) s = .next t ∧ LeavesG s t c d (pat 64 n)) ∧
    (∀ n : Int, x = n → -(2 ^ 31) ≤ n → n < 2 ^ 31 → ∃ t, exec (.fcvtI32Fmt d a m ty) s = .next t ∧ LeavesG s t c d (pat 64 n)) ∧
    (∀ n : Int, x = n → 0 ≤ n → n < 2 ^ 32 → ∃ t, exec (.fcvtN32Fmt d a m ty) s = .next t ∧ LeavesG s t c d (pat 64 n)) ∧
    (let n := (getG (s.ctx c).regs a).toInt
     rep n → ∃ t, exec (.fcvtFmtI64 d a m ty) s = .next t ∧ LeavesF s t c d ty n)

/-- R41: with mode code 6 or 7, or DYN while FRM holds 0, 6 or 7, a form is an illegal instruction. -/
def Sys2Proof.Claim.FloatIllegalModes : Prop :=
  ∀ s c i m f w, s.cur = .hart c → fpResult (s.ctx c).regs i = some (m, f) → encode i = some w →
    (∀ q, ¬Mode (s.ctx c).regs m q) → exec i s = .next (exception c 1 (w.zeroExtend 64) s)

/-- R42: a value that the format represents is its own rounded result, with no flag, in every mode. -/
def Obligations.RepresentableIsExact : Prop :=
  ∀ code mode x s m e, 8 ≤ code → code ≤ 13 → x < 2 ^ (fmtOf code).width → finiteValue (fmtOf code) x s m e →
    roundTo (fmtOf code) mode false s m e false = (x, 0)

/-- R108 to R110: a local load of a form puts the extended bytes, as the hart sees them, into g[d]. -/
def Sys2Proof.Claim.LocalLoads : Prop :=
  ∀ s c i n sg d a imm, HartIssues s c → loadForm i = some (n, sg, d, a, imm) →
    let ea := getG (s.ctx c).regs a + imm.signExtend 64
    Reaches s c ea n { rd := true } →
    ∃ t, exec i s = .next t ∧
      InChunk c s t (nextPc (s.ctx c).regs (setG (s.ctx c).regs d (extended n sg (seesWord s c (keyOf s c ea) n) 64)))
        (heldStores (s.ctx c))

/-- R111: a local store changes no register but PC and no byte of memory until its chunk commits; the hart sees the low bytes
of the data register in the span, and every other byte as before. -/
def Sys2Proof.Claim.LocalStores : Prop :=
  ∀ s c i n d a imm, HartIssues s c → storeForm i = some (n, d, a, imm) →
    let ea := getG (s.ctx c).regs a + imm.signExtend 64
    Reaches s c ea n { w := true } → lockedByte (s.ctx c) ea.toNat n = none →
    ∃ t l, exec i s = .next t ∧ InChunk c s t (nextPc (s.ctx c).regs (s.ctx c).regs) l ∧
      ∀ k, sees t c k = if keyOf s c ea ≤ k ∧ k < keyOf s c ea + n
        then (getG (s.ctx c).regs d).extractLsb' (8 * (k - keyOf s c ea)) 8 else sees s c k

/-- R114, R115: LDF widens to F32 or F64 with NV or PO only; STF rounds in FRM, sets flags, and stores as an integer store
does. The flags of a conversion between equal formats are the model's reading (log entry 29). -/
def Sys2Proof.Claim.TypedLoadsAndStores : Prop :=
  (∀ s c d a t o, HartIssues s c → t.toNat ≠ 0x3 → t.toNat ≠ 0x7 → t.toNat < 0xE →
    let ea := getG (s.ctx c).regs a + o.signExtend 64
    let n := fmtWidth t.toNat / 8
    Reaches s c ea n { rd := true } →
    let x := typedLoad t.toNat (seesWord s c (keyOf s c ea) n)
    ∃ u, exec (.ldf d a t o) s = .next u ∧
      InChunk c s u (nextPc (s.ctx c).regs { setF (s.ctx c).regs d { bits := BitVec.ofNat 64 x.1, k := x.2.1 } with
        fstat := (s.ctx c).regs.fstat ||| BitVec.ofNat 64 x.2.2 }) (heldStores (s.ctx c))) ∧
  (∀ s c d a t o, HartIssues s c → t.toNat ≠ 0x7 → t.toNat < 0xE →
    1 ≤ bits (s.ctx c).regs.fstat 6 3 → bits (s.ctx c).regs.fstat 6 3 ≤ 5 →
    let ea := getG (s.ctx c).regs a + o.signExtend 64
    let n := fmtWidth t.toNat / 8
    let f := getF (s.ctx c).regs d
    let x := convert (if f.k then 9 else 8) t.toNat (bits (s.ctx c).regs.fstat 6 3) false f.bits.toNat
    Reaches s c ea n { w := true } → lockedByte (s.ctx c) ea.toNat n = none →
    ∃ u l, exec (.stf d a t o) s = .next u ∧
      InChunk c s u (nextPc (s.ctx c).regs { (s.ctx c).regs with
        fstat := (s.ctx c).regs.fstat ||| BitVec.ofNat 64 x.2 }) l ∧
      ∀ k, sees u c k = if keyOf s c ea ≤ k ∧ k < keyOf s c ea + n
        then BitVec.ofNat 8 (x.1 / 256 ^ (k - keyOf s c ea)) else sees s c k)

/-- R52, R58, R109, R111: the exceptions of integer loads and stores, in their order: MISALIGNED with the address; a local
address that is not reached or permitted, PROT_LOCAL; a store into a published slot, RING_SLOT_BUSY; a failed sender's
check, REMOTE_ACCESS. -/
def Sys2Proof.Claim.LoadStoreTraps : Prop :=
  ∀ s c i n a imm store, s.cur = .hart c → (s.ctx c).regs.pc ≠ 0x01FFFFFFFFFFFFFC →
    ((store = false ∧ ∃ sg d, loadForm i = some (n, sg, d, a, imm)) ∨
      (store = true ∧ ∃ d, storeForm i = some (n, d, a, imm))) →
    let ea := getG (s.ctx c).regs a + imm.signExtend 64
    let need : Need := if store then { w := true } else { rd := true }
    (ea.toNat % n ≠ 0 → exec i s = .next (exception c 4 ea s)) ∧
    (ea.toNat % n = 0 → ea.getLsbD 63 = false → localOk s (s.ctx c) ea.toNat n need = false →
      exec i s = .next (exception c 5 ea s)) ∧
    (ea.toNat % n = 0 → ea.getLsbD 63 = false → store = true → localOk s (s.ctx c) ea.toNat n need = true →
      lockedByte (s.ctx c) ea.toNat n ≠ none → exec i s = .next (exception c 0x10 ea s)) ∧
    (ea.toNat % n = 0 → ea.getLsbD 63 = true → (s.ctx c).chunk = none →
      senderCheck s (s.ctx c) ea store false = .fail → exec i s = .next (exception c 6 ea s))

/-- R34, R52, R58, R109, R111, R114, R115: the exceptions of LDF and STF: a format code that the form does not accept, or for STF an FRM of 0, 6 or 7, is illegal; then
as for integer loads and stores of the format's width. -/
def Sys2Proof.Claim.TypedAccessTraps : Prop :=
  ∀ s c d a t o i store, s.cur = .hart c → (s.ctx c).regs.pc ≠ 0x01FFFFFFFFFFFFFC →
    ((store = false ∧ i = .ldf d a t o) ∨ (store = true ∧ i = .stf d a t o)) →
    let h := s.ctx c
    let ea := getG h.regs a + o.signExtend 64
    let n := fmtWidth t.toNat / 8
    let need : Need := if store then { w := true } else { rd := true }
    let frm := bits h.regs.fstat 6 3
    let bad := t.toNat = 0x7 ∨ 0xE ≤ t.toNat ∨ (store = false ∧ t.toNat = 0x3) ∨ (store = true ∧ (frm = 0 ∨ 6 ≤ frm))
    (bad → ∀ w, encode i = some w → exec i s = .next (exception c 1 (w.zeroExtend 64) s)) ∧
    (¬bad →
      (ea.toNat % n ≠ 0 → exec i s = .next (exception c 4 ea s)) ∧
      (ea.toNat % n = 0 → ea.getLsbD 63 = false → localOk s h ea.toNat n need = false → exec i s = .next (exception c 5 ea s)) ∧
      (ea.toNat % n = 0 → ea.getLsbD 63 = false → store = true → localOk s h ea.toNat n need = true → lockedByte h ea.toNat n ≠ none →
        exec i s = .next (exception c 0x10 ea s)) ∧
      (ea.toNat % n = 0 → ea.getLsbD 63 = true → h.chunk = none → senderCheck s h ea store false = .fail → exec i s = .next (exception c 6 ea s)))

/-- R107: at virtual address 2^57 − 4 an instruction that does not transfer control traps with INSTR_ADDR before any effect,
TVALUE 2^57: integer forms, untaken branches, loads and stores. -/
def Sys2Proof.Claim.LastAddressTraps : Prop :=
  ∀ s c i, s.cur = .hart c → (s.ctx c).regs.pc = 0x01FFFFFFFFFFFFFC →
    ((aluResult 64 (getG (s.ctx c).regs) (getG (s.ctx c).regs) i <|> wordResult (getG (s.ctx c).regs) i <|>
      immResult 64 (s.ctx c).regs.pc (getG (s.ctx c).regs) i <|> mulResult 64 (getG (s.ctx c).regs) i <|>
      mulWordResult (getG (s.ctx c).regs) i).isSome = true ∨
      (∃ o, branchOf 64 (getG (s.ctx c).regs) i = some (false, o)) ∨ (loadForm i).isSome = true ∨
      (storeForm i).isSome = true) →
    exec i s = .next (exception c 2 0x0200000000000000 s)

/-- R283: loads and stores of a bank arithmetic unit in its data memory: an aligned span below 0x400 is read or written; a
misaligned address ends the run with END 4, one outside data memory with END 3. -/
def Sys2Proof.Claim.BauLoadsAndStores : Prop :=
  ∀ s g i n a imm, BauIssues s g → n ≤ 4 → (bauFields i).all (fun r => decide (r.toNat < 16)) = true →
    let b := s.bank g
    let ea := (getBG b a + imm.signExtend 32).toNat
    (∀ sg d, loadForm i = some (n, sg, d, a, imm) → (n = 4 → sg = true) → ∃ t, exec i s = .next t ∧
      if ea % n ≠ 0 then RunEnds g 4 0 s t
      else if 0x400 < ea + n then RunEnds g 3 0 s t
      else BauRan g s t { setBG d (extended n sg (leNat ((List.range n).map fun j => tget b.data (ea + j) 0)) 32) b with
        pc := b.pc + 4 }) ∧
    (∀ d, storeForm i = some (n, d, a, imm) → ∃ t, exec i s = .next t ∧
      if ea % n ≠ 0 then RunEnds g 4 0 s t
      else if 0x400 < ea + n then RunEnds g 3 0 s t
      else OnlyBank g s t ∧ { t.bank g with data := b.data } = { b with pc := b.pc + 4 } ∧
        ∀ x, tget (t.bank g).data x 0 = if ea ≤ x ∧ x < ea + n
          then (getBG b d).extractLsb' (8 * (x - ea)) 8 else tget b.data x 0)
namespace Sys2Proof.Claim
open Sys2Proof.Machine

/-- Instructions and events run one after another, each answering a next state. -/
def Runs : List Instr → State → State → Prop
  | [], s, t => s = t
  | i :: r, s, t => ∃ u, exec i s = .next u ∧ Runs r u t

/-- Packets in flight are numbered below the next number. -/
def Fresh (s : State) : Prop := ∀ p ∈ s.net, p.id < s.nextId

/-- The packets in flight, and those that the routers of hart `c`'s partition have saved (R339). -/
def onTheWay (s : State) (c : Nat) : List Packet := s.net ++ (s.part (s.ctx c).part).saved

/-- No packet of hart `c` is on its way. -/
def Quiet (s : State) (c : Nat) : Prop := ∀ p ∈ onTheWay s c, p.cid ≠ c

/-- A hart that may complete what it waits for: it is resident, not halted, has not exited, no array trap of its is posted, and
its partition's stop is not reached (R129, R250, R336). -/
def Live (s : State) (c : Nat) : Prop :=
  (s.ctx c).resident = true ∧ (s.ctx c).halted = false ∧ (s.ctx c).exited = none ∧ (s.ctx c).eng.posted = none ∧
    (s.part (s.ctx c).part).stopped = false ∧ ∀ t, (s.part (s.ctx c).part).stop = some t → s.gtime < t

/-- No packet of hart `c` is on its way, and no write on its way that a release covers reaches the n bytes at offset `o` of
cluster `q` (R196, R204, R213). -/
def Unordered (s : State) (c q o n : Nat) : Prop :=
  Quiet s c ∧ ∀ p ∈ onTheWay s c, p.cover ≠ [] → p.pcn = q → ∀ x, landing s p = some x → spansMeet x (o, n) = false

/-- Hart `c` has sent `body` to its sync engine and waits for the reply; nothing else has changed (R170, R172). -/
structure Requests (c : Nat) (d : R5) (body : Body) (thenWait : Bool) (s t : State) : Prop where
  device : { t with ctxs := s.ctxs, net := s.net, nextId := s.nextId } = s
  harts : ∀ x, x ≠ c → t.ctx x = s.ctx x
  hart : t.ctx c = { s.ctx c with wait := .sync s.nextId d thenWait }
  net : t.net = s.net ++
    [{ id := s.nextId, cid := c, part := (s.ctx c).part, addr := 0, pcn := (s.ctx c).gcn / 8, ofs := 0, body := body }]
  number : t.nextId = s.nextId + 1

/-- The context that has retired an instruction with registers `r`. -/
def retiredCtx (h : Ctx) (r : Regs) : Ctx :=
  { h with regs := r, wait := .none, csr := { h.csr with retired := h.csr.retired + 1 } }

/-- Every hart but `c` is as before. -/
def OtherHarts (c : Nat) (s t : State) : Prop := ∀ x, x ≠ c → t.ctx x = s.ctx x

/-- The destination of a remote load has its value (R108, R110). -/
def loadValue (r : Regs) (n : Nat) (sg : Bool) (d : R5) (v : Nat) : Regs := setG r d (extended n sg v 64)

/-- The n bytes of memory at a key, as a little-endian number. -/
def memWord (s : State) (k n : Nat) : Nat := leNat ((List.range n).map fun i => readByte s.mem (k + i))

/-- The n little-endian bytes of a number. -/
def bytesOf (n v : Nat) : List Byte := (List.range n).map fun i => BitVec.ofNat 8 (v / 256 ^ i)

/-- R163: bytes, operands and SC bit with scope of an atomic: size, d, a, b, SC, scope. -/
def atomicForm : Instr → Option (Nat × R5 × R5 × R5 × BitVec 1 × BitVec 2)
  | .amoAdd d a b q z | .amoAnd d a b q z | .amoOr d a b q z | .amoXor d a b q z | .amoMin d a b q z | .amoMax d a b q z
  | .amoMinu d a b q z | .amoMaxu d a b q z | .amoSwap d a b q z | .amoCas d a b q z
  | .amoFaddF64 d a b q z => some (8, d, a, b, q, z)
  | .amoFaddF32 d a b q z => some (4, d, a, b, q, z)
  | _ => none

/-- R163: the value an atomic writes over `x` with operand `y` and, for CAS, expected value `e`; none where it writes nothing. -/
def atomicNew (x y e : W64) : Instr → Option W64
  | .amoAdd .. => some (x + y)
  | .amoAnd .. => some (x &&& y)
  | .amoOr .. => some (x ||| y)
  | .amoXor .. => some (x ^^^ y)
  | .amoMin .. => some (pat 64 (min x.toInt y.toInt))
  | .amoMax .. => some (pat 64 (max x.toInt y.toInt))
  | .amoMinu .. => some (BitVec.ofNat 64 (min x.toNat y.toNat))
  | .amoMaxu .. => some (BitVec.ofNat 64 (max x.toNat y.toNat))
  | .amoSwap .. => some y
  | .amoCas .. => if x = e then some y else none
  | .amoFaddF32 .. =>
    some (BitVec.ofNat 64 (faddV (fmtOf 9) 1 false (fdec (fmtOf 9) (x.toNat % 2 ^ 32)) (fdec (fmtOf 9) (y.toNat % 2 ^ 32))).1)
  | .amoFaddF64 .. => some (BitVec.ofNat 64 (faddV (fmtOf 8) 1 false (fdec (fmtOf 8) x.toNat) (fdec (fmtOf 8) y.toNat)).1)
  | _ => none

/-- R167: the scope and the kind of a fence. -/
def fenceForm : Instr → Option (R5 × FenceKind)
  | .fence _ _ _ z => some (z, .full)
  | .fenceAcq _ _ _ z => some (z, .acq)
  | .fenceRel _ _ _ z => some (z, .rel)
  | _ => none

/-- R203: what a fence whose scope `z` is above CORE makes of the hart's accesses: FENCE and FENCE.REL cover its writes in
flight (R204); FENCE and FENCE.ACQ turn its posted atomics into acquires, whose reads its later accesses wait for. -/
def fenced (c z : Nat) (kind : FenceKind) (s : State) : State :=
  let released := if z = 0 ∨ kind = .acq then s else cover c z s
  if z = 0 ∨ kind = .rel then released
  else
    let h := released.ctx c
    modCtx c (fun h' => { h' with
      scAcq := h.scAcq ++ ((h.outst.filter fun o => o.atomic && !h.scAcq.contains o.id).map fun o => o.id) }) released

/-- The handle of index `i` and generation `g` (R168). -/
def handle (i g : Nat) : W64 := BitVec.ofNat 64 (i * 4096 + g % 4096)

/-- Only the barrier objects of partition `p` and the contexts may differ, and the packets numbered; memory is as before. -/
def OnlyBarriers (p c : Nat) (s t : State) : Prop :=
  { t with ctxs := s.ctxs, parts := s.parts, nextId := s.nextId } = s ∧ t.nextId = s.nextId + 1 ∧ OtherHarts c s t ∧
    (∀ x, x ≠ p → t.part x = s.part x) ∧ { t.part p with barriers := (s.part p).barriers } = s.part p

end Sys2Proof.Claim

open Sys2Proof Sys2Proof.Machine Sys2Proof.Claim

/-- R56, R158: on a full word LDS loads at once, and LDSE, for which no other hart waits that is not halted (R129), loads and empties it; on an empty word
both wait; STFL stores and fills; FEFILL and FEEMPTY change the bits of a span; FEST reads 64 bits. -/
def Sys2Proof.Claim.FullEmptyForms : Prop :=
  ∀ s c, HartAlone s c →
    let h := s.ctx c
    let ea := fun (a : R5) => getG h.regs a
    let k := fun (a : R5) => keyOf s c (ea a)
    (∀ d a, Reaches s c (ea a) 8 { rd := true } → tget s.fe (k a / 8) false = true →
      ∃ t, exec (.lds d a) s = .next t ∧
        Retired c s t (nextPc h.regs (setG h.regs d (BitVec.ofNat 64 (memWord s (k a) 8))))) ∧
    (∀ d a, Reaches s c (ea a) 8 { rd := true } → tget s.fe (k a / 8) false = false →
      exec (.lds d a) s = .next (setWait c (.lds d (ea a).toNat false s.gtime) s) ∧
      exec (.ldse d a) s = .next (setWait c (.lds d (ea a).toNat true s.gtime) s)) ∧
    (∀ d a, Reaches s c (ea a) 8 { rd := true } → tget s.fe (k a / 8) false = true →
      (∀ p ∈ s.ctxs, ∀ e x t, p.1 ≠ c → p.2.resident = true → p.2.halted = false → p.2.wait = .lds e x true t →
        localKey p.2.gcn x ≠ k a) →
      ∃ t, exec (.ldse d a) s = .next t ∧
        Wrote c s t (nextPc h.regs (setG h.regs d (BitVec.ofNat 64 (memWord s (k a) 8)))) 0 [] ∧
        Bits s t [k a / 8] false) ∧
    (∀ a b, Reaches s c (ea a) 8 { w := true } → lockedByte h (ea a).toNat 8 = none →
      ∃ t, exec (.stfl a b) s = .next t ∧ Wrote c s t (nextPc h.regs h.regs) (k a) (bytesOf 8 (ea b).toNat) ∧
        Bits s t [k a / 8] true) ∧
    (∀ a b, (ea a).toNat % 8 = 0 → (ea b).toNat % 8 = 0 →
      ((ea b).toNat ≠ 0 → localOk s h (ea a).toNat (ea b).toNat { rd := true, w := true } = true) →
      (ea a).getLsbD 63 = false → localBusy s c (ea a).toNat (ea b).toNat = false →
      lockedByte h (ea a).toNat (ea b).toNat = none →
      (∃ t, exec (.fefill a b) s = .next t ∧ Wrote c s t (nextPc h.regs h.regs) 0 [] ∧
        Bits s t (wordsOf (k a) (ea b).toNat) true) ∧
      (∃ t, exec (.feempty a b) s = .next t ∧ Wrote c s t (nextPc h.regs h.regs) 0 [] ∧
        Bits s t (wordsOf (k a) (ea b).toNat) false)) ∧
    (∀ d a, (ea a).getLsbD 63 = false → (ea a).toNat % 8 = 0 → localOk s h (ea a).toNat 512 { rd := true, w := true } = true →
      localBusy s c (ea a).toNat 512 = false →
      ∃ t v, exec (.fest d a) s = .next t ∧ Retired c s t (nextPc h.regs (setG h.regs d v)) ∧
        ∀ i, i < 64 → v.getLsbD i = tget s.fe ((k a + 8 * i) / 8) false)

/-- R26, R158: a hart waiting in LDS or LDSE takes its word once it is full, with no write that it must see still on its way there (R205); of several LDSE waiters of one word the earliest
takes it; a halted hart is none of them (R129). -/
def Sys2Proof.Claim.LdsWaitEnds : Prop :=
  ∀ s c d ea empties since, Canonical s → (s.ctx c).wait = .lds d ea empties since → Live s c → (s.ctx c).armed = none →
    let k := localKey (s.ctx c).gcn ea
    tget s.fe (k / 8) false = true → localBusy s c ea 8 = false →
    (empties = true → ∀ x d' a' t', x ≠ c → (s.ctx x).resident = true → (s.ctx x).halted = false →
      (s.ctx x).wait = .lds d' a' true t' → localKey (s.ctx x).gcn a' = k →
      since < t' ∨ (since = t' ∧ (s.ctx c).gcn ≤ (s.ctx x).gcn)) →
    ∃ t, exec (.ldsWake c) s = .next t ∧
      Wrote c s t (nextPc (s.ctx c).regs (setG (s.ctx c).regs d (BitVec.ofNat 64 (memWord s k 8)))) 0 [] ∧
      Bits s t (if empties then [k / 8] else []) false

/-- R158: address register, bytes, access and ring lock of the forms of major 0x22 that stay local. -/
def Sys2Proof.Claim.wordForm (r : Regs) : Instr → Option (R5 × Nat × Need × Bool)
  | .lds _ a | .ldse _ a => some (a, 8, { rd := true }, false)
  | .stfl a _ => some (a, 8, { w := true }, true)
  | .fefill a b | .feempty a b => some (a, (getG r b).toNat, { rd := true, w := true }, true)
  | .fest _ a => some (a, 512, { rd := true, w := true }, false)
  | _ => none

/-- R58, R111, R159, R165: the exceptions of the full/empty forms, of LDA and STL, and of the atomics, in their order: REMOTE_ACCESS for a global address of a form that
stays local, MISALIGNED, PROT_LOCAL, RING_SLOT_BUSY with the first locked byte (of an atomic its address), REMOTE_ACCESS for a failed sender's check. While a write that must come first is on its way to
the span the instruction waits (R205). -/
def Sys2Proof.Claim.SyncTraps : Prop :=
  ∀ s c, HartAlone s c →
    let h := s.ctx c
    let traps := fun i (code : Nat) (v : W64) => exec i s = .next (exception c code v s)
    (∀ i a n need lock, wordForm h.regs i = some (a, n, need, lock) →
      let ea := getG h.regs a
      (ea.getLsbD 63 = true → traps i 6 ea) ∧
      (ea.getLsbD 63 = false → ea.toNat % 8 ≠ 0 → traps i 4 ea) ∧
      (ea.getLsbD 63 = false → ea.toNat % 8 = 0 → n % 8 ≠ 0 → traps i 4 (ea + BitVec.ofNat 64 n)) ∧
      (ea.getLsbD 63 = false → ea.toNat % 8 = 0 → n % 8 = 0 → n ≠ 0 → localOk s h ea.toNat n need = false → traps i 5 ea) ∧
      (ea.getLsbD 63 = false → ea.toNat % 8 = 0 → n % 8 = 0 → (n ≠ 0 → localOk s h ea.toNat n need = true) →
        (localBusy s c ea.toNat n = true → exec i s = .next s) ∧
        (localBusy s c ea.toNat n = false → lock = true → ∀ x, lockedByte h ea.toNat n = some x → traps i 0x10 (BitVec.ofNat 64 x)))) ∧
    (∀ i a z store, ((store = false ∧ ∃ d, i = .lda d a z) ∨ (store = true ∧ ∃ b, i = .stl a b z)) → z.toNat ≤ 4 →
      let ea := getG h.regs a
      let ok := localOk s h ea.toNat 8 (if store then { w := true } else { rd := true })
      (ea.toNat % 8 ≠ 0 → traps i 4 ea) ∧
      (ea.toNat % 8 = 0 → ea.getLsbD 63 = false → ok = false → traps i 5 ea) ∧
      (ea.toNat % 8 = 0 → ea.getLsbD 63 = true → senderCheck s h ea store false = .fail → traps i 6 ea) ∧
      (ea.toNat % 8 = 0 → ea.getLsbD 63 = false → ok = true →
        (localBusy s c ea.toNat 8 = true → exec i s = .next s) ∧
        (localBusy s c ea.toNat 8 = false → store = true → ∀ x, lockedByte h ea.toNat 8 = some x → traps i 0x10 (BitVec.ofNat 64 x)))) ∧
    ∀ i n d a b q z, atomicForm i = some (n, d, a, b, q, z) →
      let ea := getG h.regs a
      let ok := localOk s h ea.toNat n { rd := true, w := true }
      (ea.toNat % n ≠ 0 → traps i 4 ea) ∧
      (ea.toNat % n = 0 → ea.getLsbD 63 = false → ok = false → traps i 5 ea) ∧
      (ea.toNat % n = 0 → ea.getLsbD 63 = false → ok = true → lockedByte h ea.toNat n ≠ none → traps i 0x10 ea) ∧
      (ea.toNat % n = 0 → ea.getLsbD 63 = true → senderCheck s h ea true false = .fail → traps i 6 ea)

/-- R161: a local LDA loads; a local STL with no earlier remote store of its scope unacknowledged stores at once, and one that
waits stores once they are acknowledged; the release covers the hart's writes in flight (R204); a scope above 4 is illegal
(R156). -/
def Sys2Proof.Claim.AcquireRelease : Prop :=
  ∀ s c, HartAlone s c →
    let h := s.ctx c
    let ea := fun (a : R5) => getG h.regs a
    let k := fun (a : R5) => keyOf s c (ea a)
    (∀ d a z, z.toNat ≤ 4 → Reaches s c (ea a) 8 { rd := true } →
      ∃ t, exec (.lda d a z) s = .next t ∧
        Retired c s t (nextPc h.regs (setG h.regs d (BitVec.ofNat 64 (memWord s (k a) 8))))) ∧
    (∀ a b z, z.toNat ≤ 4 → Reaches s c (ea a) 8 { w := true } → lockedByte h (ea a).toNat 8 = none →
      if pendingIn h z.toNat false = false then
        ∃ t, exec (.stl a b z) s = .next t ∧ Wrote c (cover c z.toNat s) t (nextPc h.regs h.regs) (k a) (bytesOf 8 (ea b).toNat) ∧ t.fe = s.fe
      else exec (.stl a b z) s = .next (setWait c (.stl (ea a) (ea b) z.toNat) s)) ∧
    (∀ t0 e v z, (t0.ctx c).wait = .stl e v z → Live t0 c → (t0.ctx c).armed = none → e.getLsbD 63 = false →
      pendingIn (t0.ctx c) z false = false → localBusy t0 c e.toNat 8 = false →
      ∃ t, exec (.fenceWaitEnd c) t0 = .next t ∧
        Wrote c (cover c z t0) t (nextPc (t0.ctx c).regs (t0.ctx c).regs) (keyOf t0 c e) (bytesOf 8 v.toNat) ∧ t.fe = t0.fe) ∧
    (∀ i w, ((∃ d a z, 4 < z.toNat ∧ i = .lda d a z) ∨ ∃ a b z, 4 < z.toNat ∧ i = .stl a b z) → encode i = some w →
      exec i s = .next (exception c 1 (w.zeroExtend 64) s))

/-- R156, R167: a fence of its scope with nothing outstanding retires; one with something outstanding waits, and its wait ends
once nothing of the scope is unacknowledged, for FENCE.ACQ no atomic of it. R203: the accesses before it are released, the
reads of the atomics before it become acquires. -/
def Sys2Proof.Claim.Fences : Prop :=
  (∀ s c i z kind, HartAlone s c → fenceForm i = some (z, kind) → z.toNat ≤ 4 →
    if pendingIn (s.ctx c) z.toNat (decide (kind = .acq)) = false then
      ∃ t, exec i s = .next t ∧ Retired c (fenced c z.toNat kind s) t (nextPc (s.ctx c).regs (s.ctx c).regs)
    else exec i s = .next (setWait c (.fence z.toNat kind) s)) ∧
  (∀ s c z kind, (s.ctx c).wait = .fence z kind → Live s c → (s.ctx c).armed = none →
    pendingIn (s.ctx c) z (decide (kind = .acq)) = false →
    ∃ t, exec (.fenceWaitEnd c) s = .next t ∧ Retired c (fenced c z kind s) t (nextPc (s.ctx c).regs (s.ctx c).regs))

/-- R162 to R164: a local atomic puts the old value into g[d] and writes the new one as one access; a CAS that does not match
writes nothing. -/
def Sys2Proof.Claim.LocalAtomics : Prop :=
  ∀ s c i n d a b q z, HartAlone s c → atomicForm i = some (n, d, a, b, q, z) →
    let h := s.ctx c
    let ea := getG h.regs a
    let x : W64 := BitVec.ofNat 64 (memWord s (keyOf s c ea) n)
    Reaches s c ea n { rd := true, w := true } → lockedByte h ea.toNat n = none →
    (q = 1 → pendingIn h (z.toNat + 1) false = false) →
    ∃ t, exec i s = .next t ∧ t.fe = s.fe ∧
      Wrote c (if q = 1 then cover c (z.toNat + 1) s else s) t (nextPc h.regs (setG h.regs d x)) (keyOf s c ea)
        (match atomicNew x (getG h.regs b) (getG h.regs d) i with | some v => bytesOf n v.toNat | none => [])

/-- R59, R110: a remote load that the receiver accepts: request, arrival, reply; g[d] takes the extended bytes of the target
cluster's memory and the hart retires. -/
def Sys2Proof.Claim.RemoteLoads : Prop :=
  ∀ s c i n sg d a imm q o, HartAlone s c → Live s c → Fresh s → Unordered s c q o n → loadForm i = some (n, sg, d, a, imm) →
    let h := s.ctx c
    let ea := getG h.regs a + imm.signExtend 64
    ea.getLsbD 63 = true → ea.toNat % n = 0 → senderCheck s h ea false false = .ok q none →
    receive (s.cluster q) (bits ea 0 21) n 0 = some o →
    ∃ t, Runs [i, .remoteAccessArrival s.nextId, .remoteLoadReply s.nextId] s t ∧
      t.ctx c = retiredCtx h (nextPc h.regs (loadValue h.regs n sg d (memWord s (sramKey q o) n))) ∧
      OtherHarts c s t ∧ { t with ctxs := s.ctxs, nextId := s.nextId } = s

/-- R59, R112, R161: a remote store that the receiver accepts: the hart goes on at once with the store outstanding; the bytes
are written at the target; the acknowledgement clears it. -/
def Sys2Proof.Claim.RemoteStores : Prop :=
  ∀ s c i n d a imm q o, Canonical s → HartAlone s c → Fresh s → Unordered s c q o n → storeForm i = some (n, d, a, imm) →
    let h := s.ctx c
    let ea := getG h.regs a + imm.signExtend 64
    ea.getLsbD 63 = true → ea.toNat % n = 0 → senderCheck s h ea true false = .ok q none →
    receive (s.cluster q) (bits ea 0 21) n 1 = some o → remoteLocked s q o n = false →
    (∀ x ∈ h.outst, x.id ≠ s.nextId) → s.nextId ∉ h.scAcq →
    ∃ t u v, exec i s = .next t ∧
      t.ctx c = { retiredCtx h (nextPc h.regs h.regs) with outst := h.outst ++ [{ id := s.nextId, target := q }] } ∧
      exec (.remoteAccessArrival s.nextId) t = .next u ∧
      (∀ x, readByte u.mem x = if sramKey q o ≤ x ∧ x < sramKey q o + n
        then (getG h.regs d).extractLsb' (8 * (x - sramKey q o)) 8 else readByte s.mem x) ∧ u.fe = s.fe ∧
      exec (.remoteAck s.nextId) u = .next v ∧ (v.ctx c).outst = h.outst ∧ v.mem = u.mem ∧ v.net = s.net

/-- R60, R112: a remote access that the receiver rejects: a load traps with REMOTE_ACCESS at its own address; a store leaves its
bytes unwritten, counts as acknowledged, and an asynchronous REMOTE_STORE with its address is pending. -/
def Sys2Proof.Claim.RemoteRejections : Prop :=
  ∀ s c q, HartAlone s c → Live s c → Fresh s → Quiet s c →
    let h := s.ctx c
    (∀ i n sg d a imm, loadForm i = some (n, sg, d, a, imm) →
      let ea := getG h.regs a + imm.signExtend 64
      ea.getLsbD 63 = true → ea.toNat % n = 0 → senderCheck s h ea false false = .ok q none →
      receive (s.cluster q) (bits ea 0 21) n 0 = none →
      ∃ u, Runs [i, .remoteAccessArrival s.nextId] s u ∧
        exec (.remoteRejection s.nextId) u = .next (exception c 6 ea { u with net := s.net })) ∧
    (∀ i n d a imm, storeForm i = some (n, d, a, imm) →
      let ea := getG h.regs a + imm.signExtend 64
      ea.getLsbD 63 = true → ea.toNat % n = 0 → senderCheck s h ea true false = .ok q none →
      receive (s.cluster q) (bits ea 0 21) n 1 = none → (∀ x ∈ h.outst, x.id ≠ s.nextId) →
      ∃ t, Runs [i, .remoteAccessArrival s.nextId, .remoteRejection s.nextId] s t ∧
        (t.ctx c).pendStores = h.pendStores ++ [ea] ∧ (t.ctx c).outst = h.outst ∧
        ∀ x, readByte t.mem x = readByte s.mem x)

/-- R164, R165: a remote atomic with a result: request, one access at the sync engine of the target, reply; one directed to g0
is posted and acknowledged. -/
def Sys2Proof.Claim.RemoteAtomics : Prop :=
  ∀ s c i n d a b sc z q o, Canonical s → HartAlone s c → Live s c → Fresh s → Unordered s c q o n →
    atomicForm i = some (n, d, a, b, sc, z) →
    let h := s.ctx c
    let ea := getG h.regs a
    let x : W64 := BitVec.ofNat 64 (memWord s (sramKey q o) n)
    ea.getLsbD 63 = true → ea.toNat % n = 0 → senderCheck s h ea true false = .ok q none →
    receive (s.cluster q) (bits ea 0 21) n 2 = some o → remoteLocked s q o n = false → h.outst = [] →
    ∃ t, Runs [i, .syncEngineAtomic s.nextId, if d = 0 then .remoteAck s.nextId else .remoteAtomicReply s.nextId] s t ∧
      (t.ctx c).regs = nextPc h.regs (setG h.regs d x) ∧ (t.ctx c).wait = .none ∧ (t.ctx c).outst = [] ∧
      t.net = (if sc = 1 then cover c (z.toNat + 1) s else s).net ∧
      ∀ y, readByte t.mem y =
        let new := match atomicNew x (getG h.regs b) (getG h.regs d) i with | some v => bytesOf n v.toNat | none => []
        if sramKey q o ≤ y ∧ y < sramKey q o + new.length then new.getD (y - sramKey q o) 0 else readByte s.mem y

/-- R168, R170, R172, R173: BARRIVE and BARW with no remote store of PACKAGE scope unacknowledged, and BMAKE and BFREE in S or M
mode, send their request to the sync engine and wait for its reply; an arrival with one unacknowledged waits for it first. -/
def Sys2Proof.Claim.BarrierRequests : Prop :=
  ∀ s c d a, HartAlone s c →
    let h := s.ctx c
    let hd : W32 := (getG h.regs a).truncate 32
    (pendingIn h 3 false = false →
      (∃ t, exec (.barrive d a) s = .next t ∧ Requests c d (.barrive hd) false (cover c 3 s) t) ∧
      (∃ t, exec (.barw d a) s = .next t ∧ Requests c d (.barrive hd) true (cover c 3 s) t)) ∧
    (pendingIn h 3 false = true →
      exec (.barrive d a) s = .next (setWait c .acks s) ∧ exec (.barw d a) s = .next (setWait c .acks s)) ∧
    (h.priv ≠ .u →
      (∃ t, exec (.bmake d a) s = .next t ∧ Requests c d (.bmake (bits (getG h.regs a) 0 16)) false s t) ∧
      (∃ t, exec (.bfree d a) s = .next t ∧ Requests c d (.bfree hd) false s t))

/-- R168, R170, R173: an arrival at a live barrier of its generation, from its request to its reply: the object counts it, the
last arrival completes the phase, and g[d] takes the handle of the next generation; BARW of the last arrival goes on, of another
waits in BWAIT. -/
def Sys2Proof.Claim.BarrierArrivals : Prop :=
  ∀ s c d a wait, HartAlone s c → Live s c → Fresh s → pendingIn (s.ctx c) 3 false = false →
    let h := s.ctx c
    let hd : W32 := (getG h.regs a).truncate 32
    let o := tget (s.part h.part).barriers (hd.toNat / 4096) {}
    let last := decide (o.arrived + 1 = o.count)
    let new := handle (hd.toNat / 4096) (hd.toNat + 1)
    o.live = true → o.gen = hd.toNat % 4096 →
    ∃ t, Runs [if wait then .barw d a else .barrive d a, .syncEngineBarrier s.nextId, .syncReply s.nextId] s t ∧
      OnlyBarriers h.part c (cover c 3 s) t ∧
      (∀ x, tget (t.part h.part).barriers x {} = if x = hd.toNat / 4096
        then { o with arrived := if last then 0 else o.arrived + 1, gen := if last then (o.gen + 1) % 4096 else o.gen }
        else tget (s.part h.part).barriers x {}) ∧
      t.ctx c = if wait = true ∧ last = false
        then { h with regs := setG h.regs d new, wait := .bwait (new.truncate 32) }
        else retiredCtx h (nextPc h.regs (setG h.regs d new))

/-- R168, R172: BMAKE in S or M mode makes an object at the lowest free index with a generation that no earlier handle of the
index has, and answers all ones for a count of 0; BFREE of an object that holds no arrival frees it and answers 0, of one that
holds an arrival answers 1. That storage for objects is never exhausted below INDEX 0xFFFFF is the model's choice (log entry 57). -/
def Sys2Proof.Claim.BarrierMakeAndFree : Prop :=
  ∀ s c d a, HartAlone s c → Live s c → Fresh s → (s.ctx c).priv ≠ .u →
    let h := s.ctx c
    let t0 := (s.part h.part).barriers
    (∀ i, 1 ≤ bits (getG h.regs a) 0 16 → i < 0xFFFFF → (∀ j, j < i → (tget t0 j {}).live = true) → (tget t0 i {}).live = false →
      ∃ t g, Runs [.bmake d a, .syncEngineBarrier s.nextId, .syncReply s.nextId] s t ∧ OnlyBarriers h.part c s t ∧
        ((tget t0 i {}).used = false → g = 0) ∧
        ((tget t0 i {}).used = true → g = ((tget t0 i {}).gen + 2) % 4096) ∧
        (∀ x, tget (t.part h.part).barriers x {} = if x = i
          then { live := true, count := bits (getG h.regs a) 0 16, arrived := 0, gen := g, used := true, die := h.gcn / 8 / 2048 }
          else tget t0 x {}) ∧
        t.ctx c = retiredCtx h (nextPc h.regs (setG h.regs d (handle i g)))) ∧
    (bits (getG h.regs a) 0 16 = 0 →
      ∃ t, Runs [.bmake d a, .syncEngineBarrier s.nextId, .syncReply s.nextId] s t ∧ OnlyBarriers h.part c s t ∧
        (t.part h.part).barriers = t0 ∧
        t.ctx c = retiredCtx h (nextPc h.regs (setG h.regs d 0xFFFFFFFFFFFFFFFF))) ∧
    (let hd : W32 := (getG h.regs a).truncate 32
     let o := tget t0 (hd.toNat / 4096) {}
     o.live = true → o.gen = hd.toNat % 4096 →
      ∃ t, Runs [.bfree d a, .syncEngineBarrier s.nextId, .syncReply s.nextId] s t ∧ OnlyBarriers h.part c s t ∧
        (∀ x, tget (t.part h.part).barriers x {} = if x = hd.toNat / 4096 ∧ o.arrived = 0
          then { o with live := false } else tget t0 x {}) ∧
        t.ctx c = retiredCtx h (nextPc h.regs (setG h.regs d (if o.arrived = 0 then 0 else 1))))

/-- R170, R172: an arrival, a wait or, in S or M mode, a free with a handle that names no object of its generation traps with
STALE_BARRIER, TVALUE the handle. -/
def Sys2Proof.Claim.StaleBarriers : Prop :=
  ∀ s c d a, HartAlone s c → Live s c → Fresh s →
    let h := s.ctx c
    let hd : W32 := (getG h.regs a).truncate 32
    let o := tget (s.part h.part).barriers (hd.toNat / 4096) {}
    (o.live = false ∨ o.gen ≠ hd.toNat % 4096) →
    (∀ i, (pendingIn h 3 false = false ∧ (i = .barrive d a ∨ i = .barw d a)) ∨ (h.priv ≠ .u ∧ i = .bfree d a) →
      ∃ u, Runs [i, .syncEngineBarrier s.nextId] s u ∧
        exec (.syncReply s.nextId) u =
          .next (exception c 0x12 (hd.zeroExtend 64) { u with net := u.net.filter fun p => p.id ≠ s.nextId })) ∧
    ((o.live = false ∨ o.gen ≠ (hd.toNat % 4096 + 4095) % 4096) →
      exec (.bwait a) s = .next (exception c 0x12 (hd.zeroExtend 64) s))

/-- R170, R171, R173: BWAIT with the handle of the current generation goes on, with that of the next one waits; the wait ends when
the phase has completed. GBAR of a hart whose gang has no other member that has not exited completes at once, of another waits,
and with a remote store of CLUSTER scope unacknowledged is not yet done; all members that have not exited and wait in GBAR leave
it together. That a wait also ends where its index was made anew is the model's choice (log entry 56). -/
def Sys2Proof.Claim.BarrierWaits : Prop :=
  (∀ s c a, HartAlone s c →
    let h := s.ctx c
    let hd : W32 := (getG h.regs a).truncate 32
    let o := tget (s.part h.part).barriers (hd.toNat / 4096) {}
    o.live = true →
    (o.gen = hd.toNat % 4096 → ∃ t, exec (.bwait a) s = .next t ∧ Retired c s t (nextPc h.regs h.regs)) ∧
    (o.gen = (hd.toNat % 4096 + 4095) % 4096 → exec (.bwait a) s = .next (setWait c (.bwait hd) s))) ∧
  (∀ s c hd, (s.ctx c).wait = .bwait hd → Live s c → (s.ctx c).armed = none →
    (tget (s.part (s.ctx c).part).barriers (hd.toNat / 4096) {}).gen ≠ (hd.toNat % 4096 + 4095) % 4096 →
    ∃ t, exec (.bwaitWake c) s = .next t ∧ Retired c s t (nextPc (s.ctx c).regs (s.ctx c).regs)) ∧
  (∀ s c, HartAlone s c → pendingIn (s.ctx c) 1 false = false →
    (gang s c = [c] →
      ∃ t, exec .gbar s = .next t ∧ Retired c (cover c 1 s) t (nextPc (s.ctx c).regs (s.ctx c).regs)) ∧
    (gang s c ≠ [c] → exec .gbar s = .next (setWait c .gbar (cover c 1 s)))) ∧
  (∀ s c, HartAlone s c → pendingIn (s.ctx c) 1 false = true → exec .gbar s = .next s) ∧
  (∀ s k, let m := (s.task k).members.filter fun x => (s.ctx x).exited.isNone
    m.Nodup → (∀ x ∈ m, (s.ctx x).wait = .gbar ∧ Live s x ∧ (s.ctx x).armed = none) →
    ∃ t, exec (.gbarComplete k) s = .next t ∧ { t with ctxs := s.ctxs } = s ∧
      ∀ x, t.ctx x = if x ∈ m
        then retiredCtx (s.ctx x) (nextPc (s.ctx x).regs (s.ctx x).regs) else s.ctx x)
namespace Sys2Proof.Claim
open Sys2Proof.Machine

/-! ### Traps (R127 to R130) -/

/-- The trap registers of level `l`. -/
def trapRegs (h : Ctx) (l : Priv) : TrapRegs := if l = .s then h.ts else h.tm

/-- R127: the level of a trap. -/
def levelOf (h : Ctx) (int : Bool) (code : Nat) : Priv :=
  if h.priv = .m then .m
  else if int then (if code = 2 then .m else .s)
  else if code = 9 ∨ code = 10 ∨ code = 13 then .m
  else if h.csr.mdeleg.getLsbD code then .s
  else .m

/-- R146: the cause word. -/
def cause (int : Bool) (code : Nat) : W64 := BitVec.ofNat 64 (int.toNat * 2 ^ 63 + code)

/-- R127, R128: what hart `c` holds after a trap to level `l`: status, trap PC, cause and value of the level, the privilege, the PC at
the vector; it waits for nothing, no step is armed, and its next chunk has been squashed by nobody (R30). -/
structure Trapped (h h' : Ctx) (l : Priv) (int : Bool) (code : Nat) (v p : W64) : Prop where
  priv : h'.priv = l
  pc : h'.regs = { h.regs with pc := (trapRegs h l).tvec }
  ie : (trapRegs h' l).tstat.getLsbD 0 = false
  pie : (trapRegs h' l).tstat.getLsbD 1 = if h.priv.code < l.code then true else (trapRegs h l).tstat.getLsbD 0
  ppriv : bits (trapRegs h' l).tstat 2 2 = h.priv.code
  trapBit : (trapRegs h' l).tstat.getLsbD 4 = true
  step : (trapRegs h' l).tstat.getLsbD 5 = false
  upper : bits (trapRegs h' l).tstat 6 58 = bits (trapRegs h l).tstat 6 58
  tpc : (trapRegs h' l).tpc = p &&& 0x01FFFFFFFFFFFFFC
  tcause : (trapRegs h' l).tcause = cause int code
  tvalue : (trapRegs h' l).tvalue = v
  tvec : (trapRegs h' l).tvec = (trapRegs h l).tvec
  tscratch : (trapRegs h' l).tscratch = (trapRegs h l).tscratch
  rest : { h' with priv := h.priv, regs := h.regs, ts := h.ts, tm := h.tm, wait := h.wait, armed := h.armed, squashes := h.squashes } = h
  otherS : l ≠ .s → h'.ts = h.ts
  otherM : l = .s → h'.tm = h.tm
  idle : h'.wait = .none ∧ h'.armed = none ∧ h'.squashes = 0

/-- R142: the CSR instruction is legal at privilege `p`; `writes`: it writes. -/
def csrLegal (p : Priv) (n : Nat) (writes : Bool) : Prop :=
  ∃ ro, csrReadOnly n = some ro ∧ n / 0x400 ≤ p.code ∧ (writes = true → ro = false)

/-- R53, R58, R59, R71, R43, R145 to R148: the bits of a CSR that a write stores; the others read as zero, but for IPEND. -/
def csrWritable (n : Nat) : W64 :=
  if n = 0x001 then 0x1FF
  else if n = 0x002 then 0xF7007FFFFFFFFFFF
  else if n = 0x401 ∨ n = 0x404 ∨ n = 0xC01 ∨ n = 0xC04 then 0x01FFFFFFFFFFFFFC
  else if n = 0x402 ∨ n = 0xC02 then 0x800000000000003F
  else if n = 0x406 then 3
  else if n = 0x407 then 2
  else if 0x410 ≤ n ∧ n < 0x418 then 0xF01FFFF8001FFFF8
  else if 0x420 ≤ n ∧ n < 0x430 then 0x80007FFF00007FFF
  else if 0x430 ≤ n ∧ n < 0x438 then 0xF80003FFFFFFC07F
  else if n = 0xC06 then ~~~0x2600#64
  else BitVec.allOnes 64

/-- R141: the destination, the CSR, and the value written from the old one. -/
def csrForm (r : Regs) : Instr → Option (R5 × Nat × (W64 → Option W64))
  | .csrr d n => some (d, n.toNat, fun _ => none)
  | .csrs d a n => some (d, n.toNat, fun _ => some (getG r a))
  | .csrc d a n => some (d, n.toNat, fun old => some ((old &&& ~~~(getG r d)) ||| (getG r a &&& getG r d)))
  | .csrw a n => some (0, n.toNat, fun _ => some (getG r a))
  | _ => none

/-- R283: forms of majors 0x00 to 0x1D that a BAU does not have. -/
def coreForm : Instr → Bool
  | .addw .. | .subw .. | .sextw .. | .mulw .. | .divw .. | .divuw .. | .remw .. | .remuw .. | .ldwu .. | .ldd .. | .std .. => true
  | _ => false

/-- R80: instructions that need S or M. -/
def needsS : Instr → Bool
  | .bmake .. | .bfree .. | .tret | .wfi | .tlbinv .. | .asidset .. | .protset .. | .stopat .. => true
  | _ => false

/-- R191: how many records of an array the dispatcher takes, one after another until one finds no quota, and what that leaves. -/
def taken (v l : Nat) (asid : BitVec 16) : Nat → Nat → State → Nat × State
  | 0, _, s => (0, s)
  | n + 1, va, s =>
    let r := takeRecord v l asid va s
    if r.1 then (let q := taken v l asid n (va + 128) r.2; (q.1 + 1, q.2)) else (0, r.2)

/-- A hart has a request for a solo grant (R29, R30): in solo mode, it waits for nothing, and its next instruction is of those that
belong to chunks (R199) and held by no interlock (R164, R247). -/
def asks (s : State) (h : Ctx) : Prop :=
  h.solo = true ∧ canMove s h = true ∧ h.wait = .none ∧
    ∃ w, fetchWord h h.regs.pc.toNat = some w ∧ (fMaj w).toNat < 0x22 ∧ stalled h w = false

/-- Hart `p` has a request for a solo grant that goes before that of hart `h` of its cluster (R30). -/
def asksFirst (s : State) (p h : Ctx) : Prop :=
  asks s p ∧ p.gcn / 8 = h.gcn / 8 ∧ (p.soloSince < h.soloSince ∨ (p.soloSince = h.soloSince ∧ p.gcn < h.gcn))

/-- R143: the word is an instruction that writes a register the cores of a cluster share: WPT0 to WPT15, XW0 to XW7 or MSIZE. -/
def sharedWrite (r : Regs) (w : W32) : Prop :=
  ∃ i d n f, decode w = .ok i ∧ csrForm r i = some (d, n, f) ∧ (f 0).isSome = true ∧ ((0x420 ≤ n ∧ n < 0x438) ∨ n = 0xC07)

/-- R151: TLBINV of mode `m` covers a translation. -/
def covered (m : Nat) (va asid pageAsid page size : Nat) : Prop :=
  m = 0 ∨ (pageAsid = asid ∧ (m = 1 ∨ (page ≤ va ∧ va < page + size)))

end Sys2Proof.Claim

open Sys2Proof Sys2Proof.Machine Sys2Proof.Claim

/-- R127, R128, R130: taking a trap with no chunk open and the level's IN_TRAP clear. -/
def Sys2Proof.Claim.TrapEntry : Prop :=
  ∀ s c int code v p, (s.ctx c).chunk = none → code < 64 →
    let l := levelOf (s.ctx c) int code
    (trapRegs (s.ctx c) l).tstat.getLsbD 4 = false →
    OnlyHart c s (takeTrap c int code v p s) ∧ Trapped (s.ctx c) ((takeTrap c int code v p s).ctx c) l int code v p

/-- R128, R129: a trap into S while its IN_TRAP is set and M's is clear becomes a DOUBLE_TRAP to M, TVALUE the first cause; a trap into
M while IN_TRAP is set halts the core, which keeps its state, and the Arbiter logs it. -/
def Sys2Proof.Claim.DoubleTrapAndHalt : Prop :=
  ∀ s c int code v p, (s.ctx c).chunk = none → code < 64 →
    let h := s.ctx c
    let t := takeTrap c int code v p s
    (levelOf h int code = .s → h.ts.tstat.getLsbD 4 = true → h.tm.tstat.getLsbD 4 = false →
      OnlyHart c s t ∧ Trapped h (t.ctx c) .m false 13 (cause int code) p) ∧
    (h.tm.tstat.getLsbD 4 = true → (levelOf h int code = .s → h.ts.tstat.getLsbD 4 = true) →
      t.ctx c = { h with halted := true, armed := none } ∧ OtherHarts c s t ∧ t.mem = s.mem ∧
      ∃ c1, t.mod.log = s.mod.log ++ [.halt h.gcn c1 (cause int code)])

/-- R134, R135: ECALL and EBREAK take their exceptions: ECALL by the privilege with TPC the next instruction, EBREAK at its own
address; TVALUE 0. -/
def Sys2Proof.Claim.CallsAndBreakpoints : Prop :=
  ∀ s c d a b k, HartAlone s c →
    exec (.ecall d a b k) s = .next (takeTrap c false
      (match (s.ctx c).priv with | .u => 8 | .s => 9 | .m => 10) 0 ((s.ctx c).regs.pc + 4) s) ∧
    exec (.ebreak d a b k) s = .next (exception c 0xB 0 s)

/-- R136: TRET returns: IE from PIE, PIE 1, IN_TRAP, STEP and PPRIV 0, the privilege from PPRIV, the PC from TPC, a step armed by
STEP; in U, or with a status that fails the check, it is illegal. -/
def Sys2Proof.Claim.TrapReturn : Prop :=
  ∀ s c, HartAlone s c →
    let h := s.ctx c
    let st := (trapRegs h h.priv).tstat
    let ok := h.priv ≠ .u ∧ st.getLsbD 4 = true ∧ bits st 6 58 = 0 ∧ bits st 2 2 ≠ 2 ∧ bits st 2 2 ≤ h.priv.code
    (ok → ∃ t, exec .tret s = .next t ∧ OnlyHart c s t ∧
      let h' := t.ctx c
      h'.regs = { h.regs with pc := (trapRegs h h.priv).tpc } ∧ h'.priv.code = bits st 2 2 ∧
      (trapRegs h' h.priv).tstat = BitVec.ofNat 64 (2 + (st.getLsbD 1).toNat) ∧
      h'.armed = (if st.getLsbD 5 then some h.priv else none) ∧
      h'.csr = { h.csr with retired := h.csr.retired + 1 } ∧ h'.eng = h.eng ∧
      (h.priv = .s → h'.tm = h.tm) ∧ (h.priv = .m → h'.ts = h.ts)) ∧
    (¬ok → exec .tret s = .next (exception c 1 0xC4000003 s))

/-- R138: an instruction that retires with a step armed is followed by a STEP trap to the level that executed the TRET, TPC the next
instruction and TVALUE its own address: shown for ADDI. -/
def Sys2Proof.Claim.SingleStep : Prop :=
  ∀ s c d a i l, s.cur = .hart c → (s.ctx c).regs.pc ≠ 0x01FFFFFFFFFFFFFC → (s.ctx c).armed = some l → l ≠ .u →
    (s.ctx c).solo = false → (s.ctx c).chunk = none → (trapRegs (s.ctx c) l).tstat.getLsbD 4 = false →
    ∃ t, exec (.addi d a i) s = .next t ∧
      Trapped { s.ctx c with
          regs := nextPc (s.ctx c).regs (setG (s.ctx c).regs d (getG (s.ctx c).regs a + i.signExtend 64))
          csr := { (s.ctx c).csr with retired := (s.ctx c).csr.retired + 1 }, squashes := 0 }
        (t.ctx c) l false 12 (s.ctx c).regs.pc ((s.ctx c).regs.pc + 4)

/-- R139, R140: ICINV discards the hart's instruction-cache lines; WFI goes on when an interrupt is pending, else it stalls, and the
stall ends when one becomes pending. -/
def Sys2Proof.Claim.WaitForInterrupt : Prop :=
  ∀ s c,
    let h := s.ctx c
    let pending := h.csr.event = true ∨ (h.csr.imask.getLsbD 0 = true ∧ h.csr.tcmp.toNat ≤ s.gtime) ∨
      (h.csr.imask.getLsbD 1 = true ∧ h.csr.soft = true)
    (HartAlone s c → ∃ t, exec .icinv s = .next t ∧ OnlyHart c s t ∧
      t.ctx c = { retiredCtx h (nextPc h.regs h.regs) with icache := [] }) ∧
    (HartAlone s c → h.priv ≠ .u → pending → ∃ t, exec .wfi s = .next t ∧ Retired c s t (nextPc h.regs h.regs)) ∧
    (HartAlone s c → h.priv ≠ .u → ¬pending → exec .wfi s = .next (setWait c .wfi s)) ∧
    (h.wait = .wfi → Live s c → h.armed = none → pending →
      ∃ t, exec (.wfiWake c) s = .next t ∧ Retired c s t (nextPc h.regs h.regs))

/-- R141: CSRR, CSRS, CSRC and CSRW put the old value into g[d] and the new one, under the register's map, into the CSR. R61, R352: a write of MSIZE in M
mode stores at most 8 while no other core of the cluster is resident in a task, else it is logged; one of FRESUME, once no remote store of PACKAGE scope
is unacknowledged, is a release, records its action for a suspended part that has none yet, and one that names no such part is logged; before, it issues again,
also while an earlier request for the part is pending (a choice of the model, log entry 67). -/
def Obligations.CsrInstructions : Prop :=
  (∀ s c i d f v, HartAlone s c → (s.ctx c).priv = .m →
    let h := s.ctx c
    let done := fun (u t : State) n => OtherHarts c u t ∧ (t.ctx c).regs = nextPc h.regs (setG h.regs d (csrRead s h n)) ∧
      ∀ a, readByte t.mem a = readByte s.mem a
    (csrForm h.regs i = some (d, 0xC07, f) → f (csrRead s h 0xC07) = some v →
      let free := ∀ x ∈ s.ctxs, x.2.resident = true → x.2.gcn / 8 = h.gcn / 8 → x.2.gcn ≠ h.gcn → x.2.task = none
      ∃ t, exec i s = .next t ∧ done s t 0xC07 ∧ (free → (t.cluster (h.gcn / 8)).msize = min 8 (bits v 0 4)) ∧
        (¬free → t.cluster (h.gcn / 8) = s.cluster (h.gcn / 8) ∧ t.mod = { s.mod with log := s.mod.log ++ [.refused 0x61] })) ∧
    (csrForm h.regs i = some (d, 0xC09, f) → f (csrRead s h 0xC09) = some v →
      let p := s.part h.part
      let named := (∃ u ∈ p.susp, u.fid = bits v 0 16) ∧ ∀ x ∈ p.fresume, x.2 ≠ bits v 0 16
      (pendingIn h 3 false = true → exec i s = .next s) ∧
      (pendingIn h 3 false = false → ∃ t, exec i s = .next t ∧ done (cover c 3 s) t 0xC09 ∧
        (bits v 62 2 ≠ 3 → named → t.part h.part = { p with fresume := p.fresume ++ [(bits v 62 2, bits v 0 16)] }) ∧
        (bits v 62 2 ≠ 3 → ¬named → t.part h.part = p ∧ t.mod = { s.mod with log := s.mod.log ++ [.refused 0x352] }) ∧
        (bits v 62 2 = 3 → t.part h.part = p ∧ t.mod = s.mod)))) ∧
  ∀ s c i d n f, HartAlone s c → csrForm (s.ctx c).regs i = some (d, n, f) →
    let old := csrRead s (s.ctx c) n
    csrLegal (s.ctx c).priv n (f old).isSome → ((f old).isSome = true → n ≠ 0xC07 ∧ n ≠ 0xC09) →
    ∃ t, exec i s = .next t ∧ OtherHarts c s t ∧ (∀ a, readByte t.mem a = readByte s.mem a) ∧
      (t.ctx c).regs.pc = (s.ctx c).regs.pc + 4 ∧
      (∀ r, getG (t.ctx c).regs r = if r ≠ 0 ∧ r = d then old else getG (s.ctx c).regs r) ∧
      (t.ctx c).csr.retired = (s.ctx c).csr.retired + 1 ∧
      (∀ v, f old = some v → csrRead t (t.ctx c) n = (if n = 0x407 then old &&& ~~~2#64 else 0) ||| (v &&& csrWritable n)) ∧
      (f old = none → Retired c s t (nextPc (s.ctx c).regs (setG (s.ctx c).regs d old)))

/-- R80, R142, R151, R153: an unassigned CSR, one above the privilege, a write of a read-only one; a privileged instruction in U, STOPAT
below M; TLBINV with mode 3 or more and PROTSET with 8 or more: illegal instructions, which trap before any effect. -/
def Sys2Proof.Claim.PrivilegeChecks : Prop :=
  ∀ s c i w, s.cur = .hart c → encode i = some w →
    ((∃ d n f, csrForm (s.ctx c).regs i = some (d, n, f) ∧ ¬csrLegal (s.ctx c).priv n (f (csrRead s (s.ctx c) n)).isSome) ∨
      (needsS i = true ∧ (s.ctx c).priv = .u) ∨ ((∃ d a b, i = .stopat d a b) ∧ (s.ctx c).priv ≠ .m) ∨
      (∃ a b m, i = .tlbinv a b m ∧ 3 ≤ m.toNat) ∨ ∃ a n, i = .protset a n ∧ 8 ≤ n.toNat) →
    exec i s = .next (exception c 1 (w.zeroExtend 64) s)

/-- R81, R82, R83: a core instruction is illegal on a bank arithmetic unit and ends the run with END 1; a BAU instruction is illegal on a
core; so is a word that decodes to nothing, on either. -/
def Sys2Proof.Claim.IllegalByUnit : Prop :=
  (∀ s g i w, s.cur = .bau g → encode i = some w →
    (0x1E ≤ (fMaj w).toNat ∧ (fMaj w).toNat < 0x38 ∨ coreForm i = true ∨ bauAmount i = false ∨
      (bauFields i).any (fun r => decide (16 ≤ r.toNat)) = true) →
    ∃ t, exec i s = .next t ∧ RunEnds g 1 0 s t) ∧
  (∀ s c i w, s.cur = .hart c → encode i = some w → 0x38 ≤ (fMaj w).toNat →
    exec i s = .next (exception c 1 (w.zeroExtend 64) s)) ∧
  (∀ s c w e, s.cur = .hart c → decode w = .error e →
    exec (.illegalInstruction w) s = .next (exception c 1 (w.zeroExtend 64) s)) ∧
  (∀ s g w e, s.cur = .bau g → decode w = .error e → ∃ t, exec (.illegalInstruction w) s = .next t ∧ RunEnds g 1 0 s t)

/-- R151 to R154: ASIDSET, PROTSET, TLBINV with its acknowledgements, STOPAT with its announcement. That status 3 goes before 1
and 1 before 2 is the model's choice (DEDUCED, log entry 35). -/
def Obligations.PrivilegedEffects : Prop :=
  (∀ s c d a, HartAlone s c → (s.ctx c).priv ≠ .u →
    ∃ t, exec (.asidset d a) s = .next t ∧ OnlyHart c s t ∧
      t.ctx c = { retiredCtx (s.ctx c) (nextPc (s.ctx c).regs (setG (s.ctx c).regs d ((s.ctx c).csr.asid.zeroExtend 64))) with
        csr := { (s.ctx c).csr with
          asid := (getG (setG (s.ctx c).regs d ((s.ctx c).csr.asid.zeroExtend 64)) a).truncate 16, retired := (s.ctx c).csr.retired + 1 } }) ∧
  (∀ s c a n, HartAlone s c → (s.ctx c).priv ≠ .u → n.toNat < 8 →
    ∃ t, exec (.protset a n) s = .next t ∧ OnlyHart c s t ∧ (t.ctx c).regs = nextPc (s.ctx c).regs (s.ctx c).regs ∧
      ∀ j, tget (t.ctx c).csr.pw j 0 = if j = n.toNat then getG (s.ctx c).regs a &&& 0xF01FFFF8001FFFF8
        else tget (s.ctx c).csr.pw j 0) ∧
  (∀ s c a b m, HartAlone s c → Live s c → (s.ctx c).priv ≠ .u → m.toNat < 3 →
    let va := (getG (s.ctx c).regs a).toNat
    let asid := (getG (s.ctx c).regs b).toNat % 65536
    let p := (s.ctx c).part
    ∃ t, Runs [.tlbinv a b m, .tlbinvAck c] s t ∧ t.mem = s.mem ∧
      (t.ctx c).regs = nextPc (s.ctx c).regs (s.ctx c).regs ∧ (t.ctx c).wait = .none ∧
      (∀ q, serves (s.cluster q) = some p →
        ∀ e, e ∈ (t.cluster q).tlb ↔ e ∈ (s.cluster q).tlb ∧ ¬covered m.toNat va asid e.asid e.va e.size) ∧
      (∀ x, (s.ctx x).part = p →
        ∀ l, l ∈ (t.ctx x).icache ↔ l ∈ (s.ctx x).icache ∧ ¬covered m.toNat va asid l.asid l.page l.pageSize)) ∧
  (∀ s c d a b, HartAlone s c → Live s c → (s.ctx c).priv = .m →
    let p := bits (getG (s.ctx c).regs b) 0 8
    let at_ := (getG (s.ctx c).regs a).toNat
    let status := if (s.part p).live = false then 3 else if at_ < s.gtime + 2048 then 1
      else if (s.part p).stop.isSome then 2 else 0
    ∃ t, Runs [.stopat d a b, .stopAnnounced c] s t ∧ OtherHarts c s t ∧ t.mem = s.mem ∧
      t.ctx c = retiredCtx (s.ctx c) (nextPc (s.ctx c).regs (setG (s.ctx c).regs d (BitVec.ofNat 64 status))) ∧
      ∀ x, t.part x = if x = p ∧ status = 0 then { s.part p with stop := some at_ } else s.part x)

/-- R131, R132, R148: an interrupt that may be taken is taken, EVENT first, then TIMER, then SOFT; a posted array trap goes before a pending
REMOTE_STORE, and both before interrupts; nothing is taken while a step is armed; IPEND.TIMER follows GTIME; an acknowledgement
clears the oldest EVENT. -/
def Sys2Proof.Claim.InterruptsAndAsyncExceptions : Prop :=
  ∀ s c,
    let h := s.ctx c
    let at_ := h.wait ∈ [Wait.none, .gbar, .bkfence, .mfence]
    let s1 := h.priv = .u ∨ (h.priv = .s ∧ h.ts.tstat.getLsbD 0 = true)
    let timer := h.csr.imask.getLsbD 0 = true ∧ h.csr.tcmp.toNat ≤ s.gtime
    (Live s c → at_ → h.recorded = none → h.eng.posted = none → h.pendStores = [] → h.armed = none → h.csr.event = true →
      h.tm.tstat.getLsbD 4 = false → (h.priv = .m → h.tm.tstat.getLsbD 0 = true) →
      exec (.takeInterrupt c) s = .next (takeTrap c true 2 (h.csr.eventCodes.headD 0) h.regs.pc s)) ∧
    (Live s c → at_ → h.recorded = none → h.eng.posted = none → h.pendStores = [] → h.armed = none → h.csr.event = false →
      h.ts.tstat.getLsbD 4 = false → s1 →
      (timer → exec (.takeInterrupt c) s = .next (takeTrap c true 0 0 h.regs.pc s)) ∧
      (¬timer → h.csr.imask.getLsbD 1 = true → h.csr.soft = true →
        exec (.takeInterrupt c) s = .next (takeTrap c true 1 0 h.regs.pc s))) ∧
    (h.armed.isSome = true → exec (.takeInterrupt c) s = .next s) ∧
    (Live s c → at_ → h.recorded = none → ∀ code v, h.eng.posted = some (code, v) →
      exec (.takeAsyncException c) s = .next (takeTrap c false code v h.regs.pc (modEng c (fun e => { e with posted := none }) s))) ∧
    (Live s c → at_ → h.recorded = none → h.eng.posted = none → ∀ v r, h.pendStores = v :: r →
      exec (.takeAsyncException c) s = .next (takeTrap c false 7 v h.regs.pc (modCtx c (fun h => { h with pendStores := r }) s))) ∧
    (∃ t, exec (.timerMatch c) s = .next t ∧ OnlyHart c s t ∧
      t.ctx c = { h with csr := { h.csr with timer := decide (h.csr.tcmp.toNat ≤ s.gtime) } }) ∧
    (∃ t, exec (.eventAcknowledgement c) s = .next t ∧ OnlyHart c s t ∧
      t.ctx c = { h with csr := { h.csr with event := decide (2 ≤ h.csr.eventCodes.length), eventCodes := h.csr.eventCodes.drop 1 } })

/-- R30, R199 to R201: a chunk that a limit has closed, of a hart in solo mode, or before an instruction of major 0x22 or above
may commit; the commit applies its stores, counts its instructions, and squashes the open chunks of other harts of
the cluster that have read a word it writes: these go back to their chunk's start. R143: a chunk that ends at a write of a register
which the cores share commits with that write, not before. -/
def Sys2Proof.Claim.ChunkCommits : Prop :=
  (∀ s c k w, (s.ctx c).chunk = some k → k.closed = false → (s.ctx c).solo = false →
    fetchWord (s.ctx c) (s.ctx c).regs.pc.toNat = some w → sharedWrite (s.ctx c).regs w →
    exec (.chunkCommit c) s = .next s ∧
      ∀ i, decode w = .ok i → s.cur = .hart c → exec i s = exec i (commitChunk c s)) ∧
  ∀ s c k, (s.ctx c).chunk = some k →
    (k.closed = true ∨ (s.ctx c).solo = true ∨
      ∃ w, fetchWord (s.ctx c) (s.ctx c).regs.pc.toNat = some w ∧ 0x22 ≤ (fMaj w).toNat ∧ ¬sharedWrite (s.ctx c).regs w) →
    ∃ t, exec (.chunkCommit c) s = .next t ∧ { t with ctxs := s.ctxs, mem := s.mem } = s ∧
      t.ctx c = { s.ctx c with
        chunk := none, squashes := 0, solo := false
        csr := { (s.ctx c).csr with retired := (s.ctx c).csr.retired + BitVec.ofNat 64 k.count } } ∧
      (∀ a, readByte t.mem a = sees s c a) ∧
      ∀ x, x ≠ c → t.ctx x =
        let h := s.ctx x
        match h.chunk with
        | none => h
        | some q =>
          if h.resident = true ∧ h.gcn / 8 = (s.ctx c).gcn / 8 ∧ ∃ w ∈ q.reads, w ∈ k.writes then
            { h with
              regs := q.start, chunk := none, squashes := h.squashes + 1, solo := h.solo || decide (1 ≤ h.squashes)
              soloSince := if h.solo then h.soloSince else s.gtime }
          else h

/-- R30: of the harts of a cluster that ask for a solo grant the one that has asked longest, ties to the lower core number, gets
its next issue, and with it the step that follows is that hart's; no other gets it. A hart that is in solo mode after its grant asks anew. R29: a hart
that had its grant and whose instruction waits for acknowledgements, and one whose next instruction belongs to no chunk (R199), issues with no grant. -/
def Sys2Proof.Claim.SoloGrants : Prop :=
  (∀ s c, (s.ctx c).wait = .acks → hartStep false c s = hartStep true c s) ∧
  (∀ s c w, fetchWord (s.ctx c) (s.ctx c).regs.pc.toNat = some w → 0x22 ≤ (fMaj w).toNat → hartStep false c s = hartStep true c s) ∧
  (∀ s c,
    (asks s (s.ctx c) → (∀ p ∈ s.ctxs, ¬asksFirst s p.2 (s.ctx c)) → exec (.soloGrant c) s = .next { s with soloTurn := some c }) ∧
    ((∃ p ∈ s.ctxs, asksFirst s p.2 (s.ctx c)) → exec (.soloGrant c) s = .next s) ∧
    (¬asks s (s.ctx c) → exec (.soloGrant c) s = .next s)) ∧
  ∀ s c u, s.soloTurn = some c → hartStep true c { s with soloTurn := none } = .next u →
    ∃ t, step s = .next t ∧ OtherHarts c u t ∧ { t with ctxs := u.ctxs } = u ∧
      t.ctx c = { u.ctx c with soloSince := if (u.ctx c).solo then u.gtime else (u.ctx c).soloSince }

/-- R195: the scopes of which one instance holds harts `c` and `y`. -/
def Sys2Proof.Claim.together (s : State) (c y z : Nat) : Prop :=
  let q := (s.ctx c).gcn / 8
  let r := (s.ctx y).gcn / 8
  (z = 0 → c = y) ∧ (z = 1 → q = r) ∧ (z = 2 → q / 2048 = r / 2048)

/-- R203, R204: hart `y` lies in the instance of a release that covers a write. -/
def Sys2Proof.Claim.coveredFor (s : State) (y : Nat) (k : List Release) : Prop := ∃ r ∈ k, Claim.together s r.hart y r.scope

/-- A hart's open chunk, if any, has been squashed (R201). -/
def Sys2Proof.Claim.SquashedAt (t : Nat) (h h' : Ctx) : Prop :=
  ∃ k, h.chunk = some k ∧ h' = { h with
    regs := k.start, chunk := none, squashes := h.squashes + 1, solo := h.solo || decide (1 ≤ h.squashes)
    soloSince := if h.solo then h.soloSince else t }

/-- R203 to R205: a release of hart `c` at scope `z` covers its remote writes in flight, its column writes that a BKFENCE has performed, and those
of harts of its cluster that are covered for it: it is listed with scope, cycle and hart where no release of the hart, of that scope or a wider one, is.
Log entry 7 (a choice of the model): open chunks of other harts of a target cluster that have read or written a word of a write which the release
newly orders before them go back to their start (R201), so that no commit puts an old value after the release. -/
def Sys2Proof.Claim.ReleaseCovers : Prop :=
  ∀ s c z,
    let t := cover c z s
    let grows := fun (x : Nat) (k : List Release) => (x = c ∨ ((s.ctx x).gcn / 8 = (s.ctx c).gcn / 8 ∧ Claim.coveredFor s c k)) ∧
      ∀ r ∈ k, r.hart = c → r.scope < z
    let grown := fun (x : Nat) (k k' : List Release) =>
      (grows x k → k' = k ++ [{ scope := z, cycle := s.gtime, hart := c }]) ∧ (¬grows x k → k' = k)
    let newly := fun (p : Packet) (y : Nat) => reqWrites p.body = true ∧ grows p.cid p.cover ∧
      ¬Claim.coveredFor s y p.cover ∧ Claim.together s c y z
    { t with net := s.net, ctxs := s.ctxs, banks := s.banks } = s ∧ t.net.length = s.net.length ∧
    (∀ (i : Nat) p, s.net[i]? = some p → ∃ k, t.net[i]? = some { p with cover := k } ∧
      (reqWrites p.body = true → grown p.cid p.cover k) ∧ (reqWrites p.body = false → k = p.cover)) ∧
    (∀ g, { t.bank g with before := (s.bank g).before } = s.bank g ∧ ∀ (i : Nat) n x, (s.bank g).before[i]? = some (n, x) →
      ∃ k, (t.bank g).before[i]? = some (n, { x with cover := k }) ∧
        (x.fenced = true → grown x.cid x.cover k) ∧ (x.fenced = false → k = x.cover)) ∧
    t.ctx c = s.ctx c ∧ ∀ x, x ≠ c →
      let h := s.ctx x
      let meets := fun (k : Chunk) => ∃ p ∈ s.net, newly p x ∧ p.dev = none ∧ h.resident = true ∧ h.gcn / 8 = p.pcn ∧
        ∃ o n, landing s p = some (o, n) ∧ ∃ w ∈ wordsOf (sramKey p.pcn o) n, w ∈ k.reads ∨ w ∈ k.writes
      (h.chunk = none → t.ctx x = h) ∧
      ∀ k, h.chunk = some k → (¬meets k → t.ctx x = h) ∧ (meets k → Claim.SquashedAt s.gtime h (t.ctx x))

/-- R16, R18, R190 to R193: TARG returns the task's argument, member number, gang size, gang map or tag; TYIELD of 0 goes on, of n waits n
core cycles, at most 65,535; TEXIT ends the member with its status; TSPAWN of an array that is not acceptable enqueues nothing, of
another sends its request to the dispatcher and waits; with a remote store of PACKAGE scope unacknowledged it waits for that first
(R194). -/
def Sys2Proof.Claim.TaskInstructions : Prop :=
  ∀ s c, HartAlone s c →
    let h := s.ctx c
    let g := fun r => getG h.regs r
    (∀ d a tid, h.task = some tid →
      let k := s.task tid
      let v : W64 := if bits (g a) 0 3 = 0 then k.arg else if bits (g a) 0 3 = 1 then BitVec.ofNat 64 h.member
        else if bits (g a) 0 3 = 2 then BitVec.ofNat 64 k.members.length
        else if bits (g a) 0 3 = 3 then gangMap h.vcn (k.members.map fun m => (s.ctx m).gcn % 8)
        else if bits (g a) 0 3 = 4 then k.tag else 0
      ∃ t, exec (.targ d a) s = .next t ∧ Retired c s t (nextPc h.regs (setG h.regs d v))) ∧
    (∀ a, g a = 0 → ∃ t, exec (.tyield a) s = .next t ∧ Retired c s t (nextPc h.regs h.regs)) ∧
    (∀ a, g a ≠ 0 → exec (.tyield a) s = .next (setWait c (.tyield (h.csr.cycle.toNat + min (g a).toNat 65535)) s)) ∧
    (∀ d a b, pendingIn h 3 false = false →
      ((g a).toNat % 128 ≠ 0 ∨ 2 ^ 57 ≤ (g a).toNat ∨ (g b).toNat = 0 ∨ 65535 < (g b).toNat ∨
        2 ^ 57 < (g a).toNat + 128 * (g b).toNat) →
      ∃ t, exec (.tspawn d a b) s = .next t ∧ Retired c s t (nextPc h.regs (setG h.regs d 0))) ∧
    (∀ d a b, pendingIn h 3 false = false →
      ¬((g a).toNat % 128 ≠ 0 ∨ 2 ^ 57 ≤ (g a).toNat ∨ (g b).toNat = 0 ∨ 65535 < (g b).toNat ∨
        2 ^ 57 < (g a).toNat + 128 * (g b).toNat) →
      exec (.tspawn d a b) s = .next (setWait c (.tspawn s.nextId d)
        { cover c 3 s with
          nextId := s.nextId + 1
          net := (cover c 3 s).net ++ [{
            id := s.nextId, cid := c, part := h.part, addr := g a, pcn := h.gcn / 8, ofs := 0
            body := .tspawn (g a) (g b).toNat h.csr.asid }] })) ∧
    (∀ d a b, pendingIn h 3 false = true → exec (.tspawn d a b) s = .next (setWait c .acks s)) ∧
    (∀ a, h.eng.posted = none → h.eng.aq = [] → h.task = none →
      ∃ t, exec (.texit a) s = .next t ∧ OnlyHart c s t ∧
        t.ctx c = { h with
          exited := some ((g a).truncate 32), armed := none
          csr := { h.csr with retired := h.csr.retired + 1 } }) ∧
    (∀ a tid, h.eng.posted = none → h.eng.aq = [] → h.task = some tid →
      ∃ t, exec (.texit a) s = .next t ∧ (t.ctx c).exited = some ((g a).truncate 32) ∧ t.mem = s.mem ∧
        ((∀ m ∈ (s.task tid).members, m = c ∨ (s.ctx m).exited.isSome = true) ↔
          ∀ m ∈ (s.task tid).members, (t.ctx m).exited.isSome = true) ∧
        ((∀ m ∈ (s.task tid).members, m = c ∨ (s.ctx m).exited.isSome = true) →
          ∀ m ∈ (s.task tid).members, (t.ctx m).resident = false))

/-- R191, R193, R317: the delay of TYIELD ends once its cycles have passed. The dispatcher answers TSPAWN: it takes the records of the
request in order until one finds no quota, and none where the owner's QSLOT or DEPQ is 0; g[d] gets how many it took, and the tasks
that they make are enqueued. The dispatcher is not held back by a hot row (R330). -/
def Sys2Proof.Claim.TaskWaitsEnd : Prop :=
  ∀ s c,
    let h := s.ctx c
    (∀ u, h.wait = .tyield u → Live s c → h.armed = none → u ≤ h.csr.cycle.toNat →
      ∃ t, exec (.tyieldEnd c) s = .next t ∧ Retired c s t (nextPc h.regs h.regs)) ∧
    (∀ id d base n asid p tid, h.wait = .tspawn id d → h.halted = false → h.armed = none → h.task = some tid →
      packet s id = some p → p.body = .tspawn base n asid → cool s = true →
      let l := (s.task tid).launch
      let v := (s.launch l).vf
      let r := if bits (s.owner v).vfcfg 36 12 = 0 ∨ bits (s.owner v).vfcfg 24 12 = 0 then (0, s)
        else taken v l asid n base.toNat s
      ∃ t, exec (.tspawnAck c) s = .next t ∧ t.ctx c = retiredCtx (r.2.ctx c) (nextPc h.regs (setG h.regs d (BitVec.ofNat 64 r.1))) ∧
        (t.ctx c).regs = nextPc h.regs (setG h.regs d (BitVec.ofNat 64 r.1)) ∧ (t.ctx c).wait = .none ∧
        t.tasks = r.2.tasks ∧ t.versions = r.2.versions ∧ t.owners = r.2.owners ∧
        t.net = s.net.filter fun q => q.id ≠ id)
namespace Sys2Proof.Claim
open Sys2Proof.Machine

/-- R70, R176, R178: the queue entry that a geometry register describes. -/
def entryFor (s : State) (c : Nat) (kind : XKind) (loc far g : W64) : Entry :=
  { eid := s.nextId, kind := kind, loc := loc, far := far, len := g.toNat % 2 ^ 32
    lce := g.getLsbD 39, lcnt := g.toNat / 2 ^ 32 % 64, rce := g.getLsbD 47, rcnt := g.toNat / 2 ^ 40 % 64
    asid := (s.ctx c).csr.asid, core := (s.ctx c).gcn }

/-- R175: the part of a META transfer that is queued: its whole columns, from the column of the far address on; of a LEN that is no multiple
of 32 the rest is left out (the model's choice, log entry 20). -/
def columnsOf (e : Entry) : Entry :=
  { e with far := if e.len = 0 then e.far else BitVec.ofNat 64 (e.far.toNat / 32 * 32), len := e.len / 32 * 32 }

/-- The hart has queued an entry, which takes the cycles of the hart's acquires (R208), and gone on (R178). -/
def Queued (c : Nat) (s t : State) (e : Entry) : Prop :=
  { t with ctxs := s.ctxs, nextId := s.nextId } = s ∧ t.nextId = s.nextId + 1 ∧ OtherHarts c s t ∧
    t.ctx c = { retiredCtx (s.ctx c) (nextPc (s.ctx c).regs (s.ctx c).regs) with
      eng := { (s.ctx c).eng with q := (s.ctx c).eng.q ++ [{ e with acquired := (s.ctx c).acquired }] } }

/-- R176: a far address of n bytes that passes: virtual within 57 bits, or global by the sender's check. -/
def FarOk (s : State) (c : Nat) (far : W64) (n : Nat) (store : Bool) : Prop :=
  if far.getLsbD 63 then senderCheck s (s.ctx c) far store false ≠ .fail
  else far.toNat < 2 ^ 57 ∧ far.toNat + n ≤ 2 ^ 57

/-- The mode of a geometry register (R70). -/
def mode (g : W64) : Nat := g.toNat / 2 ^ 48 % 256
/-- Its length. -/
def len (g : W64) : Nat := g.toNat % 2 ^ 32

/-- The oldest entry of a hart's put/get queue, with a number of its own. -/
def Oldest (s : State) (c : Nat) (e : Entry) (r : List Entry) : Prop :=
  (s.ctx c).eng.q = e :: r ∧ ∀ x ∈ r, x.eid ≠ e.eid

/-- A completion counter of a hart (R184). -/
def counter (s : State) (c n : Nat) : W64 := tget (s.ctx c).eng.cc n 0

/-- Memory after bytes `b` are written at key `k`. -/
def Written (s t : State) (k : Nat) (b : List Byte) : Prop :=
  ∀ a, readByte t.mem a = if k ≤ a ∧ a < k + b.length then b.getD (a - k) 0 else readByte s.mem a

/-- The n bytes of memory at a key. -/
def memBytes (s : State) (k n : Nat) : List Byte := (List.range n).map fun i => readByte s.mem (k + i)

/-- R202: n source bytes from place `o` of an entry, of which place 0 is at key `k`: those that were read ahead as they were then. -/
def sourceBytes (s : State) (e : Entry) (k o n : Nat) : List Byte :=
  (List.range n).map fun j => tget e.early (o + j) (readByte s.mem (k + o + j))

/-- The key of a word that a segment has still to write (R52, R59). -/
def lateKey (s : State) (w : LateWord) : Nat :=
  match w.ctx with
  | some m => localKey (s.ctx m).gcn w.addr
  | none => w.addr

/-- The words of bytes `b` at key `k`, in order: no two share an aligned word, none splits one. -/
def WordsAre (s : State) (l : List LateWord) (k : Nat) (b : List Byte) : Prop :=
  l.flatMap (·.bytes) = b ∧ l.flatMap (fun w => (List.range w.bytes.length).map (lateKey s w + ·)) = (List.range b.length).map (k + ·) ∧
  l.Pairwise (fun x y => lateKey s x / 8 ≠ lateKey s y / 8) ∧
  ∀ w ∈ l, w.bit = false ∧ w.bytes ≠ [] ∧ lateKey s w / 8 = (lateKey s w + w.bytes.length - 1) / 8

/-- A column without damage, not written or written under the bank's present key (R65, R68). -/
def Sound (s : State) (g col : Nat) : Prop :=
  tget (s.bank g).damage col [] = [] ∧ (tget (s.bank g).keys col 0 = 0 ∨ tget (s.bank g).keys col 0 = bankKey s g + 1)

/-- The ring of a handle. -/
def ring (s : State) (c k : Nat) : Ring := tget (s.ctx c).eng.rings k {}
/-- Filled slots and free slots of a ring (R187). -/
def filledOf (r : Ring) : Nat := (r.tail + 2 ^ 32 - r.head) % 2 ^ 32
def freeOf (r : Ring) : Nat := r.nslot - filledOf r
/-- The address of the slot at a position (R187). -/
def slotOf (r : Ring) (p : Nat) : W64 := BitVec.ofNat 64 (r.base + p % r.nslot * r.slotb)

/-- R321: the frame `f` that an access of hart `c` to an address reaches under a page entry: that of the page, but for a 64 KiB page of
DRAM a tile of which the hart's task has a version: its own, or for a tile outside its write set the one that it reads. -/
def FrameOf (s : State) (c asid va : Nat) (x : BitVec 128) (f : Nat) : Prop :=
  let names := fun (l : List (Nat × Nat)) (v : Nat) => l.find? (fun p => p.1 = va / 65536) = some (va / 65536, v)
  let none_ := fun (l : List (Nat × Nat)) => ∀ p ∈ l, p.1 ≠ va / 65536
  let written := fun (l : List (Nat × Nat)) => ∃ p ∈ l, p.1 ≤ va / 65536 ∧ va / 65536 < p.1 + p.2
  let small := pteBig x = false ∧ x.getLsbD 47 = false
  (f = pteBase x ∧ (¬small ∨ ∀ tid, (s.ctx c).task = some tid → (s.task tid).asid.toNat = asid →
    none_ (s.task tid).own ∧ (written (s.task tid).wr ∨ none_ (s.task tid).reads))) ∨
  (small ∧ ∃ tid v, (s.ctx c).task = some tid ∧ (s.task tid).asid.toNat = asid ∧ f = (s.version v).frame ∧
    (names (s.task tid).own v ∨ (none_ (s.task tid).own ∧ ¬written (s.task tid).wr ∧ names (s.task tid).reads v)))

/-- The words of slots `i` of a ring of hart `c`, from position `p` on (R187). -/
def slotWords (s : State) (c : Nat) (r : Ring) (p n : Nat) : List Nat :=
  (List.range n).flatMap fun i => wordsOf (localKey (s.ctx c).gcn (r.base + (p + i) % r.nslot * r.slotb)) r.slotb

/-- R253, R256: a queued AXMM or AXGANG of hart `h` names ring `k` in its shape record: from bit 0 on as its A ring, from bit 4 on as its C ring. -/
def HoldsRing (h : Ctx) (k lo : Nat) : Prop :=
  ∃ e ∈ h.eng.aq, ∃ n f p, (e.instr = .axmm n f p ∨ e.instr = .axgang n f p) ∧ bits (tget e.regs.s n.toNat {}).w1 lo 3 = k

/-- No queued array instruction holds ring `k` (R256). -/
def Unheld (h : Ctx) (k : Nat) : Prop := heldRing h k true = false ∧ heldRing h k false = false

end Sys2Proof.Claim

open Sys2Proof Sys2Proof.Machine Sys2Proof.Claim

/-- R179, R184, R203: CREAD reads a counter, CADD adds with Wrap64 and is a release at CORE scope (R204), CWAIT goes on once the counter has reached the value, else waits, and its
wait ends when it has; no poison is pending. -/
def Sys2Proof.Claim.CounterInstructions : Prop :=
  ∀ s c,
    let h := s.ctx c
    let n := fun (a : R5) => (getG h.regs a).toNat % 64
    (HartAlone s c → ∀ d a, ∃ t, exec (.cread d a) s = .next t ∧
      Retired c s t (nextPc h.regs (setG h.regs d (counter s c (n a))))) ∧
    (HartAlone s c → ∀ a b, ∃ t, exec (.cadd a b) s = .next t ∧ OnlyHart c (cover c 0 s) t ∧
      (∀ j, counter t c j = if j = n a then counter s c j + getG h.regs b else counter s c j) ∧
      { t.ctx c with eng := { (t.ctx c).eng with cc := h.eng.cc } } = retiredCtx h (nextPc h.regs h.regs)) ∧
    (HartAlone s c → h.eng.poison = none → ∀ a b,
      if (getG h.regs b).toNat ≤ (counter s c (n a)).toNat then
        ∃ t, exec (.cwait a b) s = .next t ∧ Retired c s t (nextPc h.regs h.regs)
      else exec (.cwait a b) s = .next (setWait c (.cwait (n a) (getG h.regs b)) s)) ∧
    (∀ j v, h.wait = .cwait j v → Live s c → h.armed = none → h.eng.poison = none → h.pendStores = [] →
      v.toNat ≤ (counter s c j).toNat →
      ∃ t, exec (.cwaitWake c) s = .next t ∧ Retired c s t (nextPc h.regs h.regs))

/-- R185 to R187: RINIT makes an empty ring in the scratchpad and empties its words' bits; RPUB publishes free slots, RCON consumes filled
ones, and the words of these slots become full and empty, RPUB being a release at CORE scope (R203, R204); RWF and RWE return the first filled and the first free slot, or wait, and the waits end when there are enough. RINIT waits
while a PUTM writes into a slot of the old ring: that is the model's choice (log entry 67). -/
def Sys2Proof.Claim.RingInstructions : Prop :=
  ∀ s c k, k < 8 →
    let h := s.ctx c
    let g := fun (a : R5) => (getG h.regs a).toNat
    let r := ring s c k
    let kk := BitVec.ofNat 5 k
    (HartAlone s c → Unheld h k → h.image = none → ∀ a b,
      let slotb := g b % 65536
      let nslot := g b / 65536 % 65536
      slotb % 8 = 0 → 8 ≤ slotb → slotb ≤ 8192 → 1 ≤ nslot → nslot ≤ 1024 → g a % 8 = 0 → g a + slotb * nslot ≤ 0x8000 →
      protOk h.csr.pw h.priv (g a) (slotb * nslot) { rd := true, w := true } = true →
      (∀ p ∈ h.eng.rings, p.1 ≠ k → p.2.valid = true →
        p.2.base + p.2.slotb * p.2.nslot ≤ g a ∨ g a + slotb * nslot ≤ p.2.base) →
      if slotWriting s c k then exec (.rinit kk a b) s = .next s
      else ∃ t, exec (.rinit kk a b) s = .next t ∧ { t with ctxs := s.ctxs, fe := s.fe } = s ∧ OtherHarts c s t ∧
          (t.ctx c).regs = nextPc h.regs h.regs ∧
          (∀ j, ring t c j = if j = k then
            { valid := true, base := g a, slotb := slotb, nslot := nslot, feed := (getG h.regs b).getLsbD 32, head := 0, tail := 0 }
            else ring s c j) ∧
          Bits s t (wordsOf (keyOf s c (getG h.regs a)) (slotb * nslot)) false) ∧
    (HartAlone s c → Unheld h k → r.valid = true → ∀ d b, g b ≤ r.nslot →
      (g b ≤ filledOf r → ∃ t, exec (.rwf d kk b) s = .next t ∧ Retired c s t (nextPc h.regs (setG h.regs d (slotOf r r.head)))) ∧
      (filledOf r < g b → exec (.rwf d kk b) s = .next (setWait c (.rwf d k (getG h.regs b)) s)) ∧
      (r.feed = false → g b ≤ freeOf r →
        ∃ t, exec (.rwe d kk b) s = .next t ∧ Retired c s t (nextPc h.regs (setG h.regs d (slotOf r r.tail)))) ∧
      (r.feed = false → freeOf r < g b → exec (.rwe d kk b) s = .next (setWait c (.rwe d k (getG h.regs b)) s))) ∧
    (HartAlone s c → Unheld h k → r.valid = true → h.image = none → ∀ b,
      (r.feed = false → g b ≤ freeOf r → ∃ t, exec (.rpub kk b) s = .next t ∧ t.mem = s.mem ∧ t.net = (cover c 0 s).net ∧ OtherHarts c s t ∧
        (t.ctx c).regs = nextPc h.regs h.regs ∧
        Bits s t (slotWords s c r r.tail (g b)) true ∧
        ∀ j, ring t c j = if j = k then { r with tail := (r.tail + g b) % 2 ^ 32 } else ring s c j) ∧
      (g b ≤ filledOf r → ∃ t, exec (.rcon kk b) s = .next t ∧ t.mem = s.mem ∧ OtherHarts c s t ∧
        (t.ctx c).regs = nextPc h.regs h.regs ∧
        Bits s t (slotWords s c r r.head (g b)) false ∧
        ∀ j, ring t c j = if j = k then { r with head := (r.head + g b) % 2 ^ 32 } else ring s c j)) ∧
    (∀ d n, Live s c → h.armed = none →
      (h.wait = .rwf d k n → n.toNat ≤ filledOf r →
        ∃ t, exec (.rwfWake c) s = .next t ∧ Retired c s t (nextPc h.regs (setG h.regs d (slotOf r r.head)))) ∧
      (h.wait = .rwe d k n → n.toNat ≤ freeOf r →
        ∃ t, exec (.rweWake c) s = .next t ∧ Retired c s t (nextPc h.regs (setG h.regs d (slotOf r r.tail)))))

/-- R188, R256: RINIT with a geometry out of range, a misaligned base or a ring that overlaps another valid one traps with RING_HANDLE, then one that does not lie in
scratchpad permitted RD and W with PROT_LOCAL, then one of a ring that a queued AXMM or AXGANG holds with RING_HANDLE; RWF, RWE, RPUB or RCON on a ring that is not
valid or with a count above what the form allows, RWE or RPUB on a feed ring or a held C ring, RCON on a held A ring trap with RING_HANDLE; TVALUE holds the ring number
in bits 63:32 and the low half of g[b], of PROT_LOCAL g[a]. -/
def Sys2Proof.Claim.RingHandleTraps : Prop :=
  ∀ s c k d b, HartAlone s c → k < 8 →
    let h := s.ctx c
    let n := (getG h.regs b).toNat
    let r := ring s c k
    let kk := BitVec.ofNat 5 k
    let v : W64 := BitVec.ofNat 64 (k * 2 ^ 32 + n % 2 ^ 32)
    let traps := fun i => exec i s = .next (exception c 0x11 v s)
    (r.valid = false ∨ r.nslot < n → traps (.rwf d kk b)) ∧
    (r.valid = false ∨ r.nslot < n ∨ r.feed = true ∨ HoldsRing h k 4 → traps (.rwe d kk b)) ∧
    (r.valid = false ∨ freeOf r < n ∨ r.feed = true ∨ HoldsRing h k 4 → traps (.rpub kk b)) ∧
    (r.valid = false ∨ filledOf r < n ∨ HoldsRing h k 0 → traps (.rcon kk b)) ∧
    ∀ a,
      let base := (getG h.regs a).toNat
      let slotb := n % 65536
      let nslot := n / 65536 % 65536
      let size := slotb * nslot
      let wrong := slotb % 8 ≠ 0 ∨ slotb < 8 ∨ 8192 < slotb ∨ nslot < 1 ∨ 1024 < nslot ∨ base % 8 ≠ 0 ∨
        ∃ p ∈ h.eng.rings, p.1 ≠ k ∧ p.2.valid = true ∧ base < p.2.base + p.2.slotb * p.2.nslot ∧ p.2.base < base + size
      let permitted := base + size ≤ 0x8000 ∧ protOk h.csr.pw h.priv base size { rd := true, w := true } = true
      (wrong → traps (.rinit kk a b)) ∧ (¬wrong → ¬permitted → exec (.rinit kk a b) s = .next (exception c 5 (getG h.regs a) s)) ∧
      (¬wrong → permitted → HoldsRing h k 0 ∨ HoldsRing h k 4 → traps (.rinit kk a b))

/-- R70, R174 to R178: PUT and GET (META with mode 1, of whole columns) whose operands pass take a queue entry and go on; with 16 entries
in the queue they wait at issue. -/
def Sys2Proof.Claim.PutGetIssue : Prop :=
  ∀ s c a b k, HartAlone s c →
    let h := s.ctx c
    let x := fun r => getG h.regs r
    let g := x k
    let span := if mode g = 1 then len g / 8 else len g
    mode g < 2 → (len g ≠ 0 → mode g = 1 → (x b).getLsbD 63 = false) →
    (len g = 0 → g.getLsbD 47 = true → (x b).getLsbD 63 = true → mode g = 0 ∧ FarOk s c (x b) 0 true) →
    ((len g ≠ 0 → localOk s h (x a).toNat span { rd := true } = true ∧ FarOk s c (x b) (len g) true) →
      (h.eng.q.length < 16 → ∃ t, exec (.put a b k) s = .next t ∧
        Queued c s t
        (if mode g = 1 then columnsOf (entryFor s c .metaPut (x a) (x b) g) else entryFor s c .put (x a) (x b) g)) ∧
      (16 ≤ h.eng.q.length → exec (.put a b k) s = .next s)) ∧
    ((len g ≠ 0 → localOk s h (x a).toNat span { w := true } = true ∧ lockedByte h (x a).toNat span = none ∧
        FarOk s c (x b) (len g) false) →
      (h.eng.q.length < 16 → ∃ t, exec (.get a b k) s = .next t ∧
        Queued c s t
        (if mode g = 1 then columnsOf (entryFor s c .metaGet (x a) (x b) g) else entryFor s c .get (x a) (x b) g)) ∧
      (16 ≤ h.eng.q.length → exec (.get a b k) s = .next s))

/-- R71, R174, R177, R178, R181, R183: PUTM and GETD, the same. -/
def Sys2Proof.Claim.PutmGetdIssue : Prop :=
  ∀ s c a b k, HartAlone s c →
    let h := s.ctx c
    let x := fun r => getG h.regs r
    let g := x k
    mode g = 0 →
    ((len g ≠ 0 → localOk s h (x a).toNat (len g) { rd := true } = true) → putmBad s c (x b) = false →
      (h.eng.q.length < 16 → ∃ t, exec (.putm a b k) s = .next t ∧
        Queued c s t { entryFor s c .putm (x a) (x b) g with dests := putmDests (x b) }) ∧
      (16 ≤ h.eng.q.length → exec (.putm a b k) s = .next s)) ∧
    ((len g ≠ 0 → FarOk s c (x b) (len g) false) →
      (len g = 0 → g.getLsbD 47 = true → (x b).getLsbD 63 = true → FarOk s c (x b) 0 true) →
      (len g ≠ 0 ∨ g.getLsbD 47 = true → dpatBad s c h.csr.dpat (len g) = false) →
      (h.eng.q.length < 16 → ∃ t, exec (.getd b k) s = .next t ∧
        Queued c s t { entryFor s c .getd 0 (x b) g with dpat := h.csr.dpat }) ∧
      (16 ≤ h.eng.q.length → exec (.getd b k) s = .next s))

/-- R307, R308: the memory-side adds at an aligned virtual address, the same. -/
def Sys2Proof.Claim.MemorySideAddIssue : Prop :=
  ∀ s c a b k, HartAlone s c →
    let h := s.ctx c
    let x := fun r => getG h.regs r
    let add := fun (n : Nat) (int : Bool) (l : List W32) => ({ eid := s.nextId, kind := .madd, far := x a, len := n
                                                               asid := h.csr.asid, vals := l, int := int, core := h.gcn } : Entry)
    (x a).toNat < 2 ^ 57 →
    ((x a).toNat % 4 = 0 → h.eng.q.length < 16 →
      (∃ t, exec (.maddF32 a b) s = .next t ∧ Queued c s t (add 4 false [(x b).truncate 32])) ∧
      (∃ t, exec (.maddI32 a b) s = .next t ∧ Queued c s t (add 4 true [(x b).truncate 32]))) ∧
    ((x a).toNat % 16 = 0 → h.eng.q.length < 16 →
      ∃ t, exec (.maddV4 a b k) s = .next t ∧ Queued c s t (add 16 false
        [(x b).truncate 32, (x b).extractLsb' 32 32, (x k).truncate 32, (x k).extractLsb' 32 32])) ∧
    (16 ≤ h.eng.q.length →
      ((x a).toNat % 4 = 0 → exec (.maddF32 a b) s = .next s ∧ exec (.maddI32 a b) s = .next s) ∧
      ((x a).toNat % 16 = 0 → exec (.maddV4 a b k) s = .next s))

/-- R177, R307: the exceptions of transfer issue in their order: a mode above 1 (above 0 for PUTM and GETD) is illegal; PROT_LOCAL for
the local end; RING_SLOT_BUSY for a get into a published slot; REMOTE_ACCESS for the far end, and for a META transfer with a global far
address; XFER_PATTERN with TVALUE DPAT for the list of PUTM and the pattern of GETD; MISALIGNED and REMOTE_ACCESS for the adds. -/
def Sys2Proof.Claim.TransferIssueTraps : Prop :=
  ∀ s c a b k, HartAlone s c →
    let h := s.ctx c
    let x := fun r => getG h.regs r
    let g := x k
    let span := if mode g = 1 then len g / 8 else len g
    (∀ i w, (2 ≤ mode g ∧ (i = .put a b k ∨ i = .get a b k)) ∨ (1 ≤ mode g ∧ (i = .putm a b k ∨ i = .getd b k)) →
      encode i = some w → exec i s = .next (exception c 1 (w.zeroExtend 64) s)) ∧
    (mode g < 2 → len g ≠ 0 → localOk s h (x a).toNat span { rd := true } = false →
      exec (.put a b k) s = .next (exception c 5 (x a) s)) ∧
    (mode g < 2 → len g ≠ 0 → localOk s h (x a).toNat span { w := true } = false →
      exec (.get a b k) s = .next (exception c 5 (x a) s)) ∧
    (mode g = 0 → len g ≠ 0 → localOk s h (x a).toNat (len g) { rd := true } = false →
      exec (.putm a b k) s = .next (exception c 5 (x a) s)) ∧
    (mode g < 2 → len g ≠ 0 → localOk s h (x a).toNat span { w := true } = true → ∀ y, lockedByte h (x a).toNat span = some y →
      exec (.get a b k) s = .next (exception c 0x10 (BitVec.ofNat 64 y) s)) ∧
    (mode g < 2 → len g ≠ 0 → localOk s h (x a).toNat span { rd := true } = true →
      ((mode g = 1 ∧ (x b).getLsbD 63 = true) ∨ ¬FarOk s c (x b) (len g) true) →
      exec (.put a b k) s = .next (exception c 6 (x b) s)) ∧
    (mode g < 2 → len g ≠ 0 → localOk s h (x a).toNat span { w := true } = true → lockedByte h (x a).toNat span = none →
      ((mode g = 1 ∧ (x b).getLsbD 63 = true) ∨ ¬FarOk s c (x b) (len g) false) →
      exec (.get a b k) s = .next (exception c 6 (x b) s)) ∧
    (mode g = 0 → len g ≠ 0 → ¬FarOk s c (x b) (len g) false → exec (.getd b k) s = .next (exception c 6 (x b) s)) ∧
    (mode g = 0 → len g = 0 → g.getLsbD 47 = true → (x b).getLsbD 63 = true → ¬FarOk s c (x b) 0 true →
      exec (.put a b k) s = .next (exception c 6 (x b) s) ∧ exec (.get a b k) s = .next (exception c 6 (x b) s) ∧
      exec (.getd b k) s = .next (exception c 6 (x b) s)) ∧
    (mode g = 0 → (len g ≠ 0 → localOk s h (x a).toNat (len g) { rd := true } = true) → putmBad s c (x b) = true →
      exec (.putm a b k) s = .next (exception c 0x13 h.csr.dpat s)) ∧
    (mode g = 0 → (len g ≠ 0 → FarOk s c (x b) (len g) false) →
      (len g = 0 → g.getLsbD 47 = true → (x b).getLsbD 63 = true → FarOk s c (x b) 0 true) →
      len g ≠ 0 ∨ g.getLsbD 47 = true → dpatBad s c h.csr.dpat (len g) = true →
      exec (.getd b k) s = .next (exception c 0x13 h.csr.dpat s)) ∧
    ((x a).toNat % 4 ≠ 0 → exec (.maddF32 a b) s = .next (exception c 4 (x a) s) ∧
      exec (.maddI32 a b) s = .next (exception c 4 (x a) s)) ∧
    ((x a).toNat % 16 ≠ 0 → exec (.maddV4 a b k) s = .next (exception c 4 (x a) s)) ∧
    (2 ^ 57 ≤ (x a).toNat →
      ((x a).toNat % 4 = 0 → exec (.maddF32 a b) s = .next (exception c 6 (x a) s) ∧
        exec (.maddI32 a b) s = .next (exception c 6 (x a) s)) ∧
      ((x a).toNat % 16 = 0 → exec (.maddV4 a b k) s = .next (exception c 6 (x a) s)))

/-- R176, R179, R331: the oldest PUT, of at most 4 KiB, to SRAM of another cluster moves its bytes from the local end (those read ahead as they were),
and fills the target's words; a GET the reverse: at its turn (R331), with no remote write that comes first on its way to its ends (R208). Completion
removes the entry and bumps the local counter; the far counter of a PUT with RCE is that of the hart on the target core. -/
def Sys2Proof.Claim.SramTransfers : Prop :=
  ∀ s c e r q o, Canonical s → Oldest s c e r → (s.ctx c).image = none → e.failed = none → e.pos = 0 → e.hold = [] → e.inFlight = [] →
    e.late = [] → e.bumped = false → s.choice.pick = 0 → 1 ≤ e.len → o % 32 + e.len ≤ 4096 → e.far.getLsbD 63 = true → e.loc.toNat + e.len ≤ 0x8000 →
    dmaTurn s c e = true → endsBusy s c e (.sram q o) e.len = false → cool s = true →
    let h := s.ctx c
    let near := keyOf s c e.loc
    (e.kind = .put → senderCheck s h e.far true false = .ok q none → receive (s.cluster q) (bits e.far 0 21) e.len 1 = some o →
      remoteLocked s q o e.len = false →
      ∃ t u, exec (.putgetSegment c e.eid) s = .next t ∧ Written s t (sramKey q o) (sourceBytes s e near 0 e.len) ∧
        Bits s t (wordsOf (sramKey q o) e.len) true ∧
        exec (.putgetComplete c e.eid) t = .next u ∧ (u.ctx c).eng.q = r ∧ u.mem = t.mem ∧
        (e.rce = false → ∀ j, counter u c j = if e.lce = true ∧ j = e.lcnt then counter s c j + 1 else counter s c j) ∧
        (e.rce = true → bits e.far 0 21 < 0x40000 → ∀ m, s.residentOn (q * 8 + bits e.far 0 21 / 0x8000) = some m → m ≠ c →
          counter u m e.rcnt = counter s m e.rcnt + 1)) ∧
    (e.kind = .get → senderCheck s h e.far false false = .ok q none → receive (s.cluster q) (bits e.far 0 21) e.len 0 = some o →
      ∃ t u, exec (.putgetSegment c e.eid) s = .next t ∧ Written s t near (sourceBytes s e (sramKey q o) 0 e.len) ∧
        Bits s t (wordsOf near e.len) true ∧
        exec (.putgetComplete c e.eid) t = .next u ∧ (u.ctx c).eng.q = r ∧ u.mem = t.mem ∧
        (e.rce = false → ∀ j, counter u c j = if e.lce = true ∧ j = e.lcnt then counter s c j + 1 else counter s c j))

/-- R66, R72, R321, R346, R347, R350: a part is translated by the cluster's TLB: with an entry that covers the whole transfer and grants
the access, the queue entry takes one piece, in the page's frame or that of the version that the hart's task has of the tile; where a
frame of it is retired the part is suspended (KIND 5); with no table of the partition in force it is suspended (KIND 1), unless the TLB
holds the page. No row is hot. -/
def Sys2Proof.Claim.PartTranslation : Prop :=
  ∀ s c e r, Oldest s c e r → e.failed = none → e.susp = none → e.xlated = 0 → e.part = [] → 1 ≤ e.len → e.len ≤ 0x10000 →
    (e.kind = .put ∨ e.kind = .get) → e.far.getLsbD 63 = false → cool s = true →
    let h := s.ctx c
    let hit := (s.cluster (h.gcn / 8)).tlb.find? fun x => x.asid = e.asid.toNat ∧ x.va ≤ e.far.toNat ∧ e.far.toNat < x.va + x.size
    let roomy := (s.part h.part).susp.length + (s.part h.part).fresume.length < 65535
    let suspended := fun (t : State) (kind : Nat) => ∃ fid, t.mem = s.mem ∧ e.lastFid ≠ some fid ∧
      (t.ctx c).eng.q = { e with started := true, susp := some fid, lastFid := some fid } :: r ∧
      (t.part h.part).susp = (s.part h.part).susp ++ [{ fid := fid, cid := c, eid := e.eid, kind := kind, off := 0, time := s.gtime }] ∧
      ∀ u ∈ (s.part h.part).susp, u.fid ≠ fid
    (∀ x f, hit = some x → x.pte.getLsbD (if e.kind = .put then 55 else 54) = true →
      e.far.toNat - pteVa x.pte + e.len ≤ pteSize x.pte → FrameOf s c e.asid.toNat e.far.toNat x.pte f →
      (x.pte.getLsbD 47 = true ∨ framesRetired s f (pteIl x.pte) (e.far.toNat - pteVa x.pte) e.len = false) →
      ∃ t, exec (.partTranslate c e.eid) s = .next t ∧ OnlyHart c s t ∧
        let host := x.pte.getLsbD 47
        (t.ctx c).eng.q = { e with
          started := true, xlated := e.len
          part := [{ off := 0, len := e.len, base := f, il := if host then 0 else pteIl x.pte
                     poff := e.far.toNat - pteVa x.pte, gr := if host then 3 else pteGr x.pte }] } :: r) ∧
    (∀ x f, hit = some x → x.pte.getLsbD (if e.kind = .put then 55 else 54) = true →
      e.far.toNat - pteVa x.pte + e.len ≤ pteSize x.pte → FrameOf s c e.asid.toNat e.far.toNat x.pte f →
      x.pte.getLsbD 47 = false → framesRetired s f (pteIl x.pte) (e.far.toNat - pteVa x.pte) e.len = true →
      roomy → ∃ t, exec (.partTranslate c e.eid) s = .next t ∧ suspended t 5) ∧
    (hit = none → (s.part h.part).ptcfg.getLsbD 63 = false → roomy →
      ∃ t, exec (.partTranslate c e.eid) s = .next t ∧ suspended t 1)

/-- R350 to R352: the fault record of a suspended part: four words in the partition's ring, word 0 with its validity, all full, and
EVENT 0x10 at the ring's hart, after the codes that wait there (the queue of codes is the model's choice: DEDUCED, log entry 33; that CORE is where the
hart is then, log entry 110). A write that a release at PACKAGE scope covers and that is on its way to the slot lands first (R204, R205). That FQCFG
describes a ring (1 to 2,048 slots, aligned, in shared memory) and VCN 0 is PRESENT is a premise (of other values log entry 72). RETRY
walks again from the split offset although the TLB holds the page: with a page entry that covers the rest the part is translated, with no
table in force it is suspended again (KIND 1) under a new FID. FAIL fails the entry at the split offset, which raises REMOTE_STORE and bumps the local
counter; EXHAUST, once the parts before are done, ends the task with status FRAME_EXHAUSTED (its FC flag, and what is cut from the entry, are the model's
choice, log entry 84). -/
def Obligations.FaultRecordsAndResume : Prop :=
  ∀ s p u e r, Canonical s → (s.part p).susp = [u] → Oldest s u.cid e r → u.eid = e.eid → e.failed = none → e.late = [] →
    let q := bits (tget (s.part p).map 0 0) 0 14
    let f := (s.part p).fqcfg
    let n := bits f 32 12
    let k := sramKey q (bits f 0 19 + 32 * ((s.part p).fslot % n))
    let va := e.far.toNat + e.xlated
    let own := (s.ctx u.cid).gcn / 8
    let retried := setEntry u.cid { e with susp := none } (dropPage own e.asid.toNat va
      (modPart p (fun t => { t with fresume := [], susp := [] }) s))
    (u.written = false → f.getLsbD 63 = true → 1 ≤ n → n ≤ 2048 → bits f 0 19 % 32 = 0 → inShared (s.cluster q) (bits f 0 19) (32 * n) = true →
      (tget (s.part p).map 0 0).getLsbD 63 = true → tget s.fe (k / 8) false = false →
      (coveredFirst s 3 q (k - sramKey q 0) 32 = true → exec (.faultRecordWrite p u.fid) s = .next s) ∧
      (coveredFirst s 3 q (k - sramKey q 0) 32 = false → ∃ t, exec (.faultRecordWrite p u.fid) s = .next t ∧
        Written s t k (bytesOf 8 (2 ^ 63 + u.kind * 2 ^ 52 + accOf e.kind * 2 ^ 48 + (s.ctx u.cid).gcn) ++
          bytesOf 8 (e.asid.toNat * 2 ^ 48 + u.fid * 2 ^ 32 + u.off) ++ bytesOf 8 (e.far.toNat + u.off) ++ bytesOf 8 u.time) ∧
        (∀ j, j < 4 → tget t.fe (k / 8 + j) false = true) ∧ (t.part p).susp = [{ u with written := true }] ∧
        ∀ x, s.residentOn (q * 8 + bits f 48 3) = some x →
          (t.ctx x).csr.event = true ∧ (t.ctx x).csr.eventCodes = (s.ctx x).csr.eventCodes ++ [0x10])) ∧
    ((s.part p).fresume = [(0, u.fid)] → (s.ctx u.cid).part = p → e.xlated < e.len → (e.kind = .put ∨ e.kind = .get) →
      cool s = true →
      (∀ x s2 b, walkBy (some ((s.ctx u.cid).gcn / 8)) p e.asid.toNat va retried = (.entry x, s2) → malformed s2 p x = false →
        x.getLsbD (if e.kind = .put then 55 else 54) = true → x.getLsbD 47 = false → va - pteVa x + (e.len - e.xlated) ≤ pteSize x →
        FrameOf s u.cid e.asid.toNat va x b → framesRetired s b (pteIl x) (va - pteVa x) (e.len - e.xlated) = false →
        ∃ t, exec (.fresumeRetry p u.fid) s = .next t ∧ (t.part p).susp = [] ∧ (t.ctx u.cid).eng.q = { e with
          started := true, susp := none, xlated := e.len
          part := e.part ++ [{ off := e.xlated, len := e.len - e.xlated, base := b, il := pteIl x, poff := va - pteVa x
                               gr := pteGr x }] } :: r) ∧
      ((s.part p).ptcfg.getLsbD 63 = false →
        ∃ t fid, exec (.fresumeRetry p u.fid) s = .next t ∧ t.mem = s.mem ∧ e.lastFid ≠ some fid ∧
          (t.ctx u.cid).eng.q = { e with started := true, susp := some fid, lastFid := some fid } :: r ∧
          (t.part p).susp = [{ fid := fid, cid := u.cid, eid := e.eid, kind := 1, off := e.xlated, time := s.gtime }])) ∧
    ((s.part p).fresume = [(1, u.fid)] → e.xlated ≤ e.pos → (s.ctx u.cid).exited = none →
      ∃ t v, exec (.fresumeFail p u.fid) s = .next t ∧ (t.part p).susp = [] ∧
        exec (.putgetFail u.cid e.eid) t = .next v ∧ (v.ctx u.cid).eng.q = r ∧
        (v.ctx u.cid).pendStores = (s.ctx u.cid).pendStores ++ [e.far + BitVec.ofNat 64 e.xlated] ∧
        (e.lce = true → counter v u.cid e.lcnt = counter s u.cid e.lcnt + 1) ∧ v.mem = s.mem) ∧
    ((s.part p).fresume = [(2, u.fid)] → e.xlated ≤ e.pos → ∀ tid, (s.ctx u.cid).task = some tid → (s.task tid).phase = .placed →
      ∃ t, exec (.fresumeExhaust p u.fid) s = .next t ∧ (t.part p).susp = [] ∧ (t.task tid).phase = .ending ∧
        (t.task tid).status = some 3 ∧ (t.task tid).flags.getLsbD 5 = true ∧
        ∀ m ∈ (s.task tid).members, (t.ctx m).exited.isSome = true)

/-- R181, R182, R331: a PUTM claims a slot of a feed ring of a member of its gang, first at that ring, at its turn: the slot
takes the next segment of the payload, of at most 4 KiB, once no remote write has to reach source or slot (R208); the last publishes it, and with RCE bumps the member's counter; no feed ring, or slots too small, fails the entry; with no slot free or out of turn it waits. Bytes of a source word that a segment's end splits are held (R202). -/
def Sys2Proof.Claim.PutmClaims : Prop :=
  ∀ s c e r d m, Canonical s → Oldest s c e r → e.kind = .putm → e.failed = none → e.dests = [d] → d.done = false → d.hold = [] → d.pos < e.len → e.late = [] → s.choice.pick = 0 →
    (s.ctx c).image = none → memberOn s c d.core = some m → m ≠ c → (s.ctx m).image = none → e.loc.toNat + e.len ≤ 0x8000 →
    let place := d.reached.getD s.nextId
    let e' := fun (x : PutmDest) => { e with started := true, dests := [{ x with reached := some place }] }
    let turn := dmaTurn (setEntry c (e' d) { s with nextId := if d.reached.isSome then s.nextId else s.nextId + 1 }) c (e' d)
    let n := min 4096 (e.len - d.pos)
    let at_ := e.loc.toNat + d.pos
    let more := if (at_ + n) % 8 = 0 then 0 else min (8 - (at_ + n) % 8) (e.len - (d.pos + n))
    let near := keyOf s c e.loc
    let last := decide (d.pos + n = e.len)
    let g := ring s m d.ring
    let k := localKey (s.ctx m).gcn (g.base + g.tail % g.nslot * g.slotb)
    let waits := fun (x : Entry) => ∃ t, exec (.putmSlotClaim c e.eid 0) s = .next t ∧
      { t with ctxs := s.ctxs, nextId := s.nextId } = s ∧ OtherHarts c s t ∧ (t.ctx c).eng.q = x :: r
    (g.valid = true → g.feed = true → e.len ≤ g.slotb → 1 ≤ freeOf g → g.base + g.slotb * g.nslot ≤ 0x8000 →
      claimsFirst s m d.ring place = false →
      spanBusy s c at_ (n + more) = false →
      writeFirst s c (pcnOf (s.ctx m).gcn) (localOfs (s.ctx m).gcn (g.base + g.tail % g.nslot * g.slotb + d.pos)) n false = false →
      turn = true →
      ∃ t, exec (.putmSlotClaim c e.eid 0) s = .next t ∧ Written s t (k + d.pos) (sourceBytes s e near d.pos n) ∧
        Bits s t (wordsOf (k + d.pos) n) true ∧ ring t m d.ring = (if last then { g with tail := (g.tail + 1) % 2 ^ 32 } else g) ∧
        (e.rce = true → counter t m e.rcnt = if last then counter s m e.rcnt + 1 else counter s m e.rcnt) ∧
        (t.ctx c).eng.q =
          { e' { d with claimed := true, pos := d.pos + n, hold := sourceBytes s e near (d.pos + n) more, done := last } with
            early := e.early.filter fun x => decide (d.pos + n + more ≤ x.1) } :: r) ∧
    ((g.valid = false ∨ g.feed = false ∨ g.slotb < e.len) → ∃ a, waits { e' d with failed := some a }) ∧
    (g.valid = true → g.feed = true → e.len ≤ g.slotb →
      freeOf g = 0 ∨ claimsFirst s m d.ring place = true ∨ turn = false → waits (e' d))

/-- R56, R178, R202, R331, R381: what segments of a PUT or GET write in SRAM may be left, and written a word at a time, in any order, once no write that must come first is on its way (R208), also after words of later segments and of other entries; a word written alone takes its full/empty bit later. Until then the entry stays. A source may be read ahead in any order. -/
def Sys2Proof.Claim.SegmentWords : Prop :=
  (∀ s c e r q o n, Canonical s → Oldest s c e r → (s.ctx c).image = none → e.failed = none → e.hold = [] → e.inFlight = [] → e.part = [] →
    e.len = e.pos + n → 1 ≤ n → (o + e.pos) % 32 + n ≤ 4096 → e.far.getLsbD 63 = true → e.loc.toNat + e.len ≤ 0x8000 →
    dmaTurn s c e = true → endsBusy s c e (.sram q (o + e.pos)) n = false → cool s = true →
    let h := s.ctx c
    let near := keyOf s c e.loc
    (e.kind = .put ∧ senderCheck s h e.far true false = .ok q none ∧ receive (s.cluster q) (bits e.far 0 21) e.len 1 = some o ∧ remoteLocked s q o e.len = false) ∨
      (e.kind = .get ∧ senderCheck s h e.far false false = .ok q none ∧ receive (s.cluster q) (bits e.far 0 21) e.len 0 = some o) →
    let from_ := if e.kind = .put then near else sramKey q o
    let into := if e.kind = .put then sramKey q o else near
    (s.choice.pick = 1 → ∃ t l, exec (.putgetSegment c e.eid) s = .next t ∧ t.mem = s.mem ∧ t.fe = s.fe ∧
      (t.ctx c).eng.q = { e with started := true, pos := e.len, early := e.early.filter fun x => decide (e.len ≤ x.1), late := e.late ++ l } :: r ∧
      WordsAre s l (into + e.pos) (sourceBytes s e from_ e.pos n)) ∧
    ∀ i,
      let a := if e.kind = .put then e.loc.toNat else o
      let b := a + e.pos
      let lo := max b ((b + i) / 8 * 8)
      let hi := min (a + e.len) (((b + i) / 8 + 1) * 8)
      s.choice.pick = 2 * i + 2 → i < n → (∀ x ∈ e.early, x.1 ≠ lo - a) →
      ∃ t e', exec (.putgetSegment c e.eid) s = .next t ∧ t.mem = s.mem ∧ t.fe = s.fe ∧ (t.ctx c).eng.q = e' :: r ∧
        { e' with early := e.early } = { e with started := true } ∧
        ∀ j d, tget e'.early j d = if lo - a ≤ j ∧ j < hi - a then readByte s.mem (from_ + j) else tget e.early j d) ∧
  (∀ s c e r i w, Canonical s → Oldest s c e r → e.late[i]? = some w → w.bytes ≠ [] → lateBusy s c w = false → cool s = true →
    (w.ctx = none → 0x1000000000000 ≤ w.addr) →
    (∀ m, w.ctx = some m → (s.ctx m).image = none ∧ w.addr + w.bytes.length ≤ 0x8000) →
    ∀ x, (x = .putgetSegment c e.eid ∧ e.kind ≠ .putm ∧ e.kind ≠ .madd) ∨
      (e.kind = .putm ∧ ∃ n, n < e.dests.length ∧ x = .putmSlotClaim c e.eid n) →
    let bits_ := fun t => Bits s t (wordsOf (lateKey s w) w.bytes.length) true
    let left := fun (t : State) l => (t.ctx c).eng.q = { e with late := l } :: r
    (s.choice.pick = 2 * i + 3 → w.bit = false →
      ∃ t, exec x s = .next t ∧ Written s t (lateKey s w) w.bytes ∧ t.fe = s.fe ∧ left t (e.late.set i { w with bit := true })) ∧
    (s.choice.pick = 2 * i + 3 → w.bit = true → ∃ t, exec x s = .next t ∧ t.mem = s.mem ∧ bits_ t ∧ left t (e.late.eraseIdx i)) ∧
    (s.choice.pick = 0 → e.late = [w] → w.bit = false →
      ∃ t, exec x s = .next t ∧ Written s t (lateKey s w) w.bytes ∧ bits_ t ∧ left t [])) ∧
  ∀ s c e r, Oldest s c e r → e.late ≠ [] → e.kind ≠ .putm → e.kind ≠ .madd →
    exec (.putgetComplete c e.eid) s = .next s ∧ exec (.putgetFail c e.eid) s = .next s ∧
    (∀ i w, s.choice.pick = 2 * i + 3 → e.late[i]? = some w → lateBusy s c w = true → exec (.putgetSegment c e.eid) s = .next s) ∧
    (s.choice.pick = 0 → cool s = true → (∀ w ∈ e.late, lateBusy s c w = false ∧ (w.ctx = none → 0x1000000000000 ≤ w.addr)) →
      ∃ t, exec (.putgetSegment c e.eid) s = .next t ∧ (t.ctx c).eng.q = { e with late := [] } :: r)

/-- R308 to R310, R312: the base die accepts the oldest translated add and frees its entry; it applies it, no earlier add of its core being
outstanding, its frame not retired meanwhile (of which log entry 71) and no row being hot (R330), as one read, add and write of the column; MFENCE goes on
once no add is pending, else waits, and the wait ends then. -/
def Obligations.MemorySideAdds : Prop :=
  (∀ s c e r, Oldest s c e r → e.kind = .madd → e.failed = none → e.part ≠ [] →
    ∃ t, exec (.maddAccept c e.eid) s = .next t ∧ OnlyHart c s t ∧ (t.ctx c).eng.q = r ∧
      (t.ctx c).eng.madds = (s.ctx c).eng.madds ++ [{ e with accepted := true }]) ∧
  (∀ s c e r p l, (s.ctx c).eng.madds = e :: r → e.part = p :: l →
    let k := pageToPhys p.poff p.base p.il
    let g := k / 0x800000
    let col := k % 0x800000 / 32
    (s.bank g).run = none → cool s = true → maddFirst s e = false → isRetired s g (k % 0x800000) = false →
    Sound s g col → k % 4 = 0 → k % 32 + 4 * e.vals.length ≤ 32 →
    ∃ t, exec (.maddApply c e.eid) s = .next t ∧ (t.ctx c).eng.madds = r ∧
      (∀ j, j < e.vals.length → memWord t (k + 4 * j) 4 =
        (let x : W32 := BitVec.ofNat 32 (memWord s (k + 4 * j) 4)
         let y := e.vals.getD j 0
         if e.int then (x + y).toNat
         else (faddV (fmtOf 9) 1 false (fdec (fmtOf 9) x.toNat) (fdec (fmtOf 9) y.toNat)).1 % 2 ^ 32)) ∧
      ∀ a, a < k ∨ k + 4 * e.vals.length ≤ a → readByte t.mem a = readByte s.mem a) ∧
  (∀ s c, HartAlone s c → (s.ctx c).eng.madds = [] → (∀ e ∈ (s.ctx c).eng.q, e.kind ≠ .madd) → (s.ctx c).pendStores = [] →
    ∃ t, exec .mfence s = .next t ∧ Retired c s t (nextPc (s.ctx c).regs (s.ctx c).regs)) ∧
  (∀ s c, HartAlone s c → ((s.ctx c).eng.madds ≠ [] ∨ ∃ e ∈ (s.ctx c).eng.q, e.kind = .madd) →
    exec .mfence s = .next (setWait c .mfence s)) ∧
  (∀ s c, (s.ctx c).wait = .mfence → Live s c → (s.ctx c).armed = none → (s.ctx c).eng.madds = [] →
    (∀ e ∈ (s.ctx c).eng.q, e.kind ≠ .madd) → (s.ctx c).pendStores = [] →
    ∃ t, exec (.mfenceWaitEnd c) s = .next t ∧ Retired c s t (nextPc (s.ctx c).regs (s.ctx c).regs))
namespace Sys2Proof.Claim
open Sys2Proof.Machine

/-! ### Instruction fetch (R55, R107) -/

/-- A hart that needs its instruction-cache line filled and takes no trap or interrupt at this boundary (R131); no row is hot
(R330). -/
structure Fetches (s : State) (c : Nat) : Prop where
  live : Live s c
  waits : (s.ctx c).wait = .none
  recorded : (s.ctx c).recorded = none
  posted : (s.ctx c).eng.posted = none
  stores : (s.ctx c).pendStores = []
  interrupt : takenInterrupt s (s.ctx c) = none
  cool : cool s = true
  missing : fetchWord (s.ctx c) (s.ctx c).regs.pc.toNat = none

/-! ### Marks (R214 to R236) -/

/-- R228: function code, destination, address register and operand of a mark instruction. -/
def markForm (r : Regs) : Instr → Option (Nat × R5 × R5 × W64)
  | .dep a b => some (1, 0, a, getG r b)
  | .depx a b => some (2, 0, a, getG r b)
  | .sns4 d a b => some (3, d, a, getG r b)
  | .sns8 d a b => some (4, d, a, getG r b)
  | .snsl d a => some (5, d, a, 0)
  | .mrd d a sel => if sel.toNat < 2 then some (6, d, a, BitVec.ofNat 64 sel.toNat) else none
  | _ => none

/-- A cluster whose mark space is at rest: no change of a field since its words stand as they do, no tick pending, no operation in
flight. -/
structure AtRest (s : State) (q : Nat) : Prop where
  next : (s.cluster q).mfcNext = []
  log : (s.cluster q).mfcLog = []
  ticks : (s.cluster q).ticks = []
  flight : ∀ p ∈ s.net, ∀ o, p.body ≠ .mark o

/-- R215, R217: a cell lies in the field that a configuration describes. -/
def InWord (v : W64) (cell : Nat) : Prop :=
  v.getLsbD 63 = true ∧ bits v 0 15 ≤ cell ∧ cell < bits v 0 15 + 2 ^ bits v 44 4 * 2 ^ bits v 40 4

/-- R215, R217: cell `cell` lies in field `n` of cluster `q`. -/
def Holds (s : State) (q n cell : Nat) : Prop := InWord (tget (s.cluster q).mfc n 0) cell

/-- R61, R216: mark space has at most 8 units, and every field lies inside it. -/
def Inside (s : State) (q : Nat) : Prop :=
  (s.cluster q).msize ≤ 8 ∧ ∀ n cell, n < 8 → Holds s q n cell → cell < (s.cluster q).msize * 4096

/-- R218: a core lies in the scope instance of a configuration of a cluster. -/
def InScope (v : W64) (q gcn : Nat) : Prop :=
  match bits v 61 2 with
  | 0 => gcn / 8 = q
  | 1 => gcn / 8 / 2048 = q / 2048
  | _ => True

/-- R224: a mark operation has left hart `c` for cluster `q`, and the hart waits for the answer; nothing else has changed. -/
structure MarkSent (c : Nat) (d : R5) (fn : Nat) (y ea : W64) (q ofs cell : Nat) (window : Bool) (s t : State) : Prop where
  device : { t with ctxs := s.ctxs, net := s.net, nextId := s.nextId, cores := s.cores } = s
  harts : OtherHarts c s t
  hart : t.ctx c = { s.ctx c with wait := .mark s.nextId d (decide (3 ≤ fn)) }
  cores : ∀ g, t.core g = if g = (s.ctx c).gcn then { s.core g with markSeq := (s.core g).markSeq + 1 } else s.core g
  number : t.nextId = s.nextId + 1
  net : t.net = s.net ++ [{
    id := s.nextId, cid := c, part := (s.ctx c).part, addr := ea, pcn := q, ofs := ofs
    body := .mark { id := s.nextId, cid := c, gcn := (s.ctx c).gcn, seq := (s.core (s.ctx c).gcn).markSeq, stamp := s.gtime
                    cell := cell, fn := fn, b := y, window := window } }]

/-- R216: fields share no cell. -/
def Apart (s : State) (q : Nat) : Prop := ∀ n m cell, n < 8 → m < 8 → Holds s q n cell → Holds s q m cell → n = m

/-- R61, R214: the memory key and the mark of a cell. -/
def cellAt (s : State) (q cell : Nat) : Nat := sramKey q (0x80000 - (s.cluster q).msize * 0x2000 + 2 * cell)
def mark (s : State) (q cell : Nat) : Nat := memWord s (cellAt s q cell) 2

/-- Only cells of cluster `q` that `f` names may differ, and each of these has the mark that `f` gives. -/
def Cells (s t : State) (q : Nat) (f : Nat → Option Nat) : Prop :=
  (∀ cell v, f cell = some v → memWord t (cellAt s q cell) 2 = v) ∧
    ∀ a, (∀ cell v, f cell = some v → a ≠ cellAt s q cell ∧ a ≠ cellAt s q cell + 1) → readByte t.mem a = readByte s.mem a

/-- R218: the horizon of a scope. -/
def horizonOf (v : W64) : Nat := match bits v 61 2 with | 0 => 64 | 1 => 1024 | _ => 4096

/-- R217: the coordinates of a neighbour: directions 0 to 7 are N, E, S, W, NE, SE, SW, NW. -/
def beside (v : W64) (cell dir : Nat) : Option Nat :=
  let i := cell - bits v 0 15
  let w := 2 ^ bits v 44 4
  let h := 2 ^ bits v 40 4
  let x : Int := (i % w : Nat) + [0, 1, 0, -1, 1, 1, -1, -1].getD dir 0
  let y : Int := (i / w : Nat) + [-1, 0, 1, 0, -1, 1, 1, -1].getD dir 0
  if v.getLsbD 60 = true ∧ (x < 0 ∨ (w : Int) ≤ x ∨ y < 0 ∨ (h : Int) ≤ y) then none
  else some (bits v 0 15 + (y % h).toNat * w + (x % w).toNat)

/-- R232: `v` is the strongest of the d neighbours of a cell, the directions taken from `r` on; ties keep the earlier one. -/
def Strongest (s : State) (q : Nat) (f : W64) (cell d r : Nat) (v : W64) : Prop :=
  (v = 0xF0000 ∧ ∀ j, j < d → beside f cell j = none) ∨
  ∃ j n, j < d ∧ beside f cell ((r + j) % d) = some n ∧ v = BitVec.ofNat 64 ((r + j) % d * 65536 + mark s q n) ∧
    ∀ k m, k < d → beside f cell ((r + k) % d) = some m → mark s q m < mark s q n ∨ (mark s q m = mark s q n ∧ j ≤ k)

/-- R220: a partition with one schedule, which has begun. -/
structure OneSchedule (s : State) (p i : Nat) : Prop where
  noOld : (s.part p).oldTk = []
  interval : (s.part p).tksi = i ∧ i ≠ 0
  begun : (s.part p).tksb ≤ s.gtime

/-- R220: its tick number. -/
def tickNo (s : State) (p : Nat) : Nat := (s.part p).tksn + (s.gtime - (s.part p).tksb) / (s.part p).tksi

end Sys2Proof.Claim

open Sys2Proof Sys2Proof.Machine Sys2Proof.Claim

/-- R55, R107, R196, R346: a fetch through a cached translation with execute permission, of a column without damage, fills the hart's line: its
next word is that of memory, and no GET of the cluster meets the column as it was any more (R196); with no table of the partition in force it traps with FETCH_PAGE, TVALUE the address. A line is one column (log entry 9). -/
def Obligations.InstructionFetch : Prop :=
  ∀ s c, Fetches s c →
    let h := s.ctx c
    let va := h.regs.pc.toNat
    let hit := (s.cluster (h.gcn / 8)).tlb.find? fun x => x.asid = h.csr.asid.toNat ∧ x.va ≤ va ∧ va < x.va + x.size
    (∀ x, hit = some x → x.pte.getLsbD 56 = true → x.pte.getLsbD 47 = false → pteVa x.pte ≤ va → pteVa x.pte % 32 = 0 →
      va % 4 = 0 →
      let o := va - pteVa x.pte
      let k := pageToPhys (o / 32 * 32) (pteBase x.pte) (pteIl x.pte)
      spanRetired s x.pte (o / 32 * 32) 32 = false → k < 0x10000000000 → k % 32 = 0 → Sound s (k / 0x800000) (k % 0x800000 / 32) →
      h.icache.length < 512 →
      ∃ t, exec (.instructionFetchFill c) s = .next t ∧ t.mem = s.mem ∧ OtherHarts c s t ∧
        { t.ctx c with icache := h.icache } = h ∧
        (∀ x, (t.bank (k / 0x800000)).before.find? (fun x => x.1 = k % 0x800000 / 32) = some x → h.gcn / 8 ∈ x.2.met) ∧
        fetchWord (t.ctx c) va = some (BitVec.ofNat 32 (memWord s (k + va % 32) 4))) ∧
    (hit = none → (s.part h.part).ptcfg.getLsbD 63 = false →
      exec (.instructionFetchFill c) s = .next (exception c 3 h.regs.pc s))

/-- R224, R228 to R234: a mark instruction leaves its core with GTIME as its stamp and the core's next issue number, for a local cell or
for the cluster of a global address that passes the sender's check, and the hart waits for the answer; an odd address is MISALIGNED, a
local one outside mark space PROT_LOCAL, one that fails the check REMOTE_ACCESS; MRD with a selector above 1 is illegal. -/
def Sys2Proof.Claim.MarkIssue : Prop :=
  ∀ s c, HartAlone s c →
    let h := s.ctx c
    let m := (s.cluster (h.gcn / 8)).msize
    (∀ i fn d a y, markForm h.regs i = some (fn, d, a, y) →
      let ea := getG h.regs a
      (ea.toNat % 2 = 0 → ea.getLsbD 63 = false → 0x100000 ≤ ea.toNat → ea.toNat + 2 ≤ 0x100000 + m * 0x2000 →
        ∃ t, exec i s = .next t ∧ MarkSent c d fn y ea (h.gcn / 8) ea.toNat ((ea.toNat - 0x100000) / 2) false s t) ∧
      (∀ q, ea.toNat % 2 = 0 → ea.getLsbD 63 = true → senderCheck s h ea (decide (fn ≤ 2)) true = .ok q none →
        ∃ t, exec i s = .next t ∧ MarkSent c d fn y ea q (bits ea 0 21) 0 true s t) ∧
      (ea.toNat % 2 = 0 → ea.getLsbD 63 = true → senderCheck s h ea (decide (fn ≤ 2)) true = .fail →
        exec i s = .next (exception c 6 ea s)) ∧
      (ea.toNat % 2 = 1 → exec i s = .next (exception c 4 ea s)) ∧
      (ea.toNat % 2 = 0 → ea.getLsbD 63 = false → (ea.toNat < 0x100000 ∨ 0x100000 + m * 0x2000 < ea.toNat + 2) →
        exec i s = .next (exception c 5 ea s))) ∧
    (∀ d a sel w, 2 ≤ sel.toNat → encode (.mrd d a sel) = some w → exec (.mrd d a sel) s = .next (exception c 1 (w.zeroExtend 64) s))

/-- R225, R229, R230: the home unit takes an operation whose cell lies in a field in whose scope the core lies, and rejects with
MARK_SCOPE one of a core outside it and one whose cell lies in no field; a deposit is answered on acceptance; the answer completes the hart's instruction, a rejection traps at its own address. -/
def Sys2Proof.Claim.MarkAcceptance : Prop :=
  ∀ s id p op, packet s id = some p →
    (p.body = .mark op → op.window = false → AtRest { s with net := [] } p.pcn →
      let cell := (p.ofs - 0x100000) / 2
      (∀ n, n < 8 → Apart s p.pcn → Holds s p.pcn n cell →
        (InScope (tget (s.cluster p.pcn).mfc n 0) p.pcn op.gcn →
          ∃ t due, exec (.markOpArrival id) s = .next t ∧ t.mem = s.mem ∧ t.ctxs = s.ctxs ∧
            (t.cluster p.pcn).held = (s.cluster p.pcn).held ++ [{ op with cell := cell }] ∧
            packet t id = if op.fn ≤ 2 then some { p with body := .markReply 0, due := due } else none) ∧
        (¬InScope (tget (s.cluster p.pcn).mfc n 0) p.pcn op.gcn →
          ∃ t due, exec (.markOpArrival id) s = .next t ∧ { t with net := s.net } = s ∧
            packet t id = some { p with body := .markReject 0x14, due := due })) ∧
      ((∀ n, n < 8 → ¬Holds s p.pcn n cell) →
        ∃ t due, exec (.markOpArrival id) s = .next t ∧ { t with net := s.net } = s ∧
          packet t id = some { p with body := .markReject 0x14, due := due })) ∧
    (∀ d w, (s.ctx p.cid).wait = .mark id d w → Live s p.cid → (s.ctx p.cid).armed = none →
      let h := s.ctx p.cid
      (∀ v, p.body = .markReply v → ∃ t, exec (.markReply id) s = .next t ∧ { t with ctxs := s.ctxs, net := s.net } = s ∧
        OtherHarts p.cid s t ∧ t.ctx p.cid = retiredCtx h (nextPc h.regs (if w then setG h.regs d v else h.regs))) ∧
      (∀ code, p.body = .markReject code →
        exec (.markReply id) s = .next (exception p.cid code p.addr { s with net := s.net.filter fun x => x.id ≠ id })))

/-- R8, R225, R231 to R234: the one held operation of a field takes effect once GTIME reaches its stamp plus the horizon: DEP adds with
saturation at 65,535, DEPX takes the maximum, SNS4 and SNS8 find the strongest neighbour, SNSL reads four cells of the row, MRD reads the
mark or the configuration. -/
def Sys2Proof.Claim.MarkOperations : Prop :=
  ∀ s q n op, n < 8 → AtRest s q → Apart s q → Inside s q → (s.cluster q).held = [op] → Holds s q n op.cell →
    let v := tget (s.cluster q).mfc n 0
    let m := mark s q op.cell
    op.stamp + horizonOf v ≤ s.gtime →
    (op.fn = 1 → ∃ t, exec (.markOpApply q n) s = .next t ∧ (t.cluster q).held = [] ∧ t.net = s.net ∧ t.ctxs = s.ctxs ∧
      Cells s t q fun c => if c = op.cell then some (min 65535 (m + op.b.toNat)) else none) ∧
    (op.fn = 2 → ∃ t, exec (.markOpApply q n) s = .next t ∧ (t.cluster q).held = [] ∧ t.net = s.net ∧ t.ctxs = s.ctxs ∧
      Cells s t q fun c => if c = op.cell then some (max m (min 65535 op.b.toNat)) else none) ∧
    (3 ≤ op.fn → op.fn ≤ 6 → ∃ t k x, exec (.markOpApply q n) s = .next t ∧ (t.cluster q).held = [] ∧ t.mem = s.mem ∧
      t.ctxs = s.ctxs ∧ t.net = s.net ++ [k] ∧ k.id = op.id ∧ k.cid = op.cid ∧ k.body = .markReply x ∧
      (op.fn = 3 → Strongest s q v op.cell 4 (op.b.toNat % 4) x) ∧ (op.fn = 4 → Strongest s q v op.cell 8 (op.b.toNat % 8) x) ∧
      (op.fn = 5 → ∀ j, j < 4 → bits x (16 * j) 16 =
        let w := 2 ^ bits v 44 4
        let i := op.cell - bits v 0 15
        if v.getLsbD 60 = true ∧ w ≤ i % w + j then 0 else mark s q (bits v 0 15 + i / w * w + (i % w + j) % w)) ∧
      (op.fn = 6 → op.b = 0 → x = BitVec.ofNat 64 m) ∧ (op.fn = 6 → op.b = 1 → x = v))

/-- R222, R223: a tick fades every cell of every valid field of every cluster that serves the partition by ceil(m × F / 256), no operation, change or
earlier tick standing before it; an accepted change of a field takes its place once GTIME reaches its cycle, its configuration being in
force from that cycle on, and cells of the old and the new field become 0 when place or validity change. R61, R216: the Arbiter's write of
MSIZE while no task is resident stores at most 8 and clears V of fields that no longer fit, from the next GTB cycle on (the cycle is the
model's choice, log entry 55). -/
def Sys2Proof.Claim.TicksAndConfiguration : Prop :=
  (∀ s p i, OneSchedule s p i → (s.part p).live = true →
    s.clusters.Pairwise (fun a b => a.1 < b.1) →
    (∀ q, serves (s.cluster q) = some p → AtRest s q ∧ (s.cluster q).held = [] ∧ Apart s q ∧ Inside s q) →
    (s.part p).tksn ≤ (s.part p).taken + 1 → (s.part p).tksb + ((s.part p).taken + 1 - (s.part p).tksn) * i ≤ s.gtime →
    ∃ t, exec (.tick p) s = .next t ∧ (t.part p).taken = (s.part p).taken + 1 ∧ t.ctxs = s.ctxs ∧ t.net = s.net ∧
      (∀ q n cell, serves (s.cluster q) = some p → n < 8 → Holds s q n cell → memWord t (cellAt s q cell) 2 =
        mark s q cell - (mark s q cell * bits (tget (s.cluster q).mfc n 0) 48 9 + 255) / 256) ∧
      ∀ a, (∀ q n cell, serves (s.cluster q) = some p → n < 8 → Holds s q n cell → a ≠ cellAt s q cell ∧ a ≠ cellAt s q cell + 1) →
        readByte t.mem a = readByte s.mem a) ∧
  (∀ s q k, (s.cluster q).mfcNext = [k] → (s.cluster q).mfcLog = [k] → (s.cluster q).ticks = [] → (s.cluster q).held = [] →
    (∀ p ∈ s.net, ∀ o, p.body ≠ .mark o) → (s.cluster q).msize ≤ 8 → k.e ≤ s.gtime →
    let old := tget (s.cluster q).mfc k.n 0
    ∃ t, exec (.markConfigEffect q k.n) s = .next t ∧ (t.cluster q).mfcNext = [] ∧ t.ctxs = s.ctxs ∧
      (∀ j u, mfcAt (t.cluster q) j u = if j = k.n ∧ k.e ≤ u then k.v else tget (s.cluster q).mfc j 0) ∧
      if old.getLsbD 63 = k.v.getLsbD 63 ∧ bits old 0 15 = bits k.v 0 15 ∧ bits old 40 8 = bits k.v 40 8 then t.mem = s.mem
      else ∀ cell, cell < (s.cluster q).msize * 4096 → (InWord old cell ∨ InWord k.v cell) → memWord t (cellAt s q cell) 2 = 0) ∧
  (∀ s q v, (∀ x ∈ s.ctxs, x.2.resident = true → x.2.gcn / 8 = q → x.2.task = none) → (∀ k ∈ (s.cluster q).mfcLog, k.e ≤ s.gtime) →
    ∃ t, exec (.msizeWrite q v) s = .next t ∧ { t with clusters := s.clusters } = s ∧ (∀ x, x ≠ q → t.cluster x = s.cluster x) ∧
      (t.cluster q).msize = min 8 (bits v 0 4) ∧
      ∀ n, n < 8 → let f := mfcAt (s.cluster q) n s.gtime
        (∀ u, u ≤ s.gtime → mfcAt (t.cluster q) n u = mfcAt (s.cluster q) n u) ∧
        ∀ cell, InWord (mfcAt (t.cluster q) n (s.gtime + 1)) cell ↔ InWord f cell ∧
          bits f 0 15 + 2 ^ bits f 44 4 * 2 ^ bits f 40 4 ≤ min 8 (bits v 0 4) * 4096)

/-- R220, R235, R236: TKNUM reads the tick number, the cycle of the next tick or the interval; TKWAIT goes on once the number has reached its
operand, else waits, and its wait ends when it has; TKNUM with a selector above 2 is illegal. -/
def Sys2Proof.Claim.TickInstructions : Prop :=
  ∀ s c i, OneSchedule s (s.ctx c).part i →
    let h := s.ctx c
    let p := s.part h.part
    let no := tickNo s h.part
    (HartAlone s c → ∀ d, (∃ t, exec (.tknum d 0) s = .next t ∧ Retired c s t (nextPc h.regs (setG h.regs d (BitVec.ofNat 64 no)))) ∧
      (∃ t, exec (.tknum d 1) s = .next t ∧ Retired c s t (nextPc h.regs
        (setG h.regs d (BitVec.ofNat 64 (p.tksb + ((s.gtime - p.tksb) / i + 1) * i))))) ∧
      ∃ t, exec (.tknum d 2) s = .next t ∧ Retired c s t (nextPc h.regs (setG h.regs d (BitVec.ofNat 64 i)))) ∧
    (HartAlone s c → ∀ a, if (getG h.regs a).toNat ≤ no then
        ∃ t, exec (.tkwait a) s = .next t ∧ Retired c s t (nextPc h.regs h.regs)
      else exec (.tkwait a) s = .next (setWait c (.tkwait (getG h.regs a)) s)) ∧
    (∀ v, h.wait = .tkwait v → Live s c → h.armed = none → v.toNat ≤ no →
      ∃ t, exec (.tkwaitWake c) s = .next t ∧ Retired c s t (nextPc h.regs h.regs)) ∧
    (HartAlone s c → ∀ d sel w, 3 ≤ sel.toNat → encode (.tknum d sel) = some w →
      exec (.tknum d sel) s = .next (exception c 1 (w.zeroExtend 64) s))
namespace Sys2Proof.Claim
open Sys2Proof.Machine

/-! ### Array instructions at issue (R246, R249) -/

/-- A field register of a hart. -/
def fieldReg (h : Ctx) (v : R5) : FieldReg := tget h.eng.arr.v v.toNat {}
/-- A shape record of a hart. -/
def shapeReg (h : Ctx) (n : R5) : Shape := tget h.eng.arr.s n.toNat {}
/-- A ring of a hart by number. -/
def ringReg (h : Ctx) (k : Nat) : Ring := tget h.eng.rings k {}

/-- R267: a destination field shares a column with a source field without being identical to it. -/
def Parted (d a : FieldReg) : Prop :=
  (∃ x, fStart d ≤ x ∧ x < fStart d + fWidth d ∧ fStart a ≤ x ∧ x < fStart a + fWidth a) ∧
    ¬(fStart d = fStart a ∧ fWidth d = fWidth a)

/-- R262: a shape record passes the checks. -/
def ShapeOk (x : Shape) : Prop :=
  bits x.w0 34 6 = 0 ∧ x.w0.getLsbD 23 = false ∧ 1 ≤ shM x ∧ 1 ≤ shN x ∧ shN x ≤ 64 ∧ 1 ≤ shK x ∧ shK x ≤ 512 ∧
    shKb x = (shK x + 31) / 32 ∧ shBase x + shKb x ≤ 16 ∧ (shA x, shB x, shC x) ∈ pairs ∧ x.w1 &&& ~~~0x77#64 = 0 ∧ shAk x ≠ shCk x

/-- R269: a matrix product of pair `p` with shape `sn` and scale `f`; `g`: of a gang. -/
def MatrixSuits (h : Ctx) (sn f p : R5) (g : Bool) : Prop :=
  let x := shapeReg h sn
  ShapeOk x ∧ pairs[p.toNat]? = some (shA x, shB x, shC x) ∧ shG x = g ∧ (ringReg h (shAk x)).valid = true ∧
    (ringReg h (shCk x)).valid = true ∧ (ringReg h (shCk x)).feed = false ∧
    shK x * (fmtWidth (shA x) / 8) ≤ (ringReg h (shAk x)).slotb ∧ shN x * (fmtWidth (shC x) / 8) ≤ (ringReg h (shCk x)).slotb ∧
    (∀ b, b < shKb x →
      let v := tget h.eng.arr.v (shBase x + b) {}
      fFmt v = shB x ∧ fWidth v = fmtWidth (shB x) ∧ fTile v = true ∧ fTn v = shN x ∧ fTk v = min 32 (shK x - 32 * b)) ∧
    (scaleOf (getF h.regs f).bits).isSome = true

/-- R265, R267, R269 to R275: the operands of a queued array instruction suit it. -/
def Suits (h : Ctx) : Instr → Prop
  | .axget .. | .axmatch .. | .axfirst .. | .axcount .. | .axpass .. => True
  | .axeAdd d a b f | .axeSub d a b f | .axeAddSat d a b f | .axeSubSat d a b f | .axeMin d a b f | .axeMax d a b f
  | .axeMul d a b f =>
    (∀ v ∈ [d, a, b], fWidth (fieldReg h v) = fmtWidth f.toNat) ∧ ∀ v ∈ [a, b], ¬Parted (fieldReg h d) (fieldReg h v)
  | .axeFma d a b => (∀ v ∈ [d, a, b], fWidth (fieldReg h v) = 32) ∧ ∀ v ∈ [a, b], ¬Parted (fieldReg h d) (fieldReg h v)
  | .axeCmpeq _ a b f | .axeCmplt _ a b f => ∀ v ∈ [a, b], fWidth (fieldReg h v) = fmtWidth f.toNat
  | .axeCvt d a f => fFmt (fieldReg h a) ≠ 0xE ∧ fWidth (fieldReg h a) = fmtWidth (fFmt (fieldReg h a)) ∧
    fWidth (fieldReg h d) = fmtWidth f.toNat ∧ ¬Parted (fieldReg h d) (fieldReg h a)
  | .axeAnd d a b | .axeOr d a b | .axeXor d a b | .axeSel d a b =>
    ∀ v ∈ [a, b], fWidth (fieldReg h v) = fWidth (fieldReg h d) ∧ ¬Parted (fieldReg h d) (fieldReg h v)
  | .axeNot d a | .axeMov d a | .axeShl d a _ | .axeShr d a _ | .axeSra d a _ =>
    fWidth (fieldReg h a) = fWidth (fieldReg h d) ∧ ¬Parted (fieldReg h d) (fieldReg h a)
  | .axmm n f p => MatrixSuits h n f p false
  | .axgang n f p => MatrixSuits h n f p true
  | .axmin _ v _ f | .axmax _ v _ f | .axsum _ v _ f => fWidth (fieldReg h v) = fmtWidth f.toNat
  | .axtag _ a o => o = 8 → bits (getG h.regs a) 32 12 ≤ 2048
  | .axld v a b | .axst v a b =>
    let w := fWidth (fieldReg h v)
    let g := getG h.regs b
    w ∈ [4, 8, 16, 32, 64, 128] ∧ 1 ≤ bits g 16 12 ∧ bits g 0 11 + bits g 16 12 ≤ 2048 ∧ g &&& ~~~0x0FFF07FF#64 = 0 ∧
      (getG h.regs a).toNat % (min 8 (max 1 (w / 8))) = 0
  | _ => False

/-- R246: the operands that a queued instruction captures: first and second g register, scale register. -/
def operands : Instr → R5 × R5 × R5
  | .axget _ a | .axtag _ a _ | .axpass a => (a, 0, 0)
  | .axmatch _ a b _ | .axld _ a b | .axst _ a b => (a, b, 0)
  | .axldf _ a b f | .axldg _ a b f => (a, b, f)
  | .axmm _ f _ | .axgang _ f _ => (0, 0, f)
  | _ => (0, 0, 0)

/-- The entry that an instruction makes, with the array registers `r` that it captures. -/
def entryOfArray (h : Ctx) (i : Instr) (r : ArrayRegs) : AEntry :=
  let o := operands i
  { instr := i, pc := h.regs.pc, ga := getG h.regs o.1, gb := getG h.regs o.2.1
    sigma := (scaleOf (getF h.regs o.2.2).bits).getD 0, regs := r, pw := h.csr.pw, priv := h.priv }

/-- The instruction has entered the array queue and retired; nothing else has changed but, for AXLDF and AXLDG, field registers. -/
def EnteredArray (c : Nat) (s t : State) (e : AEntry) : Prop :=
  OnlyHart c s t ∧ t.ctx c = { retiredCtx (s.ctx c) (nextPc (s.ctx c).regs (s.ctx c).regs) with
    eng := { (s.ctx c).eng with arr := e.regs, aq := (s.ctx c).eng.aq ++ [e] } }

/-- R276: a tile of K by N elements for field `v` at g[a] with scale f[f]. -/
def TileSuits (h : Ctx) (v a b f : R5) : Prop :=
  let x := fieldReg h v
  let g := getG h.regs b
  let p := (getG h.regs a).toNat
  fFmt x ∉ [0x2, 0x3, 0x5, 0x6] ∧ fWidth x = fmtWidth (fFmt x) ∧ 1 ≤ bits g 0 6 ∧ bits g 0 6 ≤ 32 ∧ 1 ≤ bits g 8 7 ∧
    bits g 8 7 ≤ 64 ∧ g &&& ~~~0x7F3F#64 = 0 ∧ p % (if fFmt x = 0xE then 2 else fmtWidth (fFmt x) / 8) = 0 ∧
    (fFmt x = 0xE → p + 32 ≤ 0x8000 ∧ protOk h.csr.pw h.priv p 32 { x := true } = true) ∧
    (scaleOf (getF h.regs f).bits).isSome = true

/-- The first condition of a list that holds gives `y`. -/
def First {α : Type} : List (Prop × α) → α → Prop
  | [], _ => False
  | (p, x) :: r, y => (p ∧ x = y) ∨ (¬p ∧ First r y)

/-- ARRAY_SHAPE with its reason and the register concerned (R249). -/
def shapeAt (reason reg : Nat) : Nat × W64 := (0x19, BitVec.ofNat 64 (reason + reg * 256))

/-- R269: the checks of AXMM and AXGANG. -/
def matrixChecks (h : Ctx) (sn f p : R5) (g : Bool) : List (Prop × Nat × W64) :=
  let x := shapeReg h sn
  let a := ringReg h (shAk x)
  let k := ringReg h (shCk x)
  let v := fun b => tget h.eng.arr.v (shBase x + b) {}
  let blocks := List.range (shKb x)
  [(¬ShapeOk x, shapeAt 3 sn.toNat), (pairs[p.toNat]? ≠ some (shA x, shB x, shC x) ∨ shG x ≠ g, shapeAt 4 sn.toNat),
    (a.valid = false, shapeAt 5 (shAk x)), (k.valid = false ∨ k.feed = true, shapeAt 5 (shCk x)),
    (a.slotb < shK x * (fmtWidth (shA x) / 8), shapeAt 5 (shAk x)), (k.slotb < shN x * (fmtWidth (shC x) / 8), shapeAt 5 (shCk x))] ++
  blocks.map (fun b => (fFmt (v b) ≠ shB x ∨ fWidth (v b) ≠ fmtWidth (shB x), shapeAt 1 (shBase x + b))) ++
  blocks.map (fun b => (fTile (v b) = false ∨ fTn (v b) ≠ shN x ∨ (b + 1 < shKb x ∧ fTk (v b) ≠ 32) ∨
    (b + 1 = shKb x ∧ fTk (v b) ≠ shK x - 32 * b), shapeAt 6 (shBase x + b))) ++
  [(scaleOf (getF h.regs f).bits = none, (0x18, (getF h.regs f).bits))]

/-- R265, R267, R269, R272 to R276: the checks of a queued array instruction at issue, in their order, each with its trap. -/
def issueChecks (h : Ctx) (i : Instr) : List (Prop × Nat × W64) :=
  let width := fun (n : Nat) (v : R5) => (fWidth (fieldReg h v) ≠ n, shapeAt 1 v.toNat)
  let parted := fun (d : R5) (l : List R5) => ((∃ v ∈ l, Parted (fieldReg h d) (fieldReg h v)), shapeAt 2 d.toNat)
  match i with
  | .axeAdd d a b f | .axeSub d a b f | .axeAddSat d a b f | .axeSubSat d a b f | .axeMin d a b f | .axeMax d a b f | .axeMul d a b f =>
    [d, a, b].map (width (fmtWidth f.toNat)) ++ [parted d [a, b]]
  | .axeFma d a b => [d, a, b].map (width 32) ++ [parted d [a, b]]
  | .axeCmpeq _ a b f | .axeCmplt _ a b f => [a, b].map (width (fmtWidth f.toNat))
  | .axeCvt d a f =>
    [(fFmt (fieldReg h a) = 0xE ∨ fWidth (fieldReg h a) ≠ fmtWidth (fFmt (fieldReg h a)), shapeAt 1 a.toNat), width (fmtWidth f.toNat) d, parted d [a]]
  | .axeAnd d a b | .axeOr d a b | .axeXor d a b | .axeSel d a b => [a, b].map (width (fWidth (fieldReg h d))) ++ [parted d [a, b]]
  | .axeNot d a | .axeMov d a | .axeShl d a _ | .axeShr d a _ | .axeSra d a _ => [width (fWidth (fieldReg h d)) a, parted d [a]]
  | .axmm n f p => matrixChecks h n f p false
  | .axgang n f p => matrixChecks h n f p true
  | .axmin _ v _ f | .axmax _ v _ f | .axsum _ v _ f => [width (fmtWidth f.toNat) v]
  | .axtag _ a o => [(o = 8 ∧ 2048 < bits (getG h.regs a) 32 12, shapeAt 3 a.toNat)]
  | .axld v a b | .axst v a b =>
    let w := fWidth (fieldReg h v)
    let g := getG h.regs b
    let p := getG h.regs a
    [(w ∉ [4, 8, 16, 32, 64, 128], shapeAt 1 v.toNat),
      (bits g 16 12 = 0 ∨ 2048 < bits g 0 11 + bits g 16 12 ∨ g &&& ~~~0x0FFF07FF#64 ≠ 0, shapeAt 3 b.toNat),
      (p.toNat % (min 8 (max 1 (w / 8))) ≠ 0, (4, p))]
  | .axldf v a b f | .axldg v a b f =>
    let x := fieldReg h v
    let g := getG h.regs b
    let p := getG h.regs a
    [(fFmt x ∈ [0x2, 0x3, 0x5, 0x6] ∨ fWidth x ≠ fmtWidth (fFmt x), shapeAt 1 v.toNat),
      (bits g 0 6 = 0 ∨ 32 < bits g 0 6 ∨ bits g 8 7 = 0 ∨ 64 < bits g 8 7 ∨ g &&& ~~~0x7F3F#64 ≠ 0, shapeAt 3 b.toNat),
      (p.toNat % (if fFmt x = 0xE then 2 else fmtWidth (fFmt x) / 8) ≠ 0, (4, p)),
      (fFmt x = 0xE ∧ (0x8000 < p.toNat + 32 ∨ protOk h.csr.pw h.priv p.toNat 32 { x := true } = false), (5, p)),
      (scaleOf (getF h.regs f).bits = none, (0x18, (getF h.regs f).bits))]
  | _ => []

/-- An instruction on array registers has retired and set them to `r`. -/
def SetArray (c : Nat) (s t : State) (r : ArrayRegs) : Prop :=
  OnlyHart c s t ∧ t.ctx c = { retiredCtx (s.ctx c) (nextPc (s.ctx c).regs (s.ctx c).regs) with eng := { (s.ctx c).eng with arr := r } }

/-- R264: the selectors of a user pass are valid. -/
def PassOk (p : W64) : Prop :=
  bits p 56 8 = 0 ∧ (∀ i, i < 4 → bits p (8 * i) 8 < 0x84 ∨ bits p (8 * i) 8 = 0xFF) ∧
    (∀ i ∈ [32, 40], bits p i 8 < 0x80 ∨ bits p i 8 = 0xFF) ∧ (0x80 ≤ bits p 48 8 ∧ bits p 48 8 ≤ 0x83 ∨ bits p 48 8 = 0xFF) ∧
    (bits p 32 8 = bits p 40 8 → bits p 32 8 = 0xFF)

/-! ### Array instructions as they execute (R237 to R279) -/

/-- The entry at the head of a resident hart's array queue. -/
def HeadOf (s : State) (c : Nat) (e : AEntry) (r : List AEntry) : Prop :=
  (s.ctx c).resident = true ∧ (s.ctx c).eng.aq = e :: r

/-- Row `r` and tag `t` of the array of hart `c`. -/
def rowOf (s : State) (c r : Nat) : BitVec 128 := tget (s.core (s.ctx c).gcn).rows r 0
def tagAt (s : State) (c t r : Nat) : Bool := (tget (s.core (s.ctx c).gcn).tags t 0).getLsbD r
/-- R240: the element of a field in a row. -/
def element (s : State) (c : Nat) (f : FieldReg) (r : Nat) : Nat := bits (rowOf s c r) (fStart f) (fWidth f)
/-- R238: the row is active. -/
def Active (s : State) (c r : Nat) : Prop := r < 2048 ∧ tagAt s c 0 r = true
/-- A field register as captured. -/
def fieldIn (e : AEntry) (v : R5) : FieldReg := tget e.regs.v v.toNat {}

/-- The head has left the queue; arrays, accounts and engine state of hart `c` may differ, and no byte of memory. -/
def LeftArray (c : Nat) (s t : State) (r : List AEntry) : Prop :=
  { t with ctxs := s.ctxs, cores := s.cores, owners := s.owners } = s ∧ OtherHarts c s t ∧ (t.ctx c).eng.aq = r ∧
    ∀ x, x ≠ (s.ctx c).gcn → t.core x = s.core x

/-- Tags of hart `c`'s core: tag `d` of rows in `f` takes the value that `f` gives, all others are as before. -/
def TagsAre (c d : Nat) (s t : State) (f : Nat → Option Bool) : Prop :=
  ∀ k r, r < 2048 → tagAt t c k r = if k = d then (f r).getD (tagAt s c k r) else tagAt s c k r

/-- Rows of hart `c`: the element of field `v` in rows in `f` takes the value that `f` gives; every other bit is as before. -/
def ElementsAre (c : Nat) (v : FieldReg) (s t : State) (f : Nat → Option Nat) : Prop :=
  ∀ r x, r < 2048 → x < 128 → (rowOf t c r).getLsbD x =
    match f r with
    | some y => if fStart v ≤ x ∧ x < fStart v + fWidth v then y.testBit (x - fStart v) else (rowOf s c r).getLsbD x
    | none => (rowOf s c r).getLsbD x

/-- R239, R261: the field registers of an array lie within its 128 columns. -/
def FieldsFit (r : ArrayRegs) : Prop := ∀ v, fStart (tget r.v v {}) + fWidth (tget r.v v {}) ≤ 128

/-- R265: destination and sources of a width-only form. -/
def widthForm : Instr → Option (R5 × List R5)
  | .axeAnd d a b | .axeOr d a b | .axeXor d a b | .axeSel d a b => some (d, [a, b])
  | .axeNot d a | .axeMov d a | .axeShl d a _ | .axeShr d a _ | .axeSra d a _ => some (d, [a])
  | _ => none

/-- R246, R261, R267: a queued array instruction suits the field registers that it has captured: they lie within the array, and the sources of
a width-only form have the width of its destination. -/
def Captured (e : AEntry) : Prop :=
  FieldsFit e.regs ∧ ∀ d l, widthForm e.instr = some (d, l) → ∀ v ∈ l, fWidth (fieldIn e v) = fWidth (fieldIn e d)

/-- R334: how many physical accumulator banks a context holds on its core, and how many a mask of logical banks needs. -/
def banksHeld (s : State) (c : Nat) : Nat :=
  ([0, 1].filter fun p => tget (s.core (s.ctx c).gcn).accBanks p none = some c).length
def banksNeeded (lb : BitVec 2) : Nat := if lb = 3 then 2 else if lb = 0 then 0 else 1

/-- R334: nothing of the cores differs but, on the core of hart `c`, who holds the physical accumulator banks: where `c` holds fewer than a mask
needs, it takes them. -/
def BanksTaken (s t : State) (c : Nat) (lb : BitVec 2) : Prop :=
  (∀ g, { t.core g with accBanks := (s.core g).accBanks } = s.core g) ∧ (∀ g, g ≠ (s.ctx c).gcn → t.core g = s.core g) ∧
    (banksNeeded lb ≤ banksHeld s c → t.cores = s.cores) ∧
    (banksHeld s c < banksNeeded lb → (t.ctx c).gcn = (s.ctx c).gcn → banksNeeded lb ≤ banksHeld t c)

/-- R265 forms that write a field or a tag. -/
def elementwise : Instr → Bool
  | .axeAdd .. | .axeSub .. | .axeAddSat .. | .axeSubSat .. | .axeMin .. | .axeMax .. | .axeMul .. | .axeFma .. | .axeCmpeq ..
  | .axeCmplt .. | .axeCvt .. | .axeAnd .. | .axeOr .. | .axeXor .. | .axeNot .. | .axeMov .. | .axeSel .. | .axeShl .. | .axeShr ..
  | .axeSra .. => true
  | _ => false

/-- R260 to R279: the array instructions. -/
def arrayOp : Instr → Bool
  | .axsetv .. | .axsets .. | .axget .. | .axtt .. | .axmm .. | .axgang .. | .axmatch .. | .axfirst .. | .axcount .. | .axmin .. | .axmax ..
  | .axsum .. | .axtag .. | .axld .. | .axst .. | .axldf .. | .axldg .. | .axlive .. | .axwait .. | .axpass .. => true
  | i => elementwise i

/-- R265, R266: what an elementwise instruction writes in a row. -/
def writes (s : State) (c : Nat) (e : AEntry) (r : Nat) : Option AxeOut :=
  axeOut e.instr (fun n => element s c (fieldIn e n) r) (fun n => fWidth (fieldIn e n)) (fun n => fFmt (fieldIn e n)) (tagAt s c 1 r)

/-- R34, R39: the integer of an element in an integer format. -/
def intOf (code x : Nat) : Int :=
  if code = 0 then (BitVec.ofNat 8 x).toInt else if code = 1 then (BitVec.ofNat 16 x).toInt
  else if code = 2 then (BitVec.ofNat 32 x).toInt else if code = 3 then (BitVec.ofNat 64 x).toInt
  else if code = 4 then (BitVec.ofNat 8 x).toNat else if code = 5 then (BitVec.ofNat 16 x).toNat else (BitVec.ofNat 32 x).toNat

/-- R34: the least and the greatest integer of an integer format. -/
def intLow (code : Nat) : Int := [-128, -32768, -2147483648, -9223372036854775808].getD code 0
def intHigh (code : Nat) : Int :=
  [127, 32767, 2147483647, 9223372036854775807, 255, 65535, 4294967295].getD code 0

/-- R265, R266, in integer arithmetic: destination, sources and new element of an integer or width-only elementwise form; `x` gives a
field's element, `n` its width, `t1` the row's tag t1. -/
def integerForm (x n : R5 → Nat) (t1 : Bool) : Instr → Option (R5 × List R5 × Int)
  | .axeAdd d a b f => some (d, [d, a, b], intOf f.toNat (x a) + intOf f.toNat (x b))
  | .axeSub d a b f => some (d, [d, a, b], intOf f.toNat (x a) - intOf f.toNat (x b))
  | .axeMul d a b f => some (d, [d, a, b], intOf f.toNat (x a) * intOf f.toNat (x b))
  | .axeAddSat d a b f =>
    some (d, [d, a, b], clamp (intLow f.toNat) (intHigh f.toNat) (intOf f.toNat (x a) + intOf f.toNat (x b)))
  | .axeSubSat d a b f =>
    some (d, [d, a, b], clamp (intLow f.toNat) (intHigh f.toNat) (intOf f.toNat (x a) - intOf f.toNat (x b)))
  | .axeMin d a b f => some (d, [d, a, b], min (intOf f.toNat (x a)) (intOf f.toNat (x b)))
  | .axeMax d a b f => some (d, [d, a, b], max (intOf f.toNat (x a)) (intOf f.toNat (x b)))
  | .axeAnd d a b => some (d, [], (x a &&& x b : Nat))
  | .axeOr d a b => some (d, [], (x a ||| x b : Nat))
  | .axeXor d a b => some (d, [], (x a ^^^ x b : Nat))
  | .axeNot d a => some (d, [], -1 - x a)
  | .axeMov d a => some (d, [], x a)
  | .axeSel d a b => some (d, [], if t1 then x a else x b)
  | .axeShl d a k => some (d, [], x a * 2 ^ k.toNat)
  | .axeShr d a k => some (d, [], (x a / 2 ^ k.toNat : Nat))
  | .axeSra d a k => some (d, [], (if (x a).testBit (n a - 1) then (x a : Int) - 2 ^ n a else x a) / 2 ^ k.toNat)
  | _ => none

/-- The format of an elementwise form that has one. -/
def formatOf : Instr → Nat
  | .axeAdd _ _ _ f | .axeSub _ _ _ f | .axeMul _ _ _ f | .axeAddSat _ _ _ f | .axeSubSat _ _ _ f | .axeMin _ _ _ f
  | .axeMax _ _ _ f => f.toNat
  | _ => 0

/-- R266, in rational arithmetic: the new value of an elementwise form on floating elements of values `x` (none: not finite). -/
def rationalForm (x : R5 → ℚ) : Instr → Option (R5 × List R5 × Nat × ℚ)
  | .axeAdd d a b f => some (d, [a, b], f.toNat, x a + x b)
  | .axeSub d a b f => some (d, [a, b], f.toNat, x a - x b)
  | .axeMul d a b f => some (d, [a, b], f.toNat, x a * x b)
  | .axeFma d a b => some (d, [d, a, b], 9, x a * x b + x d)
  | _ => none

/-- R45: zero or the value of a number that is not subnormal. -/
def NotSubnormal (f : Fmt) (q : ℚ) : Prop := q = 0 ∨ (2 : ℚ) ^ f.emin ≤ |q|

/-- R252, R276: element i of column j of the B tile of a one-block product, an integer: 0 outside the tile and in inactive rows. -/
def tileInt (s : State) (c : Nat) (e : AEntry) (i j : Nat) : Int :=
  let f := tget e.regs.v (shBase (mmShape e)) {}
  if i < fTk f ∧ j < fTn f ∧ tagAt s c 0 (32 * j + i) = true then intOf (shB (mmShape e)) (element s c f (32 * j + i)) else 0

/-- R273: the 32 rows of file `j`. -/
def fileRows (j : Nat) : List Nat := (List.range 32).map fun k => 32 * j + k

/-- R274: the new tag of a row. -/
def newTag (op : Nat) (g : W64) (x y old : Bool) (r : Nat) : Bool :=
  match op with
  | 0 => false
  | 1 => true
  | 2 => x
  | 3 => !x
  | 4 => x && y
  | 5 => x || y
  | 6 => x != y
  | 7 => x && !y
  | 8 => decide (bits g 16 11 ≤ r ∧ r < bits g 16 11 + bits g 32 12)
  | 9 => old || decide (r = bits g 16 11)
  | _ => old && !decide (r = bits g 16 11)

/-- R241: input i of the user pass in a row. -/
def passInput (s : State) (c : Nat) (e : AEntry) (r i : Nat) : Nat :=
  let x := bits e.regs.psel (8 * i) 8
  if x = 0xFF then 0
  else if 0x80 ≤ x then (tagAt s c (x - 0x80) r).toNat
  else ((rowOf s c r).getLsbD ((x + bits e.ga 0 7) % 128)).toNat

/-- R275: address, bytes and bit offset of element `e` of width w. -/
def placeOf (a w e : Nat) : Nat × Nat × Nat := if w = 4 then (a + e / 2, 1, 4 * (e % 2)) else (a + e * w / 8, w / 8, 0)

/-- R255: addresses of the next A slot and of the claimed C slot of a matrix product. -/
def slotsOfMm (s : State) (c : Nat) (e : AEntry) : Nat × Nat :=
  let x := mmShape e
  let ra := ring s c (shAk x)
  let rc := ring s c (shCk x)
  (ra.base + ra.head % ra.nslot * ra.slotb, rc.base + rc.tail % rc.nslot * rc.slotb)

/-- R204, R255, R258: a row of hart `c` can begin, no write that must come first being on its way to its slots, and passes its checks. -/
def RowReady (s : State) (c : Nat) (e : AEntry) : Prop :=
  let x := mmShape e
  e.rowDone = false ∧ 1 ≤ filledOf (ring s c (shAk x)) ∧ 1 ≤ freeOf (ring s c (shCk x)) ∧ shAk x ≠ shCk x ∧ mmFree s c e = true ∧
    arrayOk e (slotsOfMm s c e).1 (shK x * fmtBytes (shA x)) { x := true } = true ∧
    arrayOk e (slotsOfMm s c e).2 (shN x * fmtBytes (shC x)) { w := true } = true

/-- R255: a row of hart `c` has committed: the slots have moved, and the instruction goes on or completes. -/
def RowCommitted (s t : State) (c : Nat) (e : AEntry) (r : List AEntry) : Prop :=
  let x := mmShape e
  ring t c (shAk x) = { ring s c (shAk x) with head := ((ring s c (shAk x)).head + 1) % 2 ^ 32 } ∧
    ring t c (shCk x) = { ring s c (shCk x) with tail := ((ring s c (shCk x)).tail + 1) % 2 ^ 32 } ∧
    (t.ctx c).eng.aq = if e.row + 1 = shM x then r else { e with row := e.row + 1, rowDone := false } :: r

/-- Gang operations of one kind with equal parameters (R257). -/
def Alike (e f : AEntry) : Prop :=
  match e.instr, f.instr with
  | .axgang _ _ p, .axgang _ _ q => p = q ∧ (∀ k ∈ [(0, 16), (16, 7), (24, 10), (40, 4), (44, 4), (48, 4), (56, 5), (63, 1)],
      bits (mmShape e).w0 k.1 k.2 = bits (mmShape f).w0 k.1 k.2) ∧
      ∀ k ∈ [23, 34, 35, 36, 37, 38, 39], (mmShape e).w0.getLsbD k = (mmShape f).w0.getLsbD k
  | .axldg v _ _ _, .axldg w _ _ _ => { fieldIn e v with word := 0 } = { fieldIn f w with word := 0 } ∧
      (fieldIn e v).word &&& ~~~0x7F#64 = (fieldIn f w).word &&& ~~~0x7F#64
  | _, _ => False

end Sys2Proof.Claim

open Sys2Proof Sys2Proof.Machine Sys2Proof.Claim

/-- R246, R249, R265 to R279: a queued array instruction whose operands suit it enters the queue with the values it captures and retires; with 16
entries held it waits at issue. AXLDF and AXLDG record the tile in their field register (R276), with a codebook once no access that must come first is under way
to its bytes (R204, R248). -/
def Sys2Proof.Claim.ArrayIssue : Prop :=
  ∀ s c i, HartAlone s c → i.WellFormed →
    let h := s.ctx c
    (Suits h i →
      if h.eng.aq.length < 16 then ∃ t, exec i s = .next t ∧ EnteredArray c s t (entryOfArray h i h.eng.arr) else exec i s = .next s) ∧
    (∀ v a b f, (i = .axldf v a b f ∨ i = .axldg v a b f) → TileSuits h v a b f → h.eng.aq.length < 16 →
      (fFmt (fieldReg h v) = 0xE → localBusy s c (getG h.regs a).toNat 32 = false) →
      ∃ t r, exec i s = .next t ∧ EnteredArray c s t (entryOfArray h i r) ∧ { r with v := h.eng.arr.v } = h.eng.arr ∧
        (∀ k, k ≠ v.toNat → tget r.v k {} = tget h.eng.arr.v k {}) ∧
        let x := tget r.v v.toNat {}
        bits x.word 0 20 = bits (fieldReg h v).word 0 20 ∧ fTile x = true ∧ fTk x = bits (getG h.regs b) 0 6 ∧
          fTn x = bits (getG h.regs b) 8 7 ∧ x.sigma = (scaleOf (getF h.regs f).bits).getD 0 ∧
          (fFmt (fieldReg h v) = 0xE → ∀ k, k < 16 →
            x.codebook[k]? = some (BitVec.ofNat 16 (memWord s (keyOf s c (getG h.regs a) + 2 * k) 2))))

/-- R246, R261, R267, R276: the array instructions at issue keep what every queue entry and every field register of a hart has: captured field
registers that lie within the array and suit the instruction. -/
def Sys2Proof.Claim.ArrayCaptured : Prop :=
  ∀ s c i t, HartAlone s c → arrayOp i = true → FieldsFit (s.ctx c).eng.arr → (∀ e ∈ (s.ctx c).eng.aq, Captured e) →
    exec i s = .next t → FieldsFit (t.ctx c).eng.arr ∧ ∀ e ∈ (t.ctx c).eng.aq, Captured e

/-- R249, R265, R267 to R269, R272 to R276: of the checks of an array instruction at issue, in their order, the first that fails gives its trap: ARRAY_SHAPE, its
reason and the register concerned (1 a width or format, 2 a destination that partly overlaps a source, 3 a shape record or an operand out of range, 4 a pair or G, 5 a
ring, 6 a tile), MISALIGNED, PROT_LOCAL for a codebook, ARRAY_SCALE. Which of several registers that fail one check is named, and TVALUE of a scale
whose register holds no F64, are the model's choices (log entries 63, 91 and 112). -/
def Sys2Proof.Claim.ArrayShapeTraps : Prop :=
  ∀ s c i x, HartAlone s c → i.WellFormed → First (issueChecks (s.ctx c) i) x → exec i s = .next (exception c x.1 x.2 s)

/-- R250, R261, R262, R264, R277, R278, R334: AXSETV, AXSETS, AXTT and AXLIVE act at issue; the first three trap with ARRAY_SHAPE 3 where an operand is
out of range; AXLIVE takes physical accumulator banks where more become live than the hart holds; AXWAIT goes on once no more than g[a] instructions are queued, else waits, and takes a posted trap. -/
def Sys2Proof.Claim.ArrayRegisters : Prop :=
  ∀ s c, HartAlone s c →
    let h := s.ctx c
    let g := fun r => getG h.regs r
    let shape := fun (reg : R5) => exception c 0x19 (BitVec.ofNat 64 (3 + reg.toNat * 256)) s
    (∀ v a, (Instr.axsetv v a).WellFormed → bits (g a) 16 4 ≠ 7 → bits (g a) 16 4 ≠ 15 →
      if bits (g a) 20 44 = 0 ∧ (g a).getLsbD 15 = false ∧ (g a).getLsbD 7 = false ∧ bits (g a) 0 7 + bits (g a) 8 7 ≤ 127 then
        ∃ t r, exec (.axsetv v a) s = .next t ∧ SetArray c s t r ∧ { r with v := h.eng.arr.v } = h.eng.arr ∧
          ∀ k, tget r.v k {} = if k = v.toNat then { word := g a, sigma := 0, codebook := [] } else tget h.eng.arr.v k {}
      else exec (.axsetv v a) s = .next (shape a)) ∧
    (∀ n a b, (Instr.axsets n a b).WellFormed → (∀ k ∈ [40, 44, 48], bits (g a) k 4 ≠ 7 ∧ bits (g a) k 4 ≠ 15) →
      (ShapeOk { w0 := g a, w1 := g b } → ∃ t r, exec (.axsets n a b) s = .next t ∧ SetArray c s t r ∧ { r with s := h.eng.arr.s } = h.eng.arr ∧
        ∀ k, tget r.s k {} = if k = n.toNat then { w0 := g a, w1 := g b } else tget h.eng.arr.s k {}) ∧
      (¬ShapeOk { w0 := g a, w1 := g b } → ∃ x, (x = a ∨ x = b) ∧ exec (.axsets n a b) s = .next (shape x))) ∧
    (∀ a b, (PassOk (g b) → ∃ t, exec (.axtt a b) s = .next t ∧ SetArray c s t { h.eng.arr with ptab := g a, psel := g b }) ∧
      (¬PassOk (g b) → exec (.axtt a b) s = .next (shape b))) ∧
    (∀ a b n, n.toNat < 4 → ∃ t, exec (.axlive a b n) s = .next t ∧ { t with ctxs := s.ctxs, cores := s.cores } = s ∧ OtherHarts c s t ∧
      t.ctx c = { retiredCtx h (nextPc h.regs h.regs) with
        eng := { h.eng with arr := { h.eng.arr with lc := g b ++ g a, lb := n.truncate 2 } } } ∧ BanksTaken s t c (n.truncate 2)) ∧
    (h.eng.posted = none → ∀ a,
      if h.eng.aq.length ≤ (g a).toNat then ∃ t, exec (.axwait a) s = .next t ∧ Retired c s t (nextPc h.regs h.regs)
      else exec (.axwait a) s = .next (setWait c (.axwait (g a)) s)) ∧
    (∀ a code v, h.eng.posted = some (code, v) →
      exec (.axwait a) s = .next (exception c code v (modEng c (fun e => { e with posted := none }) s))) ∧
    (∀ t0 n, (t0.ctx c).wait = .axwait n → Live t0 c → (t0.ctx c).armed = none → (t0.ctx c).eng.posted = none →
      (t0.ctx c).eng.aq.length ≤ n.toNat →
      ∃ t, exec (.axwaitEnd c) t0 = .next t ∧ Retired c t0 t (nextPc (t0.ctx c).regs (t0.ctx c).regs))

/-- R238, R240, R265, R266: the elementwise instruction at the head of the queue writes its destination field, or its destination tag, in the active
rows and nothing else; then it leaves the queue. -/
def Sys2Proof.Claim.ArrayElementwise : Prop :=
  ∀ s c e r, HeadOf s c e r → elementwise e.instr = true →
    ∃ t, exec (.arrayInstrExecute c) s = .next t ∧ LeftArray c s t r ∧ (t.ctx c).regs = (s.ctx c).regs ∧
      ∀ d, (∀ k, Active s c k → ∃ x, writes s c e k = some (.field d x)) →
          TagsAre c 0 s t (fun _ => none) ∧
          ElementsAre c (fieldIn e d) s t (fun k => if k < 2048 ∧ tagAt s c 0 k = true then
            (match writes s c e k with | some (.field _ x) => some x | _ => none) else none)

/-- R265, R266: the integer and width-only elementwise forms in integer arithmetic, modulo the width of the destination field; AXE.ADD, SUB,
MUL and FMA on floating elements in rational arithmetic, where sources and exact result are not subnormal and the format represents the
result (R42, R45). Entries are as their issue leaves them (`Captured`). -/
def Sys2Proof.Claim.ArrayArithmetic : Prop :=
  (∀ s c e r d l, HeadOf s c e r → Captured e → isInt (formatOf e.instr) = true →
    let el := fun (k : Nat) => fun (v : R5) => element s c (fieldIn e v) k
    let n := fun (v : R5) => fWidth (fieldIn e v)
    let out := fun (k : Nat) => integerForm (el k) n (tagAt s c 1 k) e.instr
    (∃ x, out 0 = some (d, l, x)) → (∀ v ∈ l, n v = fmtWidth (formatOf e.instr)) →
    ∃ t, exec (.arrayInstrExecute c) s = .next t ∧ LeftArray c s t r ∧
      ElementsAre c (fieldIn e d) s t fun k => if tagAt s c 0 k = true then
        (out k).map fun x => (x.2.2 % (2 : Int) ^ n d).toNat else none) ∧
  (∀ s c e r k x d l f q, HeadOf s c e r → Captured e → isInt f = false → Active s c k → rationalForm x e.instr = some (d, l, f, q) →
    (∀ v, v = d ∨ v ∈ l → fWidth (fieldIn e v) = fmtWidth f) →
    (∀ v ∈ l, ratIn (fmtOf f) (element s c (fieldIn e v) k) = some (x v) ∧ NotSubnormal (fmtOf f) (x v)) →
    f = 9 ∨ f = 0xA ∨ f = 0xB → Represents (fmtOf f) q → NotSubnormal (fmtOf f) q →
    ∃ t, exec (.arrayInstrExecute c) s = .next t ∧ ratIn (fmtOf f) (element t c (fieldIn e d) k) = some q)

/-- R266, R270, R274, R241: compares and AXMATCH set a tag in the active rows, AXTAG in every row; AXPASS writes the columns and the tag that the
truth table gives, in the active rows. -/
def Sys2Proof.Claim.ArrayTagsAndPass : Prop :=
  ∀ s c e r, HeadOf s c e r → ∃ t, exec (.arrayInstrExecute c) s = .next t ∧
    (∀ d a b f, e.instr = .axeCmpeq d a b f ∨ e.instr = .axeCmplt d a b f → isInt f.toNat = true →
      LeftArray c s t r ∧ (∀ k, k < 2048 → rowOf t c k = rowOf s c k) ∧ TagsAre c d.toNat s t fun k =>
        let x := intVal f.toNat (element s c (fieldIn e a) k)
        let y := intVal f.toNat (element s c (fieldIn e b) k)
        if tagAt s c 0 k then some (if e.instr = .axeCmpeq d a b f then decide (x = y) else decide (x < y)) else none) ∧
    (∀ d a b v, e.instr = .axmatch d a b v →
      LeftArray c s t r ∧ (∀ k, k < 2048 → rowOf t c k = rowOf s c k) ∧ TagsAre c d.toNat s t fun k =>
        if tagAt s c 0 k then
          some (decide (element s c (fieldIn e v) k = (e.ga.toNat + e.gb.toNat * 2 ^ 64) % 2 ^ fWidth (fieldIn e v)))
        else none) ∧
    (∀ d a o, e.instr = .axtag d a o → o.toNat ≤ 10 →
      LeftArray c s t r ∧ (∀ k, k < 2048 → rowOf t c k = rowOf s c k) ∧ TagsAre c d.toNat s t fun k =>
        some (newTag o.toNat e.ga (tagAt s c (bits e.ga 0 2) k) (tagAt s c (bits e.ga 2 2) k) (tagAt s c d.toNat k) k)) ∧
    (∀ a, e.instr = .axpass a → PassOk e.regs.psel →
      LeftArray c s t r ∧ ∀ k, k < 2048 →
        let p := 8 * passInput s c e k 3 + 4 * passInput s c e k 2 + 2 * passInput s c e k 1 + passInput s c e k 0
        let on := tagAt s c 0 k = true ∧ e.regs.ptab.getLsbD (4 * p + 3) = true
        let col := fun lo => (bits e.regs.psel lo 8 + bits e.ga 0 7) % 128
        let used := fun lo => bits e.regs.psel lo 8 ≠ 0xFF
        (∀ x, x < 128 → (rowOf t c k).getLsbD x =
          if on ∧ used 32 ∧ x = col 32 then e.regs.ptab.getLsbD (4 * p)
          else if on ∧ used 40 ∧ x = col 40 then e.regs.ptab.getLsbD (4 * p + 1) else (rowOf s c k).getLsbD x) ∧
        ∀ j, tagAt t c j k = if on ∧ used 48 ∧ j = bits e.regs.psel 48 8 - 0x80 then e.regs.ptab.getLsbD (4 * p + 2) else tagAt s c j k)

/-- R247, R263, R271 to R273: results of the array: AXFIRST and AXCOUNT of the active rows with a tag, AXMIN and AXMAX with their tag, AXSUM of
integers with the file accumulators, whose bank the hart takes where it does not hold it (R334), AXGET of an engine register. -/
def Sys2Proof.Claim.ArrayResults : Prop :=
  (∀ s c e r, HeadOf s c e r → ∃ t, exec (.arrayInstrExecute c) s = .next t ∧
    let got := fun (d : R5) (v : W64) => LeftArray c s t r ∧ ∀ x, getG (t.ctx c).regs x = if x ≠ 0 ∧ x = d then v else getG (s.ctx c).regs x
    let same := t.cores = s.cores
    (∀ d k, e.instr = .axfirst d k → LeftArray c s t r ∧ same ∧ ∃ v, (t.ctx c).eng.aresults = (s.ctx c).eng.aresults ++ [(d, v)] ∧
      ((∀ x, ¬(Active s c x ∧ tagAt s c k.toNat x = true)) → v = BitVec.allOnes 64) ∧
      ∀ x, Active s c x → tagAt s c k.toNat x = true → (∀ y, y < x → ¬(Active s c y ∧ tagAt s c k.toNat y = true)) → v = BitVec.ofNat 64 x) ∧
    (∀ d k, e.instr = .axcount d k → LeftArray c s t r ∧ same ∧ (t.ctx c).eng.aresults = (s.ctx c).eng.aresults ++
      [(d, BitVec.ofNat 64 ((List.range 2048).countP fun x => tagAt s c 0 x && tagAt s c k.toNat x))]) ∧
    (∀ d v k f, (e.instr = .axmin d v k f ∨ e.instr = .axmax d v k f) →
      let el := fun x => intVal f.toNat (element s c (fieldIn e v) x)
      ((∀ x, ¬Active s c x) → got d 0 ∧ same) ∧
      ∀ x, Active s c x → (∀ y, Active s c y → if e.instr = .axmin d v k f then el x ≤ el y else el y ≤ el x) →
        got d (pat 64 (el x)) ∧ (∀ y, y < 2048 → rowOf t c y = rowOf s c y) ∧
        TagsAre c k.toNat s t fun y => if tagAt s c 0 y then some (decide (el y = el x)) else none) ∧
    (∀ d v b f, e.instr = .axsum d v b f → isInt f.toNat = true →
      let el := fun x => if tagAt s c 0 x then intVal f.toNat (element s c (fieldIn e v) x) else 0
      got d (pat 64 ((List.range 2048).map el).sum) ∧ BanksTaken s t c ((s.ctx c).eng.arr.lb ||| if b = 0 then 1 else 2) ∧
      ∀ j, j < 64 → tget (t.ctx c).eng.acc (b.toNat * 64 + j) 0 = pat 144 ((fileRows j).map el).sum) ∧
    (∀ d a, e.instr = .axget d a → got d (axgetValue e (s.ctx c).eng) ∧ same)) ∧
  (∀ s c d v r, (s.ctx c).eng.aresults = (d, v) :: r → ∃ t, exec (.arrayResultWrite c) s = .next t ∧ OnlyHart c s t ∧
    (t.ctx c).eng.aresults = r ∧ ∀ x, getG (t.ctx c).regs x = if x ≠ 0 ∧ x = d then v else getG (s.ctx c).regs x)

/-- R204, R248, R250, R275, R276: once no write that must come first is on its way to its bytes, AXLD and AXST move their next element, of an active row only; AXLDF, and AXLDG in a gang of one, write the next B row of a
tile into the active rows, zero outside the tile; an element or a row that fails its check, or an AXST into a published slot, stops the instruction: AFPC, AFROW, an empty queue, a posted
trap. That an event moves one element, or one B row, is the model's choice (DESIGN CHOICE, log entry 44). -/
def Obligations.ArrayTransfers : Prop :=
  ∀ s c e r, HeadOf s c e r →
    let key := fun a => localKey (s.ctx c).gcn a
    let next := fun (t : State) (last : Nat) => (t.ctx c).eng.aq = if e.row + 1 = last then r else { e with row := e.row + 1, rowDone := false } :: r
    let stops := fun (t : State) => { t with ctxs := s.ctxs, owners := s.owners } = s ∧ OtherHarts c s t
    (transferBusy s c e = true → exec (.arrayInstrExecute c) s = .next s) ∧
    (transferBusy s c e = false → ∃ t, exec (.arrayInstrExecute c) s = .next t ∧
    (∀ v a b, (e.instr = .axld v a b ∨ e.instr = .axst v a b) → fWidth (fieldIn e v) ∈ [4, 8, 16, 32, 64, 128] →
      let f := fieldIn e v
      let w := fWidth f
      let p := placeOf e.ga.toNat w e.row
      let k := bits e.gb 0 11 + e.row
      let st := decide (e.instr = .axst v a b)
      (arrayOk e p.1 p.2.1 { x := !st, w := st } = true → (st = true → lockedByte (s.ctx c) p.1 p.2.1 = none) → next t (bits e.gb 16 12) ∧
        (st = false → t.mem = s.mem ∧ ElementsAre c f s t fun j =>
          if j = k ∧ tagAt s c 0 k = true then some (memWord s (key p.1) p.2.1 / 2 ^ p.2.2 % 2 ^ w) else none) ∧
        (st = true → t.cores = s.cores ∧
          ∀ x, readByte t.mem x = if tagAt s c 0 k = true ∧ key p.1 ≤ x ∧ x < key p.1 + p.2.1 then
            (if w = 4 then BitVec.ofNat 8 ((readByte s.mem x).toNat - (readByte s.mem x).toNat / 2 ^ p.2.2 % 16 * 2 ^ p.2.2 +
              element s c f k * 2 ^ p.2.2)
            else BitVec.ofNat 8 (element s c f k / 256 ^ (x - key p.1)))
            else readByte s.mem x)) ∧
      (arrayOk e p.1 p.2.1 { x := !st, w := st } = false → stops t ∧ (t.ctx c).eng = { (s.ctx c).eng with
        afpc := e.pc, afrow := e.row, aq := [], posted := some (5, BitVec.ofNat 64 p.1) }) ∧
      (arrayOk e p.1 p.2.1 { x := !st, w := st } = true → st = true → lockedByte (s.ctx c) p.1 p.2.1 ≠ none →
        stops t ∧ (t.ctx c).eng = { (s.ctx c).eng with
          afpc := e.pc, afrow := e.row, aq := [], posted := some (0x10, BitVec.ofNat 64 p.1) })) ∧
    (∀ v a b f, (e.instr = .axldf v a b f ∨ (e.instr = .axldg v a b f ∧ gangSize s c = 1)) →
      let x := fieldIn e v
      let kk := bits e.gb 0 6
      let n := bits e.gb 8 7
      let span := tileSpan (fFmt x) e.ga.toNat n e.row
      (e.row < 32 → (e.row < kk → arrayOk e span.1 span.2 { x := true } = true) → next t 32 ∧ t.mem = s.mem ∧
        ElementsAre c x s t fun j => if j % 32 = e.row ∧ tagAt s c 0 j = true then
          some (if e.row < kk ∧ j / 32 < n then
            (let i := e.row * n + j / 32
             if fFmt x = 0xE then memWord s (key (e.ga.toNat + 32 + i / 2)) 1 / 2 ^ (4 * (i % 2)) % 16
             else memWord s (key (e.ga.toNat + i * fmtBytes (fFmt x))) (fmtBytes (fFmt x)))
            else 0) else none) ∧
      (e.row < kk → arrayOk e span.1 span.2 { x := true } = false → stops t ∧ (t.ctx c).eng.aq = [] ∧
        (t.ctx c).eng.posted = some (5, BitVec.ofNat 64 span.1) ∧ (t.ctx c).eng.afpc = e.pc ∧ (t.ctx c).eng.afrow = e.row ∧
        fTile (fieldReg (t.ctx c) v) = false)))

/-- R255, R257 to R259: a row of AXMM writes its C slot with the exact sums of the blocks, publishes it and consumes its A slot, either in the step that writes the C
slot or in a later one, as `State.choice` has it (R381): of one block of integers, without the old C, the scaled sum of the products, where F32
represents it; gang operations at
the head of every member's queue join; a row of AXGANG commits in every member; a row whose A slot fails its check commits nothing. -/
def Obligations.MatrixProducts : Prop :=
  (∀ s c e r n f p, HeadOf s c e r → e.instr = .axmm n f p → RowReady s c e → (s.ctx c).image = none →
    let x := mmShape e
    let k := localKey (s.ctx c).gcn (slotsOfMm s c e).2
    ∃ t, exec (.axmmRow c) s = .next t ∧
      (s.choice.later = false → RowCommitted s t c e r ∧
        ∀ w ∈ wordsOf (localKey (s.ctx c).gcn (slotsOfMm s c e).1) (ring s c (shAk x)).slotb, tget t.fe w false = false) ∧
      (s.choice.later = true → t.fe = s.fe ∧ (∀ j, ring t c j = ring s c j) ∧ (t.ctx c).eng.aq = { e with rowDone := true } :: r) ∧
      (∀ j, j < shN x → memWord t (k + j * fmtBytes (shC x)) (fmtBytes (shC x)) =
        (mmColumn s (s.ctx c) e j).1 % 256 ^ fmtBytes (shC x)) ∧
      ∀ a, a < k ∨ k + shN x * fmtBytes (shC x) ≤ a → readByte t.mem a = readByte s.mem a) ∧
  (∀ s c e r n f p, HeadOf s c e r → e.instr = .axmm n f p → e.rowDone = true → (s.ctx c).image = none →
    let x := mmShape e
    shAk x ≠ shCk x → ∃ t, exec (.axmmRow c) s = .next t ∧ RowCommitted s t c e r ∧ t.mem = s.mem ∧
      ∀ w ∈ wordsOf (localKey (s.ctx c).gcn (slotsOfMm s c e).1) (ring s c (shAk x)).slotb, tget t.fe w false = false) ∧
  (∀ s c e r n f p, HeadOf s c e r → e.instr = .axmm n f p → RowReady s c e → (s.ctx c).image = none →
    let x := mmShape e
    let k := fun (a : Nat) => localKey (s.ctx c).gcn a
    let scale := e.sigma + (tget e.regs.v (shBase x) {}).sigma
    isInt (shA x) = true → isInt (shB x) = true → shC x = 9 → shKb x = 1 → shK x ≤ 32 → shAcc x = false → -100 ≤ scale → scale ≤ 100 →
    ∃ t, exec (.axmmRow c) s = .next t ∧ ∀ j, j < shN x → j < 64 →
      let a := fun (i : Nat) => intOf (shA x) (memWord s (k ((slotsOfMm s c e).1 + i * fmtBytes (shA x))) (fmtBytes (shA x)))
      let sum := ((List.range (shK x)).map fun i => a i * tileInt s c e i j).sum
      tget (t.ctx c).eng.acc (shBank x * 64 + j) 0 = pat 144 sum ∧
      (|sum| ≤ 2 ^ 24 → ratIn (fmtOf 9) (memWord t (k ((slotsOfMm s c e).2 + j * 4)) 4) = some (sum * (2 : ℚ) ^ scale))) ∧
  (∀ s c e r n f p, HeadOf s c e r → e.instr = .axmm n f p → e.rowDone = false →
    let x := mmShape e
    1 ≤ filledOf (ring s c (shAk x)) → 1 ≤ freeOf (ring s c (shCk x)) → mmFree s c e = true →
    arrayOk e (slotsOfMm s c e).1 (shK x * fmtBytes (shA x)) { x := true } = false →
    ∃ t, exec (.axmmRow c) s = .next t ∧ OnlyHart c s t ∧ (t.ctx c).eng = { (s.ctx c).eng with
      afpc := e.pc, afrow := e.row, aq := [], posted := some (5, BitVec.ofNat 64 (slotsOfMm s c e).1) }) ∧
  (∀ s k e0, 2 ≤ (s.task k).members.length → (s.task k).members.Nodup →
    (∀ m ∈ (s.task k).members, (s.ctx m).exited = none ∧ ∃ e r, HeadOf s m e r ∧ e.joined = false ∧ isGangOp e.instr = true ∧ Alike e e0) →
    ∃ t, exec (.gangOpJoin k) s = .next t ∧ { t with ctxs := s.ctxs } = s ∧
      ∀ m ∈ (s.task k).members, ∀ e r, (s.ctx m).eng.aq = e :: r → (t.ctx m).eng.aq = { e with joined := true } :: r) ∧
  (∀ s k, (s.task k).members ≠ [] → (s.task k).members.Nodup →
    (∀ m ∈ (s.task k).members, (s.ctx m).image = none ∧ ∃ e r n f p, HeadOf s m e r ∧ e.joined = true ∧ e.instr = .axgang n f p ∧ RowReady s m e) →
    ∃ t, exec (.axgangRow k) s = .next t ∧ ∀ m ∈ (s.task k).members, ∀ e r, (s.ctx m).eng.aq = e :: r →
      (s.choice.later = false → RowCommitted s t m e r) ∧ (s.choice.later = true → (t.ctx m).eng.aq = { e with rowDone := true } :: r))
namespace Sys2Proof.Claim
open Sys2Proof.Machine

/-! ### Bank commands (R289 to R302) -/

/-- A bank instruction of hart `c` on a core of a cluster that is not lent (R315). -/
structure BankHart (s : State) (c : Nat) : Prop extends HartAlone s c where
  ownBank : (s.cluster ((s.ctx c).gcn / 8)).lent = none

/-- R290: a command has entered the hart's bank queue: the hart has retired, or waits (BKMETA). -/
def Commanded (c : Nat) (s t : State) (k : BCmd) (waits : Bool) : Prop :=
  OnlyHart c s t ∧ t.ctx c = { (if waits then { s.ctx c with wait := .bkmeta } else retiredCtx (s.ctx c) (nextPc (s.ctx c).regs (s.ctx c).regs)) with
    eng := { (s.ctx c).eng with bq := (s.ctx c).eng.bq ++ [k] } }

/-- R290: the command at the head of hart `c`'s bank queue, with no other command of its bank running. -/
structure BankTurn (s : State) (c : Nat) (k : BCmd) (r : List BCmd) : Prop where
  head : (s.ctx c).eng.bq = k :: r
  idle : (s.bank (s.ctx c).gcn).run = none
  alone : ∀ x ∈ s.ctxs, x.1 ≠ c → x.2.gcn = (s.ctx c).gcn → ∀ q l, x.2.eng.bq = q :: l → q.started = false

/-- R299: BKFENCE still waits. -/
def FenceWaits (h : Ctx) : Prop := h.eng.bq ≠ [] ∨ ∃ e ∈ h.eng.q, e.far.getLsbD 63 = false ∧ e.kind ≠ .putm ∧ e.kind ≠ .madd

/-- R291: the counter of a completed command. -/
def Bumped (s t : State) (c : Nat) (k : BCmd) : Prop :=
  ∀ j, counter t c j = if k.ce = true ∧ j = k.cnt then counter s c j + 1 else counter s c j

/-- R292: the pending poison after a command of KIND `kind` that read an uncorrectable column at `psn`, with the counters of hart `c` that the
command bumps, as they were; `second`: the counter besides its own. -/
def poisonAfter (s : State) (c : Nat) (k : BCmd) (kind : Nat) (psn second : Option Nat) : Option Poison :=
  match (s.ctx c).eng.poison, psn with
  | some p, _ => some p
  | none, none => none
  | none, some o => some { tvalue := BitVec.ofNat 64 (kind * 2 ^ 24 + o % 2 ^ 23), counter := if k.ce then some (k.cnt, counter s c k.cnt) else none
                           second := second.map fun n => (n, counter s c n) }

/-- R301: the metadata bits of a column's grade, and the metadata that a read delivers. -/
def metaMask (s : State) (g col : Nat) : BitVec 28 :=
  match tget (s.bank g).grades (col / 32) 0 with | 0 => 0 | 1 => 0x3FFF | _ => 0xFFFFFFF
def metaAt (s : State) (g col : Nat) : BitVec 28 := tget (s.bank g).mdata col 0 &&& metaMask s g col

/-- R301: metadata after an exchange of value `v` under mask `k`. -/
def Exchanged (s t : State) (g col : Nat) (v k : BitVec 28) : Prop :=
  let m := k &&& metaMask s g col
  metaAt t g col = (metaAt s g col &&& ~~~m) ||| (v &&& m)

/-! ### Columns and lanes of a bank arithmetic unit (R285, R288, R303 to R306) -/

/-- R285, R289, R330: a column access of the unit of bank `g` at offset `o` proceeds. -/
structure ColumnGoes (s : State) (g o : Nat) : Prop where
  aligned : o % 32 = 0
  inBank : o < 0x780000
  present : o / 0x10000 ∉ (s.bank g).retired
  slot : (s.bank g).slot = true
  cool : cool s = true
  sound : Sound s g (o / 32)

/-- What every column access leaves: the PC advances, code and data memory stay; only bank, accounts and memory may differ. -/
def ColumnDone (g : Nat) (s t : State) : Prop :=
  { t with banks := s.banks, owners := s.owners, mem := s.mem } = s ∧ (∀ x, x ≠ g → t.bank x = s.bank x) ∧
    (t.bank g).pc = (s.bank g).pc + 4 ∧ (t.bank g).code = (s.bank g).code ∧ (t.bank g).data = (s.bank g).data

/-- R293, R294: what hart `c`'s bank commands have written is marked as performed: its own puts and gets no longer meet it as it was before. -/
def Fenced (c : Nat) (s t : State) : Prop := ∀ g, t.bank g = { s.bank g with
  before := (s.bank g).before.map fun x => (x.1, if x.2.cid = c then { x.2 with fenced := true } else x.2) }

/-- R196, R204, R208, R293: an entry of hart `c`, which had completed acquires of these cycles, by scope, when it issued, may come before the write that has
replaced `x`: one that the DMA engine of its cluster has neither made nor met; of its own bank commands one that no BKFENCE has followed, of another hart one of which it has acquired no release: none whose instance
holds it is followed by an acquire whose instance holds the releasing hart. -/
def Precedes (s : State) (c : Nat) (acquired : Tbl Nat) (x : Before) : Prop :=
  (s.ctx c).gcn / 8 ∉ x.met ∧ if x.cid = c then x.fenced = false
  else ∀ r ∈ x.cover, together s r.hart c r.scope → ∀ z ∈ acquired, together s c r.hart z.1 → z.2 < r.cycle

/-- A lane register and its poison bits. -/
def lane (b : Bank) (n : R5) : BitVec 256 := tget b.lanes n.toNat 0
def lanePoison (b : Bank) (n : R5) : BitVec 16 := tget b.lpoison n.toNat 0

/-- R288: byte `i` of a lane as it is stored. -/
def storedByte (b : Bank) (n : R5) (i : Nat) : Byte :=
  if (lanePoison b n).getLsbD (i / 2) then (if i % 2 = 0 then 0x5A else 0x7E) else (lane b n).extractLsb' (8 * i) 8

/-- Lane `d` is all that has changed in the unit but its PC. -/
def LaneRan (g : Nat) (d : R5) (s t : State) : Prop :=
  OnlyBank g s t ∧ { t.bank g with lanes := (s.bank g).lanes, lpoison := (s.bank g).lpoison } = { s.bank g with pc := (s.bank g).pc + 4 } ∧
    ∀ n : R5, n ≠ d → lane (t.bank g) n = lane (s.bank g) n ∧ lanePoison (t.bank g) n = lanePoison (s.bank g) n

/-- R304: element `e` of n bits of a lane. -/
def laneElement (b : Bank) (n : Nat) (x : R5) (e : Nat) : Nat := bits (lane b x) (n * e) n
/-- R288: the element of n bits is poisoned by bits `p`. -/
def hurt (n : Nat) (p : BitVec 16) (e : Nat) : Bool :=
  (List.range 16).any fun q => p.getLsbD q && decide (q * 16 < n * (e + 1)) && decide (n * e < q * 16 + 16)

/-- R304, R305: the elementwise LANE forms: destination, sources, format, whether the destination is a source, the exact integer result and the
floating result. -/
def laneForm : Instr → Option (R5 × R5 × R5 × Nat × Bool × (Int → Int → Int → Int) × (FVal → FVal → FVal → Nat))
  | .laneAdd d a b f => some (d, a, b, f.toNat, false, fun x y _ => x + y, fun x y _ => (faddV (fmtOf f.toNat) 1 false x y).1)
  | .laneSub d a b f => some (d, a, b, f.toNat, false, fun x y _ => x - y, fun x y _ => (faddV (fmtOf f.toNat) 1 false x y.neg).1)
  | .laneMul d a b f => some (d, a, b, f.toNat, false, fun x y _ => x * y, fun x y _ => (fmulV (fmtOf f.toNat) 1 false x y).1)
  | .laneFma d a b f => some (d, a, b, f.toNat, true, fun x y z => x * y + z, fun x y z => (fmaV (fmtOf f.toNat) 1 false x y z).1)
  | _ => none

end Sys2Proof.Claim

open Sys2Proof Sys2Proof.Machine Sys2Proof.Claim

/-- R290, R295 to R302: bank instructions check their operands and take a queue entry; with 16 held they wait at issue; BKRUN takes any operands;
BKMETA then waits; BKERR reads a record at once; the traps of BKLOAD, BKCOPY and BKMETA; on a lent cluster they are illegal (R315). -/
def Sys2Proof.Claim.BankIssue : Prop :=
  (∀ s c, BankHart s c →
    let h := s.ctx c
    let x := fun r => getG h.regs r
    let go := fun i k w => if h.eng.bq.length < 16 then ∃ t, exec i s = .next t ∧ Commanded c s t k w else exec i s = .next s
    (∀ a b, (x a).toNat % 8 = 0 → (x a).toNat + 4096 ≤ 0x8000 → protOk h.csr.pw h.priv (x a).toNat 4096 { x := true } = true →
      go (.bkload a b) { kind := .load (x a), ce := (x b).getLsbD 7, cnt := bits (x b) 0 6 } false) ∧
    (∀ a b, (x a).toNat % 8 ≠ 0 → exec (.bkload a b) s = .next (exception c 4 (x a) s)) ∧
    (∀ a b, (x a).toNat % 8 = 0 → (0x8000 < (x a).toNat + 4096 ∨ protOk h.csr.pw h.priv (x a).toNat 4096 { x := true } = false) →
      exec (.bkload a b) s = .next (exception c 5 (x a) s)) ∧
    (∀ a b, go (.bkrun a b) { kind := .run ((x a).truncate 32), ce := (x b).getLsbD 7, cnt := bits (x b) 0 6 } false) ∧
    (∀ a b k,
      let n := len (x k)
      let o := bits (x b) 0 23
      let core := 4 * (h.gcn % 8 / 4) + bits (x b) 24 2
      mode (x k) = 0 → (x a).toNat % 32 = 0 → o % 32 = 0 → n % 32 = 0 → x b &&& ~~~0x37FFFFF#64 = 0 → (x a).toNat < 0x800000 →
      (n ≠ 0 → (x a).toNat + n ≤ 0x780000 ∧ o + n ≤ 0x780000) → core ∈ gangCores s c →
      go (.bkcopy a b k) { kind := .copy (x a).toNat (h.gcn / 8 * 8 + core) o n, ce := (x k).getLsbD 39, cnt := bits (x k) 32 6
                           rce := (x k).getLsbD 47, rcnt := bits (x k) 40 6 } false) ∧
    (∀ a b k w, mode (x k) ≠ 0 → encode (.bkcopy a b k) = some w → exec (.bkcopy a b k) s = .next (exception c 1 (w.zeroExtend 64) s)) ∧
    (∀ a b k, mode (x k) = 0 → ((x a).toNat % 32 ≠ 0 ∨ bits (x b) 0 23 % 32 ≠ 0 ∨ len (x k) % 32 ≠ 0) →
      exec (.bkcopy a b k) s = .next (exception c 4 (x a) s)) ∧
    (∀ a b k,
      let n := len (x k)
      let o := bits (x b) 0 23
      let outsideBank := 0x800000 ≤ (x a).toNat ∨ x b &&& ~~~0x37FFFFF#64 ≠ 0 ∨ 0x800000 < (x a).toNat + n ∨ 0x800000 < o + n ∨
        4 * (h.gcn % 8 / 4) + bits (x b) 24 2 ∉ gangCores s c
      mode (x k) = 0 → (x a).toNat % 32 = 0 → o % 32 = 0 → n % 32 = 0 →
      (outsideBank → exec (.bkcopy a b k) s = .next (exception c 6 (x b) s)) ∧
      (¬outsideBank → n ≠ 0 → 0x780000 < (x a).toNat + n → exec (.bkcopy a b k) s = .next (exception c 6 (x a) s)) ∧
      (¬outsideBank → n ≠ 0 → (x a).toNat + n ≤ 0x780000 → 0x780000 < o + n → exec (.bkcopy a b k) s = .next (exception c 6 (x b) s))) ∧
    (∀ d a b k, (x a).toNat % 32 ≠ 0 → exec (.bkmeta d a b k) s = .next (exception c 4 (x a) s)) ∧
    (∀ d a b k, (x a).toNat % 32 = 0 → (x a).toNat < 0x780000 →
      go (.bkmeta d a b k) { kind := .mdx d (x a).toNat (x b) (x k) } true) ∧
    (∀ d a b k, (x a).toNat % 32 = 0 → 0x780000 ≤ (x a).toNat → exec (.bkmeta d a b k) s = .next (exception c 6 (x a) s)) ∧
    (∀ d a, ∃ t, exec (.bkerr d a) s = .next t ∧ OtherHarts c s t ∧ t.mem = s.mem ∧
      let b := s.bank h.gcn
      let sel := bits (x a) 0 2
      t.ctx c = retiredCtx h (nextPc h.regs (setG h.regs d (if sel = 0 then b.berr0 else if sel = 1 then b.berr1 else if sel = 2 then b.lstat
        else (h.eng.poison.map (·.tvalue)).getD 0))) ∧
      t.bank h.gcn = if (x a).getLsbD 2 = true ∧ sel < 2 then { b with berr0 := 0, berr1 := 0 } else b)) ∧
  (∀ s c i w, s.cur = .hart c → (s.cluster ((s.ctx c).gcn / 8)).lent.isSome = true → encode i = some w → fMaj w = 0x2E →
    exec i s = .next (exception c 1 (w.zeroExtend 64) s))

/-- R292, R299: BKFENCE with no earlier command and no earlier transfer to a virtual address retires, or takes a pending poison; else it waits, and
the wait ends then. The column writes of the hart's bank commands are performed from then on (R293, R294). -/
def Sys2Proof.Claim.BankFence : Prop :=
  ∀ s c, (s.ctx c).armed = none →
    let h := s.ctx c
    let retires := fun (i : Instr) => ∃ t, exec i s = .next t ∧ Fenced c s t ∧ Retired c { s with banks := t.banks } t (nextPc h.regs h.regs)
    let traps := fun (i : Instr) (p : Poison) => ∃ u, Fenced c s u ∧ { u with banks := s.banks } = s ∧
      exec i s = .next (exception c 0x1C p.tvalue (modEng c (fun e => { e with poison := none }) u))
    (BankHart s c → ¬FenceWaits h → h.eng.poison = none → retires .bkfence) ∧
    (BankHart s c → ¬FenceWaits h → ∀ p, h.eng.poison = some p → traps .bkfence p) ∧
    (BankHart s c → FenceWaits h → exec .bkfence s = .next (setWait c .bkfence s)) ∧
    (h.wait = .bkfence → Live s c → ¬FenceWaits h → h.eng.poison = none → retires (.bkfenceWaitEnd c)) ∧
    (h.wait = .bkfence → Live s c → ¬FenceWaits h → ∀ p, h.eng.poison = some p → traps (.bkfenceWaitEnd c) p)

/-- R281 to R284, R291, R292: BKLOAD fills code memory from the scratchpad once no earlier write of it is awaited; BKRUN starts a run with g4 the argument and everything else of the unit
clear; the end of a run writes LSTAT and completes its command, which bumps its counter and may leave a pending poison. -/
def Sys2Proof.Claim.OverlayRuns : Prop :=
  (∀ s c k r x, BankTurn s c k r → k.kind = .load x → (s.ctx c).image = none → x.toNat + 4096 ≤ 0x8000 →
      spanBusy s c x.toNat 4096 = false →
    let g := (s.ctx c).gcn
    ∃ t, exec (.bkloadComplete c) s = .next t ∧ (t.ctx c).eng.bq = r ∧ Bumped s t c k ∧ t.mem = s.mem ∧
      { t.bank g with code := (s.bank g).code } = s.bank g ∧
      ∀ i, i < 1024 → tget (t.bank g).code i 0 = BitVec.ofNat 32 (memWord s (keyOf s c x + 4 * i) 4)) ∧
  (∀ s c k r arg, BankTurn s c k r → k.kind = .run arg → k.started = false →
    let g := (s.ctx c).gcn
    ∃ t, exec (.overlayStart c) s = .next t ∧ (t.ctx c).eng.bq = { k with started := true } :: r ∧ t.mem = s.mem ∧
      { t.bank g with g := (s.bank g).g } = { s.bank g with pc := 0, lanes := [], lpoison := [], run := some { cid := c } } ∧
      ∀ n, getBG (t.bank g) n = if n = 4 then arg else 0) ∧
  (∀ s g r code status pc k l, (s.bank g).run = some r → r.ended = some (code, status, pc) → (s.ctx r.cid).eng.bq = k :: l →
    ∃ t, exec (.overlayEnd g) s = .next t ∧ (t.ctx r.cid).eng.bq = l ∧ Bumped s t r.cid k ∧ t.mem = s.mem ∧
      (t.ctx r.cid).eng.poison = poisonAfter s r.cid k 1 r.psn none ∧
      t.bank g = { s.bank g with
        run := none, slot := false
        lstat := BitVec.ofNat 64 (pc * 2 ^ 32 + r.psn.isSome.toNat * 2 ^ 24 + code * 2 ^ 16 + status) })

/-- R289, R298, R301, R302: a BKCOPY that holds a slot copies its next column, and without one asks for it; when its columns are copied it completes
and bumps its counters; BKMETA exchanges the metadata of a column, which no transfer meets as it was before any more, and retires with the old bits in g[d]. -/
def Sys2Proof.Claim.BankCopyAndMeta : Prop :=
  (∀ s c k r src db dst n, BankTurn s c k r → k.kind = .copy src db dst n → 32 * k.pos < n → src % 32 = 0 → dst % 32 = 0 →
    let g := (s.ctx c).gcn
    let from_ := g * 0x800000 + src + 32 * k.pos
    let into := db * 0x800000 + dst + 32 * k.pos
    (k.slot = true → cool s = true → Sound s g (src / 32 + k.pos) →
      ∃ t, exec (.bkcopyColumn c) s = .next t ∧ Written s t into (memBytes s from_ 32) ∧ OtherHarts c s t ∧
        (t.ctx c).eng.bq = { k with pos := k.pos + 1 } :: r) ∧
    (k.slot = false → ∃ t, exec (.bkcopyColumn c) s = .next t ∧ t.mem = s.mem ∧ t.banks = s.banks ∧
      (t.ctx c).eng.bq = { k with started := true } :: r ∧ 131072 + g ∈ t.mod.streamQ)) ∧
  (∀ s c k r src db dst n, BankTurn s c k r → k.kind = .copy src db dst n → 32 * k.pos = n →
    ∃ t, exec (.bkcopyComplete c) s = .next t ∧ (t.ctx c).eng.bq = r ∧ t.mem = s.mem ∧
      (k.rce = false → Bumped s t c k) ∧
      (t.ctx c).eng.poison = poisonAfter s c k 2 k.psn (if k.rce = true ∧ memberOn s c (db % 8) = some c then some k.rcnt else none) ∧
      (k.rce = true → ∀ m, memberOn s c (db % 8) = some m → ∀ j, counter t m j = counter s m j +
        (if m = c ∧ k.ce = true ∧ j = k.cnt then 1 else 0) + if j = k.rcnt then 1 else 0) ∧
      (k.rce = true → memberOn s c (db % 8) ≠ some c → Bumped s t c k)) ∧
  (∀ s c k r d o v m, BankTurn s c k r → k.kind = .mdx d o v m → k.ce = false → (s.ctx c).wait = .bkmeta → (s.ctx c).armed = none →
    (s.ctx c).halted = false →
    let g := (s.ctx c).gcn
    cool s = true → Sound s g (o / 32) →
    ∃ t, exec (.bkmetaComplete c) s = .next t ∧ (∀ a, readByte t.mem a = readByte s.mem a) ∧ OtherHarts c s t ∧
      (∀ x ∈ (t.bank g).before, x ∈ (s.bank g).before ∧ (metaAt t g (o / 32) ≠ metaAt s g (o / 32) → x.1 ≠ o / 32)) ∧
      Exchanged s t g (o / 32) (v.truncate 28) (m.truncate 28) ∧ (t.ctx c).eng.bq = r ∧
      (t.ctx c).regs = nextPc (s.ctx c).regs (setG (s.ctx c).regs d ((metaAt s g (o / 32)).zeroExtend 64)) ∧ (t.ctx c).wait = .none)

/-- R208, R210, R293, R294, R299, R381: what a BKCOPY or a PUT has overwritten in a column without damage stays known: a GET that may come before the write
may deliver it, and a PUT may land before a BKCOPY, so that the copied data stay: of the hart's own entries until its BKFENCE, of another hart's until it has
acquired a release of the write, in scopes that hold both. A GET of the column as it is ends that for its cluster, a write for all (the model's choice, log entry 53).  Columns move in any order. -/
def Sys2Proof.Claim.UnfencedColumns : Prop :=
  (∀ s c k r src db dst n, BankTurn s c k r → k.kind = .copy src db dst n → 32 * k.pos < n → src % 32 = 0 → dst % 32 = 0 → dst + n ≤ 0x800000 →
    let g := (s.ctx c).gcn
    let col := dst / 32 + k.pos
    k.slot = true → cool s = true → Sound s g (src / 32 + k.pos) → Sound s db col → (∀ x ∈ (s.bank db).before, x.1 ≠ col) →
    ∃ t, exec (.bkcopyColumn c) s = .next t ∧ ∀ j,
      (t.bank db).before.find? (fun x => x.1 = j) = if j = col then
        some (col, { cid := c, bytes := memBytes s (db * 0x800000 + 32 * col) 32, mdata := metaAt s db col, data := true })
      else (s.bank db).before.find? fun x => x.1 = j) ∧
  (∀ s c e r p x, Canonical s → Oldest s c e r → (s.ctx c).image = none → e.failed = none → e.pos = 0 → e.hold = [] → e.inFlight = [] →
    e.early = [] → e.late = [] → s.choice.pick = 0 → e.len = 32 → e.far.getLsbD 63 = false → e.loc.toNat + 32 ≤ 0x8000 → e.part = [p] → p.off = 0 → p.len = 32 →
    p.poff % 32 = 0 →
    let k := pageToPhys p.poff p.base p.il
    let g := k / 0x800000
    let col := k % 0x800000 / 32
    let near := keyOf s c e.loc
    p.base + p.poff < 0x10000000000 → k < 0x10000000000 → k % 32 = 0 → dmaTurn s c e = true → endsBusy s c e (.phys [(k, 32)]) 32 = false → cool s = true → Sound s g col →
    (s.bank g).before = [(col, x)] → x.bytes.length = 32 →
    let may := k / 32 ∈ s.choice.old ∧ Precedes s c e.acquired x
    (e.kind = .get → ∃ t, exec (.putgetSegment c e.eid) s = .next t ∧
      (may → Written s t near x.bytes ∧ (t.bank g).before = [(col, x)]) ∧ (¬may → Written s t near (memBytes s k 32) ∧
        (t.bank g).before = [(col, { x with met := if (s.ctx c).gcn / 8 ∈ x.met then x.met else (s.ctx c).gcn / 8 :: x.met })])) ∧
    (e.kind = .put → ∃ t, exec (.putgetSegment c e.eid) s = .next t ∧
      (may ∧ x.data = true → t.mem = s.mem ∧ (t.bank g).before = [(col, { x with bytes := memBytes s near 32 })]) ∧
      (¬(may ∧ x.data = true) → Written s t k (memBytes s near 32) ∧ (t.bank g).before =
        [(col, { cid := c, bytes := memBytes s k 32, mdata := metaAt s g col, data := false, fenced := true, cover := [{ scope := 4, cycle := s.gtime, hart := c }],
                 met := [(s.ctx c).gcn / 8] })]))) ∧
  (∀ s c e r p m, Canonical s → Oldest s c e r → (s.ctx c).image = none → e.failed = none → e.pos = 0 → e.hold = [] → e.inFlight = [] →
    e.early = [] → 1 ≤ m → m ≤ 128 → e.len = 32 * m → e.far.getLsbD 63 = false → e.far.toNat % 32 = 0 → e.loc.toNat + e.len ≤ 0x8000 → e.part = [p] → p.off = 0 →
    p.len = e.len → p.poff % 32 = 0 → p.base + p.poff < 0x10000000000 →
    let col := fun j => pageToPhys (p.poff + 32 * j) p.base p.il
    let near := keyOf s c e.loc
    (∀ j, j < m → col j < 0x10000000000 ∧ col j % 32 = 0) → dmaTurn s c e = true → cool s = true →
    (e.kind = .put → s.choice.pick = 1 → ∃ t, exec (.putgetSegment c e.eid) s = .next t ∧ t.mem = s.mem ∧
      (t.ctx c).eng.q = { e with
        started := true, pos := e.len
        late := e.late ++ (List.range m).map fun j => { ctx := none, addr := col j, bytes := memBytes s (near + 32 * j) 32, off := 32 * j } } :: r) ∧
    ∀ j, j < m → e.kind = .get → s.choice.pick = 2 * (32 * j) + 2 → Sound s (col j / 0x800000) (col j % 0x800000 / 32) → (∀ g, (s.bank g).before = []) →
      ∃ t e', exec (.putgetSegment c e.eid) s = .next t ∧ t.mem = s.mem ∧ (t.ctx c).eng.q = e' :: r ∧ { e' with early := [] } = { e with started := true } ∧
        ∀ i d, tget e'.early i d = if 32 * j ≤ i ∧ i < 32 * j + 32 then readByte s.mem (col j + (i - 32 * j)) else d) ∧
  ∀ s c e r i w, Canonical s → Oldest s c e r → e.kind = .put → e.late[i]? = some w → s.choice.pick = 2 * i + 3 → w.ctx = none → w.bit = false → w.mdata = false →
    w.addr < 0x10000000000 → w.addr % 32 = 0 → w.bytes.length = 32 → (∀ g, (s.bank g).before = []) → cool s = true →
    ∃ t, exec (.putgetSegment c e.eid) s = .next t ∧ Written s t w.addr w.bytes ∧ (t.ctx c).eng.q = { e with late := e.late.eraseIdx i } :: r

/-- R289, R330: a stack grants its slots, at most 512 at once, in the order of the requests; a unit that has made no column access for 1,280 cycles of the
global time base (1,024 BAU cycles) gives its slot back. At the end of a window the rows with more than 128 requests are hot, and
requests parked for a row that is no longer hot are held no more, but counted already; the first parked request
of a row is admitted, at most one per 8 cycles while it is hot. What becomes of requests parked for a row that is no longer hot is deduced (log entry 43). -/
def Obligations.SlotsAndHotRows : Prop :=
  (∀ s g l, s.mod.streamQ = g :: l → g < 131072 → slotsHeld s (stackOf g) < 512 →
    ∃ t, exec (.streamSlotGrant (stackOf g)) s = .next t ∧ t.mod.streamQ = l ∧ (t.bank g) = { s.bank g with slot := true, lastCol := s.gtime } ∧
      t.ctxs = s.ctxs) ∧
  (∀ s stack, 512 ≤ slotsHeld s stack → exec (.streamSlotGrant stack) s = .next s) ∧
  (∀ s g, (s.bank g).slot = true → (s.bank g).lastCol + 1280 ≤ s.gtime →
    ∃ t, exec (.streamSlotIdleRelease g) s = .next t ∧ BauRan g s t { s.bank g with slot := false }) ∧
  (∀ s g, s.gtime % 1024 = 0 → (s.bank g).window ≠ s.gtime → ∃ t, exec (.hotRowWindow g) s = .next t ∧ OnlyBank g s t ∧ (t.bank g).requests = [] ∧
    (∀ r, r ∈ (t.bank g).hot ↔ ∃ n, (r, n) ∈ (s.bank g).requests ∧ 128 < n) ∧
    (t.bank g).parked = (s.bank g).parked.filter (fun p => decide (p.1 ∈ (t.bank g).hot)) ∧ (t.bank g).window = s.gtime ∧
    ∀ p ∈ (s.bank g).parked, p.1 ∉ (t.bank g).hot → stillAsks s p.2 = true → p ∈ (t.bank g).tickets) ∧
  (∀ s g, s.gtime % 1024 ≠ 0 → exec (.hotRowWindow g) s = .next s) ∧
  (∀ s g row who l, (s.bank g).parked = (row, who) :: l → (row ∈ (s.bank g).hot → tget (s.bank g).lastAdmit row 0 + 8 ≤ s.gtime) →
    ∃ t, exec (.hotRowAdmit g row) s = .next t ∧ OnlyBank g s t ∧ (t.bank g).parked = l ∧
      (t.bank g).tickets = (s.bank g).tickets ++ [(row, who)] ∧ tget (t.bank g).lastAdmit row 0 = s.gtime)

/-- R285, R288, R289, R301, R303: CLD, CST, CST.M and CLDM on a column without damage, with a slot; without a slot they ask for one; a misaligned
offset ends the run with END 4, one outside the bank or in the save area with END 5. -/
def Sys2Proof.Claim.BauColumns : Prop :=
  ∀ s g, BauIssues s g →
    let b := s.bank g
    let off := fun a => (getBG b a).toNat
    let col := fun a => off a / 32
    let key := fun a => g * 0x800000 + off a
    (∀ d a, (Instr.cld d a).WellFormed → ColumnGoes s g (off a) → ∃ t, exec (.cld d a) s = .next t ∧ ColumnDone g s t ∧ t.mem = s.mem ∧
      lane (t.bank g) d = BitVec.ofNat 256 (memWord s (key a) 32) ∧ lanePoison (t.bank g) d = 0) ∧
    (∀ d a, (Instr.cst d a).WellFormed → ColumnGoes s g (off a) → ∃ t, exec (.cst d a) s = .next t ∧ ColumnDone g s t ∧
      Written s t (key a) ((List.range 32).map (storedByte b d)) ∧ metaAt t g (col a) = metaAt s g (col a)) ∧
    (∀ d a k, (Instr.cstM d a k).WellFormed → ColumnGoes s g (off a) → ∃ t, exec (.cstM d a k) s = .next t ∧ ColumnDone g s t ∧
      Written s t (key a) ((List.range 32).map (storedByte b d)) ∧
      metaAt t g (col a) = (getBG b k).truncate 28 &&& metaMask s g (col a)) ∧
    (∀ d a k m, (Instr.cldm d a k m).WellFormed → ColumnGoes s g (off a) → ∃ t, exec (.cldm d a k m) s = .next t ∧ ColumnDone g s t ∧
      (∀ x, readByte t.mem x = readByte s.mem x) ∧ Exchanged s t g (col a) ((getBG b k).truncate 28) ((getBG b m).truncate 28) ∧
      ∀ n, getBG (t.bank g) n = if n ≠ 0 ∧ n = d then (metaAt s g (col a)).zeroExtend 32 else getBG b n) ∧
    (∀ i a, ((∃ d, i = .cld d a) ∨ ∃ d, i = .cst d a) → i.WellFormed →
      (off a % 32 ≠ 0 → ∃ t, exec i s = .next t ∧ RunEnds g 4 0 s t) ∧
      (off a % 32 = 0 → 0x780000 ≤ off a → ∃ t, exec i s = .next t ∧ RunEnds g 5 0 s t) ∧
      (off a % 32 = 0 → off a < 0x780000 → off a / 0x10000 ∉ b.retired → b.slot = false → ∃ t, exec i s = .next t ∧
        { t with mod := s.mod } = s ∧ g ∈ t.mod.streamQ))

/-- R288, R304, R305: LANE arithmetic element by element: integers wrap to n bits, floating results are rounded once, and a poisoned element takes the
poison of its format and keeps its poison bits; MIN and MAX; bitwise forms; RSUM of integers; SPLAT, MOV, LGET, LPUT; LLD and LST. -/
def Obligations.LaneInstructions : Prop :=
  ∀ s g, BauIssues s g →
    let b := s.bank g
    (∀ i d a k f third int fp, laneForm i = some (d, a, k, f, third, int, fp) → i.WellFormed →
      let n := fmtWidth f
      let p := lanePoison b a ||| lanePoison b k ||| (if third then lanePoison b d else 0)
      let el := fun x e => laneElement b n x e
      ∃ t, exec i s = .next t ∧ LaneRan g d s t ∧ ∀ e, e < 256 / n →
        laneElement (t.bank g) n d e =
          (if isInt f then (pat n (int (intVal f (el a e)) (intVal f (el k e)) (intVal f (el d e)))).toNat
          else if hurt n p e then (fmtOf f).poison
          else fp (fdec (fmtOf f) (el a e)) (fdec (fmtOf f) (el k e)) (fdec (fmtOf f) (el d e)) % 2 ^ n) ∧
        hurt n (lanePoison (t.bank g) d) e = (List.range (256 / n)).any fun e' => hurt n p e' &&
          decide (n * e / 16 ≤ (n * (e' + 1) - 1) / 16) && decide (n * e' / 16 ≤ (n * (e + 1) - 1) / 16)) ∧
    (∀ i d a k f, (i = .laneMin d a k f ∨ i = .laneMax d a k f) → i.WellFormed → isInt f.toNat = true →
      let n := fmtWidth f.toNat
      ∃ t, exec i s = .next t ∧ LaneRan g d s t ∧ ∀ e, e < 256 / n → intVal f.toNat (laneElement (t.bank g) n d e) =
        let x := intVal f.toNat (laneElement b n a e)
        let y := intVal f.toNat (laneElement b n k e)
        if i = .laneMin d a k f then min x y else max x y) ∧
    (∀ i d a k, i.WellFormed → ∀ v, (i, v) ∈ [(Instr.laneAnd d a k, lane b a &&& lane b k), (.laneOr d a k, lane b a ||| lane b k),
        (.laneXor d a k, lane b a ^^^ lane b k)] → ∃ t, exec i s = .next t ∧ LaneRan g d s t ∧
        lane (t.bank g) d = v ∧ lanePoison (t.bank g) d = lanePoison b a ||| lanePoison b k) ∧
    (∀ d a, (Instr.laneMov d a).WellFormed → ∃ t, exec (.laneMov d a) s = .next t ∧ LaneRan g d s t ∧
      lane (t.bank g) d = lane b a ∧ lanePoison (t.bank g) d = lanePoison b a) ∧
    (∀ d a f, (Instr.rsum d a f).WellFormed → isInt f.toNat = true →
      let n := fmtWidth f.toNat
      ∃ t, exec (.rsum d a f) s = .next t ∧ LaneRan g d s t ∧ lane (t.bank g) d =
        (pat n ((List.range (256 / n)).map fun e => intVal f.toNat (laneElement b n a e)).sum).zeroExtend 256) ∧
    (∀ d a f, (Instr.splat d a f).WellFormed → ∃ t, exec (.splat d a f) s = .next t ∧ LaneRan g d s t ∧
      (∀ e, e < 256 / fmtWidth f.toNat → laneElement (t.bank g) (fmtWidth f.toNat) d e = (getBG b a).toNat % 2 ^ fmtWidth f.toNat) ∧
      lanePoison (t.bank g) d = 0) ∧
    (∀ d a w, (Instr.lget d a w).WellFormed → ∃ t, exec (.lget d a w) s = .next t ∧
      BauRan g s t { setBG d ((lane b a).extractLsb' (32 * w.toNat) 32) b with pc := b.pc + 4 }) ∧
    (∀ d a w, (Instr.lput d a w).WellFormed → ∃ t, exec (.lput d a w) s = .next t ∧ LaneRan g d s t ∧
      ∀ j, j < 8 → (lane (t.bank g) d).extractLsb' (32 * j) 32 = (if j = w.toNat then getBG b a else (lane b d).extractLsb' (32 * j) 32) ∧
        (lanePoison (t.bank g) d).extractLsb' (2 * j) 2 = if j = w.toNat then 0 else (lanePoison b d).extractLsb' (2 * j) 2) ∧
    (∀ d a, (Instr.lld d a).WellFormed → (getBG b a).toNat % 32 = 0 → (getBG b a).toNat + 32 ≤ 0x400 →
      ∃ t, exec (.lld d a) s = .next t ∧ LaneRan g d s t ∧ lanePoison (t.bank g) d = 0 ∧
        ∀ j, j < 32 → (lane (t.bank g) d).extractLsb' (8 * j) 8 = tget b.data ((getBG b a).toNat + j) 0) ∧
    (∀ d a, (Instr.lst d a).WellFormed → (getBG b a).toNat % 32 = 0 → (getBG b a).toNat + 32 ≤ 0x400 →
      ∃ t, exec (.lst d a) s = .next t ∧ OnlyBank g s t ∧ { t.bank g with data := b.data } = { b with pc := b.pc + 4 } ∧
        ∀ x, tget (t.bank g).data x 0 = if (getBG b a).toNat ≤ x ∧ x < (getBG b a).toNat + 32 then storedByte b d (x - (getBG b a).toNat)
          else tget b.data x 0)

/-- R284, R306: BDONE ends the run with DONE and its status; BSIG bumps a counter of the owner and goes on. -/
def Sys2Proof.Claim.BauSignals : Prop :=
  ∀ s g a, BauIssues s g → a.toNat < 16 →
    let b := s.bank g
    (∃ t, exec (.bdone a) s = .next t ∧ RunEnds g 0 (bits (getBG b a) 0 16) s t) ∧
    ∀ r, b.run = some r → ∃ t, exec (.bsig a) s = .next t ∧ { t with banks := s.banks, ctxs := s.ctxs } = s ∧
      t.bank g = { b with pc := b.pc + 4 } ∧ OtherHarts r.cid s t ∧
      ∀ j, counter t r.cid j = if j = bits (getBG b a) 0 6 then counter s r.cid j + 1 else counter s r.cid j
namespace Sys2Proof.Claim
open Sys2Proof.Machine

/-! ### Owners, partitions, the dispatcher (R16 to R25, R316 to R329, R335, R342, R362 to R366) -/

/-- R368: the ports of a route, the primary first; nibbles 12 to 15 name none (log entry 13). -/
def routeOf (l : Link) : List Nat := ((List.range 4).map fun i => bits l.route (4 * i) 4).filter fun p => decide (p < 12)

/-- R368, R371: of a pair whose traffic port `old` carried, `new` is the port that carries it: the same while it is up and of the route, else the first of the
route that is up. That traffic does not go back to a port that comes up again is the model's choice (log entry 105). -/
def Carrier (m : Module) (l : Link) (old new : Option Nat) : Prop :=
  let up := fun p => p ∈ routeOf l ∧ p ∉ m.portDown
  (∀ p, old = some p → up p → new = some p) ∧
  ((∀ p, old = some p → ¬up p) → (∀ a p b, routeOf l = a ++ p :: b → (∀ z ∈ a, z ∈ m.portDown) → p ∉ m.portDown → new = some p) ∧
    ((∀ p, ¬up p) → new = none))

/-- R211, R371: a link after a change of ports or of its route at cycle `t`: another port that takes the traffic over carries what is not acknowledged again,
under its numbers; a route with no port up keeps the time since then. -/
def Rerouted (t : Nat) (m : Module) (x y : Link) : Prop :=
  { y with port := x.port, down := x.down, sent := x.sent } = x ∧ Carrier m x x.port y.port ∧
    y.down = (if y.port = none then some (x.down.getD t) else none) ∧
    y.sent = x.sent ++ (match y.port with | some p => if x.port = some p then [] else x.unacked.map fun k => (k.seq, p) | none => [])

/-- Only virtual function `f` differs, and it is `o`. -/
def OnlyOwner (f : Nat) (s t : State) (o : Owner) : Prop :=
  { t with owners := s.owners } = s ∧ t.owner f = o ∧ ∀ v, v ≠ f → t.owner v = s.owner v

/-- Only partition `p` differs, and it is `q`. -/
def OnlyPart (p : Nat) (s t : State) (q : Partition) : Prop :=
  { t with parts := s.parts } = s ∧ t.part p = q ∧ ∀ v, v ≠ p → t.part v = s.part v

/-- Only cluster `q` differs, and it is `cl`. -/
def OnlyCluster (q : Nat) (s t : State) (cl : Cluster) : Prop :=
  { t with clusters := s.clusters } = s ∧ t.cluster q = cl ∧ ∀ v, v ≠ q → t.cluster v = s.cluster v

/-- Only task `k` differs, and it is `x`. -/
def OnlyTask (k : Nat) (s t : State) (x : Task) : Prop :=
  { t with tasks := s.tasks } = s ∧ t.task k = x ∧ ∀ v, v ≠ k → t.task v = s.task v

/-- The state with one more entry in the event log. -/
def logged (e : Log) (s : State) : State := { s with mod := { s.mod with log := s.mod.log ++ [e] } }

/-- R363, R364: a register value whose LSIZE field (bits 52:48) reads 4 where it was outside 4 to 16. -/
def lsized (v : W64) : W64 :=
  if 4 ≤ bits v 48 5 ∧ bits v 48 5 ≤ 16 then v else BitVec.ofNat 64 (v.toNat - bits v 48 5 * 2 ^ 48 + 4 * 2 ^ 48)

/-- R364: the ring of an EVCFG value and EVBASE meets the conditions: host memory, or shared memory outside mark space. -/
def RingPlaced (s : State) (o : Owner) (v : W64) : Prop :=
  if v.getLsbD 62 then
    o.evbase.getLsbD 63 = true ∧ bits o.evbase 21 27 = 0 ∧ o.evbase.toNat % 32 = 0 ∧
      ∃ q, clusterAt (s.part (vfPart o)) (bits o.evbase 48 15) = some q ∧ 0x40000 ≤ bits o.evbase 0 21 ∧
        bits o.evbase 0 21 + 32 * 2 ^ bits v 48 5 ≤ 0x80000 - (s.cluster q).msize * 0x2000
  else o.evbase.toNat % 4096 = 0 ∧ o.evbase.toNat + 32 * 2 ^ bits v 48 5 ≤ 0x800000000000

/-- R22, R363: the 32 bytes of the next descriptor of a class, in host memory, and what R22 asks of it. -/
def descriptor (s : State) (f c : Nat) : BitVec 256 :=
  let q := tget (s.owner f).qcfg c 0x0004000000000000
  BitVec.ofNat 256 (memWord s (0x800000000000 + (bits q 12 35 * 4096 + 32 * (tget (s.owner f).qhead c 0 % 2 ^ bits q 48 5)) % 0x800000000000) 32)
def DescriptorOk (d : BitVec 256) (c : Nat) : Prop :=
  bits d 0 2 = c ∧ bits d 2 30 = 0 ∧ 0 < bits d 32 16 ∧ bits d 48 16 = 0 ∧ bits d 64 64 % 128 = 0 ∧ bits d 192 64 = 0

/-- R20: range `i` of a task record (0 to 3 read, 4 to 7 written): first tile and number of tiles. -/
def tileRange (d : BitVec 1024) (i : Nat) : Nat × Nat := (bits d (272 + 64 * i) 48, bits d (256 + 64 * i) 16)
/-- R20: the ranges in use of the read or the write set. -/
def tileSet (d : BitVec 1024) (lo : Nat) : List (Nat × Nat) := ([lo, lo + 1, lo + 2, lo + 3].map (tileRange d)).filter fun r => r.2 ≠ 0

/-- R21: two sets share a tile. -/
def Meet (a b : List (Nat × Nat)) : Prop := ∃ x ∈ a, ∃ y ∈ b, x.1 < y.1 + y.2 ∧ y.1 < x.1 + x.2

/-- R318: a task of owner `f`, enqueued before number `n` and not completed. -/
def Earlier (s : State) (f n : Nat) (x : Nat × Task) : Prop :=
  x ∈ s.tasks ∧ (s.launch x.2.launch).vf = f ∧ x.2.enq < n ∧ x.2.phase ≠ .done

/-- R322: a later-enqueued writer of the tile has a version of it, whatever has become of that one. -/
def LaterVersion (s : State) (n : Nat) : Prop :=
  let w := s.version n
  ∃ x ∈ s.versions, x.1 ≠ n ∧ x.2.vf = w.vf ∧ x.2.tile = w.tile ∧ x.2.asid = w.asid ∧
    (s.task w.writer).enq < (s.task x.2.writer).enq

/-- R67, R319, R343: every version stands in a 64 KiB frame of device memory, whose base a page entry can hold. -/
def VersionFramed (s : State) : Prop := ∀ x ∈ s.versions, x.2.frame % 0x10000 = 0 ∧ x.2.frame < 2 ^ 40

/-- R16: the gang map of a list of cores of a virtual cluster. -/
def GangMap (g : W64) (vcn : Nat) (cores : List Nat) : Prop :=
  g.getLsbD 63 = true ∧ bits g 48 15 = vcn ∧ bits g 32 16 = 0 ∧ ∀ i, i < 8 → bits g (4 * i) 4 = cores.getD i 15

/-- R16, R210: member `i` of task `tid` at its start on a core; the start is an acquire. -/
structure Started (s t : State) (tid : Nat) (k : Task) (vcn q : Nat) (cores : List Nat) (i core : Nat) (h : Ctx) : Prop where
  pc : h.regs.pc = k.entry
  user : h.priv = .u ∧ h.ts.tstat = 1 ∧ { h.ts with tstat := 0 } = {} ∧ h.tm = {}
  registers : ∀ r : R5, r ≠ 7 → getG h.regs r = match r.toNat with
    | 2 => 0x8000 | 3 => (s.owner (s.launch k.launch).vf).rtptr | 4 => k.arg | 5 => BitVec.ofNat 64 i
    | 6 => BitVec.ofNat 64 cores.length | 8 => k.tag | 9 => k.tag | _ => 0
  map : GangMap (getG h.regs 7) vcn cores
  floating : h.regs.f = [] ∧ h.regs.fstat = 0x40
  space : h.csr.asid = k.asid ∧ { h.csr with asid := 0, pw := [] } = { ({} : Csrs) with tcmp := 0, timer := true }
  regions : tget h.csr.pw 0 0 = 0xF000800000000000 ∧
    tget h.csr.pw 1 0 = BitVec.ofNat 64 (0xB000000000000000 + (0x80000 - (s.cluster q).msize * 0x2000) / 8 * 2 ^ 35 + 0x40000) ∧
    ∀ i, 2 ≤ i → tget h.csr.pw i 0 = 0
  engines : h.eng = {}
  place : h.gcn = q * 8 + core ∧ h.vcn = vcn ∧ h.part = k.part ∧ h.task = some tid ∧ h.member = i ∧ h.resident = true
  fresh : h.wait = .none ∧ h.halted = false ∧ h.exited = none ∧ h.chunk = none ∧ h.armed = none ∧ h.icache = [] ∧ h.acq = some 3
  pad : (s.core (q * 8 + core)).lastPart ≠ some k.part →
    (∀ a, a < 0x8000 → readByte t.mem (sramKey q (core * 0x8000) + a) = 0) ∧
      (t.core (q * 8 + core)).rows = [] ∧ (t.core (q * 8 + core)).tags = []

/-- R323: of two candidates, given with their numbers, one comes before the other: at every 64th opportunity by eligibility time, then VF number, then
enqueue; else within one owner and class, resumable gangs first, by the cycle at which they were saved, and new tasks in enqueue order. -/
def Older (s : State) (x y : Task) : Prop :=
  x.eligAt < y.eligAt ∨ (x.eligAt = y.eligAt ∧ ((s.launch x.launch).vf < (s.launch y.launch).vf ∨
    ((s.launch x.launch).vf = (s.launch y.launch).vf ∧ x.enq < y.enq)))
def Sooner (x y : Task) : Prop :=
  (x.phase ≠ .eligible ∧ (y.phase = .eligible ∨ x.eligAt < y.eligAt ∨ (x.eligAt = y.eligAt ∧ x.enq < y.enq))) ∨
    (x.phase = .eligible ∧ y.phase = .eligible ∧ x.enq < y.enq)

/-- R323: the first fitting candidate of an owner in a class. -/
def FirstOf (s : State) (p f c tid : Nat) (k : Task) : Prop :=
  (tid, k) ∈ candidates s p ∧ (s.launch k.launch).vf = f ∧ classOf s k = c ∧
    ∀ x ∈ candidates s p, x.1 ≠ tid → (s.launch x.2.launch).vf = f → classOf s x.2 = c → Sooner k x.2

/-- R324: deficit round robin in class `c` reaches owner `f`, whose first candidate is `k`: it is the only owner, or the pointer's with a deficit that
suffices, or the other one of two where the pointer's has no candidate or too small a deficit. -/
def Reached (s : State) (p f c : Nat) (k : Task) : Prop :=
  let d := fun g => tget (s.part p).deficit (g * 4 + c) 0
  (ownersOf s p = [f] ∧ vfWeight (s.owner f) ≠ 0) ∨
  (f ∈ ownersOf s p ∧ tget (s.part p).pointer c 0 = f ∧ k.n ≤ d f) ∨
  (∃ g, g ≠ f ∧ (ownersOf s p = [f, g] ∨ ownersOf s p = [g, f]) ∧ tget (s.part p).pointer c 0 = g ∧ k.n ≤ d f ∧
    ((∀ x ∈ candidates s p, classOf s x.2 = c → (s.launch x.2.launch).vf ≠ g) ∨ ∃ i x, FirstOf s p g c i x ∧ d g < x.n))

/-- R323, R324: candidate `tid` is the one that the next opportunity of partition `p` places. -/
structure Chosen (s : State) (p f tid : Nat) (k : Task) : Prop where
  live : (s.part p).live = true
  runs : (s.part p).stopped = false
  now : s.gtime % 16 = 0
  once : (s.part p).dispatches ≠ 0 → (s.part p).lastDispatch ≠ s.gtime
  task : s.task tid = k ∧ k.part = p ∧ k.n ≤ 8
  owner : (s.launch k.launch).vf = f ∧ s.owners.Pairwise fun a b => a.1 < b.1
  among : (tid, k) ∈ candidates s p ∧ s.tasks.Pairwise fun a b => a.1 < b.1
  oldest : ((s.part p).dispatches + 1) % 64 = 0 → ∀ x ∈ candidates s p, x.1 ≠ tid → Older s k x.2
  class_ : ((s.part p).dispatches + 1) % 64 ≠ 0 → classOf s k ≤ 3 ∧ ∀ x ∈ candidates s p, classOf s k ≤ classOf s x.2
  turn : ((s.part p).dispatches + 1) % 64 ≠ 0 → FirstOf s p f (classOf s k) tid k ∧ Reached s p f (classOf s k) k

/-- R324: what the choice of a candidate leaves of the pointer and of the deficit of an owner that had enough. -/
def PointerAt (s t : State) (p f : Nat) (k : Task) : Prop :=
  let c := classOf s k
  ((s.part p).dispatches + 1) % 64 ≠ 0 → tget (t.part p).pointer c 0 = f ∧
    (tget (s.part p).pointer c 0 = f → f ∈ ownersOf s p → k.n ≤ tget (s.part p).deficit (f * 4 + c) 0 →
      tget (t.part p).deficit (f * 4 + c) 0 = tget (s.part p).deficit (f * 4 + c) 0 - k.n)

/-- A hart that waits in LDS or LDSE, which begins its wait again when it is restored (R158). -/
def isLds (w : Wait) : Bool := match w with | .lds .. => true | _ => false

/-- R344: the addresses of the 64 entries where the page of a tile is searched, in order. -/
def tableSlots (cfg : W64) (asid tile : Nat) : List Nat :=
  let ln := bits cfg 48 5
  let x := (asid * 2 ^ 32 + tile * 0x10000 / 2 ^ 25 % 2 ^ 32) * 0x9E3779B97F4A7C15 % 2 ^ 64 / 2 ^ (64 - ln)
  (List.range 64).map fun i => pageToPhys (128 * ((x + i / 8) % 2 ^ ln) + 16 * (i % 8)) (bits cfg 0 48) (bits cfg 61 2)

/-- R327: word 0 of a completion record. -/
def recordHead (kind cls : Nat) (bx : Bool) (flags : BitVec 6) (status : W32) : Nat :=
  2 ^ 63 + kind * 2 ^ 56 + cls * 2 ^ 54 + bx.toNat * 2 ^ 53 + flags.toNat * 2 ^ 32 + status.toNat

end Sys2Proof.Claim

open Sys2Proof Sys2Proof.Machine Sys2Proof.Claim

/-- R316, R351, R358, R361, R362, R364, R366 to R370: a write of a register of the host port or the Arbiter stores the fields that the register has;
a weight of 0 is stored as 1; MBDOOR while BUSY, reserved offsets and virtual functions above 63 ignore it; a map entry of a cluster whose shared memory
was saved by a recall puts it back (R340); MBSTAT shows BUSY, and MBDOOR and reserved offsets read zero. -/
def Sys2Proof.Claim.HostRegisterWrites : Prop :=
  (∀ s f v, f < 64 →
    let o := s.owner f
    let to_ := fun r (P : State → Prop) => ∃ t, exec (.registerWrite r v) s = .next t ∧ P t
    to_ (.rtptr f) (fun t => OnlyOwner f s t { o with rtptr := v }) ∧
    to_ (.lasid f) (fun t => OnlyOwner f s t { o with lasid := BitVec.ofNat 64 (v.toNat % 65536) }) ∧
    to_ (.evbase f) (fun t => OnlyOwner f s t { o with evbase := v }) ∧
    to_ (.evhead f) (fun t => OnlyOwner f s t { o with evhead := v.toNat % 2 ^ 32 }) ∧
    to_ (.vfcfg f) (fun t => OnlyOwner f s t { o with vfcfg := if bits v 48 8 = 0 then v ||| 0x1000000000000 else v }) ∧
    (∀ i, i < 8 → to_ (.mbreq f i) fun t => OnlyOwner f s t { o with mbreq := (t.owner f).mbreq } ∧
      ∀ j, tget (t.owner f).mbreq j 0 = if j = i then v else tget o.mbreq j 0) ∧
    (o.mbdoor = none → to_ (.mbdoor f) fun t =>
      t = { s with owners := t.owners, mod := { s.mod with doors := s.mod.doors ++ [f] } } ∧
        t.owner f = { o with mbdoor := some (v.toNat % 256) } ∧ ∀ x, x ≠ f → t.owner x = s.owner x) ∧
    (o.mbdoor.isSome = true → to_ (.mbdoor f) (· = s))) ∧
  (∀ s f v r, 64 ≤ f → (r = .rtptr f ∨ r = .lasid f ∨ r = .evbase f ∨ r = .evhead f ∨ r = .vfcfg f ∨ r = .mbdoor f ∨ ∃ i, r = .mbreq f i) →
    exec (.registerWrite r v) s = .next s) ∧
  (∀ s f, vfWord s f 0x300 = 0 ∧ vfWord s f 0x308 = BitVec.ofNat 64 ((s.owner f).mbdoor.isSome.toNat * 2 ^ 63 + (s.owner f).mbstat % 256) ∧
    ∀ x, (x = 0x0C0 ∨ x = 0x120 ∨ x = 0x240 ∨ x = 0x310 ∨ x = 0x500) → vfWord s f x = 0) ∧
  ∀ s v,
    let to_ := fun r (P : State → Prop) => ∃ t, exec (.registerWrite r v) s = .next t ∧ P t
    (∀ f n, to_ (.reserved f n) (· = s)) ∧
    (∀ p vcn, p < 256 → vcn < 32768 →
      let e := v &&& 0xCFFF000000003FFF
      let q := bits e 0 14
      ((∀ x ∈ (s.part p).shared, x.1 ≠ vcn) → to_ (.mapEntry p vcn) fun t =>
        OnlyPart p s t { s.part p with map := (t.part p).map, count := max (s.part p).count (vcn + 1) } ∧
          ∀ j, tget (t.part p).map j 0 = if j = vcn then e else tget (s.part p).map j 0) ∧
      (∀ im r, (s.part p).shared = (vcn, im) :: r → e.getLsbD 63 = true → e.getLsbD 62 = false → serves (s.cluster q) = some p →
        im.pad.wf = true → (∀ x ∈ im.pad, x.1 < 0x40000 - (s.cluster q).msize * 0x2000) → to_ (.mapEntry p vcn) fun t =>
          ∀ a, readByte t.mem (sramKey q 0x40000 + a) =
            if a < 0x40000 - (s.cluster q).msize * 0x2000 then readByte im.pad a else readByte s.mem (sramKey q 0x40000 + a))) ∧
    (∀ p, p < 256 → to_ (.fqcfg p) fun t => OnlyPart p s t { s.part p with fqcfg := v &&& 0x80070FFF0007FFFF }) ∧
    (∀ p, p < 256 → to_ (.keyId p) fun t => OnlyPart p s t { s.part p with key := v.toNat % 256 }) ∧
    (∀ p i, p < 256 → i < 16 → to_ (.aperture p i) fun t => OnlyPart p s t { s.part p with aperture := (t.part p).aperture } ∧
      ∀ j, tget (t.part p).aperture j 0 = if j = i then v else tget (s.part p).aperture j 0) ∧
    to_ .devid (fun t => t = { s with mod := { s.mod with devid := v.toNat % 4096 } }) ∧
    (∀ d, d < 4096 → to_ (.route d) fun t => { t with mod := { t.mod with links := s.mod.links } } = s ∧
      ∃ y, Rerouted s.gtime s.mod { tget s.mod.links d {} with route := BitVec.ofNat 64 (v.toNat % 65536) } y ∧
        ∀ j, tget t.mod.links j {} = if j = d then y else tget s.mod.links j {}) ∧
    (∀ i, i < 16 → to_ (.decoderBase i) fun t => { t with mod := { t.mod with decoderBase := s.mod.decoderBase } } = s ∧
      ∀ j, tget t.mod.decoderBase j 0 = if j = i then v else tget s.mod.decoderBase j 0) ∧
    (∀ i, i < 16 → to_ (.decoderMap i) fun t => { t with mod := { t.mod with decoderMap := s.mod.decoderMap } } = s ∧
      ∀ j, tget t.mod.decoderMap j 0 = if j = i then v else tget s.mod.decoderMap j 0)

/-- R342, R363, R364: QTAIL is stored unless the queue would hold more than 2^LSIZE descriptors, which is ignored and logged; QCFG is stored
while QHEAD = QTAIL; EVCFG is stored with EN 0 where its ring breaks the conditions; PTCFG is stored where the Arbiter accepts it, else
logged. That a PTCFG with V = 0 is refused like one with V = 1 is the model's choice (log entry 64). -/
def Sys2Proof.Claim.QueueAndTableRegisters : Prop :=
  ∀ s f v, f < 64 →
    let o := s.owner f
    (∀ c, c < 4 →
      let held := (v.toNat % 2 ^ 32 + 2 ^ 32 - tget o.qhead c 0) % 2 ^ 32
      let cfg := tget o.qcfg c 0x0004000000000000
      (held ≤ 2 ^ bits cfg 48 5 → ∃ t, exec (.qtailWrite f c v) s = .next t ∧ OnlyOwner f s t { o with qtail := (t.owner f).qtail } ∧
        ∀ j, tget (t.owner f).qtail j 0 = if j = c then v.toNat % 2 ^ 32 else tget o.qtail j 0) ∧
      (2 ^ bits cfg 48 5 < held → exec (.qtailWrite f c v) s = .next (logged (.refused 0x363) s)) ∧
      (tget o.qhead c 0 = tget o.qtail c 0 → ∃ t, exec (.qcfgWrite f c v) s = .next t ∧ OnlyOwner f s t { o with qcfg := (t.owner f).qcfg } ∧
        ∀ j, tget (t.owner f).qcfg j 0x0004000000000000 =
          if j = c then lsized (v &&& 0x801F7FFFFFFFF000) else tget o.qcfg j 0x0004000000000000) ∧
      (tget o.qhead c 0 ≠ tget o.qtail c 0 → exec (.qcfgWrite f c v) s = .next s)) ∧
    (let x := lsized (v &&& 0xC01FFFFFFF0007FF)
     (x.getLsbD 63 = false ∨ RingPlaced s o x → ∃ t, exec (.evcfgWrite f v) s = .next t ∧ OnlyOwner f s t { o with evcfg := x }) ∧
     (x.getLsbD 63 = true → ¬RingPlaced s o x →
       ∃ t, exec (.evcfgWrite f v) s = .next t ∧ OnlyOwner f s t { o with evcfg := BitVec.ofNat 64 (x.toNat - 2 ^ 63) })) ∧
    (∀ p,
      let x := v &&& 0xE01FFFFFFFFFFFFF
      let size := 2 ^ (bits x 48 5 + 7)
      let ok := (bits x 61 2 = 1 ∨ bits x 61 2 = 2) ∧ 8 ≤ bits x 48 5 ∧ bits x 48 5 ≤ 18 ∧ placeOk s p (bits x 0 48) (bits x 61 2) size = true ∧
        tableRetired s (bits x 0 48) (bits x 61 2) size = false
      (ok → ∃ t, exec (.ptcfgWrite p v) s = .next t ∧ OnlyPart p s t { s.part p with ptcfg := x }) ∧
      (¬ok → exec (.ptcfgWrite p v) s = .next (logged (.refused 0x342) s)))

/-- R22, R317, R363: the next descriptor of an enabled queue is read once the launch before it has been read; QHEAD advances; one that passes
becomes a launch under LASID, another completes at once with BAD_RECORD and its class. -/
def Sys2Proof.Claim.LaunchReading : Prop :=
  ∀ s f c, f < 64 → c < 4 →
    let o := s.owner f
    let cfg := tget o.qcfg c 0x0004000000000000
    let d := descriptor s f c
    let head := (tget o.qhead c 0 + 1) % 2 ^ 32
    (cfg.getLsbD 63 = true → tget o.qtail c 0 ≠ tget o.qhead c 0 → tget o.reading c none = none → o.migrating = false →
      (DescriptorOk d c → ∃ t, exec (.launchRead f c) s = .next t ∧
        { t with owners := s.owners, launches := s.launches, nextId := s.nextId } = s ∧ t.nextId = s.nextId + 1 ∧
        (∀ j, t.launch j = if j = s.nextId then
          { vf := f, cls := c, budget := bits d 128 64, tasks := bits d 64 64, ntask := bits d 32 16, asid := o.lasid.toNat % 65536 }
          else s.launch j) ∧
        { t.owner f with qhead := o.qhead, reading := o.reading } = o ∧ tget (t.owner f).qhead c 0 = head ∧
        tget (t.owner f).reading c none = some s.nextId ∧ ∀ x, x ≠ f → t.owner x = s.owner x) ∧
      (¬DescriptorOk d c → ∃ t, exec (.launchRead f c) s = .next t ∧
        OnlyOwner f s t { o with qhead := (t.owner f).qhead, recs := o.recs ++ [{ kind := 1, cls := c }] } ∧
        tget (t.owner f).qhead c 0 = head)) ∧
    (cfg.getLsbD 63 = false ∨ tget o.qtail c 0 = tget o.qhead c 0 ∨ (tget o.reading c none).isSome = true ∨ o.migrating = true →
      exec (.launchRead f c) s = .next s)

/-- R20, R317 to R321: the next record of the launch being read: one that cannot be read or fails the check completes with BAD_RECORD; one
within quota becomes a waiting task, whose tiles, where no earlier task in flight shares them, need no version; a tile of its write set that one does
share takes a frame of the pool; without quota nothing is taken. -/
def Sys2Proof.Claim.TaskReading : Prop :=
  ∀ s s1 f c l d,
    let o := s.owner f
    let la := s.launch l
    let p := vfPart o
    let asid := la.asid % 65536
    let advanced := fun t : State => t.launch l = { la with next := la.next + 1 } ∧ ∀ j, j ≠ l → t.launch j = s.launch j
    cool s = true → tget o.reading c none = some l → la.next + 1 < la.ntask → s.versions = [] → readRecord p asid (la.tasks + 128 * la.next) s = (d, s1) →
    (d = none → ∃ t, exec (.taskEnqueue f c) s = .next t ∧ { t with owners := s.owners, launches := s.launches, banks := s.banks } = s ∧
      advanced t ∧ t.owner f = { o with recs := o.recs ++ [{ kind := 1, launch := some l }] }) ∧
    (∀ w, d = some w →
      (recordBad w = true → ∃ t, exec (.taskEnqueue f c) s = .next t ∧
        { t with owners := s.owners, launches := s.launches, banks := s.banks } = s ∧ advanced t ∧
        t.owner f = { o with recs := o.recs ++ [{ kind := 1, launch := some l, tag := BitVec.ofNat 64 (bits w 768 64) }] }) ∧
      (recordBad w = false → quotaFree s f = false → ∃ t, exec (.taskEnqueue f c) s = .next t ∧ { t with banks := s.banks } = s) ∧
      (recordBad w = false → quotaFree s f = true →
        let k : Task := { launch := l, part := p, entry := BitVec.ofNat 64 (bits w 64 64), arg := BitVec.ofNat 64 (bits w 128 64)
                          tag := BitVec.ofNat 64 (bits w 768 64), asid := BitVec.ofNat 16 asid, n := bits w 0 4, grp := w.getLsbD 8
                          rd := tileSet w 0, wr := tileSet w 4, enq := s.nextId, holdsSlot := true, holdsDep := true }
        ((∀ x, Earlier s f s.nextId x → ¬Meet x.2.wr k.rd ∧ ¬Meet x.2.rd k.wr ∧ ¬Meet x.2.wr k.wr) →
          ∃ t, exec (.taskEnqueue f c) s = .next t ∧
            { t with tasks := s.tasks, launches := s.launches, nextId := s.nextId, banks := s.banks } = s ∧ advanced t ∧
            t.nextId = s.nextId + 1 ∧ t.task s.nextId = k ∧ ∀ j, j ≠ s.nextId → t.task j = s.task j) ∧
        (∀ tile x e i s2, k.wr = [(tile, 1)] → k.rd = [] → Earlier s f s.nextId x → (Meet x.2.wr k.wr ∨ Meet x.2.rd k.wr) →
          walk p asid (tile * 0x10000) { s1 with tasks := tput s.tasks s.nextId k, nextId := s.nextId + 1 } = (.entry e, s2) →
          malformed s2 p e = false → pteBig e = false → e.getLsbD 47 = false → freeFrame s2 f p e = some i →
          ∃ t, exec (.taskEnqueue f c) s = .next t ∧ t.mem = s.mem ∧ advanced t ∧ t.nextId = s.nextId + 2 ∧
            t.task s.nextId = { k with own := [(tile, s.nextId + 1)] } ∧ t.owner f = { o with used := o.used ++ [i] } ∧
            t.version (s.nextId + 1) = { vf := f, tile := tile, asid := asid, writer := s.nextId, frame := frameBase f o i
                                         il := pteIl e, gr := pteGr e, slot := i })))

/-- R285, R318 to R320: a zero version buffer is filled with 64 KiB of zeros, the grades of its frame as they were; in a frame that is retired (R356)
nothing is written (the model's choice, log entry 71); a waiting task becomes eligible at GTIME once no earlier task in flight writes a tile that it
reads, its buffers are filled, the tasks that it waits for have completed, and no earlier writer's version of a tile that it writes in place is still
to be installed (R322; that versions belong to an address space is the model's choice, log entry 73). -/
def Sys2Proof.Claim.VersionsAndEligibility : Prop :=
  (∀ s n,
    let w := s.version n
    let gone := isRetired s (w.frame / 0x800000) (w.frame % 0x800000)
    cool s = true → w.filled = false → w.source = none → w.il = 0 → w.frame % 0x10000 = 0 → w.frame + 0x10000 ≤ 0x10000000000 →
    ∃ t, exec (.versionFill n) s = .next t ∧ { t with mem := s.mem, banks := s.banks, versions := s.versions } = s ∧
      t.version n = { w with filled := true } ∧ (∀ j, j ≠ n → t.version j = s.version j) ∧
      (gone = true → t.mem = s.mem ∧ t.banks = s.banks) ∧
      (gone = false →
        (∀ a, readByte t.mem a = if w.frame ≤ a ∧ a < w.frame + 0x10000 then 0 else readByte s.mem a) ∧
        (t.bank (w.frame / 0x800000)).grades = (s.bank (w.frame / 0x800000)).grades ∧
        ∀ b, b ≠ w.frame / 0x800000 → t.bank b = s.bank b)) ∧
  (∀ s n,
    let k := s.task n
    let f := (s.launch k.launch).vf
    let ready := (∀ x, Earlier s f k.enq x → ¬Meet x.2.wr k.rd) ∧ (∀ v ∈ k.own, (s.version v.2).filled = true) ∧
      (∀ x ∈ k.waits, (s.task x).phase = .done) ∧
      ¬∃ x ∈ s.versions, x.2.vf = f ∧ x.2.asid = k.asid.toNat ∧ x.2.installed = false ∧ x.2.freed = false ∧ hasTile k.wr x.2.tile = true ∧
        (∀ q ∈ k.own, q.1 ≠ x.2.tile) ∧ (s.task x.2.writer).enq < k.enq ∧ ¬LaterVersion s x.1
    k.phase = .waiting → k.n ≠ 0 →
    (ready → ∃ t, exec (.taskEligible n) s = .next t ∧ OnlyTask n s t { k with phase := .eligible, eligAt := s.gtime }) ∧
    (¬ready → exec (.taskEligible n) s = .next s))

/-- R322: with no version of a later writer, installed or not, and no earlier reader in flight, a completed writer's frame, as `VersionFramed` has it, is mapped in its
tile's entry and the frame mapped before joins the pool; a superseded version without readers is freed, and so is one whose tile has no page entry (which
version is current, and that last case, are the model's choices, log entry 32; completed: log entry 16; versions of one address space: log entry 73). -/
def Sys2Proof.Claim.VersionInstallation : Prop :=
  ∀ s n,
    let w := s.version n
    let k := s.task w.writer
    let o := s.owner w.vf
    cool s = true → w.freed = false → w.installed = false → w.filled = true → k.phase = .done →
    let later := LaterVersion s n
    let older := ∃ x, Earlier s w.vf k.enq x ∧ x.2.asid.toNat = w.asid ∧ hasTile x.2.rd w.tile = true
    (later → (∀ x ∈ s.tasks, x.2.phase ≠ .done → (w.tile, n) ∉ x.2.reads) → ∃ t, exec (.versionInstall n) s = .next t ∧
      { t with owners := s.owners, versions := s.versions } = s ∧ t.version n = { w with freed := true } ∧
      t.owner w.vf = { o with used := o.used.erase w.slot } ∧ (∀ j, j ≠ n → t.version j = s.version j) ∧ ∀ x, x ≠ w.vf → t.owner x = s.owner x) ∧
    (¬later → ¬older → ∀ e s1, walk k.part w.asid (w.tile * 0x10000) s = (.entry e, s1) →
      ∃ t, exec (.versionInstall n) s = .next t ∧ t.version n = { w with installed := true } ∧
        (let l := tableSlots (s.part k.part).ptcfg w.asid w.tile
         ∀ key, l.find? (fun x => memWord s x 16 = e.toNat) = some key → w.frame % 0x10000 = 0 → w.frame < 2 ^ 40 →
          (∀ x ∈ l, x < 0x10000000000 ∧ x % 16 = 0 ∧ Sound s (x / 0x800000) (x % 0x800000 / 32)) →
          memWord t key 16 = e.toNat - pteBase e + w.frame) ∧
        t.owner w.vf = { o with pool := tput o.pool w.slot (pteBase e), used := o.used.erase w.slot } ∧
        (∀ q, serves (s.cluster q) = some k.part → ∀ x ∈ (t.cluster q).tlb, ¬(x.asid = w.asid ∧ x.va = w.tile * 0x10000)) ∧
        ∀ c, (s.ctx c).part = k.part → ∀ x ∈ (t.ctx c).icache, ¬(x.asid = w.asid ∧ x.page = w.tile * 0x10000)) ∧
    (¬later → ¬older → (∀ e s1, walk k.part w.asid (w.tile * 0x10000) s ≠ (.entry e, s1)) →
      ∃ t, exec (.versionInstall n) s = .next t ∧ t.mem = s.mem ∧ t.version n = { w with freed := true } ∧
        t.owner w.vf = { o with used := o.used.erase w.slot })

/-- R319, R320, R322: every version has a frame as `VersionFramed` says: the events that make or change versions keep it. -/
def Sys2Proof.Claim.VersionFrames : Prop :=
  ∀ s t, VersionFramed s →
    ((∃ f c, exec (.taskEnqueue f c) s = .next t) ∨ ∃ n, exec (.versionFill n) s = .next t ∨ exec (.versionInstall n) s = .next t) →
    VersionFramed t

/-- R325, R333: the cluster for a new task is one of the partition, present, with enough free cores, and has the fewest free cores, then the lowest VCN; its
cores are the lowest free ones that have a save slot free, under GRP of one bank group (the slots: log entry 30). -/
def Sys2Proof.Claim.TaskPlacement : Prop :=
  ∀ s k v q cores, placeNew s k = some (v, q, cores) →
    let p := s.part k.part
    let free := fun x => (List.range 8).filter fun c => (s.residentOn (x * 8 + c)).isNone
    let open_ := fun x => (free x).filter fun c => usedSlots s (x * 8 + c) k.part < if (s.cluster x).lent = some k.part then 1 else 4
    clusterAt p v = some q ∧ v < p.count ∧ cores.length = k.n ∧ (∀ c ∈ cores, c ∈ open_ q) ∧
    (k.grp = false → cores = (open_ q).take k.n) ∧
    (k.grp = true → cores = ((open_ q).filter (· < 4)).take k.n ∨
      (((open_ q).filter (· < 4)).length < k.n ∧ cores = ((open_ q).filter (4 ≤ ·)).take k.n)) ∧
    ∀ v' q', v' < p.count → clusterAt p v' = some q' → pickCores (open_ q') k.n k.grp ≠ none →
      (free q).length < (free q').length ∨ ((free q).length = (free q').length ∧ v ≤ v')

/-- R16, R19, R323 to R325, R333: a dispatch opportunity (every 16 GTB cycles, one gang each) of a partition places the candidate that the order names
(`Chosen`), and no other: a new task that fits, of which every member stands at task start on its core, or a saved gang whose cores are free, which
is resident again with its image. -/
def Sys2Proof.Claim.Dispatch : Prop :=
  (∀ s p f tid k v q cores, Chosen s p f tid k → k.phase = .eligible → placeNew s k = some (v, q, cores) → v < 32768 →
    (∀ c ∈ cores, (s.core (q * 8 + c)).events = []) →
    ∃ t, exec (.dispatchOpportunity p) s = .next t ∧ t.nextId = s.nextId + k.n ∧ PointerAt s t p f k ∧
      (t.part p).dispatches = (s.part p).dispatches + 1 ∧ (t.part p).lastDispatch = s.gtime ∧
      t.task tid = { k with phase := .placed, vcn := v, members := (List.range k.n).map (s.nextId + ·), residentAt := s.gtime, holdsSlot := false } ∧
      (∀ j, j ≠ tid → t.task j = s.task j) ∧ (∀ c, c < s.nextId → t.ctx c = s.ctx c) ∧
      ∀ i core, cores[i]? = some core → Started s t tid k v q cores i core (t.ctx (s.nextId + i)) ∧
        (t.core (q * 8 + core)).lastPart = some p) ∧
  (∀ s p f tid k q, Canonical s → Chosen s p f tid k → k.phase = .evicted → placeOld s k = some q → k.members.Nodup →
    (k.members.map fun m => (s.ctx m).gcn % 8).Nodup →
    (∀ m ∈ k.members, (s.core (q * 8 + (s.ctx m).gcn % 8)).events = [] ∧
      ∃ im, (s.ctx m).image = some im ∧ im.pad.wf = true ∧ (∀ x ∈ im.pad, x.1 < 0x8000) ∧ ∀ w ∈ im.fe, w < 0x1000) →
    ∃ t, exec (.dispatchOpportunity p) s = .next t ∧ t.nextId = s.nextId ∧ PointerAt s t p f k ∧
      (t.part p).dispatches = (s.part p).dispatches + 1 ∧ (t.part p).lastDispatch = s.gtime ∧
      t.task tid = { k with phase := .placed, residentAt := s.gtime } ∧ (∀ j, j ≠ tid → t.task j = s.task j) ∧
      (∀ c, c ∉ k.members → t.ctx c = s.ctx c) ∧
      ∀ m ∈ k.members, ∀ im, (s.ctx m).image = some im →
        let h := s.ctx m
        let g := q * 8 + h.gcn % 8
        (t.ctx m).resident = true ∧ (t.ctx m).image = none ∧ (t.ctx m).gcn = g ∧
        { t.ctx m with resident := h.resident, image := h.image, gcn := h.gcn, wait := h.wait } = h ∧
        (isLds h.wait = false → (t.ctx m).wait = h.wait) ∧
        (∀ a, a < 0x8000 → readByte t.mem (sramKey q (h.gcn % 8 * 0x8000) + a) = readByte im.pad a) ∧
        (∀ w, w < 0x1000 → tget t.fe (sramKey q (h.gcn % 8 * 0x8000) / 8 + w) false = im.fe.contains w) ∧
        (t.core g).rows = im.rows ∧ (t.core g).tags = im.tags) ∧
  (∀ s p, (s.part p).stopped = true ∨ s.gtime % 16 ≠ 0 ∨ candidates s p = [] ∨ ((s.part p).dispatches ≠ 0 ∧ (s.part p).lastDispatch = s.gtime) →
    exec (.dispatchOpportunity p) s = .next s)

/-- R27, R333, R335: a gang of which every member that has not exited blocks, resident for MINRES, with two of its save slots free (log entry 30), is evicted for an eligible
task of a lower-numbered class that fits only once it leaves: its members are saved with their scratchpads, the task becomes resumable at GTIME. -/
def Obligations.Eviction : Prop :=
  ∀ s tid,
    let k := s.task tid
    k.phase = .placed → k.members.Nodup → (∃ m ∈ k.members, (s.ctx m).exited = none) →
    (∀ m ∈ k.members, (s.ctx m).resident = true ∧ (s.ctx m).chunk = none ∧
      usedSlots s (s.ctx m).gcn k.part + 2 ≤ slotCount s (s.ctx m).gcn k.part ∧
      ((s.ctx m).exited.isSome = true ∨ (isBlocking (s.ctx m).wait = true ∧ (s.ctx m).halted = false ∧ arrayMid (s.ctx m) = false))) →
    k.residentAt + vfMinres (s.owner (s.launch k.launch).vf) * 65536 ≤ s.gtime →
    (∃ x ∈ s.tasks, x.2.part = k.part ∧ x.2.phase = .eligible ∧ classOf s x.2 < classOf s k ∧ placeNew s x.2 = none ∧
      placeNew (saveGang tid s) x.2 ≠ none) →
    ∃ t, exec (.evictGang tid) s = .next t ∧ t.mem = s.mem ∧ t.task tid = { k with phase := .evicted, eligAt := s.gtime } ∧
      (∀ j, j ≠ tid → t.task j = s.task j) ∧ (∀ c, c ∉ k.members → t.ctx c = s.ctx c ∨ SquashedAt s.gtime (s.ctx c) (t.ctx c)) ∧
      ∀ m ∈ k.members, (t.ctx m).resident = false ∧ (t.ctx m).regs = (s.ctx m).regs ∧ (t.ctx m).csr = (s.ctx m).csr ∧
        ∃ im, (t.ctx m).image = some im ∧
          ∀ a, readByte im.pad a = if a < 0x8000 then readByte s.mem (sramKey ((s.ctx m).gcn / 8) ((s.ctx m).gcn % 8 * 0x8000) + a) else 0

/-- R18, R191, R327 to R329, R361: a task whose members have all exited, with no work outstanding, and for a record in host memory with no access to another
device unacknowledged, is recorded with the first nonzero status of its members, or with its dispatcher status, and releases their column writes (R194); a resident task whose hang counter reaches HANGLIM × 2^24 ends with HANG: its members end
after the instruction under way (R384): TLBINV, STOPAT and TYIELD complete, a request of TSPAWN is carried out before the record. -/
def Sys2Proof.Claim.TaskEnds : Prop :=
  (∀ s tid,
    let k := s.task tid
    let f := (s.launch k.launch).vf
    let rec_ : Rec := { kind := k.status.getD 0, tag := k.tag, launch := some k.launch, task := some tid
                        status := if k.status.getD 0 = 0 then
                          ((k.members.map fun m => (s.ctx m).exited.getD 0).find? fun x => x ≠ 0).getD 0 else 0 }
    (k.phase = .exited ∧ k.members ≠ []) ∨ k.phase = .ending →
    (∀ m ∈ k.members, (s.ctx m).exited.isSome = true ∧ working s m = false ∧ (s.ctx m).eng.poison = none) →
    ((s.owner f).evcfg.getLsbD 62 = true ∨ ∀ m ∈ k.members, pendingIn (s.ctx m) 4 false = false) →
    ∃ t, exec (.taskComplete tid) s = .next t ∧ { t with tasks := s.tasks, owners := s.owners, banks := s.banks } = s ∧
      (∀ g, t.bank g = { s.bank g with before := (s.bank g).before.map fun x => (x.1, if x.2.cid ∈ k.members
        then { x.2 with fenced := true, cover := if ∀ r ∈ x.2.cover, r.hart = x.2.cid → r.scope < 3
          then x.2.cover ++ [{ scope := 3, cycle := s.gtime, hart := x.2.cid }] else x.2.cover } else x.2) }) ∧
      t.task tid = { k with phase := .recorded, holdsSlot := false } ∧ (∀ j, j ≠ tid → t.task j = s.task j) ∧
      t.owner f = { s.owner f with recs := (s.owner f).recs ++ [rec_] } ∧ ∀ v, v ≠ f → t.owner v = s.owner v) ∧
  (∀ s tid, (∃ m ∈ (s.task tid).members, ∃ x ∈ s.net, x.cid = m ∧ ∃ b n a, x.body = .tspawn b n a) → exec (.taskComplete tid) s = .next s) ∧
  (∀ s tid,
    let k := s.task tid
    let lim := bits (s.owner (s.launch k.launch).vf).vfcfg 0 8
    k.phase = .placed →
    (lim ≠ 0 → lim * 2 ^ 24 ≤ k.hang → k.members.Nodup →
      (∀ m ∈ k.members, (s.ctx m).chunk = none ∧ (s.ctx m).halted = false ∧ (s.ctx m).eng.q = [] ∧ (s.ctx m).eng.bq = [] ∧
        ∀ r, (s.bank (s.ctx m).gcn).run = some r → r.cid ≠ m) →
      ∃ t, exec (.hangExpiry tid) s = .next t ∧ t.mem = s.mem ∧ t.task tid = { k with phase := .ending, status := some 2 } ∧
        (∀ j, j ≠ tid → t.task j = s.task j) ∧
        (∀ c, c ∉ k.members → (∀ m ∈ k.members, ∀ i va a, (s.ctx m).wait ≠ .tlbinv i va a) → t.ctx c = s.ctx c ∨ SquashedAt s.gtime (s.ctx c) (t.ctx c)) ∧
        (∀ m ∈ k.members, ∀ i va a, (s.ctx m).wait = .tlbinv i va a → ∀ q, serves (s.cluster q) = some (s.ctx m).part →
          ∀ e ∈ (t.cluster q).tlb, ¬covered i va a e.asid e.va e.size) ∧
        ∀ m ∈ k.members, let h := s.ctx m
          (t.ctx m).exited = some (h.exited.getD 0) ∧ (t.ctx m).eng.aq = [] ∧
          (t.ctx m).wait = (match h.wait with | .tspawn _ _ => h.wait | _ => .none) ∧
          (h.armed = none → (t.ctx m).regs = match h.wait with
            | .tlbinv _ _ _ | .tyield _ => nextPc h.regs h.regs
            | .stopat d x _ => nextPc h.regs (setG h.regs d x)
            | _ => h.regs)) ∧
    (lim = 0 ∨ k.hang < lim * 2 ^ 24 → exec (.hangExpiry tid) s = .next s))

/-- R317, R327, R364, R365: the oldest ready record goes to slot n mod 2^LSIZE of a ring in host memory or in device SRAM, whose words become full, while the
ring is enabled, well placed and has room, and no write that a release at PACKAGE scope covers is on its way to the slot (R204, R205); its task frees its dependence entry; CCNT unsignalled records, or CTIME since the oldest, send one MSI-X
message. That a ring which is no longer well placed counts as disabled, and that word 3 shows whole microjoules, are the model's choices (log entries 61
and 60). -/
def Sys2Proof.Claim.EventRing : Prop :=
  (∀ s f tid r rest,
    let o := s.owner f
    let k := s.task tid
    let la := s.launch k.launch
    let sram := o.evcfg.getLsbD 62
    let n := 2 ^ bits o.evcfg 48 5
    let ccnt := bits o.evcfg 40 8
    let word := fun i => [recordHead r.kind la.cls la.reached k.flags r.status, r.tag.toNat, s.gtime % 2 ^ 64, k.energy.floor.toNat % 2 ^ 64].getD i 0
    let placed := RingPlaced s o o.evcfg
    o.recs = r :: rest → r.launch = some k.launch → r.task = some tid → la.vf = f → r.kind < 16 → la.cls < 4 →
    (∀ q, (sram = true → clusterAt (s.part (vfPart o)) (bits o.evbase 48 15) = some q) →
      (sram = false → ∀ m ∈ k.members, pendingIn (s.ctx m) 4 false = false) →
      let slot := (if sram then sramKey q (bits o.evbase 0 21) else 0x800000000000 + bits o.evbase 0 47) + 32 * (o.evtail % n)
      let awaited := sram = true ∧ coveredFirst s 3 q ((bits o.evbase 0 21) + 32 * (o.evtail % n)) 32 = true
      o.evcfg.getLsbD 63 = true → placed → (o.evtail + 2 ^ 32 - o.evhead) % 2 ^ 32 < n →
      (awaited → exec (.eventRecordWrite f) s = .next s) ∧ (¬awaited → ∃ t, exec (.eventRecordWrite f) s = .next t ∧
        { t with mem := s.mem, fe := s.fe, owners := s.owners, tasks := s.tasks, ctxs := s.ctxs, cores := s.cores } = s ∧
        (∀ i, i < 4 → memWord t (slot + 8 * i) 8 = word i) ∧
        (∀ a, a < slot ∨ slot + 32 ≤ a → readByte t.mem a = readByte s.mem a) ∧
        Bits s t (if sram then wordsOf slot 32 else []) true ∧
        t.task tid = { k with phase := .done, holdsDep := false } ∧ (∀ m ∈ k.members, (t.ctx m).resident = false) ∧
        (∀ g, { t.core g with accBanks := (s.core g).accBanks } = s.core g) ∧
        (let sent := ccnt ≠ 0 ∧ ccnt ≤ o.unsignalled + 1
         (t.owner f).recs = rest ∧ (t.owner f).evtail = (o.evtail + 1) % 2 ^ 32 ∧
         (¬sent → (t.owner f).unsignalled = o.unsignalled + 1 ∧ (t.owner f).msix = o.msix) ∧
         (sent → (t.owner f).unsignalled = 0 ∧ (t.owner f).msix = o.msix ++ [o.evcfg.toNat % 2048])))) ∧
    (o.evcfg.getLsbD 63 = false ∨ ¬placed ∨ n ≤ (o.evtail + 2 ^ 32 - o.evhead) % 2 ^ 32 → exec (.eventRecordWrite f) s = .next s)) ∧
  (∀ s f,
    let o := s.owner f
    let ctime := bits o.evcfg 24 16
    (ctime ≠ 0 → o.unsignalled ≠ 0 → o.oldest + ctime * 1024 ≤ s.gtime → ∃ t, exec (.eventInterruptTimeout f) s = .next t ∧
      OnlyOwner f s t { o with unsignalled := 0, msix := o.msix ++ [o.evcfg.toNat % 2048] }) ∧
    (ctime = 0 ∨ o.unsignalled = 0 ∨ s.gtime < o.oldest + ctime * 1024 → exec (.eventInterruptTimeout f) s = .next s))
namespace Sys2Proof.Claim
open Sys2Proof.Machine

/-! ### The stop, partitions and clusters (R313 to R315, R336 to R341) -/

/-- R336: a resident hart between instructions or in a wait, with no chunk open and no array transfer begun. -/
structure Stoppable (h : Ctx) : Prop where
  noChunk : h.chunk = none
  going : h.halted = false ∧ h.exited = none ∧ h.armed = none
  between : arrayMid h = false
  wait : match h.wait with | .tlbinv .. | .stopat .. => False | _ => True

/-- R158, R336: the wait that a stopped hart keeps: none for a load, a fence, a release that has not acted or WFI, which execute again, and none for
TYIELD, which ends. -/
def keptWait : Wait → Wait
  | .acks | .fence .. | .stl .. | .bkfence | .mfence | .axwait _ | .wfi | .tyield _ | .remoteLoad .. => .none
  | w => w

/-- R333: an image holds the scratchpad of a core. -/
def PadSaved (s : State) (gcn : Nat) (im : Image) : Prop :=
  ∀ a, readByte im.pad a = if a < 0x8000 then readByte s.mem (sramKey (gcn / 8) (gcn % 8 * 0x8000) + a) else 0

/-- R313, R340: all SRAM of a cluster is zero and its full/empty bits are clear; the rest of memory is as before. -/
def Cleared (q : Nat) (s t : State) : Prop :=
  ∀ a, readByte t.mem a = if sramKey q 0 ≤ a ∧ a < sramKey q 0 + 0x80000 then 0 else readByte s.mem a
/-- R331: no segment has words left to write. -/
def NoneLate (s : State) : Prop := ∀ x ∈ s.ctxs, ∀ e ∈ x.2.eng.q, e.late = []

/-- R58, R59, R313: a cluster as it enters a partition of `n` clusters: XW0 and WPT0. -/
def Entered (cl : Cluster) (n : Nat) : Prop :=
  tget cl.xw 0 0 = 0xF800000000110000 ∧ tget cl.wpt 0 0 = BitVec.ofNat 64 (2 ^ 63 + (n - 1) * 2 ^ 32) ∧ cl.mfc = [] ∧ cl.mfcLog = [] ∧
    cl.mfcNext = [] ∧ cl.ticks = [] ∧ cl.tlb = []

/-- R339: no saved gang of partition `p` could be restored at once: some core of each is taken. -/
def NoReturn (s : State) (p : Nat) : Prop := ∀ x ∈ s.tasks, x.2.part = p → x.2.phase = .evicted → placeOld s (s.task x.1) = none

/-- R339, R340: partition `p` after its resumption: it runs, with nothing saved and nothing recalled, and a stop announced for later stands. -/
def resumed (s : State) (k : Partition) : Partition :=
  { k with stopped := false, complete := false, resumeHeld := false, saved := [], flushed := [], routers := [], recalls := []
           stop := k.stop.filter fun u => decide (s.gtime < u) }

/-- R340: partition `p` holds a cluster `x` that its lender has recalled. -/
def Recalled (s : State) (p x : Nat) : Prop :=
  ∃ r ∈ (s.part p).recalls, ∃ y ∈ s.clusters, y.1 = x ∧ y.2.part = some r.1 ∧ y.2.lent = some p

/-- R72, R356: no queued entry has translated a page. -/
def NoParts (s : State) : Prop := ∀ x ∈ s.ctxs, ∀ e ∈ x.2.eng.q, e.part = []

/-- R366, R376: the operating point of a cluster under a cap: a faster point, present or requested, gives way to the cap's, unless that lies below
the floor. -/
def UnderCap (cap : Nat) (w w' : Power) : Prop :=
  w' = if min w.point w.req < cap ∧ w.floor ≤ Config.millivolts cap then { w with req := cap } else w

/-- R337: a request of partition `p` that a router holds. -/
def requestAt (s : State) (p q : Nat) (k : Packet) : Bool := decide (k.part = p) && decide (routerOf s k = q) && isRequest k.body

/-! ### The host port (R361, R366, R367, R372, R374) -/

/-- R366: the next command is one of virtual function `f` with this code. -/
def NextCommand (s : State) (f code : Nat) : Prop := s.mod.doors.head? = some f ∧ (s.owner f).mbdoor = some code

/-- R367: byte `i` of MBREQ, and the request uses only bytes that `l` gives as first byte and number. -/
def request (o : Owner) (i : Nat) : Nat := bits (tget o.mbreq (i / 8) 0) (8 * (i % 8)) 8
def RequestOnly (o : Owner) (l : List (Nat × Nat)) : Prop := ∀ i, i < 64 → (∀ r ∈ l, i < r.1 ∨ r.1 + r.2 ≤ i) → request o i = 0

/-- R366: a command has ended with a status and a response. -/
def Answered (f status : Nat) (rsp : List Byte) (s t : State) : Prop :=
  { t.owner f with mbrsp := (s.owner f).mbrsp } = { s.owner f with mbdoor := none, mbstat := status } ∧
    (∀ i, tget (t.owner f).mbrsp i 0 = rsp.getD i 0) ∧ (∀ v, v ≠ f → t.owner v = s.owner v) ∧ t.mod.doors = s.mod.doors.tail

/-- R366: a refused command: status 1, logged, nothing else. -/
def RefusedCommand (f : Nat) (s t : State) : Prop :=
  Answered f 1 [] s t ∧ { t with owners := s.owners, mod := s.mod } = s ∧
    t.mod = { s.mod with doors := s.mod.doors.tail, log := s.mod.log ++ [.refused 0x366] }

/-- R215, R216: a configuration that the Arbiter accepts at cycle `t` for field `n` of a cluster: F and SCOPE in range (log entry 64 for V = 0), and where
V is set no other field in force then, and no accepted change of one, meets it. -/
def FieldAccepted (t : Nat) (cl : Cluster) (n : Nat) (v : W64) : Prop :=
  bits v 48 9 ≤ 256 ∧ bits v 61 2 ≠ 3 ∧
  (v.getLsbD 63 = false ∨
    let cells := fun x : W64 => 2 ^ bits x 44 4 * 2 ^ bits x 40 4
    let meets := fun x : W64 => x.getLsbD 63 = true ∧ bits v 0 15 < bits x 0 15 + cells x ∧ bits x 0 15 < bits v 0 15 + cells v
    bits v 44 4 + bits v 40 4 ≤ 15 ∧ bits v 0 15 % cells v = 0 ∧ bits v 0 15 + cells v ≤ cl.msize * 4096 ∧
      v &&& ~~~0xF1FFFF0000007FFF#64 = 0 ∧ (∀ k, k < 8 → k ≠ n → ¬meets (mfcAt cl k t)) ∧
      ∀ k ∈ cl.mfcLog, t < k.e → k.n ≠ n → ¬meets k.v)

/-- R361: first host address, size and first device address of decoder `j` (log entry 13). -/
def decoderFrom (s : State) (j : Nat) : Nat := bits (tget s.mod.decoderBase j 0) 28 19 * 2 ^ 28
def decoderSize (s : State) (j : Nat) : Nat := bits (tget s.mod.decoderMap j 0) 40 24 * 65536
def decoderTo (s : State) (j : Nat) : Nat := bits (tget s.mod.decoderMap j 0) 0 40

/-- R361: decoder `j` maps a range: of one partition's banks outside the save areas. -/
def Decodes (s : State) (j : Nat) : Prop :=
  (tget s.mod.decoderBase j 0).getLsbD 63 = true ∧ decoderTo s j % 0x800000 + decoderSize s j ≤ 0x780000 ∧
    (s.cluster (decoderTo s j / 0x800000 / 8)).part ≠ none

/-- R361: decoder `i` maps `n` bytes of host physical address, none before it does, and they lie at device address `k`. -/
def HostMapped (s : State) (hpa n i k : Nat) : Prop :=
  let hit := fun j => Decodes s j ∧ decoderFrom s j ≤ hpa ∧ hpa + n ≤ decoderFrom s j + decoderSize s j
  i < 16 ∧ hit i ∧ (∀ j, j < i → ¬hit j) ∧ k = decoderTo s i + (hpa - decoderFrom s i)

/-- R361: no decoder maps any of `n` bytes of host physical address. -/
def HostOwn (s : State) (hpa n : Nat) : Prop :=
  0 < n ∧ ∀ j, j < 16 → Decodes s j → hpa + n ≤ decoderFrom s j ∨ decoderFrom s j + decoderSize s j ≤ hpa

/-- Every column of a span of device DRAM is sound. -/
def SoundSpan (s : State) (k n : Nat) : Prop :=
  0 < n ∧ k + n ≤ 0x10000000000 ∧ ∀ c, k / 32 ≤ c → c ≤ (k + n - 1) / 32 → Sound s (c / 0x40000) (c % 0x40000)

/-! ### Reset and reliability (R355 to R357, R373, R379) -/

/-- R355: the cycle of the Arbiter's event log. -/
def logTime (s : State) : Nat := s.mod.epoch + s.gtime

/-- R355 (log entry 34): since when a lasting fault counts after a reset: as before where it was still to be isolated, else, as it is isolated anew, from
the reset on. -/
def faultTime (s : State) (u : FaultUnit) (since : Nat) : Nat := if Log.fault u ∈ s.mod.log ∧ u ∉ s.mod.lasting then logTime s else since

/-- R355, R372, R373 (log entry 34): the module has been reset: DRAM, host memory and the event log are kept, with the Arbiter's counts and its clock; all
else is as `State.reset` has it. -/
def WasReset (w : Firmware) (s t : State) : Prop :=
  { t with cur := s.cur, agenda := s.agenda, choice := s.choice, moveNo := s.moveNo, freeNo := s.freeNo, nextId := s.nextId, mem := s.mem, banks := s.banks
           clusters := s.clusters, mod := s.mod } =
    { State.reset with cur := s.cur, agenda := s.agenda, choice := s.choice, moveNo := s.moveNo, freeNo := s.freeNo, nextId := s.nextId, mem := s.mem, banks := s.banks
                       clusters := s.clusters, mod := s.mod } ∧
  (∀ a, readByte t.mem a = if a < 0x1000000000000 then readByte s.mem a else 0) ∧
  (∀ g, let b := s.bank g
        t.bank g = { damage := b.damage, keys := b.keys, corrected := b.corrected, badCols := b.badCols, badRows := b.badRows
                     rewritten := b.rewritten, lasting := b.lasting.map (faultTime s (.bank g))
                     lastingRows := b.lastingRows.map fun x => (x.1, faultTime s (.row g x.1) x.2) }) ∧
  (∀ q, let cl := s.cluster q
        t.cluster q = { corrected := cl.corrected, uncorrected := cl.uncorrected, lasting := cl.lasting.map (faultTime s (.cluster q)) }) ∧
  t.mod = { log := s.mod.log, resets := s.mod.resets + 1, lasting := t.mod.lasting, fw := w, epoch := logTime s } ∧
  ∀ u, u ∈ t.mod.lasting ↔ Log.fault u ∈ s.mod.log

/-- R373: what runs after a reset. -/
def rebooted (w : Firmware) : Firmware := if w.pending then { w with active := 1 - w.active, pending := false, trial := true } else w

/-- R357: RASSTAT with a service request raised. -/
def served (m : Module) : Module := { m with rasstat := m.rasstat ||| 0x8000000000000000 }

/-- R355: the 17th most recent of the corrected errors lies within an hour of the newest. -/
def Many (l : List Nat) : Prop := ∃ a b, l.head? = some a ∧ l[16]? = some b ∧ a - b ≤ 3600000000000

/-- R377, R379: the point at which a cluster is to run: the slowest, not slower than the one requested (one slower while throttled), whose voltage meets
the floor. -/
def Target (p : Power) (w : Nat) : Prop :=
  let w0 := if p.throttled then min 5 (p.req + 1) else p.req
  w ≤ w0 ∧ (w = 0 ∨ p.floor ≤ Config.millivolts w) ∧ ∀ x, w < x → x ≤ w0 → Config.millivolts x < p.floor

/-- R368: some port of a route is up. -/
def RouteUp (m : Module) (l : Link) : Prop := ∃ i, i < 4 ∧ bits l.route (4 * i) 4 < 12 ∧ bits l.route (4 * i) 4 ∉ m.portDown

end Sys2Proof.Claim

open Sys2Proof Sys2Proof.Machine Sys2Proof.Claim

/-- R154, R336, R339: at its cycle a stop saves every hart of the partition at an instruction boundary, in a wait that it keeps, or at the instruction
that executes again; its tasks become resumable at GTIME. An AXMM stops at a row boundary (R251): a row whose C slot is written is published first. During a stop it saves nothing more; before its cycle nothing happens. -/
def Sys2Proof.Claim.ZugzwangStop : Prop :=
  ∀ s p T, (s.part p).stop = some T →
    (T ≤ s.gtime → (s.part p).stopped = false → s.ctxs.Pairwise (fun a b => a.1 < b.1) → s.tasks.Pairwise (fun a b => a.1 < b.1) →
      (∀ x ∈ s.ctxs, x.2.resident = true → x.2.part = p → Stoppable x.2) →
      ∃ t, exec (.zugzwangStop p) s = .next t ∧ t.mem = s.mem ∧
        t.part p = { s.part p with stop := none, stopped := true, stoppedAt := T, complete := false, flushed := [], routers := [] } ∧
        (∀ j, t.task j = if (s.task j).part = p ∧ (s.task j).phase = .placed then { s.task j with phase := .evicted, eligAt := s.gtime } else s.task j) ∧
        ∀ c, let h := s.ctx c
          if h.resident = true ∧ h.part = p then
            (t.ctx c).resident = false ∧ (t.ctx c).wait = keptWait h.wait ∧
              (t.ctx c).regs = (match h.wait with | .tyield _ => nextPc h.regs h.regs | _ => h.regs) ∧
              ∃ im, (t.ctx c).image = some im ∧ PadSaved s h.gcn im
          else t.ctx c = h ∨ SquashedAt s.gtime h (t.ctx c)) ∧
    (T ≤ s.gtime → (s.part p).stopped = false → s.ctxs.Pairwise (fun a b => a.1 < b.1) → ∀ c e n f q, residents s p = [c] →
      let h := s.ctx c
      h.chunk = none → h.wait = .none → h.halted = false → h.exited = none → h.armed = none → h.image = none → h.eng.aq = [e] →
      e.instr = .axmm n f q → e.rowDone = true → shAk (mmShape e) ≠ shCk (mmShape e) →
      ∃ t, exec (.zugzwangStop p) s = .next t ∧ (t.ctx c).resident = false ∧ RowCommitted s t c e []) ∧
    (T ≤ s.gtime → (s.part p).stopped = true → ∃ t, exec (.zugzwangStop p) s = .next t ∧ OnlyPart p s t { s.part p with stop := none }) ∧
    (s.gtime < T → exec (.zugzwangStop p) s = .next s)

/-- R337, R339: 64 cycles after a stop each die sends the flush token; a router that has it saves
the partition's requests in order (which router holds a packet is the model's choice, log entry 31); with every die
crossed and every context written the stop is complete; the Arbiter then resumes the partition: saved requests are injected again, or rejected where
their cluster has left it or is fenced (R356). A request to resume before that, or while a mark operation is under way to a cluster that its lender
has recalled (R16, R340) or a cluster of it is to be fenced (R355, R356), is held, and applied as the stop completes or once it can be. Saved gangs whose cores are free may be restored at once; which ones is a free value
(log entry 31). -/
def Sys2Proof.Claim.FlushAndResume : Prop :=
  ∀ s p,
    let k := s.part p
    (∀ d, k.stopped = true → k.stoppedAt + 64 ≤ s.gtime → d ∉ k.flushed →
      ∃ t, exec (.flushToken p d) s = .next t ∧ OnlyPart p s t { k with flushed := d :: k.flushed }) ∧
    (∀ d, k.stopped = false ∨ s.gtime < k.stoppedAt + 64 → exec (.flushToken p d) s = .next s) ∧
    (∀ q, k.stopped = true → q / 2048 ∈ k.flushed → q ∉ k.routers → (∀ x ∈ s.net, x.part = p → routerOf s x = q → isReply x.body = false) →
      ∃ t, exec (.routerFlush p q) s = .next t ∧ { t with net := s.net, parts := s.parts } = s ∧
        t.net = s.net.filter (fun x => !requestAt s p q x) ∧
        t.part p = { k with routers := q :: k.routers, saved := k.saved ++ s.net.filter (requestAt s p q) }) ∧
    (k.stopped = true → k.complete = false → k.resumeHeld = false → (∀ q ∈ clustersOf s p, q / 2048 ∈ k.flushed ∧ q ∈ k.routers) →
      (∀ x ∈ s.ctxs, x.2.part = p → x.2.resident = false) →
      ∃ t, exec (.stopComplete p) s = .next t ∧ OnlyPart p s t { k with complete := true }) ∧
    (k.stopped = true → k.complete = false → (∃ q ∈ clustersOf s p, q / 2048 ∉ k.flushed ∨ q ∉ k.routers) → exec (.stopComplete p) s = .next s) ∧
    (k.stopped = true → k.complete = true → ((∃ x, Recalled s p x ∧ marksIdle s x = false) ∨ faultHere s p = true) →
      ∃ t, exec (.partitionResume p) s = .next t ∧ OnlyPart p s t { k with resumeHeld := true }) ∧
    (k.stopped = true → k.resumeHeld = true → (∀ q ∈ clustersOf s p, q / 2048 ∈ k.flushed ∧ q ∈ k.routers) → (∀ x ∈ s.ctxs, x.2.part = p → x.2.resident = false) →
      ((∃ x, Recalled s p x ∧ marksIdle s x = false) ∨ faultHere s p = true) →
      ∃ t, exec (.stopComplete p) s = .next t ∧ OnlyPart p s t { k with complete := true }) ∧
    (∀ i, (i = .partitionResume p ∧ k.complete = true) ∨ (i = .stopComplete p ∧ k.resumeHeld = true ∧
        (∀ q ∈ clustersOf s p, q / 2048 ∈ k.flushed ∧ q ∈ k.routers) ∧ ∀ x ∈ s.ctxs, x.2.part = p → x.2.resident = false) →
      k.stopped = true → (∀ x, ¬Recalled s p x) → faultHere s p = false → ∃ t, exec i s = .next t ∧ t.part p = resumed s k ∧
      (NoReturn s p → { t with net := s.net, parts := s.parts } = s) ∧
      (s.tasks.Pairwise (fun a b => a.1 < b.1) → ∀ j, t.task j = s.task j ∨
        ((s.task j).part = p ∧ (s.task j).phase = .evicted ∧ t.task j = { s.task j with phase := .placed, residentAt := s.gtime })) ∧
      t.net = (k.saved.map fun x => match x.body with
        | .load _ | .store _ | .atomic .. =>
          if x.dev = none ∧ ((s.cluster x.pcn).fenced = true ∨ serves (s.cluster x.pcn) ≠ some p) then { x with body := .reject } else x
        | _ => x) ++ s.net) ∧
    (k.stopped = true → k.complete = false → ∃ t, exec (.partitionResume p) s = .next t ∧ OnlyPart p s t { k with resumeHeld := true }) ∧
    (k.stopped = false → exec (.partitionResume p) s = .next s)

/-- R61, R313, R315: an assigned cluster is cleared and appears at the next virtual cluster number, with XW0, WPT0 and a MSIZE of at most 8 set (its value
is a free value, log entry 2), its point held to the partition's cap (R366); a cluster is lent to another partition in the same way, and its own
partition's map entry reads PRESENT 0 meanwhile. A cluster that is fenced, or to be fenced for a lasting fault, is neither assigned nor lent (R355, R356). A borrower is assigned none (log entry 74). -/
def Sys2Proof.Claim.AssigningAndLending : Prop :=
  ∀ s p q, NoneLate s →
    let v := (s.part p).count
    let cl := s.cluster q
    (p < 256 → q < 16384 → v < 32768 → cl.part = none → cl.lent = none → cl.fenced = false → faulty s q = false → clusterIdle s q = true → marksIdle s q = true →
      (∀ x ∈ s.clusters, x.2.lent ≠ some p) →
      ∃ t, exec (.assignCluster p q) s = .next t ∧ Cleared q s t ∧ (t.cluster q).part = some p ∧ Entered (t.cluster q) (v + 1) ∧
        (t.cluster q).msize ≤ 8 ∧ UnderCap (s.part p).cap cl.power (t.cluster q).power ∧
        (t.part p).live = true ∧ (t.part p).count = v + 1 ∧
        (∀ j, tget (t.part p).map j 0 = if j = v then BitVec.ofNat 64 (2 ^ 63 + q) else tget (s.part p).map j 0) ∧
        (∀ x, serves (t.cluster x) = some p → tget (t.cluster x).wpt 0 0 = BitVec.ofNat 64 (2 ^ 63 + v * 2 ^ 32)) ∧
        (∀ x, x < 8 → (t.core (q * 8 + x)).rows = [] ∧ (t.core (q * 8 + x)).tags = []) ∧ t.ctxs = s.ctxs ∧ ∀ x, x ≠ p → t.part x = s.part x) ∧
    (256 ≤ p ∨ 16384 ≤ q ∨ cl.part.isSome = true ∨ cl.lent.isSome = true ∨ cl.fenced = true ∨ faulty s q = true ∨ clusterIdle s q = false ∨ marksIdle s q = false ∨
        (∃ x ∈ s.clusters, x.2.lent = some p) →
      exec (.assignCluster p q) s = .next s) ∧
    (cl.part = none ∨ cl.lent.isSome = true ∨ cl.fenced = true ∨ faulty s q = true ∨ clusterIdle s q = false ∨ marksIdle s q = false →
      exec (.lendCluster p q) s = .next s) ∧
    (∀ l w, cl.part = some l → l ≠ p → cl.lent = none → cl.fenced = false → faulty s q = false → (s.part p).live = true → clusterIdle s q = true →
      marksIdle s q = true → v < 32768 → vcnFor (s.part l) q = some w →
      ∃ t, exec (.lendCluster p q) s = .next t ∧ Cleared q s t ∧ (t.cluster q).part = some l ∧ (t.cluster q).lent = some p ∧
        Entered (t.cluster q) (v + 1) ∧ UnderCap (s.part p).cap cl.power (t.cluster q).power ∧ (t.part p).count = v + 1 ∧
        (∀ j, tget (t.part p).map j 0 = if j = v then BitVec.ofNat 64 (2 ^ 63 + q) else tget (s.part p).map j 0) ∧
        (∀ j, tget (t.part l).map j 0 = if j = w then BitVec.ofNat 64 q else tget (s.part l).map j 0) ∧ t.ctxs = s.ctxs)

/-- R340: a recall announces a stop of the borrower at the earliest accepted cycle or brings one forward; once it is complete, shared memory of the
cluster is saved under its virtual number, the cluster is cleared and returns to its lender, PRESENT there unless it is fenced, and the borrower
resumes; a request to resume that comes first does the same. While a mark operation is under way to the cluster (R16), or a
cluster of the borrower is to be fenced (R355, R356), the resumption is held. -/
def Sys2Proof.Claim.Recall : Prop :=
  ∀ s l b q w v, NoneLate s → l ≠ b → (s.cluster q).part = some l → (s.cluster q).lent = some b → s.clusters.Pairwise (fun x y => x.1 < y.1) →
    (∀ x ∈ s.clusters, x.2.part = some l → x.2.lent = some b → x.1 = q) → vcnFor (s.part l) q = some w → vcnFor (s.part b) q = some v →
    ((s.part b).stopped = false → ∃ t, exec (.recallLentClusters l b) s = .next t ∧
      OnlyPart b s t { s.part b with
        stop := some (match (s.part b).stop with | some u => min u (s.gtime + 2048) | none => s.gtime + 2048), recalls := (t.part b).recalls } ∧
      ∃ r ∈ (t.part b).recalls, r.1 = l) ∧
    (∀ i, i = .recallLentClusters l b ∨ (i = .partitionResume b ∧ ∃ r ∈ (s.part b).recalls, r.1 = l) →
      (s.part b).stopped = true → (s.part b).complete = true → marksIdle s q = true → faultHere s b = false → NoReturn s b → (∀ r ∈ (s.part b).recalls, r.1 = l) →
      ∃ t, exec i s = .next t ∧ Cleared q s t ∧ UnderCap (s.part l).cap (s.cluster q).power (t.cluster q).power ∧
      (t.cluster q).part = some l ∧ (t.cluster q).lent = none ∧ Entered (t.cluster q) (s.part l).count ∧
      (∀ j, tget (t.part l).map j 0 = if j = w then BitVec.ofNat 64 (if (s.cluster q).fenced then q else 2 ^ 63 + q) else tget (s.part l).map j 0) ∧
      (∀ j, tget (t.part b).map j 0 = if j = v then BitVec.ofNat 64 q else tget (s.part b).map j 0) ∧
      (t.part b).stopped = false ∧ (t.part b).complete = false ∧ (t.part b).recalls = [] ∧
      let im := tget (t.part b).shared v {}
      ∀ a, a < 0x40000 - (s.cluster q).msize * 0x2000 → readByte im.pad a = readByte s.mem (sramKey q 0x40000 + a)) ∧
    ((s.part b).stopped = true → (s.part b).complete = false ∨ marksIdle s q = false ∨ faultHere s b = true → ∃ t, exec (.recallLentClusters l b) s = .next t ∧
      OnlyPart b s t { s.part b with
        recalls := (t.part b).recalls, resumeHeld := (s.part b).resumeHeld || (s.part b).complete } ∧ ∃ r ∈ (t.part b).recalls, r.1 = l)

/-- R327, R328, R341, R372: withdrawing a partition ends every task of it with KILLED, then frees its clusters and returns those lent to it, cleared; it waits
while a cluster of its own is lent out. A migrating owner's queues are no longer read, and at the task boundary it leaves the device with its pointers,
memory (R315: SRAM of the clusters that serve its partition), full/empty bits and column metadata, its mailbox command that waits with it; its usage counters and its rename pool stay, and the barrier objects go with the last owner of the partition (log
entry 41). A number above 63 names no virtual function (R358). -/
def Sys2Proof.Claim.WithdrawalAndMigration : Prop :=
  (∀ s p, (s.part p).live = true →
    ((∃ x ∈ s.tasks, x.2.part = p ∧ x.2.phase ≠ .done) → ∃ t, exec (.withdrawPartition p) s = .next t ∧
      ∀ k, (∃ x ∈ s.tasks, x.1 = k) → (s.task k).part = p → (s.task k).phase ∉ [.ending, .recorded, .done] →
        (t.task k).phase = .ending ∧ (t.task k).status = some 4) ∧
    ((∀ x ∈ s.tasks, x.2.part = p → x.2.phase = .done) → (∃ x ∈ s.clusters, x.2.part = some p ∧ x.2.lent.isSome = true) →
      exec (.withdrawPartition p) s = .next s) ∧
    ((∀ x ∈ s.tasks, x.2.part = p → x.2.phase = .done) → (∀ x ∈ s.clusters, x.2.part = some p → x.2.lent = none) →
      NoneLate s → (∀ x ∈ s.clusters, x.2.lent = some p → marksIdle s x.1 = true ∧ ∃ l, (s.cluster x.1).part = some l ∧ l ≠ p) →
      ∃ t, exec (.withdrawPartition p) s = .next t ∧ t.part p = {} ∧ t.ctxs = s.ctxs ∧
        (∀ a, readByte t.mem a = if ∃ x ∈ s.clusters, x.2.lent = some p ∧ sramKey x.1 0 ≤ a ∧ a < sramKey x.1 0 + 0x80000
          then 0 else readByte s.mem a) ∧
        ∀ q, ((s.cluster q).lent = some p → (t.cluster q).lent = none ∧ (t.cluster q).part = (s.cluster q).part) ∧
          ((s.cluster q).lent = none → (s.cluster q).part = some p → (t.cluster q).part = none))) ∧
  (∀ s p, (s.part p).live = false → exec (.withdrawPartition p) s = .next s) ∧
  (∀ s f, 64 ≤ f → exec (.migrateOwner f) s = .next s) ∧
  ∀ s f, f < 64 →
    ((s.owner f).migrating = false → ∃ t, exec (.migrateOwner f) s = .next t ∧ OnlyOwner f s t { s.owner f with migrating := true }) ∧
    ((s.owner f).migrating = true → ownerBusy s f = false →
      let o := s.owner f
      let p := vfPart o
      let last := ∀ x ∈ s.owners, vfPart x.2 = p → x.1 = f
      let own := fun a => (a < 0x10000000000 ∧ (s.cluster (a / 0x4000000)).part = some p) ∨
        (0x1000000000000 ≤ a ∧ serves (s.cluster ((a - 0x1000000000000) / 0x200000)) = some p)
      ∃ t m, exec (.migrateOwner f) s = .next t ∧ { t with owners := s.owners, parts := s.parts, mod := s.mod } = s ∧
        t.owner f = { ucyc := o.ucyc, upass := o.upass, udram := o.udram, uenergy := o.uenergy, pool := o.pool, used := o.used } ∧ (∀ x, x ≠ f → t.owner x = s.owner x) ∧
        t.mod = { s.mod with moved := s.mod.moved ++ [m], doors := s.mod.doors.filter fun d => d ≠ f } ∧ m.vf = f ∧
        m.owner = { o with ucyc := 0, upass := 0, udram := 0, uenergy := 0, pool := [], used := [] } ∧
        (∀ a, (own a → readByte m.mem a = readByte s.mem a) ∧ (¬own a → readByte m.mem a = 0)) ∧
        (∀ w, tget m.fe w false = if 0x1000000000000 ≤ 8 * w ∧ own (8 * w) then tget s.fe w false else false) ∧
        (∀ g, tget m.mdata g [] = if (s.cluster (g / 8)).part = some p then (s.bank g).mdata else []) ∧
        (last → m.barriers = (s.part p).barriers ∧ t.part p = { s.part p with barriers := [] }) ∧
        (¬last → m.barriers = [] ∧ t.part p = s.part p) ∧ ∀ x, x ≠ p → t.part x = s.part x) ∧
    ((s.owner f).migrating = true → ownerBusy s f = true → exec (.migrateOwner f) s = .next s)

/-- R221, R223, R366, R367, R372: the mailbox commands: FIELD gives the effect cycle of an accepted change, TICKS the number of its first tick, SNAPSHOT
the usage record with a signature, CAP sets the cap and requests it at clusters that run, or are asked to run, faster (log entry 52); a request that breaks the rules ends with
status 1 and is logged; commands run in the order of their MBDOOR writes. The effect cycle is a free value of at least 4,096 cycles (log entry 47); that a
configuration with V = 0 is checked for F and SCOPE, and that the record shows whole microjoules, are the model's choices (log entries 64 and 60). -/
def Obligations.MailboxCommands : Prop :=
  ∀ s f,
    let o := s.owner f
    let p := vfPart o
    let x := fun i => tget o.mbreq i 0
    (NextCommand s f 1 →
      let n := request o 2
      (∀ q, clusterAt (s.part p) (bits (x 0) 0 15) = some q → (x 0).getLsbD 15 = false → n < 8 → RequestOnly o [(0, 3), (8, 8)] →
        (FieldAccepted s.gtime (s.cluster q) n (x 1) →
          ∃ t e, exec (.field f) s = .next t ∧ s.gtime + 4096 ≤ e ∧ Answered f 0 (bytesOf 8 e) s t ∧ t.mem = s.mem ∧ t.ctxs = s.ctxs ∧
            { t.cluster q with mfcLog := (s.cluster q).mfcLog, mfcNext := (s.cluster q).mfcNext } = s.cluster q ∧
            let k : MarkChange := { n := n, e := e, v := x 1 &&& 0xF1FFFF0000007FFF }
            (∀ y, y ∈ (t.cluster q).mfcLog ↔ y = k ∨ y ∈ (s.cluster q).mfcLog) ∧ (∀ y, y ∈ (t.cluster q).mfcNext ↔ y = k ∨ y ∈ (s.cluster q).mfcNext)) ∧
        (¬FieldAccepted s.gtime (s.cluster q) n (x 1) → ∃ t, exec (.field f) s = .next t ∧ RefusedCommand f s t)) ∧
      (clusterAt (s.part p) (bits (x 0) 0 15) = none ∨ (x 0).getLsbD 15 = true ∨ 8 ≤ n ∨ ¬RequestOnly o [(0, 3), (8, 8)] →
        ∃ t, exec (.field f) s = .next t ∧ RefusedCommand f s t)) ∧
    (NextCommand s f 2 →
      let b := (x 0).toNat
      let i := (x 1).toNat
      let ok := RequestOnly o [(0, 16)] ∧ i < 2 ^ 32 ∧ (i = 0 ∨ 4096 ≤ i) ∧ s.gtime + 2048 ≤ b
      (ok → ∀ i', OneSchedule s p i' →
        let first := (s.part p).tksn + (b - 1 - (s.part p).tksb) / i' + 1
        ∃ t, exec (.ticks f) s = .next t ∧ Answered f 0 (bytesOf 8 first) s t ∧
          t.part p = { s.part p with oldTk := [((s.part p).tksb, (s.part p).tksn, i')], tksb := b, tksn := first, tksi := i }) ∧
      (¬ok → ∃ t, exec (.ticks f) s = .next t ∧ RefusedCommand f s t)) ∧
    (NextCommand s f 3 →
      (RequestOnly o [(0, 32)] → ∃ t sig, exec (.snapshot f) s = .next t ∧ sig.length = 132 ∧ { t with owners := s.owners, mod := s.mod } = s ∧
        Answered f 0 (bytesOf 8 o.ucyc.toNat ++ bytesOf 8 o.upass.toNat ++ bytesOf 8 o.udram.toNat ++ bytesOf 8 (o.uenergy.floor.toNat % 2 ^ 64) ++
          bytesOf 8 s.gtime ++ bytesOf 8 s.mod.resets ++ ((List.range 32).map fun i => BitVec.ofNat 8 (request o i)) ++
          bytesOf 2 f ++ bytesOf 6 0 ++ sig) s t) ∧
      (¬RequestOnly o [(0, 32)] → ∃ t, exec (.snapshot f) s = .next t ∧ RefusedCommand f s t)) ∧
    (NextCommand s f 4 →
      let c := request o 0
      (RequestOnly o [(0, 1)] → c ≤ 5 → ∃ t, exec (.cap f) s = .next t ∧ Answered f 0 [BitVec.ofNat 8 c] s t ∧ t.part p = { s.part p with cap := c } ∧
        ∀ q, serves (s.cluster q) = some p → UnderCap c (s.cluster q).power (t.cluster q).power) ∧
      (¬RequestOnly o [(0, 1)] ∨ 5 < c → ∃ t, exec (.cap f) s = .next t ∧ RefusedCommand f s t)) ∧
    (∀ k, NextCommand s f k → k < 1 ∨ 4 < k → ∃ t, exec (.mailboxUnknown f) s = .next t ∧ RefusedCommand f s t) ∧
    (s.mod.doors.head? ≠ some f → ∀ i ∈ [Instr.field f, .ticks f, .snapshot f, .cap f, .mailboxUnknown f], exec i s = .next s)

/-- R63, R361, R374: the host reads and writes device DRAM through the first CXL.mem decoder that maps the bytes, and its own memory where none maps any of
them; an address above 2^47, which no physical address of the device names, faults (log entry 8: the spec gives it no effect; how a decoder divides its words
is the model's choice, log entry 13); an attestation request of PF0 or a virtual function is answered
with the SHA-512 digests of the firmware slots (FIPS 180-4, and the digested bytes of a partition, are the choice of log entry 65), the active slot and its version, and for a virtual function that of its partition. -/
def Obligations.HostAccesses : Prop :=
  (∀ s hpa l,
    (∀ i k, cool s = true → hpa + l.length ≤ 2 ^ 47 → HostMapped s hpa l.length i k → SoundSpan s k l.length →
      (∃ t, exec (.hostMemAccess true hpa l) s = .next t ∧ { t with mem := s.mem, banks := s.banks } = s ∧ Written s t k l) ∧
      (∃ t, exec (.hostMemAccess false hpa l) s = .next t ∧ { t with banks := s.banks, mod := s.mod } = s ∧
        t.mod = { s.mod with hostRead := memBytes s k l.length })) ∧
    (cool s = true → hpa + l.length ≤ 2 ^ 47 → HostOwn s hpa l.length →
      (∃ t, exec (.hostMemAccess true hpa l) s = .next t ∧ { t with mem := s.mem } = s ∧ Written s t (0x800000000000 + hpa) l) ∧
      exec (.hostMemAccess false hpa l) s =
        .next { s with mod := { s.mod with hostRead := memBytes s (0x800000000000 + hpa) l.length } }) ∧
    (2 ^ 47 < hpa + l.length → ∀ w, exec (.hostMemAccess w hpa l) s = .fault .noHostAddress)) ∧
  (∀ s fn, 64 < fn → exec (.spdmRequest fn) s = .next s) ∧
  ∀ s fn, fn ≤ 64 → ∃ t l, exec (.spdmRequest fn) s = .next t ∧ t = { s with mod := { s.mod with spdm := s.mod.spdm ++ [l] } } ∧
    l.take 64 = sha512 s.mod.fw.image0 ∧ (l.drop 64).take 64 = sha512 s.mod.fw.image1 ∧
    l.length = (if fn = 0 then 269 else 333) ∧ l[128]? = some (BitVec.ofNat 8 s.mod.fw.active) ∧
    (l.drop 129).take 8 = bytesOf 8 (if s.mod.fw.active = 0 then s.mod.fw.version0 else s.mod.fw.version1)

/-- R355, R372, R373, R379 (what a reset keeps is deduced, log entry 34): module reset, also at 115 °C (logged) and where an image on trial is not healthy
within 2 s (logged): the other slot runs, on trial if an image was accepted meanwhile (the model's choice, log entry 49). An
image is stored in the inactive slot and switched in at the next reset if its signature verifies and its version is not below the fused minimum, else the
refusal is logged; a healthy report raises the minimum. -/
def Obligations.ResetAndFirmware : Prop :=
  ∀ s,
    let w := s.mod.fw
    (∃ t, exec .moduleReset s = .next t ∧ WasReset (rebooted w) s t) ∧
    (∃ t, exec .thermalReset s = .next t ∧ WasReset (rebooted w) (logged .thermal s) t) ∧
    (∀ im n, Config.signatureValid im = true → w.fused ≤ n → exec (.firmwareImage im n) s = .next { s with mod := { s.mod with
      fw := if w.active = 0 then { w with image1 := im, version1 := n, pending := true } else { w with image0 := im, version0 := n, pending := true } } }) ∧
    (∀ im n, Config.signatureValid im = false ∨ n < w.fused → exec (.firmwareImage im n) s = .next (logged (.refused 0x373) s)) ∧
    (w.trial = true → s.gtime ≤ 2000000000 → exec .firmwareHealthy s = .next { s with mod := { s.mod with
      fw := { w with trial := false, fused := max w.fused (if w.active = 0 then w.version0 else w.version1) } } }) ∧
    (w.trial = true → 2000000000 ≤ s.gtime → ∃ t, exec .firmwareHealthTimeout s = .next t ∧
      WasReset { w with active := 1 - w.active, trial := w.pending, pending := false } (logged .firmware s) t) ∧
    (w.trial = false → exec .firmwareHealthy s = .next s ∧ exec .firmwareHealthTimeout s = .next s)

/-- R211, R368 to R371: a store to a linked cluster takes the pair's next sequence number and waits for its acknowledgement. The next operation of a pair's
sequence is applied under the receiver's checks, once no write that a release covers still has to reach its bytes (R204, R205), and answered, from a device that is not paired rejected; an earlier number is answered again and
discarded, a later one waits, and none arrives while no port of the route is up. One port carries a pair's traffic: the first of its route that is up,
until it goes down, which is logged; then the first that is up takes over and carries again what is not acknowledged, under its numbers (that traffic does not
go back to a port that comes up again is the model's choice, log entry 105). A route without a port that is up starts its timeout; after 1,000,000 cycles a posted store that is not acknowledged
becomes a pending REMOTE_STORE, and an entry whose data are not acknowledged fails. Route nibbles 12 to 15 name no port (log entry 13). -/
def Obligations.DeviceLinks : Prop :=
  (∀ s c i n d a imm q dev, HartAlone s c → storeForm i = some (n, d, a, imm) →
    let h := s.ctx c
    let ea := getG h.regs a + imm.signExtend 64
    let l := tget s.mod.links dev {}
    ea.getLsbD 63 = true → ea.toNat % n = 0 → senderCheck s h ea true false = .ok q (some dev) →
    ∃ t k, exec i s = .next t ∧ t.net = s.net ++ [k] ∧ k.id = s.nextId ∧ k.dev = some dev ∧ k.seq = l.seqOut ∧
      k.body = .store (bytesOf n (getG h.regs d).toNat) ∧ (t.ctx c).regs = nextPc h.regs h.regs ∧
      let y := tget t.mod.links dev {}
      { y with port := l.port, down := l.down, sent := l.sent } = { l with seqOut := l.seqOut + 1, unacked := l.unacked ++ [k] } ∧
        Carrier s.mod l l.port y.port ∧ y.sent = l.sent ++ (match y.port with | some p => [(l.seqOut, p)] | none => [])) ∧
  (∀ s dev,
    let l := tget s.mod.links dev {}
    let answers := fun (t : State) n (v : Option (List Byte)) => ∀ j, tget t.mod.links j {} =
      if j = dev then { l with seqIn := max l.seqIn (n + 1), answers := l.answers ++ [(n, v)] } else tget s.mod.links j {}
    let still := ∀ x ∈ s.ctxs, x.2.chunk = none
    (∀ n pd op, l.seqIn < n ∨ ¬RouteUp s.mod l → exec (.linkOpReceive dev n pd op) s = .next s) ∧
    (∀ n pd op v, RouteUp s.mod l → n < l.seqIn → (∀ x ∈ l.answers, x.1 = n → x.2 = v) → (∃ x ∈ l.answers, x.1 = n) →
      ∃ t, exec (.linkOpReceive dev n pd op) s = .next t ∧ { t with mod := s.mod } = s ∧ answers t n v) ∧
    (∀ op, RouteUp s.mod l → linkBusy s op = true → exec (.linkOpReceive dev l.seqIn true op) s = .next s) ∧
    (RouteUp s.mod l → cool s = true →
      let receives := fun op (v : Option (List Byte)) (P : State → Prop) => linkBusy s op = false →
        ∃ t, exec (.linkOpReceive dev l.seqIn true op) s = .next t ∧ answers t l.seqIn v ∧ P t
      (∀ q ofs n o, receive (s.cluster q) ofs n 0 = some o →
        receives (.load q ofs n) (some (memBytes s (sramKey q o) n)) fun t => { t with mod := s.mod } = s) ∧
      (∀ q ofs b o, receive (s.cluster q) ofs b.length 1 = some o → remoteLocked s q o b.length = false → still →
        receives (.store q ofs b) (some []) fun t => t.ctxs = s.ctxs ∧ Written s t (sramKey q o) b ∧ t.fe = s.fe) ∧
      (∀ q ofs b o, receive (s.cluster q) ofs (max 1 b.length) 1 = some o → remoteLocked s q o b.length = false → still →
        receives (.put q ofs b) (some []) fun t => t.ctxs = s.ctxs ∧ Written s t (sramKey q o) b ∧ Bits s t (wordsOf (sramKey q o) b.length) true) ∧
      (∀ q ofs y e o, receive (s.cluster q) ofs 8 2 = some o → remoteLocked s q o 8 = false → still →
        receives (.atomic q ofs 3 y e) (some (memBytes s (sramKey q o) 8)) fun t => t.ctxs = s.ctxs) ∧
      (∀ q core n c, s.residentOn (q * 8 + core) = some c → receives (.bump q core n) (some []) fun t =>
        t.mem = s.mem ∧ ∀ j, counter t c j = if j = n % 64 then counter s c j + 1 else counter s c j) ∧
      (∀ hpa b i k, HostMapped s hpa b.length i k → SoundSpan s k b.length → receives (.write hpa b) (some []) fun t => Written s t k b) ∧
      (∀ hpa n i k, HostMapped s hpa n i k → SoundSpan s k n → receives (.read hpa n) (some (memBytes s k n)) fun t =>
        ∀ a, readByte t.mem a = readByte s.mem a) ∧
      ∀ q ofs n b core y e k, ∀ op ∈ [LinkOp.load q ofs n, .store q ofs b, .put q ofs b, .atomic q ofs k y e, .bump q core n],
        ∃ t, exec (.linkOpReceive dev l.seqIn false op) s = .next t ∧ { t with mod := s.mod } = s ∧ answers t l.seqIn none)) ∧
  (∀ s p,
    let rerouted := fun (t : State) => { t with mod := s.mod } = s ∧ ∀ j, (∃ x ∈ s.mod.links, x.1 = j) →
      Rerouted s.gtime t.mod (tget s.mod.links j {}) (tget t.mod.links j {})
    (p < 12 → p ∉ s.mod.portDown → ∃ t, exec (.linkPortDown p) s = .next t ∧
      rerouted t ∧ t.mod.portDown = p :: s.mod.portDown ∧ t.mod.log = s.mod.log ++ [.port p]) ∧
    (p ∈ s.mod.portDown ∨ 12 ≤ p → exec (.linkPortDown p) s = .next s) ∧
    ∃ t, exec (.linkPortUp p) s = .next t ∧ rerouted t ∧ t.mod.log = s.mod.log ∧
      ∀ x, x ∈ t.mod.portDown ↔ x ∈ s.mod.portDown ∧ x ≠ p) ∧
  ∀ s dev,
    let l := tget s.mod.links dev {}
    (∀ u, l.down = none ∨ (l.down = some u ∧ s.gtime < u + 1000000) → exec (.linkRouteTimeout dev) s = .next s) ∧
    ∀ u k, l.down = some u → u + 1000000 ≤ s.gtime → l.unacked = [k] → k.dev = some dev → (s.ctx k.cid).exited = none →
      (s.ctx k.cid).wait = .none →
      (∀ b, k.body = .store b → (∃ o ∈ (s.ctx k.cid).outst, o.id = k.id) → (∀ x ∈ s.ctxs, x.2.eng.q = []) →
        ∃ t, exec (.linkRouteTimeout dev) s = .next t ∧ t.mem = s.mem ∧
          (t.ctx k.cid).pendStores = (s.ctx k.cid).pendStores ++ [k.addr] ∧ tget t.mod.links dev {} = { l with unacked := [] }) ∧
      (∀ b eid, k.body = .put b eid → (∀ e ∈ (s.ctx k.cid).eng.q, e.eid = eid → e.failed = none ∧ isGet e.kind = false) →
        ∃ t, exec (.linkRouteTimeout dev) s = .next t ∧ t.mem = s.mem ∧ tget t.mod.links dev {} = { l with unacked := [] } ∧
          ∀ e ∈ (t.ctx k.cid).eng.q, e.eid = eid → e.failed = some k.addr)

/-- R376, R377, R379: the governor's request by the ratio of STL to ACT, never faster than the cap; a step of one point at a time, the clock rising only
once the voltage has settled; a floor above the present voltage makes the cluster step up, and a slower request under way is denied and logged;
throttling by one point while a limit is exceeded, one cluster per 100 µs in turn. That the cap bounds a slower request too (log entry 52), and that a
throttled cluster keeps its floor and the denial is logged, are the model's reading (log entry 26). -/
def Obligations.OperatingPoints : Prop :=
  ∀ s q,
    let cl := s.cluster q
    let p := cl.power
    let cap := match serves cl with | some x => (s.part x).cap | none => 0
    let reset := { p with act := 0, stl := 0 }
    let denied := fun (t : State) => t.mod = { s.mod with log := s.mod.log ++ [.denied q] }
    (s.gtime % 10000 = 0 → p.floor ≤ 600 →
      ∃ t, exec (.governorEval q) s = .next t ∧ OnlyCluster q s t { cl with power :=
        if 0 < p.act ∧ p.act ≤ 2 * p.stl ∧ p.point < 5 then { reset with req := max (p.point + 1) cap }
        else if 0 < p.act ∧ 5 * p.stl ≤ p.act ∧ 0 < p.point ∧ cap ≤ p.point - 1 then { reset with req := p.point - 1 } else reset }) ∧
    (s.gtime % 10000 ≠ 0 → exec (.governorEval q) s = .next s) ∧
    (0 < p.act → p.act ≤ 2 * p.stl → p.point < 5 → s.gtime % 10000 = 0 → Config.millivolts (max (p.point + 1) cap) < p.floor →
      ∃ t, exec (.governorEval q) s = .next t ∧ (t.cluster q).power = reset ∧ denied t) ∧
    (∀ w, Target p w →
      (p.stepping = none → p.point < w →
        ∃ t, exec (.operatingPointStep q) s = .next t ∧ OnlyCluster q s t { cl with power := { p with point := p.point + 1 } }) ∧
      (p.stepping = none → w < p.point → ∃ t, exec (.operatingPointStep q) s = .next t ∧
        OnlyCluster q s t { cl with power := { p with stepping := some (p.point - 1), stepSince := s.gtime } }) ∧
      (p.stepping.isSome = true ∨ p.point = w → exec (.operatingPointStep q) s = .next s)) ∧
    (∀ n, p.stepping = some n →
      ∃ t, exec (.voltageSettled q) s = .next t ∧ OnlyCluster q s t { cl with power := { p with point := n, stepping := none } }) ∧
    (∀ mv, mv ≤ Config.millivolts p.req →
      ∃ t, exec (.voltageFloorChange q mv) s = .next t ∧ OnlyCluster q s t { cl with power := { p with floor := mv } }) ∧
    (∀ mv, Config.millivolts p.req < mv → mv ≤ 850 → ∃ t r, exec (.voltageFloorChange q mv) s = .next t ∧
      OnlyCluster q { s with mod := t.mod } t { cl with power := { p with floor := mv, req := r } } ∧ r ≤ p.point ∧ mv ≤ Config.millivolts r ∧
        (∀ x, r < x → x ≤ p.point → Config.millivolts x < mv) ∧ (p.req ≠ p.point → denied t) ∧ (p.req = p.point → t.mod = s.mod)) ∧
    (q < 16384 → p.throttled = false → (s.mod.overLimit = false ∨
      (s.mod.lastThrottle + 100000 ≤ s.gtime ∧ (q = (s.mod.lastTaken + 1) % 16384 ∨ nextInTurn s q = true))) →
      ∃ t, exec (.powerThrottle q) s = .next t ∧ OnlyCluster q { s with mod := t.mod } t { cl with power := { p with throttled := true } } ∧
        { t.mod with log := s.mod.log } = { s.mod with overLimit := true, lastThrottle := s.gtime, lastTaken := q } ∧
        t.mod.log = if Config.millivolts (min 5 (p.req + 1)) < p.floor then s.mod.log ++ [.denied q] else s.mod.log) ∧
    (s.mod.overLimit = true → s.gtime < s.mod.lastThrottle + 100000 ∨ nextInTurn s q = false → exec (.powerThrottle q) s = .next s) ∧
    (16384 ≤ q ∨ p.throttled = true → exec (.powerThrottle q) s = .next s) ∧
    ∃ t, exec .powerLimitCleared s = .next t ∧ { t with clusters := s.clusters } = { s with mod := { s.mod with overLimit := false } } ∧
      t.cluster q = { cl with power := { p with throttled := false } }

/-- R68, R129, R199, R355: a soft error flips a stored bit of a column, is counted, or halts the core that meets it, whose chunk commits first. The 17th corrected error of a bank or a
cluster within an hour, the second uncorrectable event of a row and the first uncorrectable error of a cluster make the fault lasting, which is logged once
and raises a service request. -/
def Sys2Proof.Claim.ErrorsAndLastingFaults : Prop :=
  (∀ s g col n, n < 288 → (∀ c, (tget (s.bank g).damage c []).Pairwise (· < ·)) →
    ∃ t, exec (.softError (.column g col n)) s = .next t ∧ { t with banks := s.banks } = s ∧ (∀ b, b ≠ g → t.bank b = s.bank b) ∧
      ∀ c x, x ∈ tget (t.bank g).damage c [] ↔ if c = col ∧ x = n then x ∉ tget (s.bank g).damage c [] else x ∈ tget (s.bank g).damage c []) ∧
  (∀ s q,
    let cl := s.cluster q
    let l := (logTime s :: cl.corrected).take 17
    ∃ t u, exec (.softError (.clusterCorrected q)) s = .next t ∧ OnlyCluster q s t { cl with corrected := l, lasting := u } ∧
      (cl.lasting ≠ none → u = cl.lasting) ∧ (cl.lasting = none → Many l → u = some (logTime s)) ∧ (cl.lasting = none → ¬Many l → u = none)) ∧
  (∀ s q core c, s.residentOn (q * 8 + core) = some c → ∃ t, exec (.softError (.clusterUncorrectable q core)) s = .next t ∧
    let u := commitChunk c s
    t.mem = u.mem ∧ t.ctx c = { u.ctx c with halted := true, armed := none } ∧ OtherHarts c u t ∧
    t.cluster q = { s.cluster q with uncorrected := true, lasting := some ((s.cluster q).lasting.getD (logTime s)) }) ∧
  (∀ s g col src,
    let b := s.bank g
    let t := (readCol g col src s).2.bank g
    let found := checkCol (gradeOf b col) g col (tget b.damage col [])
    (found = .corrected → t.corrected = (logTime s :: b.corrected).take 17 ∧ (b.lasting = none → Many t.corrected → t.lasting = some (logTime s)) ∧
      (b.lasting = none → ¬Many t.corrected → t.lasting = none) ∧ (b.lasting ≠ none → t.lasting = b.lasting)) ∧
    (found = .uncorrectable → col ∉ b.badCols → tget t.badRows (col / 32) 0 = tget b.badRows (col / 32) 0 + 1 ∧
      (1 ≤ tget b.badRows (col / 32) 0 → ∃ x ∈ t.lastingRows, x.1 = col / 32)) ∧
    (found = .uncorrectable → col ∈ b.badCols → t.badRows = b.badRows ∧ t.lastingRows = b.lastingRows)) ∧
  ∀ s u,
    let lasting := match u with
      | .bank g => (s.bank g).lasting ≠ none
      | .row g r => ∃ x ∈ (s.bank g).lastingRows, x.1 = r
      | .cluster q => (s.cluster q).lasting ≠ none
    let known := u ∈ s.mod.lasting ∨ Log.fault u ∈ s.mod.log
    (lasting → ¬known → exec (.lastingFault u) s = .next { s with mod :=
      { served s.mod with lasting := s.mod.lasting ++ [u], log := s.mod.log ++ [.fault u] } }) ∧
    (¬lasting ∨ known → exec (.lastingFault u) s = .next s)

/-- R356, R357: a lasting fault of a row retires its 64 KiB frame; of a bank, its frames outside the save area, and its cluster is fenced, once for all
its faults: at once where it serves no partition, else once the stop of its partition is complete, which is announced at the earliest accepted cycle or, where
one was announced for later, brought forward (the model's choice, log entry 49); the gangs of its VCN end with KILLED, in its lender's partition too; of a cluster that is lent
the borrower stops (the model's choice, log entry 87). A transfer that has translated a page of a frame that is retired, and not
moved its bytes, translates them anew. -/
def Sys2Proof.Claim.Isolation : Prop :=
  ∀ s,
    (∀ u, u ∉ s.mod.lasting → exec (.isolateFault u) s = .next s) ∧
    (∀ g r, FaultUnit.row g r ∈ s.mod.lasting → r / 64 ∉ (s.bank g).retired → (s.cluster (g / 8)).part = none → NoParts s →
      ∃ t, exec (.isolateFault (.row g r)) s = .next t ∧ { t with banks := s.banks, mod := s.mod } = s ∧
        t.bank g = { s.bank g with retired := r / 64 :: (s.bank g).retired } ∧ (∀ x, x ≠ g → t.bank x = s.bank x) ∧
        t.mod = { served s.mod with rasstat := (served s.mod).rasstat + 1, lasting := s.mod.lasting.erase (.row g r) }) ∧
    (∀ g, FaultUnit.bank g ∈ s.mod.lasting → (s.bank g).retired = [] → (s.cluster (g / 8)).part = none → (s.cluster (g / 8)).lent = none →
      NoParts s →
      ∃ t, exec (.isolateFault (.bank g)) s = .next t ∧ t.mem = s.mem ∧ t.ctxs = s.ctxs ∧ (∀ f, f ∈ (t.bank g).retired ↔ f < 120) ∧
        (t.cluster (g / 8)).fenced = true ∧
        t.mod = { served s.mod with
          rasstat := (served s.mod).rasstat + 120 + (if (s.cluster (g / 8)).fenced then 0 else 0x100000000)
          lasting := s.mod.lasting.erase (.bank g) }) ∧
    (∀ g r c e l p, FaultUnit.row g r ∈ s.mod.lasting → Canonical s → Oldest s c e l → e.part = [p] → p.off = 0 → e.pos = 0 → e.hold = [] →
      0 < p.len → p.il = 0 → p.base = g * 0x800000 + r / 64 * 0x10000 → g < 131072 → r < 8192 → p.poff + p.len ≤ 0x10000 →
      (∀ x ∈ l, x.part = []) → (∀ x ∈ s.ctxs, x.1 ≠ c → ∀ y ∈ x.2.eng.q, y.part = []) →
      ∃ t, exec (.isolateFault (.row g r)) s = .next t ∧ (t.ctx c).eng.q = { e with xlated := 0, part := [] } :: l) ∧
    (∀ q, FaultUnit.cluster q ∈ s.mod.lasting → (s.cluster q).fenced = true →
      exec (.isolateFault (.cluster q)) s = .next { s with mod := { served s.mod with lasting := s.mod.lasting.erase (.cluster q) } }) ∧
    (∀ q p, FaultUnit.cluster q ∈ s.mod.lasting → (s.cluster q).fenced = false → serves (s.cluster q) = some p → (s.part p).stopped = false →
      ∃ t, exec (.isolateFault (.cluster q)) s = .next t ∧ t.mem = s.mem ∧ t.ctxs = s.ctxs ∧ t.clusters = s.clusters ∧
        t.part p = { s.part p with stop := some (min ((s.part p).stop.getD (s.gtime + 2048)) (s.gtime + 2048)) } ∧ t.mod = served s.mod) ∧
    ∀ q p v, FaultUnit.cluster q ∈ s.mod.lasting → (s.cluster q).fenced = false → serves (s.cluster q) = some p → (s.part p).stopped = true →
      (s.part p).complete = true → (∀ x, ¬Recalled s p x) → (∀ x, x ≠ q → serves (s.cluster x) = some p → faulty s x = false) →
      vcnFor (s.part p) q = some v →
      ∃ t, exec (.isolateFault (.cluster q)) s = .next t ∧ (t.cluster q).fenced = true ∧ (t.part p).stopped = false ∧
        (∀ j, tget (t.part p).map j 0 = if j = v then BitVec.ofNat 64 q else tget (s.part p).map j 0) ∧
        (∀ k, (∃ x ∈ s.tasks, x.1 = k) → (s.task k).part = p → (s.task k).vcn = v → (s.task k).phase ∈ [.placed, .evicted, .exited] →
          (t.task k).phase = .ending ∧ (t.task k).status = some 4) ∧
        (∀ o w, (s.cluster q).part = some o → o ≠ p → vcnFor (s.part o) q = some w →
          ∀ k, (∃ x ∈ s.tasks, x.1 = k) → (s.task k).part = o → (s.task k).vcn = w → (s.task k).phase ∈ [.placed, .evicted, .exited] →
            (t.task k).phase = .ending ∧ (t.task k).status = some 4) ∧
        t.mod.rasstat = (served s.mod).rasstat + 0x100000000 ∧ t.mod.lasting = s.mod.lasting.erase (.cluster q)

/-- R285, R349: a region that no entry maps takes a new grade: its 32 columns keep their data and their metadata reads zero; a region that is mapped
with its grade, or lies outside the bank, is refused. -/
def Sys2Proof.Claim.GradeChanges : Prop :=
  ∀ s g r gr, g < 131072 →
    let n := match gr with | Grade.s => 0 | .d => 1 | .p => 2
    (cool s = true → r < 8192 → gradeMapped s g r (tget (s.bank g).grades r 0) = false → (∀ c, c / 32 = r → Sound s g c) →
      ∃ t, exec (.gradeChange g r gr) s = .next t ∧ { t with mem := s.mem, banks := s.banks } = s ∧ (∀ a, readByte t.mem a = readByte s.mem a) ∧
        (∀ x, tget (t.bank g).grades x 0 = if x = r then n else tget (s.bank g).grades x 0) ∧
        (∀ c, c / 32 = r → tget (t.bank g).mdata c 0 = 0) ∧ (∀ c, c / 32 ≠ r → tget (t.bank g).mdata c 0 = tget (s.bank g).mdata c 0) ∧
        ∀ b, b ≠ g → t.bank b = s.bank b) ∧
    (8192 ≤ r ∨ gradeMapped s g r (tget (s.bank g).grades r 0) = true → exec (.gradeChange g r gr) s = .next s)
namespace Sys2Proof.Claim
open Sys2Proof.Machine

/-! ### Steps, words and reset (R29, R30, R76 to R83, R132, R282) -/

/-- R29, R30, R132, R199: the next move is hart `c`'s, and the hart issues an instruction: nothing stops it, nothing is to be taken first, its chunk has
room, it waits for nothing, or issues again an instruction that a release held back (R384). -/
structure Next (s : State) (c : Nat) (r : List Move) : Prop where
  turn : s.soloTurn = none ∧ s.agenda = .hart c :: r
  live : Live s c
  running : stopReached s (s.ctx c) = false
  notSolo : (s.ctx c).solo = false
  nothing : (s.ctx c).recorded = none ∧ pendingAsync (s.ctx c) = false ∧ takenInterrupt s (s.ctx c) = none
  ready : (s.ctx c).wait = .none ∨ (s.ctx c).wait = .acks
  room : ∀ k, (s.ctx c).chunk = some k → k.closed = false

/-- Words of the spec's examples and encoding tables, written out, with their instructions. -/
def knownWords : List (W32 × Instr) :=
  [(0x04430005, .addi 2 3 5), (0x20800012, .lui 4 0x12), (0x28853001, .mul 4 5 6), (0x80221941, .fadd 1 2 3 5 1)] ++
  [(0xC4000001, .ecall 0 0 0 0), (0xC4000002, .ebreak 0 0 0 0), (0xC4000003, .tret), (0xC8A00001, .csrr 5 0x001)] ++
  [(0x9CA13002, .rwf 5 1 6), (0xA00C6801, .dep 12 13), (0xA0AC6803, .sns4 5 12 13), (0xA00C0008, .tkwait 12)] ++
  [(0xA46C0001, .axsetv 3 12), (0xA42C6802, .axsets 1 12 13), (0xA8400A81, .axeAdd 2 0 1 10), (0xAC000082, .axmm 0 2 2)] ++
  [(0xB02C6901, .axmatch 1 12 13 4), (0xB44C6801, .axld 2 12 13), (0xB40C6845, .axlive 12 13 1), (0xB80C6B83, .bkcopy 12 13 14)] ++
  [(0xB8000004, .bkfence), (0xBC000004, .mfence), (0xE0450001, .cld 2 5), (0xE46112C4, .laneFma 3 1 2 11), (0xE4C40014, .lget 6 4 0)] ++
  [(0xE8060001, .bdone 6)]

/-- R203, R205, R208 (log entry 53): what an issue of word `w` notes of hart `c`: of an acquire issued before, where no read of an atomic is awaited, scope and
cycle; and the scope of the acquire that `w` may be. Where such an acquire is over, or for TEXIT, the releases that the hart may have acquired reach further. -/
def Noted (c : Nat) (w : W32) (s t : State) : Prop :=
  let h := s.ctx c
  let wider := match h.acq, acquires w with | some x, some y => some (max x y) | none, y => y | x, none => x
  { t with ctxs := s.ctxs, net := s.net, banks := s.banks } = s ∧
  (∀ z, h.acq = some z → h.scAcq = [] → { t.ctx c with acquired := h.acquired } = { h with acq := acquires w } ∧
    ∀ y d, tget (t.ctx c).acquired y d = if y = z then s.gtime else tget h.acquired y d) ∧
  (h.acq = none ∨ h.scAcq ≠ [] → t.ctx c = { h with acq := wider }) ∧
  (∀ x, x ≠ c → t.ctx x = s.ctx x ∨ SquashedAt s.gtime (s.ctx x) (t.ctx x)) ∧
  (h.acq = none ∨ h.scAcq ≠ [] → ¬(fMaj w = 0x30 ∧ fFn w = 2) → t.net = s.net ∧ t.banks = s.banks ∧ OtherHarts c s t)

end Sys2Proof.Claim

open Sys2Proof Sys2Proof.Machine Sys2Proof.Claim

/-- R76 to R83: decoding the encoding of a well-formed instruction gives the instruction, with every operand. -/
def Obligations.EncodeThenDecode : Prop :=
  ∀ i w, i.WellFormed → encode i = some w → decode w = .ok i ∧ decodeTableWord 32 w.toNat = some i

/-- R76 to R83: a word that decodes is the encoding of its instruction: no two words are one instruction, and no bit is dropped. -/
def Obligations.DecodeThenEncode : Prop :=
  ∀ w i, decode w = .ok i → encode i = some w

/-- A step keeps memory and the table of harts in canonical form (the model's own invariant, log entry 3). -/
def Obligations.StepKeepsCanonical : Prop :=
  ∀ s t, Canonical s → step s = .next t → Canonical t

/-- R29, R76, R82, R164, R247, R282, R383: a step runs the decoded instruction: of the hart whose move is next, from the word at its PC, unless the word
is held by an operand or acknowledgement that is still to come; of the bank arithmetic unit, from code memory; an event, as it stands in the
agenda; a word that is no instruction runs ILLEGAL_INSTRUCTION. That the agenda orders moves is the model's choice (log entry 1), and which words an
acknowledgement holds is deduced (log entry 24). A choice of how engines' moves take place is kept, and before it runs, an issue notes
which acquires the hart has behind it (log entry 53). -/
def Obligations.StepRuns : Prop :=
  (∀ s c r w, Next s c r → fetchWord (s.ctx c) (s.ctx c).regs.pc.toNat = some w →
    (∀ i, decode w = .ok i → stalled (s.ctx c) w = false →
      let t := noteIssue c w { s with cur := .hart c, agenda := r }
      step s = exec i t ∧ Noted c w { s with cur := .hart c, agenda := r } t) ∧
    (∀ i, decode w = .ok i → stalled (s.ctx c) w = true → step s = .next { s with agenda := r }) ∧
    (∀ e, decode w = .error e → step s = exec (.illegalInstruction w) { s with cur := .hart c, agenda := r })) ∧
  (∀ s g k r, s.soloTurn = none → s.agenda = .bau g :: r → (s.bank g).run = some k → k.ended = none →
    let w := tget (s.bank g).code ((s.bank g).pc / 4) 0
    (∀ i, decode w = .ok i → step s = exec i { s with cur := .bau g, agenda := r }) ∧
    (∀ e, decode w = .error e → step s = exec (.illegalInstruction w) { s with cur := .bau g, agenda := r })) ∧
  (∀ s i r, s.soloTurn = none → s.agenda = .event i :: r → encode i = none → (∀ w, i ≠ .illegalInstruction w) → step s = exec i { s with agenda := r }) ∧
  ∀ s x r, s.soloTurn = none → s.agenda = .choose x :: r → step s = .next { s with agenda := r, choice := x }

/-- R76 to R81: words of the spec decode to the instructions that they stand for. -/
def Obligations.KnownWords : Prop :=
  ∀ p ∈ knownWords, decode p.1 = .ok p.2

/-- What module reset leaves, as the spec's tables of registers give it: no task, time 0, memory canonical, FSTAT with FRM 1, TCMP all ones, weights 1,
queue and ring sizes 4, the tick schedule of R221, LC and LB all ones. Values that the tables do not give are the model's (log entries 3, 4, 5 and 50). -/
def Obligations.ResetState : Prop :=
  Canonical State.reset ∧ State.reset.gtime = 0 ∧ State.reset.tasks = [] ∧ State.reset.net = [] ∧
  (∀ a, readByte State.reset.mem a = 0) ∧
  (∀ c, let h := State.reset.ctx c
        h.resident = false ∧ (∀ r, getG h.regs r = 0) ∧ h.regs.fstat = 0x40 ∧ h.csr.tcmp = BitVec.allOnes 64 ∧ h.csr.mdeleg = 0 ∧ h.csr.imask = 0 ∧
          h.ts = {} ∧ h.tm = {} ∧ h.eng.arr.lc = BitVec.allOnes 128 ∧ h.eng.arr.lb = 3 ∧ ∀ k, (tget h.eng.rings k {}).valid = false) ∧
  (∀ v, let o := State.reset.owner v
        vfWeight o = 1 ∧ vfQslot o = 0 ∧ o.rtptr = 0 ∧ (∀ c, bits (qcfgOf o c) 48 5 = 4 ∧ (qcfgOf o c).getLsbD 63 = false) ∧ bits o.evcfg 48 5 = 4) ∧
  (∀ p, let t := State.reset.part p
        t.live = false ∧ t.count = 0 ∧ t.tksb = 0 ∧ t.tksn = 1 ∧ t.tksi = 0 ∧ t.ptcfg = 0 ∧ t.stop = none) ∧
  (∀ q, (State.reset.cluster q).part = none ∧ ∀ n, tget (State.reset.cluster q).mfc n 0 = 0) ∧
  State.reset.mod.rasstat = 0 ∧ State.reset.mod.log = []

/-- R101: LUI and AUPC, majors 0x08 and 0x09 in the U format: g[d] becomes sext(imm21) × 2^16, for AUPC added to the address of the instruction, both modulo
2^64; neither takes a trap. -/
def Obligations.LuiAndAupc : Prop :=
  (∀ (d : R5) (imm : BitVec 21), encode (.lui d imm) = some ((0x08 : BitVec 6) ++ d ++ imm) ∧ encode (.aupc d imm) = some ((0x09 : BitVec 6) ++ d ++ imm)) ∧
  (∀ s c d imm, HartIssues s c →
    let h := s.ctx c
    let step_ := fun (x : W64) (t : State) => InChunk c s t (nextPc h.regs (setG h.regs d x)) (heldStores h)
    (∃ t, exec (.lui d imm) s = .next t ∧ step_ (imm.signExtend 64 * 0x10000) t) ∧
    ∃ t, exec (.aupc d imm) s = .next t ∧ step_ (h.regs.pc + imm.signExtend 64 * 0x10000) t) ∧
  decode 0x20800012 = .ok (.lui 4 0x12) ∧ ((0x12 : BitVec 21).signExtend 64 * 0x10000 : W64) = 0x120000

/-- R134: ECALL commits the chunk and traps with ECALL_U, ECALL_S or ECALL_M, TPC = PC + 4 and TVALUE = 0. That it is not counted in RETIRED is the model's
reading (DEDUCED, log entry 35). -/
def Obligations.Ecall : Prop :=
  decode 0xC4000001 = .ok (.ecall 0 0 0 0) ∧
  ∀ s c d a b k, HartIssues s c →
    let u := commitChunk c s
    let h := u.ctx c
    let code := match h.priv with | .u => 8 | .s => 9 | .m => 10
    (trapRegs h (levelOf h false code)).tstat.getLsbD 4 = false →
    ∃ t, exec (.ecall d a b k) s = .next t ∧ OnlyHart c u t ∧ h.chunk = none ∧ Trapped h (t.ctx c) (levelOf h false code) false code 0 (h.regs.pc + 4)

/-- R135: EBREAK commits the chunk and traps with EBREAK, TPC = PC and TVALUE = 0. -/
def Obligations.Ebreak : Prop :=
  decode 0xC4000002 = .ok (.ebreak 0 0 0 0) ∧
  ∀ s c d a b k, HartIssues s c →
    let u := commitChunk c s
    let h := u.ctx c
    (trapRegs h (levelOf h false 11)).tstat.getLsbD 4 = false →
    ∃ t, exec (.ebreak d a b k) s = .next t ∧ OnlyHart c u t ∧ h.chunk = none ∧ Trapped h (t.ctx c) (levelOf h false 11) false 11 0 h.regs.pc

/-- R96 to R103: results of the integer forms: ALU forms, immediates and shifts by an amount, LUI and AUPC, multiplication and division. -/
def Obligations.IntegerResults : Prop :=
  Claim.IntegerAluResults ∧ Claim.IntegerImmediateResults ∧ Claim.MultiplyDivideResults

/-- R104 to R107: branches and jumps, their INSTR_ADDR traps, and the trap of an instruction at the last address that does not transfer control. -/
def Obligations.ControlFlow : Prop :=
  Claim.ControlTransfers ∧ Claim.ControlTargetTraps ∧ Claim.LastAddressTraps

/-- R83, R104 to R106, R283: the shared integer forms, the end after the last word of code memory, and control transfers of a bank arithmetic unit. -/
def Obligations.BauIntegerForms : Prop :=
  Claim.BauIntegerResults ∧ Claim.BauLastAddressEnds ∧ Claim.BauControlTransfers

/-- R35, R38 to R44, R116 to R126: floating forms, their flags, and rounding modes that are illegal. That FLT, FLE and FCVT to an integer set no flag for
an operand of the wrong K is the model's choice (log entry 75). -/
def Obligations.FloatForms : Prop :=
  Claim.FloatResults ∧ Claim.FloatArithmetic ∧ Claim.FloatIllegalModes

/-- R108, R109, R111, R114, R199: local loads, held stores and typed loads and stores. Flags of typed accesses between equal formats are the model's reading (log entry 29). -/
def Obligations.LocalAccesses : Prop :=
  Claim.LocalLoads ∧ Claim.LocalStores ∧ Claim.TypedLoadsAndStores

/-- R52, R58, R109, R111, R114, R115, R159, R165, R177, R188, R256, R307: the traps of loads, stores, full/empty forms, atomics, transfers and rings (log entry 81). -/
def Obligations.AccessTraps : Prop :=
  Claim.LoadStoreTraps ∧ Claim.TypedAccessTraps ∧ Claim.SyncTraps ∧ Claim.TransferIssueTraps ∧ Claim.RingHandleTraps

/-- R56, R158 to R160: full/empty forms and the ends of their waits. -/
def Obligations.FullEmptyAccesses : Prop :=
  Claim.FullEmptyForms ∧ Claim.LdsWaitEnds

/-- R156, R157, R161, R165 to R167: acquiring and releasing accesses and fences. That FENCE.ACQ waits for posted atomics is deduced (log entry 25);
that a waited STL stores with no further test of the ring lock (log entry 81), and which chunks a release squashes (log entry 7), are the model's choices. -/
def Obligations.ReleaseAndFence : Prop :=
  Claim.AcquireRelease ∧ Claim.Fences

/-- R162 to R164: atomics on local and on remote addresses. That a remote atomic is applied whole at its arrival is the model's choice (log entry 7). -/
def Obligations.Atomics : Prop :=
  Claim.LocalAtomics ∧ Claim.RemoteAtomics

/-- R57 to R60, R110, R112, R113, R161: remote loads and stores and their rejections. That a remote access is applied whole at its arrival is the model's choice (log entry 7). -/
def Obligations.RemoteAccesses : Prop :=
  Claim.RemoteLoads ∧ Claim.RemoteStores ∧ Claim.RemoteRejections

/-- R168 to R173: gang and barrier-object arrivals, handles, stale handles, waits. The size of sync storage and the wait on an index made anew are the
model's choices (log entries 57 and 56). -/
def Obligations.Barriers : Prop :=
  Claim.BarrierRequests ∧ Claim.BarrierArrivals ∧ Claim.BarrierMakeAndFree ∧ Claim.StaleBarriers ∧ Claim.BarrierWaits

/-- R29, R30, R143, R199 to R204: commits of chunks, squashes, solo mode. That a release squashes chunks which have met what it covers is the model's choice (log entry 7). -/
def Obligations.ChunkOrder : Prop :=
  Claim.ChunkCommits ∧ Claim.SoloGrants ∧ Claim.ReleaseCovers

/-- R190 to R194: task instructions and the ends of their waits. -/
def Obligations.TaskForms : Prop :=
  Claim.TaskInstructions ∧ Claim.TaskWaitsEnd

/-- R127 to R130, R134, R135: taking a trap, DOUBLE_TRAP and the halt, calls and breakpoints. The two causes that a halt logs (log entry 54), and that ECALL does
not count as retired (log entry 35), are the model's readings. -/
def Obligations.TrapTaking : Prop :=
  Claim.TrapEntry ∧ Claim.DoubleTrapAndHalt ∧ Claim.CallsAndBreakpoints

/-- R76 to R83, R315: privilege checks and instructions that a unit does not have. -/
def Obligations.IllegalInstructions : Prop :=
  Claim.PrivilegeChecks ∧ Claim.IllegalByUnit

/-- R136, R138: return from a trap and the STEP trap. That a TRET which is itself stepped is followed by its STEP trap is deduced (log entry 35). -/
def Obligations.TrapReturnAndStep : Prop :=
  Claim.TrapReturn ∧ Claim.SingleStep

/-- R26, R131 to R133, R139, R140: WFI, interrupts and asynchronous exceptions. That TIMER and SOFT are not taken in M, and that asynchronous exceptions leave WFI
waiting, is deduced (log entry 35), as is the queue of EVENT codes, of which the oldest is shown and cleared (log entry 33). -/
def Obligations.Interrupts : Prop :=
  Claim.WaitForInterrupt ∧ Claim.InterruptsAndAsyncExceptions

/-- R179, R184 to R187, R203, R204: completion counters and rings. The slots of a run past 2^32 are the model's choice (log entry 102). -/
def Obligations.CountersAndRings : Prop :=
  Claim.CounterInstructions ∧ Claim.RingInstructions

/-- R66, R70 to R72, R174 to R178, R181, R183, R307, R308, R346, R347: transfers: issue and translation of parts. TLB replacement, META
transfers of no whole number of columns, TLB entries of other partitions, and 16 queue entries for each hart, saved or not, are the model's choices (log entries 10, 20, 109
and 104). -/
def Obligations.Transfers : Prop :=
  Claim.PutGetIssue ∧ Claim.PutmGetdIssue ∧ Claim.MemorySideAddIssue ∧ Claim.PartTranslation

/-- R176, R179, R181, R182, R202, R208, R293, R294, R299, R331, R381: moves of segments, PUTM, and columns met as they were. The order of the segments of one entry,
and what `State.choice` does, are the model's choices (log entries 11 and 53). -/
def Obligations.Segments : Prop :=
  Claim.SramTransfers ∧ Claim.PutmClaims ∧ Claim.SegmentWords ∧ Claim.UnfencedColumns

/-- R214 to R219, R223 to R236: mark operations from their issue to their answers. -/
def Obligations.Marks : Prop :=
  Claim.MarkIssue ∧ Claim.MarkAcceptance ∧ Claim.MarkOperations

/-- R220 to R223, R225: ticks, configuration changes, TKNUM and TKWAIT. The cycle from which a write of MSIZE cuts fields is the model's choice (log entry 55). -/
def Obligations.Ticks : Prop :=
  Claim.TicksAndConfiguration ∧ Claim.TickInstructions

/-- R246, R249, R261 to R264, R267, R269, R272, R274 to R278: array instructions enter the queue; their traps; the registers they capture. Which of several wrong registers
a trap names, and TVALUE of a scale whose register holds no F64, are the model's choices (log entries 63, 91 and 112). -/
def Obligations.ArrayIssueForms : Prop :=
  Claim.ArrayIssue ∧ Claim.ArrayCaptured ∧ Claim.ArrayShapeTraps ∧ Claim.ArrayRegisters

/-- R247 to R250, R264 to R272: passes over rows, tags, and results. That rows and elements advance by one per event is the model's choice (log entry 44). -/
def Obligations.ArrayExecution : Prop :=
  Claim.ArrayElementwise ∧ Claim.ArrayArithmetic ∧ Claim.ArrayTagsAndPass ∧ Claim.ArrayResults

/-- R290, R292, R295 to R302, R315: bank instructions and BKFENCE. That each hart has 16 entries of its own is the model's choice (log entry 104). -/
def Obligations.BankIssueAndFence : Prop :=
  Claim.BankIssue ∧ Claim.BankFence

/-- R281 to R284, R288 to R293, R298, R301: overlays, runs, copies and metadata exchange. -/
def Obligations.BankCommands : Prop :=
  Claim.OverlayRuns ∧ Claim.BankCopyAndMeta

/-- R283, R285, R286, R288, R303, R306: columns, data memory and signals of a bank arithmetic unit. -/
def Obligations.BauMemory : Prop :=
  Claim.BauColumns ∧ Claim.BauLoadsAndStores ∧ Claim.BauSignals

/-- R316, R342, R351, R358, R361 to R370: registers of the host port and the Arbiter. That a PTCFG with V = 0 is refused like one with V = 1, and the layout of
aperture and decoder words, are the model's choices (log entries 64 and 13), and so are
FQCFG stored as written for every value (log entry 72) and what a write of a route does (log entry 105). -/
def Obligations.HostRegisters : Prop :=
  Claim.HostRegisterWrites ∧ Claim.QueueAndTableRegisters

/-- R20 to R22, R317 to R321, R363: launches and task records. That the dispatcher reads records without a TLB, as source 1, is deduced (log entry 39), as is
when a task counts as completed (log entry 16); that the frames of a rename pool are free values (log entry 37), the descriptor's address modulo 2^47
(log entry 95), tile conflicts by address space (log entry 73), and CLASS in the record of a rejected launch (log entry 101), are the model's choices. -/
def Obligations.LaunchesAndTasks : Prop :=
  Claim.LaunchReading ∧ Claim.TaskReading

/-- R318 to R322, R356: versions of tiles, their frames, and eligibility. Which version is current is deduced (log entry 32); that versions belong to an
address space (log entry 73), what becomes of retired frames (log entry 71) and of a version whose walk meets one or an uncorrectable column (log entry 99), and
metadata of a version buffer (log entry 106), are the model's choices. -/
def Obligations.Versions : Prop :=
  Claim.VersionsAndEligibility ∧ Claim.VersionInstallation ∧ Claim.VersionFrames

/-- R16, R323 to R325, R333: placement and dispatch of new tasks. TSTAT.IE at task start is deduced (log entry 12), as is the number of save slots (log
entry 30). -/
def Obligations.Dispatching : Prop :=
  Claim.TaskPlacement ∧ Claim.Dispatch

/-- R18, R191, R317, R327 to R329, R364, R365: ends of tasks and completion records. That a task has completed once its record is written, and when cores are released, is deduced (log entries 16 and 21); a ring out of
place and whole microjoules are the model's choices (log entries 61 and 60), and so is what an end drops (log entries 92 and 107). -/
def Obligations.TaskCompletion : Prop :=
  Claim.TaskEnds ∧ Claim.EventRing

/-- R154, R333, R336 to R339: the zugzwang stop, the flush and the resumption. Which router holds a packet and which
gangs the Arbiter restores at once are the model's choices (log entry 31), and so are the chunks that a saved hart's acquires squash (log entry 53). -/
def Obligations.Preemption : Prop :=
  Claim.ZugzwangStop ∧ Claim.FlushAndResume

/-- R313 to R315, R327, R328, R340, R341: assignment, lending, recall, withdrawal, migration. What a map shows of a lent cluster and what a withdrawal leaves are deduced (log entries 40 and 41);
that a partition is assigned nothing while it borrows (log entry 74), what a clearing does to fields (log entry 103), and WPT0 on lending (log entry 111), are the model's choices. -/
def Obligations.PartitionChanges : Prop :=
  Claim.AssigningAndLending ∧ Claim.Recall ∧ Claim.WithdrawalAndMigration

/-- R68, R349, R355 to R357: errors, lasting faults, isolation, and changes of the grade map. When RASSTAT counts (log entry 42), what a halt on an
SRAM error logs (log entry 48), that a stop already announced is brought forward (log entry 49), and that a transfer which has translated a page of a retired frame translates anew
(log entry 71), are the model's readings. -/
def Obligations.Reliability : Prop :=
  Claim.ErrorsAndLastingFaults ∧ Claim.Isolation ∧ Claim.GradeChanges
end

