-- ==== Sys2Proof/Laws/Table.lean ====
section
/-!
SUPPORT. Sparse tables: reading after a write, and the canonical form of memory (keys rising, no byte 0) under every
memory operation.
-/

namespace Sys2Proof.Machine

variable {α : Type}

theorem tget_tdel_same (t : Tbl α) (k : Nat) (d : α) : tget (tdel t k) k d = d := by
  induction t with
  | nil => rfl
  | cons p r ih =>
    simp only [tdel, List.filter_cons] at ih ⊢
    by_cases h : p.1 = k <;> simp_all [tget]

theorem tget_tdel_other (t : Tbl α) {k j : Nat} (h : j ≠ k) (d : α) : tget (tdel t k) j d = tget t j d := by
  induction t with
  | nil => rfl
  | cons p r ih =>
    simp only [tdel, List.filter_cons] at ih ⊢
    by_cases hk : p.1 = k
    · have : ¬p.1 = j := fun e => h (e.symm.trans hk)
      simp_all [tget]
    · by_cases hj : p.1 = j <;> simp_all [tget]

theorem tget_tins_same (t : Tbl α) (k : Nat) (v d : α) : tget (tins t k v) k d = v := by
  induction t with
  | nil => simp [tins, tget]
  | cons p r ih =>
    by_cases h : p.1 < k
    · have : ¬p.1 = k := by omega
      simp [tins, tget, h, this, ih]
    · simp [tins, tget, h]

theorem tget_tins_other (t : Tbl α) {k j : Nat} (h : j ≠ k) (v d : α) : tget (tins t k v) j d = tget t j d := by
  induction t with
  | nil => simp [tins, tget, h.symm]
  | cons p r ih =>
    by_cases hk : p.1 < k
    · simp [tins, tget, hk, ih]
    · simp [tins, tget, hk, h.symm]

@[simp] theorem tget_tput (t : Tbl α) (k j : Nat) (v d : α) : tget (tput t k v) j d = if j = k then v else tget t j d := by
  unfold tput
  split
  · next h => subst h; exact tget_tins_same ..
  · next h => rw [tget_tins_other _ h, tget_tdel_other _ h]

@[simp] theorem tget_tset [DecidableEq α] (t : Tbl α) (k j : Nat) (v d : α) :
    tget (tset d t k v) j d = if j = k then v else tget t j d := by
  unfold tset
  split
  · next h =>
    subst h
    split
    · next h => subst h; exact tget_tdel_same ..
    · next h => exact tget_tdel_other _ h _
  · simp

/-! ### The canonical form of memory -/

theorem wf_iff (m : Memory) : m.wf = true ↔ m.Pairwise (fun a b => a.1 < b.1) ∧ ∀ c ∈ m, c.2 ≠ 0 := by
  simp [Memory.wf]

theorem wf_filter {m : Memory} (h : m.wf) (p : Host.Cell → Bool) : Memory.wf (m.filter p) := by
  rw [wf_iff] at h ⊢
  exact ⟨h.1.filter _, fun c hc => h.2 c (List.mem_of_mem_filter hc)⟩

theorem wf_tdel {m : Memory} (h : m.wf) (k : Nat) : Memory.wf (tdel m k) := wf_filter h _

theorem mem_tins (t : Tbl α) (k : Nat) (v : α) (p : Nat × α) : p ∈ tins t k v ↔ p = (k, v) ∨ p ∈ t := by
  induction t with
  | nil => simp [tins]
  | cons q r ih =>
    by_cases h : q.1 < k
    · simp [tins, h, ih]; tauto
    · simp [tins, h]

theorem pairwise_tins {t : Tbl α} {k : Nat} (v : α) (h : t.Pairwise (fun a b => a.1 < b.1)) (hk : ∀ p ∈ t, p.1 ≠ k) :
    (tins t k v).Pairwise (fun a b => a.1 < b.1) := by
  induction t with
  | nil => simp [tins]
  | cons q r ih =>
    have hq := hk q (by simp)
    rw [List.pairwise_cons] at h
    by_cases hl : q.1 < k
    · simp only [tins, hl, if_true, List.pairwise_cons, mem_tins]
      refine ⟨?_, ih h.2 fun p hp => hk p (by simp [hp])⟩
      rintro p (rfl | hp)
      · exact hl
      · exact h.1 p hp
    · have hlt : k < q.1 := by omega
      simp only [tins, hl, if_false, List.pairwise_cons, List.mem_cons]
      refine ⟨?_, h.1, h.2⟩
      rintro p (rfl | hp)
      · exact hlt
      · exact lt_trans hlt (h.1 p hp)

/-- A byte write keeps the canonical form. -/
theorem wf_writeByte {m : Memory} (h : m.wf) (k : Nat) (b : Byte) : Memory.wf (writeByte m k b) := by
  unfold writeByte tset
  split
  · exact wf_tdel h k
  · next hb =>
    have hd := wf_tdel h k
    rw [wf_iff] at hd ⊢
    unfold tput
    refine ⟨pairwise_tins b hd.1 ?_, ?_⟩
    · intro p hp
      simp [tdel] at hp
      exact hp.2
    · intro c hc
      rw [mem_tins] at hc
      rcases hc with rfl | hc
      · exact hb
      · exact hd.2 c hc

/-- A write of several bytes keeps the canonical form. -/
theorem wf_writeBytes {m : Memory} (h : m.wf) (k : Nat) (l : List Byte) : Memory.wf (writeBytes m k l) := by
  induction l generalizing m k with
  | nil => exact h
  | cons b r ih => exact ih (wf_writeByte h k b) (k + 1)

/-- The commit of held stores keeps the canonical form. -/
theorem wf_foldr {m : Memory} (h : m.wf) (l : List (Nat × Byte)) :
    Memory.wf (l.foldr (fun p m => writeByte m p.1 p.2) m) := by
  induction l with
  | nil => exact h
  | cons p r ih => exact wf_writeByte ih p.1 p.2

theorem wf_foldl {α : Type} {m : Memory} (h : m.wf) (l : List α) (f : Memory → α → Memory)
    (hf : ∀ m a, Memory.wf m → Memory.wf (f m a)) : Memory.wf (l.foldl f m) := by
  induction l generalizing m with
  | nil => exact h
  | cons a r ih => exact ih (hf m a h)

/-! ### Reading after a write -/

@[simp] theorem readByte_writeByte (m : Memory) (k j : Nat) (b : Byte) :
    readByte (writeByte m k b) j = if j = k then b else readByte m j := by
  simp [readByte, writeByte]

/-- Bytes outside a write are as before. -/
theorem readByte_writeBytes_other (m : Memory) (k j : Nat) (l : List Byte) (h : j < k ∨ k + l.length ≤ j) :
    readByte (writeBytes m k l) j = readByte m j := by
  induction l generalizing m k with
  | nil => rfl
  | cons b r ih =>
    simp only [List.length_cons] at h
    rw [writeBytes, ih _ _ (by omega), readByte_writeByte, if_neg (by omega)]

/-- A byte inside a write is the one written. -/
theorem readByte_writeBytes (m : Memory) (k i : Nat) (l : List Byte) (h : i < l.length) :
    readByte (writeBytes m k l) (k + i) = l[i] := by
  induction l generalizing m k i with
  | nil => simp at h
  | cons b r ih =>
    cases i with
    | zero =>
      rw [writeBytes, Nat.add_zero, readByte_writeBytes_other _ _ _ _ (by omega)]
      simp
    | succ i =>
      have := ih (writeByte m k b) (k + 1) i (by simpa using h)
      simpa [writeBytes, Nat.add_assoc, Nat.add_comm 1 i] using this

/-- Reading what was written gives it back. -/
theorem readBytes_writeBytes (m : Memory) (k : Nat) (l : List Byte) : readBytes (writeBytes m k l) k l.length = l := by
  apply List.ext_getElem
  · simp [readBytes]
  · intro i h1 h2
    simp [readBytes, readByte_writeBytes m k i l h2]

/-- Little-endian bytes have their length. -/
@[simp] theorem length_leBytes (n v : Nat) : (leBytes n v).length = n := by
  induction n generalizing v with
  | zero => rfl
  | succ n ih => simp [leBytes, ih]

/-- The number of the little-endian bytes of a number. -/
theorem leNat_leBytes (n v : Nat) : leNat (leBytes n v) = v % 256 ^ n := by
  induction n generalizing v with
  | zero => simp [leBytes, leNat, Nat.mod_one]
  | succ n ih =>
    have h8 : (BitVec.ofNat 8 v).toNat = v % 256 := BitVec.toNat_ofNat ..
    rw [leBytes, leNat, ih, h8, Nat.pow_succ, Nat.mul_comm (256 ^ n) 256, Nat.mod_mul]

end Sys2Proof.Machine
end

