-- ==== Sys2Proof/Laws/State.lean ====
section
/-!
SUPPORT. One lemma per field of the state and update (R10: what an update of one context, core, cluster, bank,
partition, owner, launch, task or version leaves alone), and the accessors after an update.
-/

namespace Sys2Proof.Machine

variable (s : State) (i j : Nat)

/-! ### modCtx -/

@[simp] theorem modCtx_cur (f : Ctx → Ctx) : (modCtx i f s).cur = s.cur := rfl
@[simp] theorem modCtx_agenda (f : Ctx → Ctx) : (modCtx i f s).agenda = s.agenda := rfl
@[simp] theorem modCtx_choice (f : Ctx → Ctx) : (modCtx i f s).choice = s.choice := rfl
@[simp] theorem modCtx_moveNo (f : Ctx → Ctx) : (modCtx i f s).moveNo = s.moveNo := rfl
@[simp] theorem modCtx_freeNo (f : Ctx → Ctx) : (modCtx i f s).freeNo = s.freeNo := rfl
@[simp] theorem modCtx_soloTurn (f : Ctx → Ctx) : (modCtx i f s).soloTurn = s.soloTurn := rfl
@[simp] theorem modCtx_nextId (f : Ctx → Ctx) : (modCtx i f s).nextId = s.nextId := rfl
@[simp] theorem modCtx_gtime (f : Ctx → Ctx) : (modCtx i f s).gtime = s.gtime := rfl
@[simp] theorem modCtx_mem (f : Ctx → Ctx) : (modCtx i f s).mem = s.mem := rfl
@[simp] theorem modCtx_fe (f : Ctx → Ctx) : (modCtx i f s).fe = s.fe := rfl
@[simp] theorem modCtx_cores (f : Ctx → Ctx) : (modCtx i f s).cores = s.cores := rfl
@[simp] theorem modCtx_clusters (f : Ctx → Ctx) : (modCtx i f s).clusters = s.clusters := rfl
@[simp] theorem modCtx_banks (f : Ctx → Ctx) : (modCtx i f s).banks = s.banks := rfl
@[simp] theorem modCtx_parts (f : Ctx → Ctx) : (modCtx i f s).parts = s.parts := rfl
@[simp] theorem modCtx_owners (f : Ctx → Ctx) : (modCtx i f s).owners = s.owners := rfl
@[simp] theorem modCtx_launches (f : Ctx → Ctx) : (modCtx i f s).launches = s.launches := rfl
@[simp] theorem modCtx_tasks (f : Ctx → Ctx) : (modCtx i f s).tasks = s.tasks := rfl
@[simp] theorem modCtx_versions (f : Ctx → Ctx) : (modCtx i f s).versions = s.versions := rfl
@[simp] theorem modCtx_net (f : Ctx → Ctx) : (modCtx i f s).net = s.net := rfl
@[simp] theorem modCtx_mod (f : Ctx → Ctx) : (modCtx i f s).mod = s.mod := rfl
@[simp] theorem modCtx_ctx (f : Ctx → Ctx) : (modCtx i f s).ctx j = if j = i then f (s.ctx i) else s.ctx j := by
  simp [modCtx, State.ctx]
@[simp] theorem modCtx_core (f : Ctx → Ctx) : (modCtx i f s).core j = s.core j := rfl
@[simp] theorem modCtx_cluster (f : Ctx → Ctx) : (modCtx i f s).cluster j = s.cluster j := rfl
@[simp] theorem modCtx_bank (f : Ctx → Ctx) : (modCtx i f s).bank j = s.bank j := rfl
@[simp] theorem modCtx_part (f : Ctx → Ctx) : (modCtx i f s).part j = s.part j := rfl
@[simp] theorem modCtx_owner (f : Ctx → Ctx) : (modCtx i f s).owner j = s.owner j := rfl
@[simp] theorem modCtx_launch (f : Ctx → Ctx) : (modCtx i f s).launch j = s.launch j := rfl
@[simp] theorem modCtx_task (f : Ctx → Ctx) : (modCtx i f s).task j = s.task j := rfl
@[simp] theorem modCtx_version (f : Ctx → Ctx) : (modCtx i f s).version j = s.version j := rfl

/-! ### modCore -/

@[simp] theorem modCore_cur (f : Core → Core) : (modCore i f s).cur = s.cur := rfl
@[simp] theorem modCore_agenda (f : Core → Core) : (modCore i f s).agenda = s.agenda := rfl
@[simp] theorem modCore_choice (f : Core → Core) : (modCore i f s).choice = s.choice := rfl
@[simp] theorem modCore_moveNo (f : Core → Core) : (modCore i f s).moveNo = s.moveNo := rfl
@[simp] theorem modCore_freeNo (f : Core → Core) : (modCore i f s).freeNo = s.freeNo := rfl
@[simp] theorem modCore_soloTurn (f : Core → Core) : (modCore i f s).soloTurn = s.soloTurn := rfl
@[simp] theorem modCore_nextId (f : Core → Core) : (modCore i f s).nextId = s.nextId := rfl
@[simp] theorem modCore_gtime (f : Core → Core) : (modCore i f s).gtime = s.gtime := rfl
@[simp] theorem modCore_mem (f : Core → Core) : (modCore i f s).mem = s.mem := rfl
@[simp] theorem modCore_fe (f : Core → Core) : (modCore i f s).fe = s.fe := rfl
@[simp] theorem modCore_ctxs (f : Core → Core) : (modCore i f s).ctxs = s.ctxs := rfl
@[simp] theorem modCore_clusters (f : Core → Core) : (modCore i f s).clusters = s.clusters := rfl
@[simp] theorem modCore_banks (f : Core → Core) : (modCore i f s).banks = s.banks := rfl
@[simp] theorem modCore_parts (f : Core → Core) : (modCore i f s).parts = s.parts := rfl
@[simp] theorem modCore_owners (f : Core → Core) : (modCore i f s).owners = s.owners := rfl
@[simp] theorem modCore_launches (f : Core → Core) : (modCore i f s).launches = s.launches := rfl
@[simp] theorem modCore_tasks (f : Core → Core) : (modCore i f s).tasks = s.tasks := rfl
@[simp] theorem modCore_versions (f : Core → Core) : (modCore i f s).versions = s.versions := rfl
@[simp] theorem modCore_net (f : Core → Core) : (modCore i f s).net = s.net := rfl
@[simp] theorem modCore_mod (f : Core → Core) : (modCore i f s).mod = s.mod := rfl
@[simp] theorem modCore_core (f : Core → Core) : (modCore i f s).core j = if j = i then f (s.core i) else s.core j := by
  simp [modCore, State.core]
@[simp] theorem modCore_ctx (f : Core → Core) : (modCore i f s).ctx j = s.ctx j := rfl
@[simp] theorem modCore_cluster (f : Core → Core) : (modCore i f s).cluster j = s.cluster j := rfl
@[simp] theorem modCore_bank (f : Core → Core) : (modCore i f s).bank j = s.bank j := rfl
@[simp] theorem modCore_part (f : Core → Core) : (modCore i f s).part j = s.part j := rfl
@[simp] theorem modCore_owner (f : Core → Core) : (modCore i f s).owner j = s.owner j := rfl
@[simp] theorem modCore_launch (f : Core → Core) : (modCore i f s).launch j = s.launch j := rfl
@[simp] theorem modCore_task (f : Core → Core) : (modCore i f s).task j = s.task j := rfl
@[simp] theorem modCore_version (f : Core → Core) : (modCore i f s).version j = s.version j := rfl

/-! ### modCluster -/

@[simp] theorem modCluster_cur (f : Cluster → Cluster) : (modCluster i f s).cur = s.cur := rfl
@[simp] theorem modCluster_agenda (f : Cluster → Cluster) : (modCluster i f s).agenda = s.agenda := rfl
@[simp] theorem modCluster_choice (f : Cluster → Cluster) : (modCluster i f s).choice = s.choice := rfl
@[simp] theorem modCluster_moveNo (f : Cluster → Cluster) : (modCluster i f s).moveNo = s.moveNo := rfl
@[simp] theorem modCluster_freeNo (f : Cluster → Cluster) : (modCluster i f s).freeNo = s.freeNo := rfl
@[simp] theorem modCluster_soloTurn (f : Cluster → Cluster) : (modCluster i f s).soloTurn = s.soloTurn := rfl
@[simp] theorem modCluster_nextId (f : Cluster → Cluster) : (modCluster i f s).nextId = s.nextId := rfl
@[simp] theorem modCluster_gtime (f : Cluster → Cluster) : (modCluster i f s).gtime = s.gtime := rfl
@[simp] theorem modCluster_mem (f : Cluster → Cluster) : (modCluster i f s).mem = s.mem := rfl
@[simp] theorem modCluster_fe (f : Cluster → Cluster) : (modCluster i f s).fe = s.fe := rfl
@[simp] theorem modCluster_ctxs (f : Cluster → Cluster) : (modCluster i f s).ctxs = s.ctxs := rfl
@[simp] theorem modCluster_cores (f : Cluster → Cluster) : (modCluster i f s).cores = s.cores := rfl
@[simp] theorem modCluster_banks (f : Cluster → Cluster) : (modCluster i f s).banks = s.banks := rfl
@[simp] theorem modCluster_parts (f : Cluster → Cluster) : (modCluster i f s).parts = s.parts := rfl
@[simp] theorem modCluster_owners (f : Cluster → Cluster) : (modCluster i f s).owners = s.owners := rfl
@[simp] theorem modCluster_launches (f : Cluster → Cluster) : (modCluster i f s).launches = s.launches := rfl
@[simp] theorem modCluster_tasks (f : Cluster → Cluster) : (modCluster i f s).tasks = s.tasks := rfl
@[simp] theorem modCluster_versions (f : Cluster → Cluster) : (modCluster i f s).versions = s.versions := rfl
@[simp] theorem modCluster_net (f : Cluster → Cluster) : (modCluster i f s).net = s.net := rfl
@[simp] theorem modCluster_mod (f : Cluster → Cluster) : (modCluster i f s).mod = s.mod := rfl
@[simp] theorem modCluster_cluster (f : Cluster → Cluster) : (modCluster i f s).cluster j = if j = i then f (s.cluster i) else s.cluster j := by
  simp [modCluster, State.cluster]
@[simp] theorem modCluster_ctx (f : Cluster → Cluster) : (modCluster i f s).ctx j = s.ctx j := rfl
@[simp] theorem modCluster_core (f : Cluster → Cluster) : (modCluster i f s).core j = s.core j := rfl
@[simp] theorem modCluster_bank (f : Cluster → Cluster) : (modCluster i f s).bank j = s.bank j := rfl
@[simp] theorem modCluster_part (f : Cluster → Cluster) : (modCluster i f s).part j = s.part j := rfl
@[simp] theorem modCluster_owner (f : Cluster → Cluster) : (modCluster i f s).owner j = s.owner j := rfl
@[simp] theorem modCluster_launch (f : Cluster → Cluster) : (modCluster i f s).launch j = s.launch j := rfl
@[simp] theorem modCluster_task (f : Cluster → Cluster) : (modCluster i f s).task j = s.task j := rfl
@[simp] theorem modCluster_version (f : Cluster → Cluster) : (modCluster i f s).version j = s.version j := rfl

/-! ### modBank -/

@[simp] theorem modBank_cur (f : Bank → Bank) : (modBank i f s).cur = s.cur := rfl
@[simp] theorem modBank_agenda (f : Bank → Bank) : (modBank i f s).agenda = s.agenda := rfl
@[simp] theorem modBank_choice (f : Bank → Bank) : (modBank i f s).choice = s.choice := rfl
@[simp] theorem modBank_moveNo (f : Bank → Bank) : (modBank i f s).moveNo = s.moveNo := rfl
@[simp] theorem modBank_freeNo (f : Bank → Bank) : (modBank i f s).freeNo = s.freeNo := rfl
@[simp] theorem modBank_soloTurn (f : Bank → Bank) : (modBank i f s).soloTurn = s.soloTurn := rfl
@[simp] theorem modBank_nextId (f : Bank → Bank) : (modBank i f s).nextId = s.nextId := rfl
@[simp] theorem modBank_gtime (f : Bank → Bank) : (modBank i f s).gtime = s.gtime := rfl
@[simp] theorem modBank_mem (f : Bank → Bank) : (modBank i f s).mem = s.mem := rfl
@[simp] theorem modBank_fe (f : Bank → Bank) : (modBank i f s).fe = s.fe := rfl
@[simp] theorem modBank_ctxs (f : Bank → Bank) : (modBank i f s).ctxs = s.ctxs := rfl
@[simp] theorem modBank_cores (f : Bank → Bank) : (modBank i f s).cores = s.cores := rfl
@[simp] theorem modBank_clusters (f : Bank → Bank) : (modBank i f s).clusters = s.clusters := rfl
@[simp] theorem modBank_parts (f : Bank → Bank) : (modBank i f s).parts = s.parts := rfl
@[simp] theorem modBank_owners (f : Bank → Bank) : (modBank i f s).owners = s.owners := rfl
@[simp] theorem modBank_launches (f : Bank → Bank) : (modBank i f s).launches = s.launches := rfl
@[simp] theorem modBank_tasks (f : Bank → Bank) : (modBank i f s).tasks = s.tasks := rfl
@[simp] theorem modBank_versions (f : Bank → Bank) : (modBank i f s).versions = s.versions := rfl
@[simp] theorem modBank_net (f : Bank → Bank) : (modBank i f s).net = s.net := rfl
@[simp] theorem modBank_mod (f : Bank → Bank) : (modBank i f s).mod = s.mod := rfl
@[simp] theorem modBank_bank (f : Bank → Bank) : (modBank i f s).bank j = if j = i then f (s.bank i) else s.bank j := by
  simp [modBank, State.bank]
@[simp] theorem modBank_ctx (f : Bank → Bank) : (modBank i f s).ctx j = s.ctx j := rfl
@[simp] theorem modBank_core (f : Bank → Bank) : (modBank i f s).core j = s.core j := rfl
@[simp] theorem modBank_cluster (f : Bank → Bank) : (modBank i f s).cluster j = s.cluster j := rfl
@[simp] theorem modBank_part (f : Bank → Bank) : (modBank i f s).part j = s.part j := rfl
@[simp] theorem modBank_owner (f : Bank → Bank) : (modBank i f s).owner j = s.owner j := rfl
@[simp] theorem modBank_launch (f : Bank → Bank) : (modBank i f s).launch j = s.launch j := rfl
@[simp] theorem modBank_task (f : Bank → Bank) : (modBank i f s).task j = s.task j := rfl
@[simp] theorem modBank_version (f : Bank → Bank) : (modBank i f s).version j = s.version j := rfl

/-! ### modPart -/

@[simp] theorem modPart_cur (f : Partition → Partition) : (modPart i f s).cur = s.cur := rfl
@[simp] theorem modPart_agenda (f : Partition → Partition) : (modPart i f s).agenda = s.agenda := rfl
@[simp] theorem modPart_choice (f : Partition → Partition) : (modPart i f s).choice = s.choice := rfl
@[simp] theorem modPart_moveNo (f : Partition → Partition) : (modPart i f s).moveNo = s.moveNo := rfl
@[simp] theorem modPart_freeNo (f : Partition → Partition) : (modPart i f s).freeNo = s.freeNo := rfl
@[simp] theorem modPart_soloTurn (f : Partition → Partition) : (modPart i f s).soloTurn = s.soloTurn := rfl
@[simp] theorem modPart_nextId (f : Partition → Partition) : (modPart i f s).nextId = s.nextId := rfl
@[simp] theorem modPart_gtime (f : Partition → Partition) : (modPart i f s).gtime = s.gtime := rfl
@[simp] theorem modPart_mem (f : Partition → Partition) : (modPart i f s).mem = s.mem := rfl
@[simp] theorem modPart_fe (f : Partition → Partition) : (modPart i f s).fe = s.fe := rfl
@[simp] theorem modPart_ctxs (f : Partition → Partition) : (modPart i f s).ctxs = s.ctxs := rfl
@[simp] theorem modPart_cores (f : Partition → Partition) : (modPart i f s).cores = s.cores := rfl
@[simp] theorem modPart_clusters (f : Partition → Partition) : (modPart i f s).clusters = s.clusters := rfl
@[simp] theorem modPart_banks (f : Partition → Partition) : (modPart i f s).banks = s.banks := rfl
@[simp] theorem modPart_owners (f : Partition → Partition) : (modPart i f s).owners = s.owners := rfl
@[simp] theorem modPart_launches (f : Partition → Partition) : (modPart i f s).launches = s.launches := rfl
@[simp] theorem modPart_tasks (f : Partition → Partition) : (modPart i f s).tasks = s.tasks := rfl
@[simp] theorem modPart_versions (f : Partition → Partition) : (modPart i f s).versions = s.versions := rfl
@[simp] theorem modPart_net (f : Partition → Partition) : (modPart i f s).net = s.net := rfl
@[simp] theorem modPart_mod (f : Partition → Partition) : (modPart i f s).mod = s.mod := rfl
@[simp] theorem modPart_part (f : Partition → Partition) : (modPart i f s).part j = if j = i then f (s.part i) else s.part j := by
  simp [modPart, State.part]
@[simp] theorem modPart_ctx (f : Partition → Partition) : (modPart i f s).ctx j = s.ctx j := rfl
@[simp] theorem modPart_core (f : Partition → Partition) : (modPart i f s).core j = s.core j := rfl
@[simp] theorem modPart_cluster (f : Partition → Partition) : (modPart i f s).cluster j = s.cluster j := rfl
@[simp] theorem modPart_bank (f : Partition → Partition) : (modPart i f s).bank j = s.bank j := rfl
@[simp] theorem modPart_owner (f : Partition → Partition) : (modPart i f s).owner j = s.owner j := rfl
@[simp] theorem modPart_launch (f : Partition → Partition) : (modPart i f s).launch j = s.launch j := rfl
@[simp] theorem modPart_task (f : Partition → Partition) : (modPart i f s).task j = s.task j := rfl
@[simp] theorem modPart_version (f : Partition → Partition) : (modPart i f s).version j = s.version j := rfl

/-! ### modOwner -/

@[simp] theorem modOwner_cur (f : Owner → Owner) : (modOwner i f s).cur = s.cur := rfl
@[simp] theorem modOwner_agenda (f : Owner → Owner) : (modOwner i f s).agenda = s.agenda := rfl
@[simp] theorem modOwner_choice (f : Owner → Owner) : (modOwner i f s).choice = s.choice := rfl
@[simp] theorem modOwner_moveNo (f : Owner → Owner) : (modOwner i f s).moveNo = s.moveNo := rfl
@[simp] theorem modOwner_freeNo (f : Owner → Owner) : (modOwner i f s).freeNo = s.freeNo := rfl
@[simp] theorem modOwner_soloTurn (f : Owner → Owner) : (modOwner i f s).soloTurn = s.soloTurn := rfl
@[simp] theorem modOwner_nextId (f : Owner → Owner) : (modOwner i f s).nextId = s.nextId := rfl
@[simp] theorem modOwner_gtime (f : Owner → Owner) : (modOwner i f s).gtime = s.gtime := rfl
@[simp] theorem modOwner_mem (f : Owner → Owner) : (modOwner i f s).mem = s.mem := rfl
@[simp] theorem modOwner_fe (f : Owner → Owner) : (modOwner i f s).fe = s.fe := rfl
@[simp] theorem modOwner_ctxs (f : Owner → Owner) : (modOwner i f s).ctxs = s.ctxs := rfl
@[simp] theorem modOwner_cores (f : Owner → Owner) : (modOwner i f s).cores = s.cores := rfl
@[simp] theorem modOwner_clusters (f : Owner → Owner) : (modOwner i f s).clusters = s.clusters := rfl
@[simp] theorem modOwner_banks (f : Owner → Owner) : (modOwner i f s).banks = s.banks := rfl
@[simp] theorem modOwner_parts (f : Owner → Owner) : (modOwner i f s).parts = s.parts := rfl
@[simp] theorem modOwner_launches (f : Owner → Owner) : (modOwner i f s).launches = s.launches := rfl
@[simp] theorem modOwner_tasks (f : Owner → Owner) : (modOwner i f s).tasks = s.tasks := rfl
@[simp] theorem modOwner_versions (f : Owner → Owner) : (modOwner i f s).versions = s.versions := rfl
@[simp] theorem modOwner_net (f : Owner → Owner) : (modOwner i f s).net = s.net := rfl
@[simp] theorem modOwner_mod (f : Owner → Owner) : (modOwner i f s).mod = s.mod := rfl
@[simp] theorem modOwner_owner (f : Owner → Owner) : (modOwner i f s).owner j = if j = i then f (s.owner i) else s.owner j := by
  simp [modOwner, State.owner]
@[simp] theorem modOwner_ctx (f : Owner → Owner) : (modOwner i f s).ctx j = s.ctx j := rfl
@[simp] theorem modOwner_core (f : Owner → Owner) : (modOwner i f s).core j = s.core j := rfl
@[simp] theorem modOwner_cluster (f : Owner → Owner) : (modOwner i f s).cluster j = s.cluster j := rfl
@[simp] theorem modOwner_bank (f : Owner → Owner) : (modOwner i f s).bank j = s.bank j := rfl
@[simp] theorem modOwner_part (f : Owner → Owner) : (modOwner i f s).part j = s.part j := rfl
@[simp] theorem modOwner_launch (f : Owner → Owner) : (modOwner i f s).launch j = s.launch j := rfl
@[simp] theorem modOwner_task (f : Owner → Owner) : (modOwner i f s).task j = s.task j := rfl
@[simp] theorem modOwner_version (f : Owner → Owner) : (modOwner i f s).version j = s.version j := rfl

/-! ### modLaunch -/

@[simp] theorem modLaunch_cur (f : Launch → Launch) : (modLaunch i f s).cur = s.cur := rfl
@[simp] theorem modLaunch_agenda (f : Launch → Launch) : (modLaunch i f s).agenda = s.agenda := rfl
@[simp] theorem modLaunch_choice (f : Launch → Launch) : (modLaunch i f s).choice = s.choice := rfl
@[simp] theorem modLaunch_moveNo (f : Launch → Launch) : (modLaunch i f s).moveNo = s.moveNo := rfl
@[simp] theorem modLaunch_freeNo (f : Launch → Launch) : (modLaunch i f s).freeNo = s.freeNo := rfl
@[simp] theorem modLaunch_soloTurn (f : Launch → Launch) : (modLaunch i f s).soloTurn = s.soloTurn := rfl
@[simp] theorem modLaunch_nextId (f : Launch → Launch) : (modLaunch i f s).nextId = s.nextId := rfl
@[simp] theorem modLaunch_gtime (f : Launch → Launch) : (modLaunch i f s).gtime = s.gtime := rfl
@[simp] theorem modLaunch_mem (f : Launch → Launch) : (modLaunch i f s).mem = s.mem := rfl
@[simp] theorem modLaunch_fe (f : Launch → Launch) : (modLaunch i f s).fe = s.fe := rfl
@[simp] theorem modLaunch_ctxs (f : Launch → Launch) : (modLaunch i f s).ctxs = s.ctxs := rfl
@[simp] theorem modLaunch_cores (f : Launch → Launch) : (modLaunch i f s).cores = s.cores := rfl
@[simp] theorem modLaunch_clusters (f : Launch → Launch) : (modLaunch i f s).clusters = s.clusters := rfl
@[simp] theorem modLaunch_banks (f : Launch → Launch) : (modLaunch i f s).banks = s.banks := rfl
@[simp] theorem modLaunch_parts (f : Launch → Launch) : (modLaunch i f s).parts = s.parts := rfl
@[simp] theorem modLaunch_owners (f : Launch → Launch) : (modLaunch i f s).owners = s.owners := rfl
@[simp] theorem modLaunch_tasks (f : Launch → Launch) : (modLaunch i f s).tasks = s.tasks := rfl
@[simp] theorem modLaunch_versions (f : Launch → Launch) : (modLaunch i f s).versions = s.versions := rfl
@[simp] theorem modLaunch_net (f : Launch → Launch) : (modLaunch i f s).net = s.net := rfl
@[simp] theorem modLaunch_mod (f : Launch → Launch) : (modLaunch i f s).mod = s.mod := rfl
@[simp] theorem modLaunch_launch (f : Launch → Launch) : (modLaunch i f s).launch j = if j = i then f (s.launch i) else s.launch j := by
  simp [modLaunch, State.launch]
@[simp] theorem modLaunch_ctx (f : Launch → Launch) : (modLaunch i f s).ctx j = s.ctx j := rfl
@[simp] theorem modLaunch_core (f : Launch → Launch) : (modLaunch i f s).core j = s.core j := rfl
@[simp] theorem modLaunch_cluster (f : Launch → Launch) : (modLaunch i f s).cluster j = s.cluster j := rfl
@[simp] theorem modLaunch_bank (f : Launch → Launch) : (modLaunch i f s).bank j = s.bank j := rfl
@[simp] theorem modLaunch_part (f : Launch → Launch) : (modLaunch i f s).part j = s.part j := rfl
@[simp] theorem modLaunch_owner (f : Launch → Launch) : (modLaunch i f s).owner j = s.owner j := rfl
@[simp] theorem modLaunch_task (f : Launch → Launch) : (modLaunch i f s).task j = s.task j := rfl
@[simp] theorem modLaunch_version (f : Launch → Launch) : (modLaunch i f s).version j = s.version j := rfl

/-! ### modTask -/

@[simp] theorem modTask_cur (f : Task → Task) : (modTask i f s).cur = s.cur := rfl
@[simp] theorem modTask_agenda (f : Task → Task) : (modTask i f s).agenda = s.agenda := rfl
@[simp] theorem modTask_choice (f : Task → Task) : (modTask i f s).choice = s.choice := rfl
@[simp] theorem modTask_moveNo (f : Task → Task) : (modTask i f s).moveNo = s.moveNo := rfl
@[simp] theorem modTask_freeNo (f : Task → Task) : (modTask i f s).freeNo = s.freeNo := rfl
@[simp] theorem modTask_soloTurn (f : Task → Task) : (modTask i f s).soloTurn = s.soloTurn := rfl
@[simp] theorem modTask_nextId (f : Task → Task) : (modTask i f s).nextId = s.nextId := rfl
@[simp] theorem modTask_gtime (f : Task → Task) : (modTask i f s).gtime = s.gtime := rfl
@[simp] theorem modTask_mem (f : Task → Task) : (modTask i f s).mem = s.mem := rfl
@[simp] theorem modTask_fe (f : Task → Task) : (modTask i f s).fe = s.fe := rfl
@[simp] theorem modTask_ctxs (f : Task → Task) : (modTask i f s).ctxs = s.ctxs := rfl
@[simp] theorem modTask_cores (f : Task → Task) : (modTask i f s).cores = s.cores := rfl
@[simp] theorem modTask_clusters (f : Task → Task) : (modTask i f s).clusters = s.clusters := rfl
@[simp] theorem modTask_banks (f : Task → Task) : (modTask i f s).banks = s.banks := rfl
@[simp] theorem modTask_parts (f : Task → Task) : (modTask i f s).parts = s.parts := rfl
@[simp] theorem modTask_owners (f : Task → Task) : (modTask i f s).owners = s.owners := rfl
@[simp] theorem modTask_launches (f : Task → Task) : (modTask i f s).launches = s.launches := rfl
@[simp] theorem modTask_versions (f : Task → Task) : (modTask i f s).versions = s.versions := rfl
@[simp] theorem modTask_net (f : Task → Task) : (modTask i f s).net = s.net := rfl
@[simp] theorem modTask_mod (f : Task → Task) : (modTask i f s).mod = s.mod := rfl
@[simp] theorem modTask_task (f : Task → Task) : (modTask i f s).task j = if j = i then f (s.task i) else s.task j := by
  simp [modTask, State.task]
@[simp] theorem modTask_ctx (f : Task → Task) : (modTask i f s).ctx j = s.ctx j := rfl
@[simp] theorem modTask_core (f : Task → Task) : (modTask i f s).core j = s.core j := rfl
@[simp] theorem modTask_cluster (f : Task → Task) : (modTask i f s).cluster j = s.cluster j := rfl
@[simp] theorem modTask_bank (f : Task → Task) : (modTask i f s).bank j = s.bank j := rfl
@[simp] theorem modTask_part (f : Task → Task) : (modTask i f s).part j = s.part j := rfl
@[simp] theorem modTask_owner (f : Task → Task) : (modTask i f s).owner j = s.owner j := rfl
@[simp] theorem modTask_launch (f : Task → Task) : (modTask i f s).launch j = s.launch j := rfl
@[simp] theorem modTask_version (f : Task → Task) : (modTask i f s).version j = s.version j := rfl

/-! ### modVersion -/

@[simp] theorem modVersion_cur (f : Version → Version) : (modVersion i f s).cur = s.cur := rfl
@[simp] theorem modVersion_agenda (f : Version → Version) : (modVersion i f s).agenda = s.agenda := rfl
@[simp] theorem modVersion_choice (f : Version → Version) : (modVersion i f s).choice = s.choice := rfl
@[simp] theorem modVersion_moveNo (f : Version → Version) : (modVersion i f s).moveNo = s.moveNo := rfl
@[simp] theorem modVersion_freeNo (f : Version → Version) : (modVersion i f s).freeNo = s.freeNo := rfl
@[simp] theorem modVersion_soloTurn (f : Version → Version) : (modVersion i f s).soloTurn = s.soloTurn := rfl
@[simp] theorem modVersion_nextId (f : Version → Version) : (modVersion i f s).nextId = s.nextId := rfl
@[simp] theorem modVersion_gtime (f : Version → Version) : (modVersion i f s).gtime = s.gtime := rfl
@[simp] theorem modVersion_mem (f : Version → Version) : (modVersion i f s).mem = s.mem := rfl
@[simp] theorem modVersion_fe (f : Version → Version) : (modVersion i f s).fe = s.fe := rfl
@[simp] theorem modVersion_ctxs (f : Version → Version) : (modVersion i f s).ctxs = s.ctxs := rfl
@[simp] theorem modVersion_cores (f : Version → Version) : (modVersion i f s).cores = s.cores := rfl
@[simp] theorem modVersion_clusters (f : Version → Version) : (modVersion i f s).clusters = s.clusters := rfl
@[simp] theorem modVersion_banks (f : Version → Version) : (modVersion i f s).banks = s.banks := rfl
@[simp] theorem modVersion_parts (f : Version → Version) : (modVersion i f s).parts = s.parts := rfl
@[simp] theorem modVersion_owners (f : Version → Version) : (modVersion i f s).owners = s.owners := rfl
@[simp] theorem modVersion_launches (f : Version → Version) : (modVersion i f s).launches = s.launches := rfl
@[simp] theorem modVersion_tasks (f : Version → Version) : (modVersion i f s).tasks = s.tasks := rfl
@[simp] theorem modVersion_net (f : Version → Version) : (modVersion i f s).net = s.net := rfl
@[simp] theorem modVersion_mod (f : Version → Version) : (modVersion i f s).mod = s.mod := rfl
@[simp] theorem modVersion_version (f : Version → Version) : (modVersion i f s).version j = if j = i then f (s.version i) else s.version j := by
  simp [modVersion, State.version]
@[simp] theorem modVersion_ctx (f : Version → Version) : (modVersion i f s).ctx j = s.ctx j := rfl
@[simp] theorem modVersion_core (f : Version → Version) : (modVersion i f s).core j = s.core j := rfl
@[simp] theorem modVersion_cluster (f : Version → Version) : (modVersion i f s).cluster j = s.cluster j := rfl
@[simp] theorem modVersion_bank (f : Version → Version) : (modVersion i f s).bank j = s.bank j := rfl
@[simp] theorem modVersion_part (f : Version → Version) : (modVersion i f s).part j = s.part j := rfl
@[simp] theorem modVersion_owner (f : Version → Version) : (modVersion i f s).owner j = s.owner j := rfl
@[simp] theorem modVersion_launch (f : Version → Version) : (modVersion i f s).launch j = s.launch j := rfl
@[simp] theorem modVersion_task (f : Version → Version) : (modVersion i f s).task j = s.task j := rfl

/-! ### modMod -/

@[simp] theorem modMod_cur (f : Module → Module) : (modMod f s).cur = s.cur := rfl
@[simp] theorem modMod_agenda (f : Module → Module) : (modMod f s).agenda = s.agenda := rfl
@[simp] theorem modMod_choice (f : Module → Module) : (modMod f s).choice = s.choice := rfl
@[simp] theorem modMod_moveNo (f : Module → Module) : (modMod f s).moveNo = s.moveNo := rfl
@[simp] theorem modMod_freeNo (f : Module → Module) : (modMod f s).freeNo = s.freeNo := rfl
@[simp] theorem modMod_soloTurn (f : Module → Module) : (modMod f s).soloTurn = s.soloTurn := rfl
@[simp] theorem modMod_nextId (f : Module → Module) : (modMod f s).nextId = s.nextId := rfl
@[simp] theorem modMod_gtime (f : Module → Module) : (modMod f s).gtime = s.gtime := rfl
@[simp] theorem modMod_mem (f : Module → Module) : (modMod f s).mem = s.mem := rfl
@[simp] theorem modMod_fe (f : Module → Module) : (modMod f s).fe = s.fe := rfl
@[simp] theorem modMod_ctxs (f : Module → Module) : (modMod f s).ctxs = s.ctxs := rfl
@[simp] theorem modMod_cores (f : Module → Module) : (modMod f s).cores = s.cores := rfl
@[simp] theorem modMod_clusters (f : Module → Module) : (modMod f s).clusters = s.clusters := rfl
@[simp] theorem modMod_banks (f : Module → Module) : (modMod f s).banks = s.banks := rfl
@[simp] theorem modMod_parts (f : Module → Module) : (modMod f s).parts = s.parts := rfl
@[simp] theorem modMod_owners (f : Module → Module) : (modMod f s).owners = s.owners := rfl
@[simp] theorem modMod_launches (f : Module → Module) : (modMod f s).launches = s.launches := rfl
@[simp] theorem modMod_tasks (f : Module → Module) : (modMod f s).tasks = s.tasks := rfl
@[simp] theorem modMod_versions (f : Module → Module) : (modMod f s).versions = s.versions := rfl
@[simp] theorem modMod_net (f : Module → Module) : (modMod f s).net = s.net := rfl
@[simp] theorem modMod_mod (f : Module → Module) : (modMod f s).mod = f s.mod := rfl
@[simp] theorem modMod_ctx (f : Module → Module) : (modMod f s).ctx j = s.ctx j := rfl
@[simp] theorem modMod_core (f : Module → Module) : (modMod f s).core j = s.core j := rfl
@[simp] theorem modMod_cluster (f : Module → Module) : (modMod f s).cluster j = s.cluster j := rfl
@[simp] theorem modMod_bank (f : Module → Module) : (modMod f s).bank j = s.bank j := rfl
@[simp] theorem modMod_part (f : Module → Module) : (modMod f s).part j = s.part j := rfl
@[simp] theorem modMod_owner (f : Module → Module) : (modMod f s).owner j = s.owner j := rfl
@[simp] theorem modMod_launch (f : Module → Module) : (modMod f s).launch j = s.launch j := rfl
@[simp] theorem modMod_task (f : Module → Module) : (modMod f s).task j = s.task j := rfl
@[simp] theorem modMod_version (f : Module → Module) : (modMod f s).version j = s.version j := rfl

/-! ### Updates of one context -/

theorem modEng_eq (f : Engines → Engines) : modEng i f s = modCtx i (fun h => { h with eng := f h.eng }) s := rfl
theorem putG_eq (d : R5) (v : W64) : putG i d v s = modCtx i (fun h => { h with regs := setG h.regs d v }) s := rfl
theorem setWait_eq (w : Wait) : setWait i w s = modCtx i (fun h => { h with wait := w }) s := rfl
theorem bump_eq (n : Nat) (v : W64) :
    bump i n v s = modCtx i (fun h => { h with eng := { h.eng with cc := tset 0 h.eng.cc n (getCc h n + v) } }) s := rfl
theorem logEvent_eq (e : Log) : logEvent e s = modMod (fun m => { m with log := m.log ++ [e] }) s := rfl

/-- Two updates of one context are one. -/
theorem modCtx_modCtx (f g : Ctx → Ctx) : (modCtx i f (modCtx i g s)).ctx j = (modCtx i (f ∘ g) s).ctx j := by
  by_cases h : j = i <;> simp [h]

/-! ### Registers (R74) -/

@[simp] theorem getG_zero (r : Regs) : getG r 0 = 0 := rfl
@[simp] theorem setG_zero (r : Regs) (v : W64) : setG r 0 v = r := rfl
@[simp] theorem setG_pc (r : Regs) (d : R5) (v : W64) : (setG r d v).pc = r.pc := by unfold setG; split <;> rfl
@[simp] theorem setG_f (r : Regs) (d : R5) (v : W64) : (setG r d v).f = r.f := by unfold setG; split <;> rfl
@[simp] theorem setG_fstat (r : Regs) (d : R5) (v : W64) : (setG r d v).fstat = r.fstat := by unfold setG; split <;> rfl
@[simp] theorem getF_setG (r : Regs) (d : R5) (v : W64) (n : R5) : getF (setG r d v) n = getF r n := by simp [getF]

/-- R74: a written register reads back; g0 stays 0; other registers keep their value. -/
@[simp] theorem getG_setG (r : Regs) (d n : R5) (v : W64) :
    getG (setG r d v) n = if n = 0 then 0 else if n = d then v else getG r n := by
  unfold getG
  by_cases hn : n = 0
  · rw [if_pos hn, if_pos hn]
  · rw [if_neg hn, if_neg hn]
    unfold setG
    by_cases hd : d = 0
    · rw [if_pos hd, if_neg (fun e => hn (e.trans hd)), if_neg hn]
    · rw [if_neg hd]
      by_cases h : n = d
      · subst h
        simp
      · have h' : ¬n.toNat = d.toNat := fun e => h (BitVec.eq_of_toNat_eq e)
        rw [if_neg h, if_neg hn]
        simp [h']

@[simp] theorem setF_pc (r : Regs) (d : R5) (v : FReg) : (setF r d v).pc = r.pc := rfl
@[simp] theorem setF_g (r : Regs) (d : R5) (v : FReg) : (setF r d v).g = r.g := rfl
@[simp] theorem setF_fstat (r : Regs) (d : R5) (v : FReg) : (setF r d v).fstat = r.fstat := rfl
@[simp] theorem getG_setF (r : Regs) (d n : R5) (v : FReg) : getG (setF r d v) n = getG r n := rfl

/-- A written f register reads back (R40). -/
@[simp] theorem getF_setF (r : Regs) (d n : R5) (v : FReg) : getF (setF r d v) n = if n = d then v else getF r n := by
  unfold getF setF
  by_cases h : n = d
  · simp [h]
  · have : ¬n.toNat = d.toNat := fun e => h (BitVec.eq_of_toNat_eq e)
    simp [h, this]

@[simp] theorem getBG_zero (b : Bank) : getBG b 0 = 0 := rfl

/-- R281: the same for the registers of a bank arithmetic unit. -/
@[simp] theorem getBG_setBG (b : Bank) (d n : R5) (v : W32) :
    getBG (setBG d v b) n = if n = 0 then 0 else if n = d then v else getBG b n := by
  unfold getBG
  by_cases hn : n = 0
  · rw [if_pos hn, if_pos hn]
  · rw [if_neg hn, if_neg hn]
    unfold setBG
    by_cases hd : d = 0
    · rw [if_pos hd, if_neg (fun e => hn (e.trans hd)), if_neg hn]
    · rw [if_neg hd]
      by_cases h : n = d
      · subst h
        simp
      · have h' : ¬n.toNat = d.toNat := fun e => h (BitVec.eq_of_toNat_eq e)
        rw [if_neg h, if_neg hn]
        simp [h']

end Sys2Proof.Machine
end

