-- ==== Sys2Proof/Laws/Ops.lean ====
section
/-!
SUPPORT. One lemma for each shared operation: what it answers, said once (R128, R138, R199 to R202).
-/

namespace Sys2Proof.Machine

theorem tdel_tins {α : Type} (t : Tbl α) (k : Nat) (v : α) : tdel (tins t k v) k = tdel t k := by
  induction t with
  | nil => simp [tins, tdel]
  | cons p r ih =>
    simp only [tdel] at ih ⊢
    by_cases h : p.1 < k
    · rw [tins, if_pos h, List.filter_cons, List.filter_cons, ih]
    · simp [tins, h]

theorem tdel_tdel {α : Type} (t : Tbl α) (k : Nat) : tdel (tdel t k) k = tdel t k := by simp [tdel]

/-- The last of two writes of one key stands. -/
theorem tput_tput {α : Type} (t : Tbl α) (k : Nat) (v w : α) : tput (tput t k v) k w = tput t k w := by
  simp only [tput, tdel_tins, tdel_tdel]

/-- Two updates of one context are one update. -/
theorem modCtx_comp (c : Nat) (f g : Ctx → Ctx) (s : State) : modCtx c f (modCtx c g s) = modCtx c (fun h => f (g h)) s := by
  simp only [modCtx, State.ctx, tput_tput, tget_tput, if_true]

variable {s : State} {c g : Nat}

theorem coreOnly_hart (h : s.cur = .hart c) (f : Nat → Ctx → State) : coreOnly s f = f c (s.ctx c) := by
  simp [coreOnly, h]

theorem coreOnly_bau (h : s.cur = .bau g) (f : Nat → Ctx → State) : coreOnly s f = endRun g 1 0 s := by
  simp [coreOnly, h]

theorem bauOnly_bau (h : s.cur = .bau g) (i : Instr) (f : Nat → Bank → State) : bauOnly i s f = f g (s.bank g) := by
  simp [bauOnly, h]

theorem bauOnly_hart (h : s.cur = .hart c) (i : Instr) (f : Nat → Bank → State) : bauOnly i s f = illegal c i s := by
  simp [bauOnly, h]

theorem commitChunk_none (h : (s.ctx c).chunk = none) : commitChunk c s = s := by simp [commitChunk, h]

theorem stepTrap_none (h : (s.ctx c).armed = none) (a : W64) : stepTrap c a s = s := by simp [stepTrap, h]

/-- R199: the context after an instruction of its open chunk, with new registers. -/
def inChunk (r : Regs) (h : Ctx) : Ctx :=
  let k := { openedChunk h with count := (openedChunk h).count + 1 }
  { h with regs := r, chunk := some { k with closed := chunkFull h k } }

theorem retireChunk_eq (ha : (s.ctx c).armed = none) (hs : (s.ctx c).solo = false) (next : W64) :
    retireChunk c next s = modCtx c (fun h => { h with
      regs := { h.regs with pc := next }
      chunk := h.chunk.map fun k =>
        let k := { k with count := k.count + 1 }
        { k with closed := chunkFull h k } }) s := by
  simp only [retireChunk, modCtx_ctx, if_true, hs, Bool.false_eq_true, if_false]
  rw [stepTrap_none]
  simp [ha]

/-- R199: a chunk instruction at a hart with no step armed and not in solo mode. -/
theorem scalar_eq (hpc : (s.ctx c).regs.pc ≠ lastPc) (ha : (s.ctx c).armed = none) (hs : (s.ctx c).solo = false)
    (f : Regs → Regs) :
    scalar c f s = modCtx c (fun h => inChunk { f h.regs with pc := (s.ctx c).regs.pc + 4 } h) s := by
  unfold scalar
  rw [if_neg hpc, retireChunk_eq (by simp [openChunk, ha]) (by simp [openChunk, hs]), openChunk, modCtx_comp, modCtx_comp]
  rfl

/-- R104 to R106: a transfer of control to a legal target. -/
theorem jump_eq (ha : (s.ctx c).armed = none) (hs : (s.ctx c).solo = false) (t : W64) (f : Regs → Regs) :
    jump c t false f s = modCtx c (fun h => inChunk { f h.regs with pc := t } h) s := by
  unfold jump
  rw [if_neg (by decide), retireChunk_eq (by simp [openChunk, ha]) (by simp [openChunk, hs]), openChunk, modCtx_comp,
    modCtx_comp]
  rfl

/-- R94, R149: an instruction outside any chunk retires. -/
theorem retireAt_eq (ha : (s.ctx c).armed = none) (t : W64) :
    retireAt c t s = modCtx c (fun h => { h with
      regs := { h.regs with pc := t }, wait := .none, csr := { h.csr with retired := h.csr.retired + 1 } }) s := by
  unfold retireAt
  rw [stepTrap_none (by simp [ha])]

theorem outside_eq (hk : (s.ctx c).chunk = none) (hpc : (s.ctx c).regs.pc ≠ lastPc) (f : Ctx → State → State) :
    outside c f s = f (s.ctx c) s := by
  simp [outside, commitChunk_none hk, hpc]

/-! ### Squashes and commits leave everything but contexts and memory -/

theorem squashReaders_eq (q : Nat) (w : List Nat) (me : Option Nat) (s : State) :
    ∃ cs, squashReaders q w me s = { s with ctxs := cs } := ⟨_, rfl⟩

@[simp] theorem squashReaders_mem (q : Nat) (w : List Nat) (me : Option Nat) (s : State) :
    (squashReaders q w me s).mem = s.mem := rfl

@[simp] theorem squashReaders_fe (q : Nat) (w : List Nat) (me : Option Nat) (s : State) :
    (squashReaders q w me s).fe = s.fe := rfl

/-- A repeated operation that changes only contexts changes only contexts. -/
theorem forEach_ctxs {α : Type} (l : List α) (g : α → State → State) (h : ∀ x u, ∃ cs, g x u = { u with ctxs := cs }) (s : State) :
    ∃ cs, forEach l g s = { s with ctxs := cs } := by
  unfold forEach
  induction l generalizing s with
  | nil => exact ⟨s.ctxs, rfl⟩
  | cons x l ih =>
    obtain ⟨a, e⟩ := h x s
    obtain ⟨b, e'⟩ := ih (g x s)
    exact ⟨b, by rw [List.foldl_cons, e', e]⟩

/-- R203 to R205: what a release can change: chunks, what covers the packets in flight, and what covers the columns kept. -/
theorem setCovers_eq (c z : Nat) (f : Nat → List Release → Bool) (s : State) :
    ∃ cs ps bs, setCovers c z f s = { s with ctxs := cs, net := ps, banks := bs } := by
  unfold setCovers
  refine Exists.imp (fun _ e => ⟨_, _, e⟩) (forEach_ctxs _ _ (fun p u => ?_) _)
  cases landing s p with
  | none => exact ⟨u.ctxs, rfl⟩
  | some x => exact ⟨_, rfl⟩

/-- R199 to R205: a release, and what a hart may have acquired, change no byte of memory. -/
@[simp] theorem setCovers_mem (c z : Nat) (f : Nat → List Release → Bool) (s : State) : (setCovers c z f s).mem = s.mem := by
  obtain ⟨_, _, _, e⟩ := setCovers_eq c z f s
  rw [e]
@[simp] theorem cover_mem (c z : Nat) (s : State) : (cover c z s).mem = s.mem := setCovers_mem ..
@[simp] theorem carry_mem (c : Nat) (s : State) : (carry c s).mem = s.mem := setCovers_mem ..

@[simp] theorem sramWrite_mem (k : Nat) (b : List Byte) (me : Option Nat) (s : State) :
    (sramWrite k b me s).mem = writeBytes s.mem k b := rfl

@[simp] theorem setFe_mem (w : List Nat) (b : Bool) (s : State) : (setFe w b s).mem = s.mem := rfl

/-- R200: a commit applies the held stores, oldest first. -/
theorem commitChunk_mem (c : Nat) (s : State) :
    (commitChunk c s).mem =
      match (s.ctx c).chunk with
      | none => s.mem
      | some k => k.stores.foldr (fun p m => writeByte m p.1 p.2) s.mem := by
  unfold commitChunk
  cases (s.ctx c).chunk <;> rfl

theorem wf_commitChunk (c : Nat) (h : Memory.wf s.mem) : Memory.wf (commitChunk c s).mem := by
  rw [commitChunk_mem]
  cases (s.ctx c).chunk with
  | none => exact h
  | some k => exact wf_foldr h k.stores

theorem wf_sramWrite (k : Nat) (b : List Byte) (me : Option Nat) (h : Memory.wf s.mem) :
    Memory.wf (sramWrite k b me s).mem := by
  rw [sramWrite_mem]
  exact wf_writeBytes h k b

theorem stepTrap_mem (c : Nat) (a : W64) (s : State) :
    (stepTrap c a s).mem = s.mem ∨ (stepTrap c a s).mem = (commitChunk c s).mem := by
  unfold stepTrap
  cases (s.ctx c).armed with
  | none => exact .inl rfl
  | some l =>
    right
    dsimp only
    repeat' split
    all_goals rfl

/-- R128: taking a trap changes memory by the commit of the open chunk only. -/
theorem takeTrap_mem (c : Nat) (int : Bool) (code : Nat) (v t : W64) (s : State) :
    (takeTrap c int code v t s).mem = (commitChunk c s).mem := by
  unfold takeTrap
  dsimp only
  split
  · split <;> rfl
  · split <;> rfl

end Sys2Proof.Machine
end

