-- ==== Sys2Proof/Laws/PerInstr.lean ====
section
/-!
SUPPORT. What the decoder reads from the word of each instruction (R76 to R81): every field where the encoding puts it.
-/

namespace Sys2Proof

/-! ### Fields of concatenations -/

theorem extract_high {n m : Nat} (x : BitVec n) (y : BitVec m) (lo len : Nat) :
    (x ++ y).extractLsb' (m + lo) len = x.extractLsb' lo len := by
  apply BitVec.eq_of_getLsbD_eq
  intro i hi
  have h1 : ¬m + lo + i < m := by omega
  have h2 : m + lo + i - m = lo + i := by omega
  rw [BitVec.getLsbD_extractLsb', BitVec.getLsbD_extractLsb', BitVec.getLsbD_append, if_neg h1, h2]

theorem extract_ge {n m : Nat} (x : BitVec n) (y : BitVec m) (k len : Nat) (h : m ≤ k) :
    (x ++ y).extractLsb' k len = x.extractLsb' (k - m) len := by
  rw [← extract_high x y (k - m) len, Nat.add_sub_cancel' h]

theorem extract_low {n m : Nat} (x : BitVec n) (y : BitVec m) : (x ++ y).extractLsb' 0 m = y := by
  apply BitVec.eq_of_getLsbD_eq
  intro i hi
  simp [BitVec.getLsbD_append, hi]

theorem extract_all {n : Nat} (x : BitVec n) : x.extractLsb' 0 n = x := by
  apply BitVec.eq_of_getLsbD_eq
  intro i hi
  simp [hi]

/-! ### Fields of the packed forms (R76, R77) -/

section
variable (m : BitVec 6) (d a b c : R5) (fn : BitVec 6) (imm : BitVec 16) (j : BitVec 21) (t : BitVec 4) (o : BitVec 12)

theorem fFn_packX : fFn (packX m d a b c fn) = fn := by
  exact extract_low _ _
theorem fC_packX : fC (packX m d a b c fn) = c := by
  show ((m ++ d ++ a ++ b ++ c) ++ fn).extractLsb' (6 + 0) 5 = c
  rw [extract_high]
  exact extract_low _ _
theorem fB_packX : fB (packX m d a b c fn) = b := by
  show ((m ++ d ++ a ++ b ++ c) ++ fn).extractLsb' (6 + 5) 5 = b
  rw [extract_high]
  show ((m ++ d ++ a ++ b) ++ c).extractLsb' (5 + 0) 5 = b
  rw [extract_high]
  exact extract_low _ _
theorem fA_packX : fA (packX m d a b c fn) = a := by
  show ((m ++ d ++ a ++ b ++ c) ++ fn).extractLsb' (6 + 10) 5 = a
  rw [extract_high]
  show ((m ++ d ++ a ++ b) ++ c).extractLsb' (5 + 5) 5 = a
  rw [extract_high]
  show ((m ++ d ++ a) ++ b).extractLsb' (5 + 0) 5 = a
  rw [extract_high]
  exact extract_low _ _
theorem fD_packX : fD (packX m d a b c fn) = d := by
  show ((m ++ d ++ a ++ b ++ c) ++ fn).extractLsb' (6 + 15) 5 = d
  rw [extract_high]
  show ((m ++ d ++ a ++ b) ++ c).extractLsb' (5 + 10) 5 = d
  rw [extract_high]
  show ((m ++ d ++ a) ++ b).extractLsb' (5 + 5) 5 = d
  rw [extract_high]
  show ((m ++ d) ++ a).extractLsb' (5 + 0) 5 = d
  rw [extract_high]
  exact extract_low _ _
theorem fMaj_packX : fMaj (packX m d a b c fn) = m := by
  show ((m ++ d ++ a ++ b ++ c) ++ fn).extractLsb' (6 + 20) 6 = m
  rw [extract_high]
  show ((m ++ d ++ a ++ b) ++ c).extractLsb' (5 + 15) 6 = m
  rw [extract_high]
  show ((m ++ d ++ a) ++ b).extractLsb' (5 + 10) 6 = m
  rw [extract_high]
  show ((m ++ d) ++ a).extractLsb' (5 + 5) 6 = m
  rw [extract_high]
  show ((m) ++ d).extractLsb' (5 + 0) 6 = m
  rw [extract_high]
  exact extract_all _
theorem fImm_packI : fImm (packI m d a imm) = imm := by
  exact extract_low _ _
theorem fA_packI : fA (packI m d a imm) = a := by
  show ((m ++ d ++ a) ++ imm).extractLsb' (16 + 0) 5 = a
  rw [extract_high]
  exact extract_low _ _
theorem fD_packI : fD (packI m d a imm) = d := by
  show ((m ++ d ++ a) ++ imm).extractLsb' (16 + 5) 5 = d
  rw [extract_high]
  show ((m ++ d) ++ a).extractLsb' (5 + 0) 5 = d
  rw [extract_high]
  exact extract_low _ _
theorem fMaj_packI : fMaj (packI m d a imm) = m := by
  show ((m ++ d ++ a) ++ imm).extractLsb' (16 + 10) 6 = m
  rw [extract_high]
  show ((m ++ d) ++ a).extractLsb' (5 + 5) 6 = m
  rw [extract_high]
  show ((m) ++ d).extractLsb' (5 + 0) 6 = m
  rw [extract_high]
  exact extract_all _
theorem fImm21_packJ : fImm21 (packJ m d j) = j := by
  exact extract_low _ _
theorem fD_packJ : fD (packJ m d j) = d := by
  show ((m ++ d) ++ j).extractLsb' (21 + 0) 5 = d
  rw [extract_high]
  exact extract_low _ _
theorem fMaj_packJ : fMaj (packJ m d j) = m := by
  show ((m ++ d) ++ j).extractLsb' (21 + 5) 6 = m
  rw [extract_high]
  show ((m) ++ d).extractLsb' (5 + 0) 6 = m
  rw [extract_high]
  exact extract_all _
theorem fOff_packT : fOff (packT m d a t o) = o := by
  exact extract_low _ _
theorem fTy_packT : fTy (packT m d a t o) = t := by
  show ((m ++ d ++ a ++ t) ++ o).extractLsb' (12 + 0) 4 = t
  rw [extract_high]
  exact extract_low _ _
theorem fA_packT : fA (packT m d a t o) = a := by
  show ((m ++ d ++ a ++ t) ++ o).extractLsb' (12 + 4) 5 = a
  rw [extract_high]
  show ((m ++ d ++ a) ++ t).extractLsb' (4 + 0) 5 = a
  rw [extract_high]
  exact extract_low _ _
theorem fD_packT : fD (packT m d a t o) = d := by
  show ((m ++ d ++ a ++ t) ++ o).extractLsb' (12 + 9) 5 = d
  rw [extract_high]
  show ((m ++ d ++ a) ++ t).extractLsb' (4 + 5) 5 = d
  rw [extract_high]
  show ((m ++ d) ++ a).extractLsb' (5 + 0) 5 = d
  rw [extract_high]
  exact extract_low _ _
theorem fMaj_packT : fMaj (packT m d a t o) = m := by
  show ((m ++ d ++ a ++ t) ++ o).extractLsb' (12 + 14) 6 = m
  rw [extract_high]
  show ((m ++ d ++ a) ++ t).extractLsb' (4 + 10) 6 = m
  rw [extract_high]
  show ((m ++ d) ++ a).extractLsb' (5 + 5) 6 = m
  rw [extract_high]
  show ((m) ++ d).extractLsb' (5 + 0) 6 = m
  rw [extract_high]
  exact extract_all _

end

/-! ### The arm of each major opcode (R80) -/

theorem decodeRaw_maj00 {w : W32} (h : fMaj w = 0x00) : decodeRaw w = decodeMaj00 w := by
  delta decodeRaw
  rw [h]
  rfl
theorem decodeRaw_maj01 {w : W32} (h : fMaj w = 0x01) : decodeRaw w = .ok (.addi (fD w) (fA w) (fImm w)) := by
  delta decodeRaw
  rw [h]
  rfl
theorem decodeRaw_maj02 {w : W32} (h : fMaj w = 0x02) : decodeRaw w = .ok (.andi (fD w) (fA w) (fImm w)) := by
  delta decodeRaw
  rw [h]
  rfl
theorem decodeRaw_maj03 {w : W32} (h : fMaj w = 0x03) : decodeRaw w = .ok (.ori (fD w) (fA w) (fImm w)) := by
  delta decodeRaw
  rw [h]
  rfl
theorem decodeRaw_maj04 {w : W32} (h : fMaj w = 0x04) : decodeRaw w = .ok (.xori (fD w) (fA w) (fImm w)) := by
  delta decodeRaw
  rw [h]
  rfl
theorem decodeRaw_maj05 {w : W32} (h : fMaj w = 0x05) : decodeRaw w = .ok (.slti (fD w) (fA w) (fImm w)) := by
  delta decodeRaw
  rw [h]
  rfl
theorem decodeRaw_maj06 {w : W32} (h : fMaj w = 0x06) : decodeRaw w = .ok (.sltiu (fD w) (fA w) (fImm w)) := by
  delta decodeRaw
  rw [h]
  rfl
theorem decodeRaw_maj07 {w : W32} (h : fMaj w = 0x07) : decodeRaw w = decodeMaj07 w := by
  delta decodeRaw
  rw [h]
  rfl
theorem decodeRaw_maj08 {w : W32} (h : fMaj w = 0x08) : decodeRaw w = .ok (.lui (fD w) (fImm21 w)) := by
  delta decodeRaw
  rw [h]
  rfl
theorem decodeRaw_maj09 {w : W32} (h : fMaj w = 0x09) : decodeRaw w = .ok (.aupc (fD w) (fImm21 w)) := by
  delta decodeRaw
  rw [h]
  rfl
theorem decodeRaw_maj0A {w : W32} (h : fMaj w = 0x0A) : decodeRaw w = decodeMaj0A w := by
  delta decodeRaw
  rw [h]
  rfl
theorem decodeRaw_maj0B {w : W32} (h : fMaj w = 0x0B) : decodeRaw w = .ok (.beq (fD w) (fA w) (fImm w)) := by
  delta decodeRaw
  rw [h]
  rfl
theorem decodeRaw_maj0C {w : W32} (h : fMaj w = 0x0C) : decodeRaw w = .ok (.bne (fD w) (fA w) (fImm w)) := by
  delta decodeRaw
  rw [h]
  rfl
theorem decodeRaw_maj0D {w : W32} (h : fMaj w = 0x0D) : decodeRaw w = .ok (.blt (fD w) (fA w) (fImm w)) := by
  delta decodeRaw
  rw [h]
  rfl
theorem decodeRaw_maj0E {w : W32} (h : fMaj w = 0x0E) : decodeRaw w = .ok (.bge (fD w) (fA w) (fImm w)) := by
  delta decodeRaw
  rw [h]
  rfl
theorem decodeRaw_maj0F {w : W32} (h : fMaj w = 0x0F) : decodeRaw w = .ok (.bltu (fD w) (fA w) (fImm w)) := by
  delta decodeRaw
  rw [h]
  rfl
theorem decodeRaw_maj10 {w : W32} (h : fMaj w = 0x10) : decodeRaw w = .ok (.bgeu (fD w) (fA w) (fImm w)) := by
  delta decodeRaw
  rw [h]
  rfl
theorem decodeRaw_maj11 {w : W32} (h : fMaj w = 0x11) : decodeRaw w = .ok (.jal (fD w) (fImm21 w)) := by
  delta decodeRaw
  rw [h]
  rfl
theorem decodeRaw_maj12 {w : W32} (h : fMaj w = 0x12) : decodeRaw w = .ok (.jalr (fD w) (fA w) (fImm w)) := by
  delta decodeRaw
  rw [h]
  rfl
theorem decodeRaw_maj13 {w : W32} (h : fMaj w = 0x13) : decodeRaw w = .ok (.ldb (fD w) (fA w) (fImm w)) := by
  delta decodeRaw
  rw [h]
  rfl
theorem decodeRaw_maj14 {w : W32} (h : fMaj w = 0x14) : decodeRaw w = .ok (.ldbu (fD w) (fA w) (fImm w)) := by
  delta decodeRaw
  rw [h]
  rfl
theorem decodeRaw_maj15 {w : W32} (h : fMaj w = 0x15) : decodeRaw w = .ok (.ldh (fD w) (fA w) (fImm w)) := by
  delta decodeRaw
  rw [h]
  rfl
theorem decodeRaw_maj16 {w : W32} (h : fMaj w = 0x16) : decodeRaw w = .ok (.ldhu (fD w) (fA w) (fImm w)) := by
  delta decodeRaw
  rw [h]
  rfl
theorem decodeRaw_maj17 {w : W32} (h : fMaj w = 0x17) : decodeRaw w = .ok (.ldw (fD w) (fA w) (fImm w)) := by
  delta decodeRaw
  rw [h]
  rfl
theorem decodeRaw_maj18 {w : W32} (h : fMaj w = 0x18) : decodeRaw w = .ok (.ldwu (fD w) (fA w) (fImm w)) := by
  delta decodeRaw
  rw [h]
  rfl
theorem decodeRaw_maj19 {w : W32} (h : fMaj w = 0x19) : decodeRaw w = .ok (.ldd (fD w) (fA w) (fImm w)) := by
  delta decodeRaw
  rw [h]
  rfl
theorem decodeRaw_maj1A {w : W32} (h : fMaj w = 0x1A) : decodeRaw w = .ok (.stb (fD w) (fA w) (fImm w)) := by
  delta decodeRaw
  rw [h]
  rfl
theorem decodeRaw_maj1B {w : W32} (h : fMaj w = 0x1B) : decodeRaw w = .ok (.sth (fD w) (fA w) (fImm w)) := by
  delta decodeRaw
  rw [h]
  rfl
theorem decodeRaw_maj1C {w : W32} (h : fMaj w = 0x1C) : decodeRaw w = .ok (.stw (fD w) (fA w) (fImm w)) := by
  delta decodeRaw
  rw [h]
  rfl
theorem decodeRaw_maj1D {w : W32} (h : fMaj w = 0x1D) : decodeRaw w = .ok (.std (fD w) (fA w) (fImm w)) := by
  delta decodeRaw
  rw [h]
  rfl
theorem decodeRaw_maj1E {w : W32} (h : fMaj w = 0x1E) : decodeRaw w = .ok (.ldf (fD w) (fA w) (fTy w) (fOff w)) := by
  delta decodeRaw
  rw [h]
  rfl
theorem decodeRaw_maj1F {w : W32} (h : fMaj w = 0x1F) : decodeRaw w = .ok (.stf (fD w) (fA w) (fTy w) (fOff w)) := by
  delta decodeRaw
  rw [h]
  rfl
theorem decodeRaw_maj20 {w : W32} (h : fMaj w = 0x20) : decodeRaw w = decodeMaj20 w := by
  delta decodeRaw
  rw [h]
  rfl
theorem decodeRaw_maj21 {w : W32} (h : fMaj w = 0x21) : decodeRaw w = decodeMaj21 w := by
  delta decodeRaw
  rw [h]
  rfl
theorem decodeRaw_maj22 {w : W32} (h : fMaj w = 0x22) : decodeRaw w = decodeMaj22 w := by
  delta decodeRaw
  rw [h]
  rfl
theorem decodeRaw_maj23 {w : W32} (h : fMaj w = 0x23) : decodeRaw w = decodeMaj23 w := by
  delta decodeRaw
  rw [h]
  rfl
theorem decodeRaw_maj24 {w : W32} (h : fMaj w = 0x24) : decodeRaw w = decodeMaj24 w := by
  delta decodeRaw
  rw [h]
  rfl
theorem decodeRaw_maj25 {w : W32} (h : fMaj w = 0x25) : decodeRaw w = decodeMaj25 w := by
  delta decodeRaw
  rw [h]
  rfl
theorem decodeRaw_maj26 {w : W32} (h : fMaj w = 0x26) : decodeRaw w = decodeMaj26 w := by
  delta decodeRaw
  rw [h]
  rfl
theorem decodeRaw_maj27 {w : W32} (h : fMaj w = 0x27) : decodeRaw w = decodeMaj27 w := by
  delta decodeRaw
  rw [h]
  rfl
theorem decodeRaw_maj28 {w : W32} (h : fMaj w = 0x28) : decodeRaw w = decodeMaj28 w := by
  delta decodeRaw
  rw [h]
  rfl
theorem decodeRaw_maj29 {w : W32} (h : fMaj w = 0x29) : decodeRaw w = decodeMaj29 w := by
  delta decodeRaw
  rw [h]
  rfl
theorem decodeRaw_maj2A {w : W32} (h : fMaj w = 0x2A) : decodeRaw w = decodeMaj2A w := by
  delta decodeRaw
  rw [h]
  rfl
theorem decodeRaw_maj2B {w : W32} (h : fMaj w = 0x2B) : decodeRaw w = decodeMaj2B w := by
  delta decodeRaw
  rw [h]
  rfl
theorem decodeRaw_maj2C {w : W32} (h : fMaj w = 0x2C) : decodeRaw w = decodeMaj2C w := by
  delta decodeRaw
  rw [h]
  rfl
theorem decodeRaw_maj2D {w : W32} (h : fMaj w = 0x2D) : decodeRaw w = decodeMaj2D w := by
  delta decodeRaw
  rw [h]
  rfl
theorem decodeRaw_maj2E {w : W32} (h : fMaj w = 0x2E) : decodeRaw w = decodeMaj2E w := by
  delta decodeRaw
  rw [h]
  rfl
theorem decodeRaw_maj2F {w : W32} (h : fMaj w = 0x2F) : decodeRaw w = decodeMaj2F w := by
  delta decodeRaw
  rw [h]
  rfl
theorem decodeRaw_maj30 {w : W32} (h : fMaj w = 0x30) : decodeRaw w = decodeMaj30 w := by
  delta decodeRaw
  rw [h]
  rfl
theorem decodeRaw_maj31 {w : W32} (h : fMaj w = 0x31) : decodeRaw w = decodeMaj31 w := by
  delta decodeRaw
  rw [h]
  rfl
theorem decodeRaw_maj32 {w : W32} (h : fMaj w = 0x32) : decodeRaw w = decodeMaj32 w := by
  delta decodeRaw
  rw [h]
  rfl
theorem decodeRaw_maj33 {w : W32} (h : fMaj w = 0x33) : decodeRaw w = decodeMaj33 w := by
  delta decodeRaw
  rw [h]
  rfl
theorem decodeRaw_maj38 {w : W32} (h : fMaj w = 0x38) : decodeRaw w = decodeMaj38 w := by
  delta decodeRaw
  rw [h]
  rfl
theorem decodeRaw_maj39 {w : W32} (h : fMaj w = 0x39) : decodeRaw w = decodeMaj39 w := by
  delta decodeRaw
  rw [h]
  rfl
theorem decodeRaw_maj3A {w : W32} (h : fMaj w = 0x3A) : decodeRaw w = decodeMaj3A w := by
  delta decodeRaw
  rw [h]
  rfl

end Sys2Proof

namespace Sys2Proof.Laws.FieldsReadBack

/-- The decoder reads from the instruction's word the instruction itself, before the checks of its fields' values. -/
def Statement (i : Instr) : Prop := ∀ w, encode i = some w → decodeRaw w = .ok i

theorem add (x0 x1 x2) : Statement (.add x0 x1 x2) := by
  rintro w ⟨⟩
  rw [decodeRaw_maj00 (fMaj_packX ..)]
  delta decodeMaj00
  rw [fFn_packX, fD_packX, fA_packX, fB_packX, fC_packX]
  rfl
theorem sub (x0 x1 x2) : Statement (.sub x0 x1 x2) := by
  rintro w ⟨⟩
  rw [decodeRaw_maj00 (fMaj_packX ..)]
  delta decodeMaj00
  rw [fFn_packX, fD_packX, fA_packX, fB_packX, fC_packX]
  rfl
theorem and (x0 x1 x2) : Statement (.and x0 x1 x2) := by
  rintro w ⟨⟩
  rw [decodeRaw_maj00 (fMaj_packX ..)]
  delta decodeMaj00
  rw [fFn_packX, fD_packX, fA_packX, fB_packX, fC_packX]
  rfl
theorem or (x0 x1 x2) : Statement (.or x0 x1 x2) := by
  rintro w ⟨⟩
  rw [decodeRaw_maj00 (fMaj_packX ..)]
  delta decodeMaj00
  rw [fFn_packX, fD_packX, fA_packX, fB_packX, fC_packX]
  rfl
theorem xor (x0 x1 x2) : Statement (.xor x0 x1 x2) := by
  rintro w ⟨⟩
  rw [decodeRaw_maj00 (fMaj_packX ..)]
  delta decodeMaj00
  rw [fFn_packX, fD_packX, fA_packX, fB_packX, fC_packX]
  rfl
theorem andn (x0 x1 x2) : Statement (.andn x0 x1 x2) := by
  rintro w ⟨⟩
  rw [decodeRaw_maj00 (fMaj_packX ..)]
  delta decodeMaj00
  rw [fFn_packX, fD_packX, fA_packX, fB_packX, fC_packX]
  rfl
theorem sll (x0 x1 x2) : Statement (.sll x0 x1 x2) := by
  rintro w ⟨⟩
  rw [decodeRaw_maj00 (fMaj_packX ..)]
  delta decodeMaj00
  rw [fFn_packX, fD_packX, fA_packX, fB_packX, fC_packX]
  rfl
theorem srl (x0 x1 x2) : Statement (.srl x0 x1 x2) := by
  rintro w ⟨⟩
  rw [decodeRaw_maj00 (fMaj_packX ..)]
  delta decodeMaj00
  rw [fFn_packX, fD_packX, fA_packX, fB_packX, fC_packX]
  rfl
theorem sra (x0 x1 x2) : Statement (.sra x0 x1 x2) := by
  rintro w ⟨⟩
  rw [decodeRaw_maj00 (fMaj_packX ..)]
  delta decodeMaj00
  rw [fFn_packX, fD_packX, fA_packX, fB_packX, fC_packX]
  rfl
theorem ror (x0 x1 x2) : Statement (.ror x0 x1 x2) := by
  rintro w ⟨⟩
  rw [decodeRaw_maj00 (fMaj_packX ..)]
  delta decodeMaj00
  rw [fFn_packX, fD_packX, fA_packX, fB_packX, fC_packX]
  rfl
theorem slt (x0 x1 x2) : Statement (.slt x0 x1 x2) := by
  rintro w ⟨⟩
  rw [decodeRaw_maj00 (fMaj_packX ..)]
  delta decodeMaj00
  rw [fFn_packX, fD_packX, fA_packX, fB_packX, fC_packX]
  rfl
theorem sltu (x0 x1 x2) : Statement (.sltu x0 x1 x2) := by
  rintro w ⟨⟩
  rw [decodeRaw_maj00 (fMaj_packX ..)]
  delta decodeMaj00
  rw [fFn_packX, fD_packX, fA_packX, fB_packX, fC_packX]
  rfl
theorem min (x0 x1 x2) : Statement (.min x0 x1 x2) := by
  rintro w ⟨⟩
  rw [decodeRaw_maj00 (fMaj_packX ..)]
  delta decodeMaj00
  rw [fFn_packX, fD_packX, fA_packX, fB_packX, fC_packX]
  rfl
theorem max (x0 x1 x2) : Statement (.max x0 x1 x2) := by
  rintro w ⟨⟩
  rw [decodeRaw_maj00 (fMaj_packX ..)]
  delta decodeMaj00
  rw [fFn_packX, fD_packX, fA_packX, fB_packX, fC_packX]
  rfl
theorem minu (x0 x1 x2) : Statement (.minu x0 x1 x2) := by
  rintro w ⟨⟩
  rw [decodeRaw_maj00 (fMaj_packX ..)]
  delta decodeMaj00
  rw [fFn_packX, fD_packX, fA_packX, fB_packX, fC_packX]
  rfl
theorem maxu (x0 x1 x2) : Statement (.maxu x0 x1 x2) := by
  rintro w ⟨⟩
  rw [decodeRaw_maj00 (fMaj_packX ..)]
  delta decodeMaj00
  rw [fFn_packX, fD_packX, fA_packX, fB_packX, fC_packX]
  rfl
theorem addw (x0 x1 x2) : Statement (.addw x0 x1 x2) := by
  rintro w ⟨⟩
  rw [decodeRaw_maj00 (fMaj_packX ..)]
  delta decodeMaj00
  rw [fFn_packX, fD_packX, fA_packX, fB_packX, fC_packX]
  rfl
theorem subw (x0 x1 x2) : Statement (.subw x0 x1 x2) := by
  rintro w ⟨⟩
  rw [decodeRaw_maj00 (fMaj_packX ..)]
  delta decodeMaj00
  rw [fFn_packX, fD_packX, fA_packX, fB_packX, fC_packX]
  rfl
theorem clz (x0 x1) : Statement (.clz x0 x1) := by
  rintro w ⟨⟩
  rw [decodeRaw_maj00 (fMaj_packX ..)]
  delta decodeMaj00
  rw [fFn_packX, fD_packX, fA_packX, fB_packX, fC_packX]
  rfl
theorem ctz (x0 x1) : Statement (.ctz x0 x1) := by
  rintro w ⟨⟩
  rw [decodeRaw_maj00 (fMaj_packX ..)]
  delta decodeMaj00
  rw [fFn_packX, fD_packX, fA_packX, fB_packX, fC_packX]
  rfl
theorem popc (x0 x1) : Statement (.popc x0 x1) := by
  rintro w ⟨⟩
  rw [decodeRaw_maj00 (fMaj_packX ..)]
  delta decodeMaj00
  rw [fFn_packX, fD_packX, fA_packX, fB_packX, fC_packX]
  rfl
theorem sextb (x0 x1) : Statement (.sextb x0 x1) := by
  rintro w ⟨⟩
  rw [decodeRaw_maj00 (fMaj_packX ..)]
  delta decodeMaj00
  rw [fFn_packX, fD_packX, fA_packX, fB_packX, fC_packX]
  rfl
theorem sexth (x0 x1) : Statement (.sexth x0 x1) := by
  rintro w ⟨⟩
  rw [decodeRaw_maj00 (fMaj_packX ..)]
  delta decodeMaj00
  rw [fFn_packX, fD_packX, fA_packX, fB_packX, fC_packX]
  rfl
theorem sextw (x0 x1) : Statement (.sextw x0 x1) := by
  rintro w ⟨⟩
  rw [decodeRaw_maj00 (fMaj_packX ..)]
  delta decodeMaj00
  rw [fFn_packX, fD_packX, fA_packX, fB_packX, fC_packX]
  rfl
theorem bswap (x0 x1) : Statement (.bswap x0 x1) := by
  rintro w ⟨⟩
  rw [decodeRaw_maj00 (fMaj_packX ..)]
  delta decodeMaj00
  rw [fFn_packX, fD_packX, fA_packX, fB_packX, fC_packX]
  rfl
theorem addSat (x0 x1 x2) : Statement (.addSat x0 x1 x2) := by
  rintro w ⟨⟩
  rw [decodeRaw_maj00 (fMaj_packX ..)]
  delta decodeMaj00
  rw [fFn_packX, fD_packX, fA_packX, fB_packX, fC_packX]
  rfl
theorem subSat (x0 x1 x2) : Statement (.subSat x0 x1 x2) := by
  rintro w ⟨⟩
  rw [decodeRaw_maj00 (fMaj_packX ..)]
  delta decodeMaj00
  rw [fFn_packX, fD_packX, fA_packX, fB_packX, fC_packX]
  rfl
theorem adduSat (x0 x1 x2) : Statement (.adduSat x0 x1 x2) := by
  rintro w ⟨⟩
  rw [decodeRaw_maj00 (fMaj_packX ..)]
  delta decodeMaj00
  rw [fFn_packX, fD_packX, fA_packX, fB_packX, fC_packX]
  rfl
theorem subuSat (x0 x1 x2) : Statement (.subuSat x0 x1 x2) := by
  rintro w ⟨⟩
  rw [decodeRaw_maj00 (fMaj_packX ..)]
  delta decodeMaj00
  rw [fFn_packX, fD_packX, fA_packX, fB_packX, fC_packX]
  rfl
theorem addi (x0 x1 x2) : Statement (.addi x0 x1 x2) := by
  rintro w ⟨⟩
  rw [decodeRaw_maj01 (fMaj_packI ..), fD_packI, fA_packI, fImm_packI]
theorem andi (x0 x1 x2) : Statement (.andi x0 x1 x2) := by
  rintro w ⟨⟩
  rw [decodeRaw_maj02 (fMaj_packI ..), fD_packI, fA_packI, fImm_packI]
theorem ori (x0 x1 x2) : Statement (.ori x0 x1 x2) := by
  rintro w ⟨⟩
  rw [decodeRaw_maj03 (fMaj_packI ..), fD_packI, fA_packI, fImm_packI]
theorem xori (x0 x1 x2) : Statement (.xori x0 x1 x2) := by
  rintro w ⟨⟩
  rw [decodeRaw_maj04 (fMaj_packI ..), fD_packI, fA_packI, fImm_packI]
theorem slti (x0 x1 x2) : Statement (.slti x0 x1 x2) := by
  rintro w ⟨⟩
  rw [decodeRaw_maj05 (fMaj_packI ..), fD_packI, fA_packI, fImm_packI]
theorem sltiu (x0 x1 x2) : Statement (.sltiu x0 x1 x2) := by
  rintro w ⟨⟩
  rw [decodeRaw_maj06 (fMaj_packI ..), fD_packI, fA_packI, fImm_packI]
theorem slli (x0 x1 x2) : Statement (.slli x0 x1 x2) := by
  rintro w ⟨⟩
  rw [decodeRaw_maj07 (fMaj_packI ..)]
  delta decodeMaj07
  rw [fD_packI, fA_packI, fImm_packI, extract_low (0#8 ++ 0#2) x2, extract_high (0#8 ++ 0#2) x2 0 2, extract_low (0#8) (0#2), extract_high (0#8 ++ 0#2) x2 2 8, extract_high (0#8) (0#2) 0 8, extract_all (0#8)]
  rfl
theorem srli (x0 x1 x2) : Statement (.srli x0 x1 x2) := by
  rintro w ⟨⟩
  rw [decodeRaw_maj07 (fMaj_packI ..)]
  delta decodeMaj07
  rw [fD_packI, fA_packI, fImm_packI, extract_low (0#8 ++ 1#2) x2, extract_high (0#8 ++ 1#2) x2 0 2, extract_low (0#8) (1#2), extract_high (0#8 ++ 1#2) x2 2 8, extract_high (0#8) (1#2) 0 8, extract_all (0#8)]
  rfl
theorem srai (x0 x1 x2) : Statement (.srai x0 x1 x2) := by
  rintro w ⟨⟩
  rw [decodeRaw_maj07 (fMaj_packI ..)]
  delta decodeMaj07
  rw [fD_packI, fA_packI, fImm_packI, extract_low (0#8 ++ 2#2) x2, extract_high (0#8 ++ 2#2) x2 0 2, extract_low (0#8) (2#2), extract_high (0#8 ++ 2#2) x2 2 8, extract_high (0#8) (2#2) 0 8, extract_all (0#8)]
  rfl
theorem rori (x0 x1 x2) : Statement (.rori x0 x1 x2) := by
  rintro w ⟨⟩
  rw [decodeRaw_maj07 (fMaj_packI ..)]
  delta decodeMaj07
  rw [fD_packI, fA_packI, fImm_packI, extract_low (0#8 ++ 3#2) x2, extract_high (0#8 ++ 3#2) x2 0 2, extract_low (0#8) (3#2), extract_high (0#8 ++ 3#2) x2 2 8, extract_high (0#8) (3#2) 0 8, extract_all (0#8)]
  rfl
theorem lui (x0 x1) : Statement (.lui x0 x1) := by
  rintro w ⟨⟩
  rw [decodeRaw_maj08 (fMaj_packJ ..), fD_packJ, fImm21_packJ]
theorem aupc (x0 x1) : Statement (.aupc x0 x1) := by
  rintro w ⟨⟩
  rw [decodeRaw_maj09 (fMaj_packJ ..), fD_packJ, fImm21_packJ]
theorem mul (x0 x1 x2) : Statement (.mul x0 x1 x2) := by
  rintro w ⟨⟩
  rw [decodeRaw_maj0A (fMaj_packX ..)]
  delta decodeMaj0A
  rw [fFn_packX, fD_packX, fA_packX, fB_packX, fC_packX]
  rfl
theorem mulh (x0 x1 x2) : Statement (.mulh x0 x1 x2) := by
  rintro w ⟨⟩
  rw [decodeRaw_maj0A (fMaj_packX ..)]
  delta decodeMaj0A
  rw [fFn_packX, fD_packX, fA_packX, fB_packX, fC_packX]
  rfl
theorem mulhu (x0 x1 x2) : Statement (.mulhu x0 x1 x2) := by
  rintro w ⟨⟩
  rw [decodeRaw_maj0A (fMaj_packX ..)]
  delta decodeMaj0A
  rw [fFn_packX, fD_packX, fA_packX, fB_packX, fC_packX]
  rfl
theorem mulhsu (x0 x1 x2) : Statement (.mulhsu x0 x1 x2) := by
  rintro w ⟨⟩
  rw [decodeRaw_maj0A (fMaj_packX ..)]
  delta decodeMaj0A
  rw [fFn_packX, fD_packX, fA_packX, fB_packX, fC_packX]
  rfl
theorem div (x0 x1 x2) : Statement (.div x0 x1 x2) := by
  rintro w ⟨⟩
  rw [decodeRaw_maj0A (fMaj_packX ..)]
  delta decodeMaj0A
  rw [fFn_packX, fD_packX, fA_packX, fB_packX, fC_packX]
  rfl
theorem divu (x0 x1 x2) : Statement (.divu x0 x1 x2) := by
  rintro w ⟨⟩
  rw [decodeRaw_maj0A (fMaj_packX ..)]
  delta decodeMaj0A
  rw [fFn_packX, fD_packX, fA_packX, fB_packX, fC_packX]
  rfl
theorem rem (x0 x1 x2) : Statement (.rem x0 x1 x2) := by
  rintro w ⟨⟩
  rw [decodeRaw_maj0A (fMaj_packX ..)]
  delta decodeMaj0A
  rw [fFn_packX, fD_packX, fA_packX, fB_packX, fC_packX]
  rfl
theorem remu (x0 x1 x2) : Statement (.remu x0 x1 x2) := by
  rintro w ⟨⟩
  rw [decodeRaw_maj0A (fMaj_packX ..)]
  delta decodeMaj0A
  rw [fFn_packX, fD_packX, fA_packX, fB_packX, fC_packX]
  rfl
theorem mulw (x0 x1 x2) : Statement (.mulw x0 x1 x2) := by
  rintro w ⟨⟩
  rw [decodeRaw_maj0A (fMaj_packX ..)]
  delta decodeMaj0A
  rw [fFn_packX, fD_packX, fA_packX, fB_packX, fC_packX]
  rfl
theorem divw (x0 x1 x2) : Statement (.divw x0 x1 x2) := by
  rintro w ⟨⟩
  rw [decodeRaw_maj0A (fMaj_packX ..)]
  delta decodeMaj0A
  rw [fFn_packX, fD_packX, fA_packX, fB_packX, fC_packX]
  rfl
theorem divuw (x0 x1 x2) : Statement (.divuw x0 x1 x2) := by
  rintro w ⟨⟩
  rw [decodeRaw_maj0A (fMaj_packX ..)]
  delta decodeMaj0A
  rw [fFn_packX, fD_packX, fA_packX, fB_packX, fC_packX]
  rfl
theorem remw (x0 x1 x2) : Statement (.remw x0 x1 x2) := by
  rintro w ⟨⟩
  rw [decodeRaw_maj0A (fMaj_packX ..)]
  delta decodeMaj0A
  rw [fFn_packX, fD_packX, fA_packX, fB_packX, fC_packX]
  rfl
theorem remuw (x0 x1 x2) : Statement (.remuw x0 x1 x2) := by
  rintro w ⟨⟩
  rw [decodeRaw_maj0A (fMaj_packX ..)]
  delta decodeMaj0A
  rw [fFn_packX, fD_packX, fA_packX, fB_packX, fC_packX]
  rfl
theorem beq (x0 x1 x2) : Statement (.beq x0 x1 x2) := by
  rintro w ⟨⟩
  rw [decodeRaw_maj0B (fMaj_packI ..), fD_packI, fA_packI, fImm_packI]
theorem bne (x0 x1 x2) : Statement (.bne x0 x1 x2) := by
  rintro w ⟨⟩
  rw [decodeRaw_maj0C (fMaj_packI ..), fD_packI, fA_packI, fImm_packI]
theorem blt (x0 x1 x2) : Statement (.blt x0 x1 x2) := by
  rintro w ⟨⟩
  rw [decodeRaw_maj0D (fMaj_packI ..), fD_packI, fA_packI, fImm_packI]
theorem bge (x0 x1 x2) : Statement (.bge x0 x1 x2) := by
  rintro w ⟨⟩
  rw [decodeRaw_maj0E (fMaj_packI ..), fD_packI, fA_packI, fImm_packI]
theorem bltu (x0 x1 x2) : Statement (.bltu x0 x1 x2) := by
  rintro w ⟨⟩
  rw [decodeRaw_maj0F (fMaj_packI ..), fD_packI, fA_packI, fImm_packI]
theorem bgeu (x0 x1 x2) : Statement (.bgeu x0 x1 x2) := by
  rintro w ⟨⟩
  rw [decodeRaw_maj10 (fMaj_packI ..), fD_packI, fA_packI, fImm_packI]
theorem jal (x0 x1) : Statement (.jal x0 x1) := by
  rintro w ⟨⟩
  rw [decodeRaw_maj11 (fMaj_packJ ..), fD_packJ, fImm21_packJ]
theorem jalr (x0 x1 x2) : Statement (.jalr x0 x1 x2) := by
  rintro w ⟨⟩
  rw [decodeRaw_maj12 (fMaj_packI ..), fD_packI, fA_packI, fImm_packI]
theorem ldb (x0 x1 x2) : Statement (.ldb x0 x1 x2) := by
  rintro w ⟨⟩
  rw [decodeRaw_maj13 (fMaj_packI ..), fD_packI, fA_packI, fImm_packI]
theorem ldbu (x0 x1 x2) : Statement (.ldbu x0 x1 x2) := by
  rintro w ⟨⟩
  rw [decodeRaw_maj14 (fMaj_packI ..), fD_packI, fA_packI, fImm_packI]
theorem ldh (x0 x1 x2) : Statement (.ldh x0 x1 x2) := by
  rintro w ⟨⟩
  rw [decodeRaw_maj15 (fMaj_packI ..), fD_packI, fA_packI, fImm_packI]
theorem ldhu (x0 x1 x2) : Statement (.ldhu x0 x1 x2) := by
  rintro w ⟨⟩
  rw [decodeRaw_maj16 (fMaj_packI ..), fD_packI, fA_packI, fImm_packI]
theorem ldw (x0 x1 x2) : Statement (.ldw x0 x1 x2) := by
  rintro w ⟨⟩
  rw [decodeRaw_maj17 (fMaj_packI ..), fD_packI, fA_packI, fImm_packI]
theorem ldwu (x0 x1 x2) : Statement (.ldwu x0 x1 x2) := by
  rintro w ⟨⟩
  rw [decodeRaw_maj18 (fMaj_packI ..), fD_packI, fA_packI, fImm_packI]
theorem ldd (x0 x1 x2) : Statement (.ldd x0 x1 x2) := by
  rintro w ⟨⟩
  rw [decodeRaw_maj19 (fMaj_packI ..), fD_packI, fA_packI, fImm_packI]
theorem stb (x0 x1 x2) : Statement (.stb x0 x1 x2) := by
  rintro w ⟨⟩
  rw [decodeRaw_maj1A (fMaj_packI ..), fD_packI, fA_packI, fImm_packI]
theorem sth (x0 x1 x2) : Statement (.sth x0 x1 x2) := by
  rintro w ⟨⟩
  rw [decodeRaw_maj1B (fMaj_packI ..), fD_packI, fA_packI, fImm_packI]
theorem stw (x0 x1 x2) : Statement (.stw x0 x1 x2) := by
  rintro w ⟨⟩
  rw [decodeRaw_maj1C (fMaj_packI ..), fD_packI, fA_packI, fImm_packI]
theorem std (x0 x1 x2) : Statement (.std x0 x1 x2) := by
  rintro w ⟨⟩
  rw [decodeRaw_maj1D (fMaj_packI ..), fD_packI, fA_packI, fImm_packI]
theorem ldf (x0 x1 x2 x3) : Statement (.ldf x0 x1 x2 x3) := by
  rintro w ⟨⟩
  rw [decodeRaw_maj1E (fMaj_packT ..), fD_packT, fA_packT, fTy_packT, fOff_packT]
theorem stf (x0 x1 x2 x3) : Statement (.stf x0 x1 x2 x3) := by
  rintro w ⟨⟩
  rw [decodeRaw_maj1F (fMaj_packT ..), fD_packT, fA_packT, fTy_packT, fOff_packT]
theorem fadd (x0 x1 x2 x3 x4) : Statement (.fadd x0 x1 x2 x3 x4) := by
  rintro w ⟨⟩
  rw [decodeRaw_maj20 (fMaj_packX ..)]
  delta decodeMaj20
  rw [fFn_packX, fD_packX, fA_packX, fB_packX, fC_packX, extract_low (0#2) x3, extract_high (0#2) x3 0 2, extract_all (0#2), extract_low (0#5) x4, extract_high (0#5) x4 0 5, extract_all (0#5)]
  rfl
theorem fsub (x0 x1 x2 x3 x4) : Statement (.fsub x0 x1 x2 x3 x4) := by
  rintro w ⟨⟩
  rw [decodeRaw_maj20 (fMaj_packX ..)]
  delta decodeMaj20
  rw [fFn_packX, fD_packX, fA_packX, fB_packX, fC_packX, extract_low (0#2) x3, extract_high (0#2) x3 0 2, extract_all (0#2), extract_low (1#5) x4, extract_high (1#5) x4 0 5, extract_all (1#5)]
  rfl
theorem fmul (x0 x1 x2 x3 x4) : Statement (.fmul x0 x1 x2 x3 x4) := by
  rintro w ⟨⟩
  rw [decodeRaw_maj20 (fMaj_packX ..)]
  delta decodeMaj20
  rw [fFn_packX, fD_packX, fA_packX, fB_packX, fC_packX, extract_low (0#2) x3, extract_high (0#2) x3 0 2, extract_all (0#2), extract_low (2#5) x4, extract_high (2#5) x4 0 5, extract_all (2#5)]
  rfl
theorem fdiv (x0 x1 x2 x3 x4) : Statement (.fdiv x0 x1 x2 x3 x4) := by
  rintro w ⟨⟩
  rw [decodeRaw_maj20 (fMaj_packX ..)]
  delta decodeMaj20
  rw [fFn_packX, fD_packX, fA_packX, fB_packX, fC_packX, extract_low (0#2) x3, extract_high (0#2) x3 0 2, extract_all (0#2), extract_low (3#5) x4, extract_high (3#5) x4 0 5, extract_all (3#5)]
  rfl
theorem fsqrt (x0 x1 x2 x3) : Statement (.fsqrt x0 x1 x2 x3) := by
  rintro w ⟨⟩
  rw [decodeRaw_maj20 (fMaj_packX ..)]
  delta decodeMaj20
  rw [fFn_packX, fD_packX, fA_packX, fB_packX, fC_packX, extract_low (0#2) x2, extract_high (0#2) x2 0 2, extract_all (0#2), extract_low (4#5) x3, extract_high (4#5) x3 0 5, extract_all (4#5)]
  rfl
theorem fmin (x0 x1 x2 x3 x4) : Statement (.fmin x0 x1 x2 x3 x4) := by
  rintro w ⟨⟩
  rw [decodeRaw_maj20 (fMaj_packX ..)]
  delta decodeMaj20
  rw [fFn_packX, fD_packX, fA_packX, fB_packX, fC_packX, extract_low (0#2) x3, extract_high (0#2) x3 0 2, extract_all (0#2), extract_low (5#5) x4, extract_high (5#5) x4 0 5, extract_all (5#5)]
  rfl
theorem fmax (x0 x1 x2 x3 x4) : Statement (.fmax x0 x1 x2 x3 x4) := by
  rintro w ⟨⟩
  rw [decodeRaw_maj20 (fMaj_packX ..)]
  delta decodeMaj20
  rw [fFn_packX, fD_packX, fA_packX, fB_packX, fC_packX, extract_low (0#2) x3, extract_high (0#2) x3 0 2, extract_all (0#2), extract_low (6#5) x4, extract_high (6#5) x4 0 5, extract_all (6#5)]
  rfl
theorem fsgnj (x0 x1 x2 x3 x4) : Statement (.fsgnj x0 x1 x2 x3 x4) := by
  rintro w ⟨⟩
  rw [decodeRaw_maj20 (fMaj_packX ..)]
  delta decodeMaj20
  rw [fFn_packX, fD_packX, fA_packX, fB_packX, fC_packX, extract_low (0#2) x3, extract_high (0#2) x3 0 2, extract_all (0#2), extract_low (7#5) x4, extract_high (7#5) x4 0 5, extract_all (7#5)]
  rfl
theorem fsgnjn (x0 x1 x2 x3 x4) : Statement (.fsgnjn x0 x1 x2 x3 x4) := by
  rintro w ⟨⟩
  rw [decodeRaw_maj20 (fMaj_packX ..)]
  delta decodeMaj20
  rw [fFn_packX, fD_packX, fA_packX, fB_packX, fC_packX, extract_low (0#2) x3, extract_high (0#2) x3 0 2, extract_all (0#2), extract_low (8#5) x4, extract_high (8#5) x4 0 5, extract_all (8#5)]
  rfl
theorem fsgnjx (x0 x1 x2 x3 x4) : Statement (.fsgnjx x0 x1 x2 x3 x4) := by
  rintro w ⟨⟩
  rw [decodeRaw_maj20 (fMaj_packX ..)]
  delta decodeMaj20
  rw [fFn_packX, fD_packX, fA_packX, fB_packX, fC_packX, extract_low (0#2) x3, extract_high (0#2) x3 0 2, extract_all (0#2), extract_low (9#5) x4, extract_high (9#5) x4 0 5, extract_all (9#5)]
  rfl
theorem feq (x0 x1 x2 x3 x4) : Statement (.feq x0 x1 x2 x3 x4) := by
  rintro w ⟨⟩
  rw [decodeRaw_maj20 (fMaj_packX ..)]
  delta decodeMaj20
  rw [fFn_packX, fD_packX, fA_packX, fB_packX, fC_packX, extract_low (0#2) x3, extract_high (0#2) x3 0 2, extract_all (0#2), extract_low (10#5) x4, extract_high (10#5) x4 0 5, extract_all (10#5)]
  rfl
theorem flt (x0 x1 x2 x3 x4) : Statement (.flt x0 x1 x2 x3 x4) := by
  rintro w ⟨⟩
  rw [decodeRaw_maj20 (fMaj_packX ..)]
  delta decodeMaj20
  rw [fFn_packX, fD_packX, fA_packX, fB_packX, fC_packX, extract_low (0#2) x3, extract_high (0#2) x3 0 2, extract_all (0#2), extract_low (11#5) x4, extract_high (11#5) x4 0 5, extract_all (11#5)]
  rfl
theorem fle (x0 x1 x2 x3 x4) : Statement (.fle x0 x1 x2 x3 x4) := by
  rintro w ⟨⟩
  rw [decodeRaw_maj20 (fMaj_packX ..)]
  delta decodeMaj20
  rw [fFn_packX, fD_packX, fA_packX, fB_packX, fC_packX, extract_low (0#2) x3, extract_high (0#2) x3 0 2, extract_all (0#2), extract_low (12#5) x4, extract_high (12#5) x4 0 5, extract_all (12#5)]
  rfl
theorem fclass (x0 x1 x2 x3) : Statement (.fclass x0 x1 x2 x3) := by
  rintro w ⟨⟩
  rw [decodeRaw_maj20 (fMaj_packX ..)]
  delta decodeMaj20
  rw [fFn_packX, fD_packX, fA_packX, fB_packX, fC_packX, extract_low (0#2) x2, extract_high (0#2) x2 0 2, extract_all (0#2), extract_low (13#5) x3, extract_high (13#5) x3 0 5, extract_all (13#5)]
  rfl
theorem fcvtI64Fmt (x0 x1 x2 x3) : Statement (.fcvtI64Fmt x0 x1 x2 x3) := by
  rintro w ⟨⟩
  rw [decodeRaw_maj20 (fMaj_packX ..)]
  delta decodeMaj20
  rw [fFn_packX, fD_packX, fA_packX, fB_packX, fC_packX, extract_low (0#2) x2, extract_high (0#2) x2 0 2, extract_all (0#2), extract_low (14#5) x3, extract_high (14#5) x3 0 5, extract_all (14#5)]
  rfl
theorem fcvtI32Fmt (x0 x1 x2 x3) : Statement (.fcvtI32Fmt x0 x1 x2 x3) := by
  rintro w ⟨⟩
  rw [decodeRaw_maj20 (fMaj_packX ..)]
  delta decodeMaj20
  rw [fFn_packX, fD_packX, fA_packX, fB_packX, fC_packX, extract_low (0#2) x2, extract_high (0#2) x2 0 2, extract_all (0#2), extract_low (15#5) x3, extract_high (15#5) x3 0 5, extract_all (15#5)]
  rfl
theorem fcvtN32Fmt (x0 x1 x2 x3) : Statement (.fcvtN32Fmt x0 x1 x2 x3) := by
  rintro w ⟨⟩
  rw [decodeRaw_maj20 (fMaj_packX ..)]
  delta decodeMaj20
  rw [fFn_packX, fD_packX, fA_packX, fB_packX, fC_packX, extract_low (0#2) x2, extract_high (0#2) x2 0 2, extract_all (0#2), extract_low (16#5) x3, extract_high (16#5) x3 0 5, extract_all (16#5)]
  rfl
theorem fcvtFmtI64 (x0 x1 x2 x3) : Statement (.fcvtFmtI64 x0 x1 x2 x3) := by
  rintro w ⟨⟩
  rw [decodeRaw_maj20 (fMaj_packX ..)]
  delta decodeMaj20
  rw [fFn_packX, fD_packX, fA_packX, fB_packX, fC_packX, extract_low (0#2) x2, extract_high (0#2) x2 0 2, extract_all (0#2), extract_low (17#5) x3, extract_high (17#5) x3 0 5, extract_all (17#5)]
  rfl
theorem fcvtFmtI32 (x0 x1 x2 x3) : Statement (.fcvtFmtI32 x0 x1 x2 x3) := by
  rintro w ⟨⟩
  rw [decodeRaw_maj20 (fMaj_packX ..)]
  delta decodeMaj20
  rw [fFn_packX, fD_packX, fA_packX, fB_packX, fC_packX, extract_low (0#2) x2, extract_high (0#2) x2 0 2, extract_all (0#2), extract_low (18#5) x3, extract_high (18#5) x3 0 5, extract_all (18#5)]
  rfl
theorem fcvtFmtN32 (x0 x1 x2 x3) : Statement (.fcvtFmtN32 x0 x1 x2 x3) := by
  rintro w ⟨⟩
  rw [decodeRaw_maj20 (fMaj_packX ..)]
  delta decodeMaj20
  rw [fFn_packX, fD_packX, fA_packX, fB_packX, fC_packX, extract_low (0#2) x2, extract_high (0#2) x2 0 2, extract_all (0#2), extract_low (19#5) x3, extract_high (19#5) x3 0 5, extract_all (19#5)]
  rfl
theorem fcvtF32F64 (x0 x1 x2) : Statement (.fcvtF32F64 x0 x1 x2) := by
  rintro w ⟨⟩
  rw [decodeRaw_maj20 (fMaj_packX ..)]
  delta decodeMaj20
  rw [fFn_packX, fD_packX, fA_packX, fB_packX, fC_packX, extract_low (0#2) x2, extract_high (0#2) x2 0 2, extract_all (0#2), extract_low (20#5) 0#1, extract_high (20#5) 0#1 0 5, extract_all (20#5)]
  rfl
theorem fcvtF64F32 (x0 x1 x2) : Statement (.fcvtF64F32 x0 x1 x2) := by
  rintro w ⟨⟩
  rw [decodeRaw_maj20 (fMaj_packX ..)]
  delta decodeMaj20
  rw [fFn_packX, fD_packX, fA_packX, fB_packX, fC_packX, extract_low (0#2) x2, extract_high (0#2) x2 0 2, extract_all (0#2), extract_low (20#5) 1#1, extract_high (20#5) 1#1 0 5, extract_all (20#5)]
  rfl
theorem fmvfg (x0 x1 x2 x3) : Statement (.fmvfg x0 x1 x2 x3) := by
  rintro w ⟨⟩
  rw [decodeRaw_maj20 (fMaj_packX ..)]
  delta decodeMaj20
  rw [fFn_packX, fD_packX, fA_packX, fB_packX, fC_packX, extract_low (0#2) x2, extract_high (0#2) x2 0 2, extract_all (0#2), extract_low (21#5) x3, extract_high (21#5) x3 0 5, extract_all (21#5)]
  rfl
theorem fmvgf (x0 x1 x2 x3) : Statement (.fmvgf x0 x1 x2 x3) := by
  rintro w ⟨⟩
  rw [decodeRaw_maj20 (fMaj_packX ..)]
  delta decodeMaj20
  rw [fFn_packX, fD_packX, fA_packX, fB_packX, fC_packX, extract_low (0#2) x2, extract_high (0#2) x2 0 2, extract_all (0#2), extract_low (22#5) x3, extract_high (22#5) x3 0 5, extract_all (22#5)]
  rfl
theorem fmadd (x0 x1 x2 x3 x4 x5) : Statement (.fmadd x0 x1 x2 x3 x4 x5) := by
  rintro w ⟨⟩
  rw [decodeRaw_maj21 (fMaj_packX ..)]
  delta decodeMaj21
  rw [fFn_packX, fD_packX, fA_packX, fB_packX, fC_packX, extract_low (x4 ++ 0#2) x5, extract_high (x4 ++ 0#2) x5 0 2, extract_low x4 (0#2), extract_high (x4 ++ 0#2) x5 2 1, extract_high x4 (0#2) 0 1, extract_all x4]
  rfl
theorem fmsub (x0 x1 x2 x3 x4 x5) : Statement (.fmsub x0 x1 x2 x3 x4 x5) := by
  rintro w ⟨⟩
  rw [decodeRaw_maj21 (fMaj_packX ..)]
  delta decodeMaj21
  rw [fFn_packX, fD_packX, fA_packX, fB_packX, fC_packX, extract_low (x4 ++ 1#2) x5, extract_high (x4 ++ 1#2) x5 0 2, extract_low x4 (1#2), extract_high (x4 ++ 1#2) x5 2 1, extract_high x4 (1#2) 0 1, extract_all x4]
  rfl
theorem fnmadd (x0 x1 x2 x3 x4 x5) : Statement (.fnmadd x0 x1 x2 x3 x4 x5) := by
  rintro w ⟨⟩
  rw [decodeRaw_maj21 (fMaj_packX ..)]
  delta decodeMaj21
  rw [fFn_packX, fD_packX, fA_packX, fB_packX, fC_packX, extract_low (x4 ++ 2#2) x5, extract_high (x4 ++ 2#2) x5 0 2, extract_low x4 (2#2), extract_high (x4 ++ 2#2) x5 2 1, extract_high x4 (2#2) 0 1, extract_all x4]
  rfl
theorem fnmsub (x0 x1 x2 x3 x4 x5) : Statement (.fnmsub x0 x1 x2 x3 x4 x5) := by
  rintro w ⟨⟩
  rw [decodeRaw_maj21 (fMaj_packX ..)]
  delta decodeMaj21
  rw [fFn_packX, fD_packX, fA_packX, fB_packX, fC_packX, extract_low (x4 ++ 3#2) x5, extract_high (x4 ++ 3#2) x5 0 2, extract_low x4 (3#2), extract_high (x4 ++ 3#2) x5 2 1, extract_high x4 (3#2) 0 1, extract_all x4]
  rfl
theorem lds (x0 x1) : Statement (.lds x0 x1) := by
  rintro w ⟨⟩
  rw [decodeRaw_maj22 (fMaj_packX ..)]
  delta decodeMaj22
  rw [fFn_packX, fD_packX, fA_packX, fB_packX, fC_packX]
  rfl
theorem ldse (x0 x1) : Statement (.ldse x0 x1) := by
  rintro w ⟨⟩
  rw [decodeRaw_maj22 (fMaj_packX ..)]
  delta decodeMaj22
  rw [fFn_packX, fD_packX, fA_packX, fB_packX, fC_packX]
  rfl
theorem stfl (x0 x1) : Statement (.stfl x0 x1) := by
  rintro w ⟨⟩
  rw [decodeRaw_maj22 (fMaj_packX ..)]
  delta decodeMaj22
  rw [fFn_packX, fD_packX, fA_packX, fB_packX, fC_packX]
  rfl
theorem fefill (x0 x1) : Statement (.fefill x0 x1) := by
  rintro w ⟨⟩
  rw [decodeRaw_maj22 (fMaj_packX ..)]
  delta decodeMaj22
  rw [fFn_packX, fD_packX, fA_packX, fB_packX, fC_packX]
  rfl
theorem feempty (x0 x1) : Statement (.feempty x0 x1) := by
  rintro w ⟨⟩
  rw [decodeRaw_maj22 (fMaj_packX ..)]
  delta decodeMaj22
  rw [fFn_packX, fD_packX, fA_packX, fB_packX, fC_packX]
  rfl
theorem fest (x0 x1) : Statement (.fest x0 x1) := by
  rintro w ⟨⟩
  rw [decodeRaw_maj22 (fMaj_packX ..)]
  delta decodeMaj22
  rw [fFn_packX, fD_packX, fA_packX, fB_packX, fC_packX]
  rfl
theorem lda (x0 x1 x2) : Statement (.lda x0 x1 x2) := by
  rintro w ⟨⟩
  rw [decodeRaw_maj22 (fMaj_packX ..)]
  delta decodeMaj22
  rw [fFn_packX, fD_packX, fA_packX, fB_packX, fC_packX]
  rfl
theorem stl (x0 x1 x2) : Statement (.stl x0 x1 x2) := by
  rintro w ⟨⟩
  rw [decodeRaw_maj22 (fMaj_packX ..)]
  delta decodeMaj22
  rw [fFn_packX, fD_packX, fA_packX, fB_packX, fC_packX]
  rfl
theorem amoAdd (x0 x1 x2 x3 x4) : Statement (.amoAdd x0 x1 x2 x3 x4) := by
  rintro w ⟨⟩
  rw [decodeRaw_maj23 (fMaj_packX ..)]
  delta decodeMaj23
  rw [fFn_packX, fD_packX, fA_packX, fB_packX, fC_packX, extract_low (0#4) x3, extract_high (0#4) x3 0 4, extract_all (0#4), extract_low (0#4) x4, extract_high (0#4) x4 0 4, extract_all (0#4)]
  rfl
theorem amoAnd (x0 x1 x2 x3 x4) : Statement (.amoAnd x0 x1 x2 x3 x4) := by
  rintro w ⟨⟩
  rw [decodeRaw_maj23 (fMaj_packX ..)]
  delta decodeMaj23
  rw [fFn_packX, fD_packX, fA_packX, fB_packX, fC_packX, extract_low (0#4) x3, extract_high (0#4) x3 0 4, extract_all (0#4), extract_low (1#4) x4, extract_high (1#4) x4 0 4, extract_all (1#4)]
  rfl
theorem amoOr (x0 x1 x2 x3 x4) : Statement (.amoOr x0 x1 x2 x3 x4) := by
  rintro w ⟨⟩
  rw [decodeRaw_maj23 (fMaj_packX ..)]
  delta decodeMaj23
  rw [fFn_packX, fD_packX, fA_packX, fB_packX, fC_packX, extract_low (0#4) x3, extract_high (0#4) x3 0 4, extract_all (0#4), extract_low (2#4) x4, extract_high (2#4) x4 0 4, extract_all (2#4)]
  rfl
theorem amoXor (x0 x1 x2 x3 x4) : Statement (.amoXor x0 x1 x2 x3 x4) := by
  rintro w ⟨⟩
  rw [decodeRaw_maj23 (fMaj_packX ..)]
  delta decodeMaj23
  rw [fFn_packX, fD_packX, fA_packX, fB_packX, fC_packX, extract_low (0#4) x3, extract_high (0#4) x3 0 4, extract_all (0#4), extract_low (3#4) x4, extract_high (3#4) x4 0 4, extract_all (3#4)]
  rfl
theorem amoMin (x0 x1 x2 x3 x4) : Statement (.amoMin x0 x1 x2 x3 x4) := by
  rintro w ⟨⟩
  rw [decodeRaw_maj23 (fMaj_packX ..)]
  delta decodeMaj23
  rw [fFn_packX, fD_packX, fA_packX, fB_packX, fC_packX, extract_low (0#4) x3, extract_high (0#4) x3 0 4, extract_all (0#4), extract_low (4#4) x4, extract_high (4#4) x4 0 4, extract_all (4#4)]
  rfl
theorem amoMax (x0 x1 x2 x3 x4) : Statement (.amoMax x0 x1 x2 x3 x4) := by
  rintro w ⟨⟩
  rw [decodeRaw_maj23 (fMaj_packX ..)]
  delta decodeMaj23
  rw [fFn_packX, fD_packX, fA_packX, fB_packX, fC_packX, extract_low (0#4) x3, extract_high (0#4) x3 0 4, extract_all (0#4), extract_low (5#4) x4, extract_high (5#4) x4 0 4, extract_all (5#4)]
  rfl
theorem amoMinu (x0 x1 x2 x3 x4) : Statement (.amoMinu x0 x1 x2 x3 x4) := by
  rintro w ⟨⟩
  rw [decodeRaw_maj23 (fMaj_packX ..)]
  delta decodeMaj23
  rw [fFn_packX, fD_packX, fA_packX, fB_packX, fC_packX, extract_low (0#4) x3, extract_high (0#4) x3 0 4, extract_all (0#4), extract_low (6#4) x4, extract_high (6#4) x4 0 4, extract_all (6#4)]
  rfl
theorem amoMaxu (x0 x1 x2 x3 x4) : Statement (.amoMaxu x0 x1 x2 x3 x4) := by
  rintro w ⟨⟩
  rw [decodeRaw_maj23 (fMaj_packX ..)]
  delta decodeMaj23
  rw [fFn_packX, fD_packX, fA_packX, fB_packX, fC_packX, extract_low (0#4) x3, extract_high (0#4) x3 0 4, extract_all (0#4), extract_low (7#4) x4, extract_high (7#4) x4 0 4, extract_all (7#4)]
  rfl
theorem amoSwap (x0 x1 x2 x3 x4) : Statement (.amoSwap x0 x1 x2 x3 x4) := by
  rintro w ⟨⟩
  rw [decodeRaw_maj23 (fMaj_packX ..)]
  delta decodeMaj23
  rw [fFn_packX, fD_packX, fA_packX, fB_packX, fC_packX, extract_low (0#4) x3, extract_high (0#4) x3 0 4, extract_all (0#4), extract_low (8#4) x4, extract_high (8#4) x4 0 4, extract_all (8#4)]
  rfl
theorem amoCas (x0 x1 x2 x3 x4) : Statement (.amoCas x0 x1 x2 x3 x4) := by
  rintro w ⟨⟩
  rw [decodeRaw_maj23 (fMaj_packX ..)]
  delta decodeMaj23
  rw [fFn_packX, fD_packX, fA_packX, fB_packX, fC_packX, extract_low (0#4) x3, extract_high (0#4) x3 0 4, extract_all (0#4), extract_low (9#4) x4, extract_high (9#4) x4 0 4, extract_all (9#4)]
  rfl
theorem amoFaddF32 (x0 x1 x2 x3 x4) : Statement (.amoFaddF32 x0 x1 x2 x3 x4) := by
  rintro w ⟨⟩
  rw [decodeRaw_maj23 (fMaj_packX ..)]
  delta decodeMaj23
  rw [fFn_packX, fD_packX, fA_packX, fB_packX, fC_packX, extract_low (0#4) x3, extract_high (0#4) x3 0 4, extract_all (0#4), extract_low (10#4) x4, extract_high (10#4) x4 0 4, extract_all (10#4)]
  rfl
theorem amoFaddF64 (x0 x1 x2 x3 x4) : Statement (.amoFaddF64 x0 x1 x2 x3 x4) := by
  rintro w ⟨⟩
  rw [decodeRaw_maj23 (fMaj_packX ..)]
  delta decodeMaj23
  rw [fFn_packX, fD_packX, fA_packX, fB_packX, fC_packX, extract_low (0#4) x3, extract_high (0#4) x3 0 4, extract_all (0#4), extract_low (11#4) x4, extract_high (11#4) x4 0 4, extract_all (11#4)]
  rfl
theorem fence (x0 x1 x2 x3) : Statement (.fence x0 x1 x2 x3) := by
  rintro w ⟨⟩
  rw [decodeRaw_maj24 (fMaj_packX ..)]
  delta decodeMaj24
  rw [fFn_packX, fD_packX, fA_packX, fB_packX, fC_packX]
  rfl
theorem fenceAcq (x0 x1 x2 x3) : Statement (.fenceAcq x0 x1 x2 x3) := by
  rintro w ⟨⟩
  rw [decodeRaw_maj24 (fMaj_packX ..)]
  delta decodeMaj24
  rw [fFn_packX, fD_packX, fA_packX, fB_packX, fC_packX]
  rfl
theorem fenceRel (x0 x1 x2 x3) : Statement (.fenceRel x0 x1 x2 x3) := by
  rintro w ⟨⟩
  rw [decodeRaw_maj24 (fMaj_packX ..)]
  delta decodeMaj24
  rw [fFn_packX, fD_packX, fA_packX, fB_packX, fC_packX]
  rfl
theorem barrive (x0 x1) : Statement (.barrive x0 x1) := by
  rintro w ⟨⟩
  rw [decodeRaw_maj25 (fMaj_packX ..)]
  delta decodeMaj25
  rw [fFn_packX, fD_packX, fA_packX, fB_packX, fC_packX]
  rfl
theorem bwait (x0) : Statement (.bwait x0) := by
  rintro w ⟨⟩
  rw [decodeRaw_maj25 (fMaj_packX ..)]
  delta decodeMaj25
  rw [fFn_packX, fD_packX, fA_packX, fB_packX, fC_packX]
  rfl
theorem barw (x0 x1) : Statement (.barw x0 x1) := by
  rintro w ⟨⟩
  rw [decodeRaw_maj25 (fMaj_packX ..)]
  delta decodeMaj25
  rw [fFn_packX, fD_packX, fA_packX, fB_packX, fC_packX]
  rfl
theorem gbar : Statement (.gbar) := by
  rintro w ⟨⟩
  rw [decodeRaw_maj25 (fMaj_packX ..)]
  delta decodeMaj25
  rw [fFn_packX, fD_packX, fA_packX, fB_packX, fC_packX]
  rfl
theorem bmake (x0 x1) : Statement (.bmake x0 x1) := by
  rintro w ⟨⟩
  rw [decodeRaw_maj25 (fMaj_packX ..)]
  delta decodeMaj25
  rw [fFn_packX, fD_packX, fA_packX, fB_packX, fC_packX]
  rfl
theorem bfree (x0 x1) : Statement (.bfree x0 x1) := by
  rintro w ⟨⟩
  rw [decodeRaw_maj25 (fMaj_packX ..)]
  delta decodeMaj25
  rw [fFn_packX, fD_packX, fA_packX, fB_packX, fC_packX]
  rfl
theorem put (x0 x1 x2) : Statement (.put x0 x1 x2) := by
  rintro w ⟨⟩
  rw [decodeRaw_maj26 (fMaj_packX ..)]
  delta decodeMaj26
  rw [fFn_packX, fD_packX, fA_packX, fB_packX, fC_packX]
  rfl
theorem get (x0 x1 x2) : Statement (.get x0 x1 x2) := by
  rintro w ⟨⟩
  rw [decodeRaw_maj26 (fMaj_packX ..)]
  delta decodeMaj26
  rw [fFn_packX, fD_packX, fA_packX, fB_packX, fC_packX]
  rfl
theorem putm (x0 x1 x2) : Statement (.putm x0 x1 x2) := by
  rintro w ⟨⟩
  rw [decodeRaw_maj26 (fMaj_packX ..)]
  delta decodeMaj26
  rw [fFn_packX, fD_packX, fA_packX, fB_packX, fC_packX]
  rfl
theorem getd (x0 x1) : Statement (.getd x0 x1) := by
  rintro w ⟨⟩
  rw [decodeRaw_maj26 (fMaj_packX ..)]
  delta decodeMaj26
  rw [fFn_packX, fD_packX, fA_packX, fB_packX, fC_packX]
  rfl
theorem cwait (x0 x1) : Statement (.cwait x0 x1) := by
  rintro w ⟨⟩
  rw [decodeRaw_maj26 (fMaj_packX ..)]
  delta decodeMaj26
  rw [fFn_packX, fD_packX, fA_packX, fB_packX, fC_packX]
  rfl
theorem cread (x0 x1) : Statement (.cread x0 x1) := by
  rintro w ⟨⟩
  rw [decodeRaw_maj26 (fMaj_packX ..)]
  delta decodeMaj26
  rw [fFn_packX, fD_packX, fA_packX, fB_packX, fC_packX]
  rfl
theorem cadd (x0 x1) : Statement (.cadd x0 x1) := by
  rintro w ⟨⟩
  rw [decodeRaw_maj26 (fMaj_packX ..)]
  delta decodeMaj26
  rw [fFn_packX, fD_packX, fA_packX, fB_packX, fC_packX]
  rfl
theorem rinit (x0 x1 x2) : Statement (.rinit x0 x1 x2) := by
  rintro w ⟨⟩
  rw [decodeRaw_maj27 (fMaj_packX ..)]
  delta decodeMaj27
  rw [fFn_packX, fD_packX, fA_packX, fB_packX, fC_packX]
  rfl
theorem rwf (x0 x1 x2) : Statement (.rwf x0 x1 x2) := by
  rintro w ⟨⟩
  rw [decodeRaw_maj27 (fMaj_packX ..)]
  delta decodeMaj27
  rw [fFn_packX, fD_packX, fA_packX, fB_packX, fC_packX]
  rfl
theorem rwe (x0 x1 x2) : Statement (.rwe x0 x1 x2) := by
  rintro w ⟨⟩
  rw [decodeRaw_maj27 (fMaj_packX ..)]
  delta decodeMaj27
  rw [fFn_packX, fD_packX, fA_packX, fB_packX, fC_packX]
  rfl
theorem rpub (x0 x1) : Statement (.rpub x0 x1) := by
  rintro w ⟨⟩
  rw [decodeRaw_maj27 (fMaj_packX ..)]
  delta decodeMaj27
  rw [fFn_packX, fD_packX, fA_packX, fB_packX, fC_packX]
  rfl
theorem rcon (x0 x1) : Statement (.rcon x0 x1) := by
  rintro w ⟨⟩
  rw [decodeRaw_maj27 (fMaj_packX ..)]
  delta decodeMaj27
  rw [fFn_packX, fD_packX, fA_packX, fB_packX, fC_packX]
  rfl
theorem dep (x0 x1) : Statement (.dep x0 x1) := by
  rintro w ⟨⟩
  rw [decodeRaw_maj28 (fMaj_packX ..)]
  delta decodeMaj28
  rw [fFn_packX, fD_packX, fA_packX, fB_packX, fC_packX]
  rfl
theorem depx (x0 x1) : Statement (.depx x0 x1) := by
  rintro w ⟨⟩
  rw [decodeRaw_maj28 (fMaj_packX ..)]
  delta decodeMaj28
  rw [fFn_packX, fD_packX, fA_packX, fB_packX, fC_packX]
  rfl
theorem sns4 (x0 x1 x2) : Statement (.sns4 x0 x1 x2) := by
  rintro w ⟨⟩
  rw [decodeRaw_maj28 (fMaj_packX ..)]
  delta decodeMaj28
  rw [fFn_packX, fD_packX, fA_packX, fB_packX, fC_packX]
  rfl
theorem sns8 (x0 x1 x2) : Statement (.sns8 x0 x1 x2) := by
  rintro w ⟨⟩
  rw [decodeRaw_maj28 (fMaj_packX ..)]
  delta decodeMaj28
  rw [fFn_packX, fD_packX, fA_packX, fB_packX, fC_packX]
  rfl
theorem snsl (x0 x1) : Statement (.snsl x0 x1) := by
  rintro w ⟨⟩
  rw [decodeRaw_maj28 (fMaj_packX ..)]
  delta decodeMaj28
  rw [fFn_packX, fD_packX, fA_packX, fB_packX, fC_packX]
  rfl
theorem mrd (x0 x1 x2) : Statement (.mrd x0 x1 x2) := by
  rintro w ⟨⟩
  rw [decodeRaw_maj28 (fMaj_packX ..)]
  delta decodeMaj28
  rw [fFn_packX, fD_packX, fA_packX, fB_packX, fC_packX]
  rfl
theorem tknum (x0 x1) : Statement (.tknum x0 x1) := by
  rintro w ⟨⟩
  rw [decodeRaw_maj28 (fMaj_packX ..)]
  delta decodeMaj28
  rw [fFn_packX, fD_packX, fA_packX, fB_packX, fC_packX]
  rfl
theorem tkwait (x0) : Statement (.tkwait x0) := by
  rintro w ⟨⟩
  rw [decodeRaw_maj28 (fMaj_packX ..)]
  delta decodeMaj28
  rw [fFn_packX, fD_packX, fA_packX, fB_packX, fC_packX]
  rfl
theorem axsetv (x0 x1) : Statement (.axsetv x0 x1) := by
  rintro w ⟨⟩
  rw [decodeRaw_maj29 (fMaj_packX ..)]
  delta decodeMaj29
  rw [fFn_packX, fD_packX, fA_packX, fB_packX, fC_packX]
  rfl
theorem axsets (x0 x1 x2) : Statement (.axsets x0 x1 x2) := by
  rintro w ⟨⟩
  rw [decodeRaw_maj29 (fMaj_packX ..)]
  delta decodeMaj29
  rw [fFn_packX, fD_packX, fA_packX, fB_packX, fC_packX]
  rfl
theorem axget (x0 x1) : Statement (.axget x0 x1) := by
  rintro w ⟨⟩
  rw [decodeRaw_maj29 (fMaj_packX ..)]
  delta decodeMaj29
  rw [fFn_packX, fD_packX, fA_packX, fB_packX, fC_packX]
  rfl
theorem axtt (x0 x1) : Statement (.axtt x0 x1) := by
  rintro w ⟨⟩
  rw [decodeRaw_maj29 (fMaj_packX ..)]
  delta decodeMaj29
  rw [fFn_packX, fD_packX, fA_packX, fB_packX, fC_packX]
  rfl
theorem axeAdd (x0 x1 x2 x3) : Statement (.axeAdd x0 x1 x2 x3) := by
  rintro w ⟨⟩
  rw [decodeRaw_maj2A (fMaj_packX ..)]
  delta decodeMaj2A
  rw [fFn_packX, fD_packX, fA_packX, fB_packX, fC_packX]
  rfl
theorem axeSub (x0 x1 x2 x3) : Statement (.axeSub x0 x1 x2 x3) := by
  rintro w ⟨⟩
  rw [decodeRaw_maj2A (fMaj_packX ..)]
  delta decodeMaj2A
  rw [fFn_packX, fD_packX, fA_packX, fB_packX, fC_packX]
  rfl
theorem axeAddSat (x0 x1 x2 x3) : Statement (.axeAddSat x0 x1 x2 x3) := by
  rintro w ⟨⟩
  rw [decodeRaw_maj2A (fMaj_packX ..)]
  delta decodeMaj2A
  rw [fFn_packX, fD_packX, fA_packX, fB_packX, fC_packX]
  rfl
theorem axeSubSat (x0 x1 x2 x3) : Statement (.axeSubSat x0 x1 x2 x3) := by
  rintro w ⟨⟩
  rw [decodeRaw_maj2A (fMaj_packX ..)]
  delta decodeMaj2A
  rw [fFn_packX, fD_packX, fA_packX, fB_packX, fC_packX]
  rfl
theorem axeMin (x0 x1 x2 x3) : Statement (.axeMin x0 x1 x2 x3) := by
  rintro w ⟨⟩
  rw [decodeRaw_maj2A (fMaj_packX ..)]
  delta decodeMaj2A
  rw [fFn_packX, fD_packX, fA_packX, fB_packX, fC_packX]
  rfl
theorem axeMax (x0 x1 x2 x3) : Statement (.axeMax x0 x1 x2 x3) := by
  rintro w ⟨⟩
  rw [decodeRaw_maj2A (fMaj_packX ..)]
  delta decodeMaj2A
  rw [fFn_packX, fD_packX, fA_packX, fB_packX, fC_packX]
  rfl
theorem axeMul (x0 x1 x2 x3) : Statement (.axeMul x0 x1 x2 x3) := by
  rintro w ⟨⟩
  rw [decodeRaw_maj2A (fMaj_packX ..)]
  delta decodeMaj2A
  rw [fFn_packX, fD_packX, fA_packX, fB_packX, fC_packX]
  rfl
theorem axeFma (x0 x1 x2) : Statement (.axeFma x0 x1 x2) := by
  rintro w ⟨⟩
  rw [decodeRaw_maj2A (fMaj_packX ..)]
  delta decodeMaj2A
  rw [fFn_packX, fD_packX, fA_packX, fB_packX, fC_packX]
  rfl
theorem axeCmpeq (x0 x1 x2 x3) : Statement (.axeCmpeq x0 x1 x2 x3) := by
  rintro w ⟨⟩
  rw [decodeRaw_maj2A (fMaj_packX ..)]
  delta decodeMaj2A
  rw [fFn_packX, fD_packX, fA_packX, fB_packX, fC_packX]
  rfl
theorem axeCmplt (x0 x1 x2 x3) : Statement (.axeCmplt x0 x1 x2 x3) := by
  rintro w ⟨⟩
  rw [decodeRaw_maj2A (fMaj_packX ..)]
  delta decodeMaj2A
  rw [fFn_packX, fD_packX, fA_packX, fB_packX, fC_packX]
  rfl
theorem axeCvt (x0 x1 x2) : Statement (.axeCvt x0 x1 x2) := by
  rintro w ⟨⟩
  rw [decodeRaw_maj2A (fMaj_packX ..)]
  delta decodeMaj2A
  rw [fFn_packX, fD_packX, fA_packX, fB_packX, fC_packX]
  rfl
theorem axeAnd (x0 x1 x2) : Statement (.axeAnd x0 x1 x2) := by
  rintro w ⟨⟩
  rw [decodeRaw_maj2A (fMaj_packX ..)]
  delta decodeMaj2A
  rw [fFn_packX, fD_packX, fA_packX, fB_packX, fC_packX]
  rfl
theorem axeOr (x0 x1 x2) : Statement (.axeOr x0 x1 x2) := by
  rintro w ⟨⟩
  rw [decodeRaw_maj2A (fMaj_packX ..)]
  delta decodeMaj2A
  rw [fFn_packX, fD_packX, fA_packX, fB_packX, fC_packX]
  rfl
theorem axeXor (x0 x1 x2) : Statement (.axeXor x0 x1 x2) := by
  rintro w ⟨⟩
  rw [decodeRaw_maj2A (fMaj_packX ..)]
  delta decodeMaj2A
  rw [fFn_packX, fD_packX, fA_packX, fB_packX, fC_packX]
  rfl
theorem axeNot (x0 x1) : Statement (.axeNot x0 x1) := by
  rintro w ⟨⟩
  rw [decodeRaw_maj2A (fMaj_packX ..)]
  delta decodeMaj2A
  rw [fFn_packX, fD_packX, fA_packX, fB_packX, fC_packX]
  rfl
theorem axeMov (x0 x1) : Statement (.axeMov x0 x1) := by
  rintro w ⟨⟩
  rw [decodeRaw_maj2A (fMaj_packX ..)]
  delta decodeMaj2A
  rw [fFn_packX, fD_packX, fA_packX, fB_packX, fC_packX]
  rfl
theorem axeSel (x0 x1 x2) : Statement (.axeSel x0 x1 x2) := by
  rintro w ⟨⟩
  rw [decodeRaw_maj2A (fMaj_packX ..)]
  delta decodeMaj2A
  rw [fFn_packX, fD_packX, fA_packX, fB_packX, fC_packX]
  rfl
theorem axeShl (x0 x1 x2) : Statement (.axeShl x0 x1 x2) := by
  rintro w ⟨⟩
  rw [decodeRaw_maj2A (fMaj_packX ..)]
  delta decodeMaj2A
  rw [fFn_packX, fD_packX, fA_packX, fB_packX, fC_packX]
  rfl
theorem axeShr (x0 x1 x2) : Statement (.axeShr x0 x1 x2) := by
  rintro w ⟨⟩
  rw [decodeRaw_maj2A (fMaj_packX ..)]
  delta decodeMaj2A
  rw [fFn_packX, fD_packX, fA_packX, fB_packX, fC_packX]
  rfl
theorem axeSra (x0 x1 x2) : Statement (.axeSra x0 x1 x2) := by
  rintro w ⟨⟩
  rw [decodeRaw_maj2A (fMaj_packX ..)]
  delta decodeMaj2A
  rw [fFn_packX, fD_packX, fA_packX, fB_packX, fC_packX]
  rfl
theorem axmm (x0 x1 x2) : Statement (.axmm x0 x1 x2) := by
  rintro w ⟨⟩
  rw [decodeRaw_maj2B (fMaj_packX ..)]
  delta decodeMaj2B
  rw [fFn_packX, fD_packX, fA_packX, fB_packX, fC_packX, extract_low (0#1) x2, extract_high (0#1) x2 0 1, extract_all (0#1)]
  rfl
theorem axgang (x0 x1 x2) : Statement (.axgang x0 x1 x2) := by
  rintro w ⟨⟩
  rw [decodeRaw_maj2B (fMaj_packX ..)]
  delta decodeMaj2B
  rw [fFn_packX, fD_packX, fA_packX, fB_packX, fC_packX, extract_low (1#1) x2, extract_high (1#1) x2 0 1, extract_all (1#1)]
  rfl
theorem axmatch (x0 x1 x2 x3) : Statement (.axmatch x0 x1 x2 x3) := by
  rintro w ⟨⟩
  rw [decodeRaw_maj2C (fMaj_packX ..)]
  delta decodeMaj2C
  rw [fFn_packX, fD_packX, fA_packX, fB_packX, fC_packX]
  rfl
theorem axfirst (x0 x1) : Statement (.axfirst x0 x1) := by
  rintro w ⟨⟩
  rw [decodeRaw_maj2C (fMaj_packX ..)]
  delta decodeMaj2C
  rw [fFn_packX, fD_packX, fA_packX, fB_packX, fC_packX]
  rfl
theorem axcount (x0 x1) : Statement (.axcount x0 x1) := by
  rintro w ⟨⟩
  rw [decodeRaw_maj2C (fMaj_packX ..)]
  delta decodeMaj2C
  rw [fFn_packX, fD_packX, fA_packX, fB_packX, fC_packX]
  rfl
theorem axmin (x0 x1 x2 x3) : Statement (.axmin x0 x1 x2 x3) := by
  rintro w ⟨⟩
  rw [decodeRaw_maj2C (fMaj_packX ..)]
  delta decodeMaj2C
  rw [fFn_packX, fD_packX, fA_packX, fB_packX, fC_packX]
  rfl
theorem axmax (x0 x1 x2 x3) : Statement (.axmax x0 x1 x2 x3) := by
  rintro w ⟨⟩
  rw [decodeRaw_maj2C (fMaj_packX ..)]
  delta decodeMaj2C
  rw [fFn_packX, fD_packX, fA_packX, fB_packX, fC_packX]
  rfl
theorem axsum (x0 x1 x2 x3) : Statement (.axsum x0 x1 x2 x3) := by
  rintro w ⟨⟩
  rw [decodeRaw_maj2C (fMaj_packX ..)]
  delta decodeMaj2C
  rw [fFn_packX, fD_packX, fA_packX, fB_packX, fC_packX]
  rfl
theorem axtag (x0 x1 x2) : Statement (.axtag x0 x1 x2) := by
  rintro w ⟨⟩
  rw [decodeRaw_maj2C (fMaj_packX ..)]
  delta decodeMaj2C
  rw [fFn_packX, fD_packX, fA_packX, fB_packX, fC_packX]
  rfl
theorem axld (x0 x1 x2) : Statement (.axld x0 x1 x2) := by
  rintro w ⟨⟩
  rw [decodeRaw_maj2D (fMaj_packX ..)]
  delta decodeMaj2D
  rw [fFn_packX, fD_packX, fA_packX, fB_packX, fC_packX]
  rfl
theorem axldf (x0 x1 x2 x3) : Statement (.axldf x0 x1 x2 x3) := by
  rintro w ⟨⟩
  rw [decodeRaw_maj2D (fMaj_packX ..)]
  delta decodeMaj2D
  rw [fFn_packX, fD_packX, fA_packX, fB_packX, fC_packX]
  rfl
theorem axldg (x0 x1 x2 x3) : Statement (.axldg x0 x1 x2 x3) := by
  rintro w ⟨⟩
  rw [decodeRaw_maj2D (fMaj_packX ..)]
  delta decodeMaj2D
  rw [fFn_packX, fD_packX, fA_packX, fB_packX, fC_packX]
  rfl
theorem axst (x0 x1 x2) : Statement (.axst x0 x1 x2) := by
  rintro w ⟨⟩
  rw [decodeRaw_maj2D (fMaj_packX ..)]
  delta decodeMaj2D
  rw [fFn_packX, fD_packX, fA_packX, fB_packX, fC_packX]
  rfl
theorem axlive (x0 x1 x2) : Statement (.axlive x0 x1 x2) := by
  rintro w ⟨⟩
  rw [decodeRaw_maj2D (fMaj_packX ..)]
  delta decodeMaj2D
  rw [fFn_packX, fD_packX, fA_packX, fB_packX, fC_packX]
  rfl
theorem axwait (x0) : Statement (.axwait x0) := by
  rintro w ⟨⟩
  rw [decodeRaw_maj2D (fMaj_packX ..)]
  delta decodeMaj2D
  rw [fFn_packX, fD_packX, fA_packX, fB_packX, fC_packX]
  rfl
theorem axpass (x0) : Statement (.axpass x0) := by
  rintro w ⟨⟩
  rw [decodeRaw_maj2D (fMaj_packX ..)]
  delta decodeMaj2D
  rw [fFn_packX, fD_packX, fA_packX, fB_packX, fC_packX]
  rfl
theorem bkload (x0 x1) : Statement (.bkload x0 x1) := by
  rintro w ⟨⟩
  rw [decodeRaw_maj2E (fMaj_packX ..)]
  delta decodeMaj2E
  rw [fFn_packX, fD_packX, fA_packX, fB_packX, fC_packX]
  rfl
theorem bkrun (x0 x1) : Statement (.bkrun x0 x1) := by
  rintro w ⟨⟩
  rw [decodeRaw_maj2E (fMaj_packX ..)]
  delta decodeMaj2E
  rw [fFn_packX, fD_packX, fA_packX, fB_packX, fC_packX]
  rfl
theorem bkcopy (x0 x1 x2) : Statement (.bkcopy x0 x1 x2) := by
  rintro w ⟨⟩
  rw [decodeRaw_maj2E (fMaj_packX ..)]
  delta decodeMaj2E
  rw [fFn_packX, fD_packX, fA_packX, fB_packX, fC_packX]
  rfl
theorem bkfence : Statement (.bkfence) := by
  rintro w ⟨⟩
  rw [decodeRaw_maj2E (fMaj_packX ..)]
  delta decodeMaj2E
  rw [fFn_packX, fD_packX, fA_packX, fB_packX, fC_packX]
  rfl
theorem bkerr (x0 x1) : Statement (.bkerr x0 x1) := by
  rintro w ⟨⟩
  rw [decodeRaw_maj2E (fMaj_packX ..)]
  delta decodeMaj2E
  rw [fFn_packX, fD_packX, fA_packX, fB_packX, fC_packX]
  rfl
theorem bkmeta (x0 x1 x2 x3) : Statement (.bkmeta x0 x1 x2 x3) := by
  rintro w ⟨⟩
  rw [decodeRaw_maj2E (fMaj_packX ..)]
  delta decodeMaj2E
  rw [fFn_packX, fD_packX, fA_packX, fB_packX, fC_packX]
  rfl
theorem maddF32 (x0 x1) : Statement (.maddF32 x0 x1) := by
  rintro w ⟨⟩
  rw [decodeRaw_maj2F (fMaj_packX ..)]
  delta decodeMaj2F
  rw [fFn_packX, fD_packX, fA_packX, fB_packX, fC_packX]
  rfl
theorem maddI32 (x0 x1) : Statement (.maddI32 x0 x1) := by
  rintro w ⟨⟩
  rw [decodeRaw_maj2F (fMaj_packX ..)]
  delta decodeMaj2F
  rw [fFn_packX, fD_packX, fA_packX, fB_packX, fC_packX]
  rfl
theorem maddV4 (x0 x1 x2) : Statement (.maddV4 x0 x1 x2) := by
  rintro w ⟨⟩
  rw [decodeRaw_maj2F (fMaj_packX ..)]
  delta decodeMaj2F
  rw [fFn_packX, fD_packX, fA_packX, fB_packX, fC_packX]
  rfl
theorem mfence : Statement (.mfence) := by
  rintro w ⟨⟩
  rw [decodeRaw_maj2F (fMaj_packX ..)]
  delta decodeMaj2F
  rw [fFn_packX, fD_packX, fA_packX, fB_packX, fC_packX]
  rfl
theorem tspawn (x0 x1 x2) : Statement (.tspawn x0 x1 x2) := by
  rintro w ⟨⟩
  rw [decodeRaw_maj30 (fMaj_packX ..)]
  delta decodeMaj30
  rw [fFn_packX, fD_packX, fA_packX, fB_packX, fC_packX]
  rfl
theorem texit (x0) : Statement (.texit x0) := by
  rintro w ⟨⟩
  rw [decodeRaw_maj30 (fMaj_packX ..)]
  delta decodeMaj30
  rw [fFn_packX, fD_packX, fA_packX, fB_packX, fC_packX]
  rfl
theorem targ (x0 x1) : Statement (.targ x0 x1) := by
  rintro w ⟨⟩
  rw [decodeRaw_maj30 (fMaj_packX ..)]
  delta decodeMaj30
  rw [fFn_packX, fD_packX, fA_packX, fB_packX, fC_packX]
  rfl
theorem tyield (x0) : Statement (.tyield x0) := by
  rintro w ⟨⟩
  rw [decodeRaw_maj30 (fMaj_packX ..)]
  delta decodeMaj30
  rw [fFn_packX, fD_packX, fA_packX, fB_packX, fC_packX]
  rfl
theorem ecall (x0 x1 x2 x3) : Statement (.ecall x0 x1 x2 x3) := by
  rintro w ⟨⟩
  rw [decodeRaw_maj31 (fMaj_packX ..)]
  delta decodeMaj31
  rw [fFn_packX, fD_packX, fA_packX, fB_packX, fC_packX]
  rfl
theorem ebreak (x0 x1 x2 x3) : Statement (.ebreak x0 x1 x2 x3) := by
  rintro w ⟨⟩
  rw [decodeRaw_maj31 (fMaj_packX ..)]
  delta decodeMaj31
  rw [fFn_packX, fD_packX, fA_packX, fB_packX, fC_packX]
  rfl
theorem tret : Statement (.tret) := by
  rintro w ⟨⟩
  rw [decodeRaw_maj31 (fMaj_packX ..)]
  delta decodeMaj31
  rw [fFn_packX, fD_packX, fA_packX, fB_packX, fC_packX]
  rfl
theorem wfi : Statement (.wfi) := by
  rintro w ⟨⟩
  rw [decodeRaw_maj31 (fMaj_packX ..)]
  delta decodeMaj31
  rw [fFn_packX, fD_packX, fA_packX, fB_packX, fC_packX]
  rfl
theorem icinv : Statement (.icinv) := by
  rintro w ⟨⟩
  rw [decodeRaw_maj31 (fMaj_packX ..)]
  delta decodeMaj31
  rw [fFn_packX, fD_packX, fA_packX, fB_packX, fC_packX]
  rfl
theorem csrr (x0 x1) : Statement (.csrr x0 x1) := by
  rintro w ⟨⟩
  rw [decodeRaw_maj32 (fMaj_packI ..)]
  delta decodeMaj32
  rw [fD_packI, fA_packI, fImm_packI, extract_low (0#2 ++ 0#2) x1, extract_high (0#2 ++ 0#2) x1 0 2, extract_low (0#2) (0#2), extract_high (0#2 ++ 0#2) x1 2 2, extract_high (0#2) (0#2) 0 2, extract_all (0#2)]
  rfl
theorem csrs (x0 x1 x2) : Statement (.csrs x0 x1 x2) := by
  rintro w ⟨⟩
  rw [decodeRaw_maj32 (fMaj_packI ..)]
  delta decodeMaj32
  rw [fD_packI, fA_packI, fImm_packI, extract_low (1#2 ++ 0#2) x2, extract_high (1#2 ++ 0#2) x2 0 2, extract_low (1#2) (0#2), extract_high (1#2 ++ 0#2) x2 2 2, extract_high (1#2) (0#2) 0 2, extract_all (1#2)]
  rfl
theorem csrc (x0 x1 x2) : Statement (.csrc x0 x1 x2) := by
  rintro w ⟨⟩
  rw [decodeRaw_maj32 (fMaj_packI ..)]
  delta decodeMaj32
  rw [fD_packI, fA_packI, fImm_packI, extract_low (2#2 ++ 0#2) x2, extract_high (2#2 ++ 0#2) x2 0 2, extract_low (2#2) (0#2), extract_high (2#2 ++ 0#2) x2 2 2, extract_high (2#2) (0#2) 0 2, extract_all (2#2)]
  rfl
theorem csrw (x0 x1) : Statement (.csrw x0 x1) := by
  rintro w ⟨⟩
  rw [decodeRaw_maj32 (fMaj_packI ..)]
  delta decodeMaj32
  rw [fD_packI, fA_packI, fImm_packI, extract_low (3#2 ++ 0#2) x1, extract_high (3#2 ++ 0#2) x1 0 2, extract_low (3#2) (0#2), extract_high (3#2 ++ 0#2) x1 2 2, extract_high (3#2) (0#2) 0 2, extract_all (3#2)]
  rfl
theorem tlbinv (x0 x1 x2) : Statement (.tlbinv x0 x1 x2) := by
  rintro w ⟨⟩
  rw [decodeRaw_maj33 (fMaj_packX ..)]
  delta decodeMaj33
  rw [fFn_packX, fD_packX, fA_packX, fB_packX, fC_packX]
  rfl
theorem asidset (x0 x1) : Statement (.asidset x0 x1) := by
  rintro w ⟨⟩
  rw [decodeRaw_maj33 (fMaj_packX ..)]
  delta decodeMaj33
  rw [fFn_packX, fD_packX, fA_packX, fB_packX, fC_packX]
  rfl
theorem protset (x0 x1) : Statement (.protset x0 x1) := by
  rintro w ⟨⟩
  rw [decodeRaw_maj33 (fMaj_packX ..)]
  delta decodeMaj33
  rw [fFn_packX, fD_packX, fA_packX, fB_packX, fC_packX]
  rfl
theorem stopat (x0 x1 x2) : Statement (.stopat x0 x1 x2) := by
  rintro w ⟨⟩
  rw [decodeRaw_maj33 (fMaj_packX ..)]
  delta decodeMaj33
  rw [fFn_packX, fD_packX, fA_packX, fB_packX, fC_packX]
  rfl
theorem cld (x0 x1) : Statement (.cld x0 x1) := by
  rintro w ⟨⟩
  rw [decodeRaw_maj38 (fMaj_packX ..)]
  delta decodeMaj38
  rw [fFn_packX, fD_packX, fA_packX, fB_packX, fC_packX]
  rfl
theorem cst (x0 x1) : Statement (.cst x0 x1) := by
  rintro w ⟨⟩
  rw [decodeRaw_maj38 (fMaj_packX ..)]
  delta decodeMaj38
  rw [fFn_packX, fD_packX, fA_packX, fB_packX, fC_packX]
  rfl
theorem cstM (x0 x1 x2) : Statement (.cstM x0 x1 x2) := by
  rintro w ⟨⟩
  rw [decodeRaw_maj38 (fMaj_packX ..)]
  delta decodeMaj38
  rw [fFn_packX, fD_packX, fA_packX, fB_packX, fC_packX]
  rfl
theorem cldm (x0 x1 x2 x3) : Statement (.cldm x0 x1 x2 x3) := by
  rintro w ⟨⟩
  rw [decodeRaw_maj38 (fMaj_packX ..)]
  delta decodeMaj38
  rw [fFn_packX, fD_packX, fA_packX, fB_packX, fC_packX]
  rfl
theorem laneAdd (x0 x1 x2 x3) : Statement (.laneAdd x0 x1 x2 x3) := by
  rintro w ⟨⟩
  rw [decodeRaw_maj39 (fMaj_packX ..)]
  delta decodeMaj39
  rw [fFn_packX, fD_packX, fA_packX, fB_packX, fC_packX]
  rfl
theorem laneSub (x0 x1 x2 x3) : Statement (.laneSub x0 x1 x2 x3) := by
  rintro w ⟨⟩
  rw [decodeRaw_maj39 (fMaj_packX ..)]
  delta decodeMaj39
  rw [fFn_packX, fD_packX, fA_packX, fB_packX, fC_packX]
  rfl
theorem laneMul (x0 x1 x2 x3) : Statement (.laneMul x0 x1 x2 x3) := by
  rintro w ⟨⟩
  rw [decodeRaw_maj39 (fMaj_packX ..)]
  delta decodeMaj39
  rw [fFn_packX, fD_packX, fA_packX, fB_packX, fC_packX]
  rfl
theorem laneFma (x0 x1 x2 x3) : Statement (.laneFma x0 x1 x2 x3) := by
  rintro w ⟨⟩
  rw [decodeRaw_maj39 (fMaj_packX ..)]
  delta decodeMaj39
  rw [fFn_packX, fD_packX, fA_packX, fB_packX, fC_packX]
  rfl
theorem laneMin (x0 x1 x2 x3) : Statement (.laneMin x0 x1 x2 x3) := by
  rintro w ⟨⟩
  rw [decodeRaw_maj39 (fMaj_packX ..)]
  delta decodeMaj39
  rw [fFn_packX, fD_packX, fA_packX, fB_packX, fC_packX]
  rfl
theorem laneMax (x0 x1 x2 x3) : Statement (.laneMax x0 x1 x2 x3) := by
  rintro w ⟨⟩
  rw [decodeRaw_maj39 (fMaj_packX ..)]
  delta decodeMaj39
  rw [fFn_packX, fD_packX, fA_packX, fB_packX, fC_packX]
  rfl
theorem rsum (x0 x1 x2) : Statement (.rsum x0 x1 x2) := by
  rintro w ⟨⟩
  rw [decodeRaw_maj39 (fMaj_packX ..)]
  delta decodeMaj39
  rw [fFn_packX, fD_packX, fA_packX, fB_packX, fC_packX]
  rfl
theorem splat (x0 x1 x2) : Statement (.splat x0 x1 x2) := by
  rintro w ⟨⟩
  rw [decodeRaw_maj39 (fMaj_packX ..)]
  delta decodeMaj39
  rw [fFn_packX, fD_packX, fA_packX, fB_packX, fC_packX]
  rfl
theorem laneAnd (x0 x1 x2) : Statement (.laneAnd x0 x1 x2) := by
  rintro w ⟨⟩
  rw [decodeRaw_maj39 (fMaj_packX ..)]
  delta decodeMaj39
  rw [fFn_packX, fD_packX, fA_packX, fB_packX, fC_packX]
  rfl
theorem laneOr (x0 x1 x2) : Statement (.laneOr x0 x1 x2) := by
  rintro w ⟨⟩
  rw [decodeRaw_maj39 (fMaj_packX ..)]
  delta decodeMaj39
  rw [fFn_packX, fD_packX, fA_packX, fB_packX, fC_packX]
  rfl
theorem laneXor (x0 x1 x2) : Statement (.laneXor x0 x1 x2) := by
  rintro w ⟨⟩
  rw [decodeRaw_maj39 (fMaj_packX ..)]
  delta decodeMaj39
  rw [fFn_packX, fD_packX, fA_packX, fB_packX, fC_packX]
  rfl
theorem laneMov (x0 x1) : Statement (.laneMov x0 x1) := by
  rintro w ⟨⟩
  rw [decodeRaw_maj39 (fMaj_packX ..)]
  delta decodeMaj39
  rw [fFn_packX, fD_packX, fA_packX, fB_packX, fC_packX]
  rfl
theorem lget (x0 x1 x2) : Statement (.lget x0 x1 x2) := by
  rintro w ⟨⟩
  rw [decodeRaw_maj39 (fMaj_packX ..)]
  delta decodeMaj39
  rw [fFn_packX, fD_packX, fA_packX, fB_packX, fC_packX]
  rfl
theorem lput (x0 x1 x2) : Statement (.lput x0 x1 x2) := by
  rintro w ⟨⟩
  rw [decodeRaw_maj39 (fMaj_packX ..)]
  delta decodeMaj39
  rw [fFn_packX, fD_packX, fA_packX, fB_packX, fC_packX]
  rfl
theorem lld (x0 x1) : Statement (.lld x0 x1) := by
  rintro w ⟨⟩
  rw [decodeRaw_maj39 (fMaj_packX ..)]
  delta decodeMaj39
  rw [fFn_packX, fD_packX, fA_packX, fB_packX, fC_packX]
  rfl
theorem lst (x0 x1) : Statement (.lst x0 x1) := by
  rintro w ⟨⟩
  rw [decodeRaw_maj39 (fMaj_packX ..)]
  delta decodeMaj39
  rw [fFn_packX, fD_packX, fA_packX, fB_packX, fC_packX]
  rfl
theorem bdone (x0) : Statement (.bdone x0) := by
  rintro w ⟨⟩
  rw [decodeRaw_maj3A (fMaj_packX ..)]
  delta decodeMaj3A
  rw [fFn_packX, fD_packX, fA_packX, fB_packX, fC_packX]
  rfl
theorem bsig (x0) : Statement (.bsig x0) := by
  rintro w ⟨⟩
  rw [decodeRaw_maj3A (fMaj_packX ..)]
  delta decodeMaj3A
  rw [fFn_packX, fD_packX, fA_packX, fB_packX, fC_packX]
  rfl
theorem takeInterrupt (x0) : Statement (.takeInterrupt x0) := nofun
theorem takeAsyncException (x0) : Statement (.takeAsyncException x0) := nofun
theorem timerMatch (x0) : Statement (.timerMatch x0) := nofun
theorem instructionFetchFill (x0) : Statement (.instructionFetchFill x0) := nofun
theorem chunkCommit (x0) : Statement (.chunkCommit x0) := nofun
theorem soloGrant (x0) : Statement (.soloGrant x0) := nofun
theorem remoteAccessArrival (x0) : Statement (.remoteAccessArrival x0) := nofun
theorem syncEngineAtomic (x0) : Statement (.syncEngineAtomic x0) := nofun
theorem syncEngineBarrier (x0) : Statement (.syncEngineBarrier x0) := nofun
theorem remoteLoadReply (x0) : Statement (.remoteLoadReply x0) := nofun
theorem remoteAtomicReply (x0) : Statement (.remoteAtomicReply x0) := nofun
theorem syncReply (x0) : Statement (.syncReply x0) := nofun
theorem remoteAck (x0) : Statement (.remoteAck x0) := nofun
theorem remoteRejection (x0) : Statement (.remoteRejection x0) := nofun
theorem bwaitWake (x0) : Statement (.bwaitWake x0) := nofun
theorem gbarComplete (x0) : Statement (.gbarComplete x0) := nofun
theorem ldsWake (x0) : Statement (.ldsWake x0) := nofun
theorem cwaitWake (x0) : Statement (.cwaitWake x0) := nofun
theorem rwfWake (x0) : Statement (.rwfWake x0) := nofun
theorem rweWake (x0) : Statement (.rweWake x0) := nofun
theorem tkwaitWake (x0) : Statement (.tkwaitWake x0) := nofun
theorem fenceWaitEnd (x0) : Statement (.fenceWaitEnd x0) := nofun
theorem bkfenceWaitEnd (x0) : Statement (.bkfenceWaitEnd x0) := nofun
theorem mfenceWaitEnd (x0) : Statement (.mfenceWaitEnd x0) := nofun
theorem tlbinvAck (x0) : Statement (.tlbinvAck x0) := nofun
theorem stopAnnounced (x0) : Statement (.stopAnnounced x0) := nofun
theorem tspawnAck (x0) : Statement (.tspawnAck x0) := nofun
theorem tyieldEnd (x0) : Statement (.tyieldEnd x0) := nofun
theorem wfiWake (x0) : Statement (.wfiWake x0) := nofun
theorem axwaitEnd (x0) : Statement (.axwaitEnd x0) := nofun
theorem arrayInstrExecute (x0) : Statement (.arrayInstrExecute x0) := nofun
theorem arrayResultWrite (x0) : Statement (.arrayResultWrite x0) := nofun
theorem axmmRow (x0) : Statement (.axmmRow x0) := nofun
theorem gangOpJoin (x0) : Statement (.gangOpJoin x0) := nofun
theorem axgangRow (x0) : Statement (.axgangRow x0) := nofun
theorem putgetSegment (x0 x1) : Statement (.putgetSegment x0 x1) := nofun
theorem partTranslate (x0 x1) : Statement (.partTranslate x0 x1) := nofun
theorem faultRecordWrite (x0 x1) : Statement (.faultRecordWrite x0 x1) := nofun
theorem putgetComplete (x0 x1) : Statement (.putgetComplete x0 x1) := nofun
theorem putgetFail (x0 x1) : Statement (.putgetFail x0 x1) := nofun
theorem putmSlotClaim (x0 x1 x2) : Statement (.putmSlotClaim x0 x1 x2) := nofun
theorem bkloadComplete (x0) : Statement (.bkloadComplete x0) := nofun
theorem overlayStart (x0) : Statement (.overlayStart x0) := nofun
theorem overlayEnd (x0) : Statement (.overlayEnd x0) := nofun
theorem bkcopyColumn (x0) : Statement (.bkcopyColumn x0) := nofun
theorem bkcopyComplete (x0) : Statement (.bkcopyComplete x0) := nofun
theorem bkmetaComplete (x0) : Statement (.bkmetaComplete x0) := nofun
theorem streamSlotGrant (x0) : Statement (.streamSlotGrant x0) := nofun
theorem streamSlotIdleRelease (x0) : Statement (.streamSlotIdleRelease x0) := nofun
theorem maddAccept (x0 x1) : Statement (.maddAccept x0 x1) := nofun
theorem maddApply (x0 x1) : Statement (.maddApply x0 x1) := nofun
theorem hotRowWindow (x0) : Statement (.hotRowWindow x0) := nofun
theorem hotRowAdmit (x0 x1) : Statement (.hotRowAdmit x0 x1) := nofun
theorem markOpArrival (x0) : Statement (.markOpArrival x0) := nofun
theorem markOpApply (x0 x1) : Statement (.markOpApply x0 x1) := nofun
theorem tick (x0) : Statement (.tick x0) := nofun
theorem markConfigEffect (x0 x1) : Statement (.markConfigEffect x0 x1) := nofun
theorem msizeWrite (x0 x1) : Statement (.msizeWrite x0 x1) := nofun
theorem fresumeRetry (x0 x1) : Statement (.fresumeRetry x0 x1) := nofun
theorem fresumeFail (x0 x1) : Statement (.fresumeFail x0 x1) := nofun
theorem fresumeExhaust (x0 x1) : Statement (.fresumeExhaust x0 x1) := nofun
theorem registerWrite (x0 x1) : Statement (.registerWrite x0 x1) := nofun
theorem qtailWrite (x0 x1 x2) : Statement (.qtailWrite x0 x1 x2) := nofun
theorem qcfgWrite (x0 x1 x2) : Statement (.qcfgWrite x0 x1 x2) := nofun
theorem evcfgWrite (x0 x1) : Statement (.evcfgWrite x0 x1) := nofun
theorem ptcfgWrite (x0 x1) : Statement (.ptcfgWrite x0 x1) := nofun
theorem launchRead (x0 x1) : Statement (.launchRead x0 x1) := nofun
theorem taskEnqueue (x0 x1) : Statement (.taskEnqueue x0 x1) := nofun
theorem versionFill (x0) : Statement (.versionFill x0) := nofun
theorem taskEligible (x0) : Statement (.taskEligible x0) := nofun
theorem dispatchOpportunity (x0) : Statement (.dispatchOpportunity x0) := nofun
theorem evictGang (x0) : Statement (.evictGang x0) := nofun
theorem taskComplete (x0) : Statement (.taskComplete x0) := nofun
theorem eventRecordWrite (x0) : Statement (.eventRecordWrite x0) := nofun
theorem eventInterruptTimeout (x0) : Statement (.eventInterruptTimeout x0) := nofun
theorem versionInstall (x0) : Statement (.versionInstall x0) := nofun
theorem hangExpiry (x0) : Statement (.hangExpiry x0) := nofun
theorem zugzwangStop (x0) : Statement (.zugzwangStop x0) := nofun
theorem flushToken (x0 x1) : Statement (.flushToken x0 x1) := nofun
theorem routerFlush (x0 x1) : Statement (.routerFlush x0 x1) := nofun
theorem stopComplete (x0) : Statement (.stopComplete x0) := nofun
theorem partitionResume (x0) : Statement (.partitionResume x0) := nofun
theorem recallLentClusters (x0 x1) : Statement (.recallLentClusters x0 x1) := nofun
theorem lendCluster (x0 x1) : Statement (.lendCluster x0 x1) := nofun
theorem assignCluster (x0 x1) : Statement (.assignCluster x0 x1) := nofun
theorem withdrawPartition (x0) : Statement (.withdrawPartition x0) := nofun
theorem migrateOwner (x0) : Statement (.migrateOwner x0) := nofun
theorem field (x0) : Statement (.field x0) := nofun
theorem ticks (x0) : Statement (.ticks x0) := nofun
theorem snapshot (x0) : Statement (.snapshot x0) := nofun
theorem cap (x0) : Statement (.cap x0) := nofun
theorem mailboxUnknown (x0) : Statement (.mailboxUnknown x0) := nofun
theorem hostMemAccess (x0 x1 x2) : Statement (.hostMemAccess x0 x1 x2) := nofun
theorem spdmRequest (x0) : Statement (.spdmRequest x0) := nofun
theorem firmwareImage (x0 x1) : Statement (.firmwareImage x0 x1) := nofun
theorem firmwareHealthy : Statement (.firmwareHealthy) := nofun
theorem firmwareHealthTimeout : Statement (.firmwareHealthTimeout) := nofun
theorem linkOpReceive (x0 x1 x2 x3) : Statement (.linkOpReceive x0 x1 x2 x3) := nofun
theorem linkPortDown (x0) : Statement (.linkPortDown x0) := nofun
theorem linkRouteTimeout (x0) : Statement (.linkRouteTimeout x0) := nofun
theorem governorEval (x0) : Statement (.governorEval x0) := nofun
theorem operatingPointStep (x0) : Statement (.operatingPointStep x0) := nofun
theorem voltageSettled (x0) : Statement (.voltageSettled x0) := nofun
theorem voltageFloorChange (x0 x1) : Statement (.voltageFloorChange x0 x1) := nofun
theorem powerThrottle (x0) : Statement (.powerThrottle x0) := nofun
theorem thermalReset : Statement (.thermalReset) := nofun
theorem moduleReset : Statement (.moduleReset) := nofun
theorem lastingFault (x0) : Statement (.lastingFault x0) := nofun
theorem isolateFault (x0) : Statement (.isolateFault x0) := nofun
theorem gradeChange (x0 x1 x2) : Statement (.gradeChange x0 x1 x2) := nofun
theorem illegalInstruction (x0) : Statement (.illegalInstruction x0) := nofun
theorem eventAcknowledgement (x0) : Statement (.eventAcknowledgement x0) := nofun
theorem softError (x0) : Statement (.softError x0) := nofun
theorem markReply (x0) : Statement (.markReply x0) := nofun
theorem linkPortUp (x0) : Statement (.linkPortUp x0) := nofun
theorem powerLimitCleared : Statement (.powerLimitCleared) := nofun

end Sys2Proof.Laws.FieldsReadBack
end

