-- ==== Sys2Proof/Safety.lean ====
section
/-!
DEFINITION. What counts as a safe state and a safe step: the memory is in its canonical form, and a step from there
answers a next state, again safe.
-/

namespace Sys2Proof

/-- The invariant that every next state keeps: memory lists rising keys and no byte equal to 0. -/
def Safe (s : Machine.State) : Prop := Machine.Memory.wf s.mem = true

/-- The step goes on, to a safe state: it meets neither a fault nor a refusal. -/
def SafeStep (s : Machine.State) : Prop := ∃ t, Machine.step s = .next t ∧ Safe t

end Sys2Proof
end

