-- ==== Sys2Proof/Tests/Slice0.lean ====
section
/-!
SUPPORT. Tests: ill-formed terms, words of the spec, single steps with results from the spec's examples, and for every statement states that meet
its hypotheses. Expected results are taken from the spec's worked examples and tables, as each comment says.
-/

namespace Sys2Proof.Tests

open Sys2Proof Sys2Proof.Machine Sys2Proof.Claim

/-! ### Small states -/

/-- One hart, context 0 on core 0, at address 0x1000, with the regions of task start. -/
def hart (l : Tbl W64) (e : Engines := {}) (w : Wait := .none) (p : Priv := .u) : State :=
  { ctxs := [(0, { regs := { pc := 0x1000, g := l }, eng := e, wait := w, priv := p, csr := { pw := startPw {} }, resident := true })] }

/-- The same with a changed context. -/
def hartBy (f : Ctx → Ctx) (s : State) : State := modCtx 0 f s

/-- A partition of two clusters around a state: cluster 1 exports its shared memory to cluster 0. -/
def duo (s : State) : State :=
  { s with
    parts := [(0, { live := true, count := 2, map := [(0, presentEntry 0), (1, presentEntry 1)] })]
    clusters := [(0, { part := some 0, wpt := [(0, firstWpt 2)], xw := [(0, firstWindow)] }),
      (1, { part := some 0, wpt := [(0, firstWpt 2)], xw := [(0, firstWindow)] })] }

/-- A global address of cluster 1's shared memory (R57). -/
def far : W64 := 0x8001000000040000

/-- A bank whose unit runs an overlay of context 0. -/
def bau (pc : Nat) (g : Tbl W32 := []) (l : Tbl (BitVec 256) := []) : State :=
  { cur := .bau 0, ctxs := (hart []).ctxs, banks := [(0, { pc := pc, g := g, lanes := l, run := some { cid := 0 }, slot := true })] }

/-! ### Ill-formed terms, one for each check (R34, R41, R75, R81, R156) -/

theorem test_illformed_register : (Instr.axsetv 16 1).illFormed = some .registerOutOfRange := by decide
theorem test_illformed_lane : (Instr.laneMov 8 0).illFormed = some .registerOutOfRange := by decide
theorem test_illformed_mode : (Instr.fadd 1 2 3 6 0).illFormed = some .roundingMode := by decide
theorem test_illformed_scope : (Instr.lda 1 2 5).illFormed = some .scopeOutOfRange := by decide
theorem test_illformed_selector : (Instr.axlive 1 2 4).illFormed = some .selectorOutOfRange := by decide
theorem test_illformed_format : (Instr.axeAdd 1 2 3 8).illFormed = some .formatNotAccepted := by decide
theorem test_illformed_typed : (Instr.ldf 1 2 3 0).illFormed = some .formatNotAccepted := by decide
theorem test_wellformed : (Instr.fadd 1 2 3 5 1).illFormed = none := by decide

/-! ### Words that are no instruction (R76, R80 to R82) -/

theorem test_zero_word : (match decode 0 with | .error _ => true | .ok _ => false) = true := by decide
theorem test_reserved_major : decode 0xFC000000 = .error .reservedMajor := by decide
theorem test_no_operation : decode 0xC400003F = .error .noOperation := by decide
theorem test_field_not_zero : decode 0xB8200004 = .error .fieldNotZero := by decide
theorem test_bad_lane_word : decode 0xE5050001 = .error .registerOutOfRange := by decide

/-! ### Words written out from the spec decode to their instructions -/

theorem test_words_scalar : (decode 0x04430005, decode 0x20800012, decode 0x28853001, decode 0x80221941) =
    (.ok (.addi 2 3 5), .ok (.lui 4 0x12), .ok (.mul 4 5 6), .ok (.fadd 1 2 3 5 1)) := by decide
theorem test_words_system : (decode 0xC4000001, decode 0xC4000002, decode 0xC4000003, decode 0xC8A00001, decode 0xC805CC09) =
    (.ok (.ecall 0 0 0 0), .ok (.ebreak 0 0 0 0), .ok .tret, .ok (.csrr 5 0x001), .ok (.csrw 5 0xC09)) := by decide
theorem test_words_marks : (decode 0xA00C6801, decode 0xA00C6802, decode 0xA0AC6803) =
    (.ok (.dep 12 13), .ok (.depx 12 13), .ok (.sns4 5 12 13)) := by decide
theorem test_words_mark_reads : (decode 0xA0AC0005, decode 0xA0AC0006, decode 0xA0A00047) =
    (.ok (.snsl 5 12), .ok (.mrd 5 12 0), .ok (.tknum 5 1)) := by decide
theorem test_words_rings : decode 0x9CA13002 = .ok (.rwf 5 1 6) := by decide
theorem test_words_array : (decode 0xA46C0001, decode 0xA42C6802, decode 0xA4AC0003) =
    (.ok (.axsetv 3 12), .ok (.axsets 1 12 13), .ok (.axget 5 12)) := by decide
theorem test_words_array_elements : (decode 0xA40C6804, decode 0xA8400A81, decode 0xA822188A) =
    (.ok (.axtt 12 13), .ok (.axeAdd 2 0 1 10), .ok (.axeCmplt 1 2 3 2)) := by decide
theorem test_words_products : (decode 0xAC000082, decode 0xAC2000A4, decode 0xB02C6901) =
    (.ok (.axmm 0 2 2), .ok (.axgang 1 2 4), .ok (.axmatch 1 12 13 4)) := by decide
theorem test_words_transfers : (decode 0xB0A10002, decode 0xB44C6801, decode 0xB50C6883) =
    (.ok (.axfirst 5 1), .ok (.axld 2 12 13), .ok (.axldg 8 12 13 2)) := by decide
theorem test_words_banks : (decode 0xB80C6801, decode 0xB80C6B83, decode 0xB8000004, decode 0xB8AC0006, decode 0xBC000004) =
    (.ok (.bkload 12 13), .ok (.bkcopy 12 13 14), .ok .bkfence, .ok (.bkmeta 5 12 0 0), .ok .mfence) := by decide
theorem test_words_bau : (decode 0xE0450001, decode 0xE0453003, decode 0xE46112C4) =
    (.ok (.cld 2 5), .ok (.cstM 2 5 6), .ok (.laneFma 3 1 2 11)) := by decide
theorem test_words_bau_lanes : (decode 0xE4C40014, decode 0xE8060001, decode 0xE8070002) =
    (.ok (.lget 6 4 0), .ok (.bdone 6), .ok (.bsig 7)) := by decide
/-! ### The decoder on words as the opcode table numbers them, and the first step after reset -/

theorem test_table_word : decodeTableWord 32 0x04430005 = some (.addi 2 3 5) := by decide
/-- R101's example: LUI g4, 0x12 sets g4 = 0x120000. -/
theorem test_first_step : (match step (State.reset.withFetchWord 32 0x20800012) with
    | .next t => getG (t.ctx 0).regs 4 | _ => 0) = 0x120000 := by decide
/-- BDONE as the first instruction of bank 0 ends its run. -/
theorem test_first_step_bau : (match step (State.reset.withFetchWord 32 0xE8060001) with
    | .next t => ((t.bank 0).run.bind (·.ended)).isSome | _ => false) = true := by decide

/-! ### Witnesses: for every statement, concrete states and operands that meet its hypotheses, clause by clause -/

theorem issuesOf {s : State} {c : Nat} (h : s.cur = .hart c ∧ (s.ctx c).regs.pc ≠ 0x01FFFFFFFFFFFFFC ∧ (s.ctx c).armed = none ∧
    (s.ctx c).solo = false) : HartIssues s c := ⟨h.1, h.2.1, h.2.2.1, h.2.2.2⟩
theorem aloneOf {s : State} {c : Nat} (h : s.cur = .hart c ∧ (s.ctx c).regs.pc ≠ 0x01FFFFFFFFFFFFFC ∧ (s.ctx c).armed = none ∧
    (s.ctx c).solo = false ∧ (s.ctx c).chunk = none) : HartAlone s c := ⟨⟨h.1, h.2.1, h.2.2.1, h.2.2.2.1⟩, h.2.2.2.2⟩
theorem bauOf {s : State} {g : Nat} (h : s.cur = .bau g ∧ (s.bank g).pc ≠ 0xFFC) : BauIssues s g := ⟨h.1, h.2⟩
theorem reachOf {s : State} {c : Nat} {ea : W64} {n : Nat} {need : Need} (h : ea.getLsbD 63 = false ∧ ea.toNat % n = 0 ∧
    localOk s (s.ctx c) ea.toNat n need = true ∧ localBusy s c ea.toNat n = false) : Reaches s c ea n need :=
  ⟨h.1, h.2.1, h.2.2.1, h.2.2.2⟩
theorem liveOf {s : State} {c : Nat} (h : (s.ctx c).resident = true ∧ (s.ctx c).halted = false ∧ (s.ctx c).exited = none ∧
    (s.ctx c).eng.posted = none ∧ (s.part (s.ctx c).part).stopped = false ∧ (s.part (s.ctx c).part).stop = none) : Live s c :=
  ⟨h.1, h.2.1, h.2.2.1, h.2.2.2.1, h.2.2.2.2.1, fun _ e => by rw [h.2.2.2.2.2] at e; cases e⟩

/-- A hart with the last virtual instruction address. -/
def lastHart : State := hartBy (fun h => { h with regs := { h.regs with pc := 0x01FFFFFFFFFFFFFC } }) (hart [])

theorem wit_IntegerAluResults : HartIssues (hart [(2, 5)]) 0 ∧
    aluResult 64 (getG ((hart [(2, 5)]).ctx 0).regs) (getG ((hart [(2, 5)]).ctx 0).regs) (.add 1 2 3) = some (1, 5) ∧
    wordResult (getG ((hart [(2, 5)]).ctx 0).regs) (.sextw 1 2) = some (1, 5) :=
  ⟨issuesOf (by decide), by decide, by decide⟩
theorem wit_IntegerImmediateResults : HartIssues (hart []) 0 ∧
    immResult 64 ((hart []).ctx 0).regs.pc (getG ((hart []).ctx 0).regs) (.aupc 1 1) = some (1, 0x11000) := ⟨issuesOf (by decide), by decide⟩
theorem wit_MultiplyDivideResults : HartIssues (hart [(2, 5)]) 0 ∧
    mulResult 64 (getG ((hart [(2, 5)]).ctx 0).regs) (.divu 1 2 3) = some (1, 0xFFFFFFFFFFFFFFFF) ∧
    mulWordResult (getG ((hart [(2, 5)]).ctx 0).regs) (.remw 1 2 3) = some (1, 5) := ⟨issuesOf (by decide), by decide, by decide⟩
/-- At the last address a jump back is taken. -/
theorem wit_ControlTransfers : (lastHart.cur = .hart 0 ∧ (lastHart.ctx 0).armed = none ∧ (lastHart.ctx 0).solo = false ∧
      transferOf 64 (lastHart.ctx 0).regs.pc (getG (lastHart.ctx 0).regs) (.jal 1 0x1FFFFF) = some (1, 0x01FFFFFFFFFFFFF8) ∧
      virtual 0x01FFFFFFFFFFFFF8 = true) ∧
    (transferOf 64 ((hart []).ctx 0).regs.pc (getG ((hart []).ctx 0).regs) (.jalr 1 0 8) = some (1, 8) ∧ virtual 8 = true ∧ 8 % 4 = 0) ∧
    HartIssues (hart []) 0 ∧ branchOf 64 (getG ((hart []).ctx 0).regs) (.bne 0 0 4) = some (false, 4) :=
  ⟨by decide, by decide, issuesOf (by decide), by decide⟩
theorem wit_ControlTargetTraps : lastHart.cur = .hart 0 ∧
    (transferOf 64 (lastHart.ctx 0).regs.pc (getG (lastHart.ctx 0).regs) (.jal 1 1) = some (1, 0x0200000000000000) ∧
      virtual 0x0200000000000000 = false) ∧
    transferOf 64 (lastHart.ctx 0).regs.pc (getG (lastHart.ctx 0).regs) (.jalr 1 0 2) = some (1, 2) ∧ 2 % 4 ≠ 0 := by decide
theorem wit_BauIntegerResults : BauIssues (bau 0) 0 ∧ (bauFields (.add 1 15 3)).all (fun r => decide (r.toNat < 16)) = true ∧
    aluResult 32 (getBG ((bau 0).bank 0)) (getBG ((bau 0).bank 0)) (.add 1 15 3) = some (1, 0) ∧
    bauAmount (.slli 1 2 31) = true ∧ immResult 32 0 (getBG ((bau 0).bank 0)) (.slli 1 2 31) = some (1, 0) ∧
    mulResult 32 (getBG ((bau 0).bank 0)) (.mul 1 2 3) = some (1, 0) :=
  ⟨bauOf (by decide), by decide, by decide, by decide, by decide, by decide⟩
theorem wit_BauLastAddressEnds : (bau 0xFFC).cur = .bau 0 ∧ ((bau 0xFFC).bank 0).pc = 0xFFC ∧
    (bauFields (.add 1 2 3)).all (fun r => decide (r.toNat < 16)) = true ∧ bauAmount (.add 1 2 3) = true ∧
    aluResult 32 (getBG ((bau 0xFFC).bank 0)) (getBG ((bau 0xFFC).bank 0)) (.add 1 2 3) = some (1, 0) := by decide
theorem wit_BauControlTransfers : BauIssues (bau 0) 0 ∧
    (bauFields (.jalr 1 2 0xFFC)).all (fun r => decide (r.toNat < 16)) = true ∧
    transferOf 32 0 (getBG ((bau 0).bank 0)) (.jalr 1 2 0xFFC) = some (1, 0xFFC) ∧
    transferOf 32 0 (getBG ((bau 0).bank 0)) (.jalr 1 2 0x1000) = some (1, 0x1000) ∧
    branchOf 32 (getBG ((bau 0).bank 0)) (.bne 1 2 4) = some (false, 4) :=
  ⟨bauOf (by decide), by decide, by decide, by decide, by decide⟩

/-! Floating point, loads and stores -/

theorem wit_FloatResults : HartIssues (hart []) 0 ∧ (fpResult ((hart []).ctx 0).regs (.fadd 1 2 3 5 1)).isSome = true ∧
    Mode ((hart []).ctx 0).regs 5 5 ∧ Mode ((hart []).ctx 0).regs 0 1 :=
  ⟨issuesOf (by decide), by decide, by unfold Mode; decide, by unfold Mode; decide⟩
/-- 1 + 1, 1 × 1 and their exact results, in F64: +1 is an integer of every range and its own square root. -/
def ones : State := hartBy (fun h => { h with regs := { h.regs with f := [(1, { bits := 0x3FF0000000000000, k := false })] } }) (hart [(1, 1)])
theorem wit_FloatArithmetic : HartIssues ones 0 ∧ Mode (ones.ctx 0).regs 5 5 ∧ ratOf (value 0 (ones.ctx 0).regs 1) = some 1 ∧
    ratOf (value 0 (ones.ctx 0).regs 2) = some 0 ∧ Represents (ft 0) (1 + 0) ∧ (1 : ℚ) * 1 = 1 ∧ (getG (ones.ctx 0).regs 1).toInt = 1 := by
  have h (x : ℚ) (v : FVal) (e : v = .fin false (2 ^ 52) (-52)) (hx : x = 1) : ratOf v = some x := by
    subst e hx; simp only [ratOf]; norm_num
  refine ⟨issuesOf (by decide), by unfold Mode; decide, h _ _ (by decide) rfl, ?_, ⟨0x3FF0000000000000, by decide, h _ _ (by decide) (by norm_num)⟩,
    by norm_num, by decide⟩
  have e : value 0 (ones.ctx 0).regs 2 = .fin false 0 (-1074) := by decide
  rw [e]; simp [ratOf]
theorem wit_FloatIllegalModes : (hart []).cur = .hart 0 ∧ (fpResult ((hart []).ctx 0).regs (.fadd 1 2 3 6 1)).isSome = true ∧
    encode (.fadd 1 2 3 6 1) = some 0x80221981 ∧ ∀ q, ¬Mode ((hart []).ctx 0).regs 6 q :=
  ⟨by decide, by decide, by decide, fun _ h => absurd (h.2.2 ▸ h.2.1) (by decide)⟩
/-- The smallest subnormal of F32 and the largest E5M2. -/
theorem wit_RepresentableIsExact : finiteValue (fmtOf 9) 1 false 1 (-149) ∧ 1 < 2 ^ (fmtOf 9).width ∧ ∃ m e, finiteValue (fmtOf 13) 0x7B false m e :=
  ⟨by unfold finiteValue; decide, by decide, 7, 13, by unfold finiteValue; decide⟩
theorem wit_LocalLoads : HartIssues (hart [(2, 0x7FF8)]) 0 ∧ loadForm (.ldd 1 2 0) = some (8, false, 1, 2, 0) ∧
    Reaches (hart [(2, 0x7FF8)]) 0 0x7FF8 8 { rd := true } := ⟨issuesOf (by decide), by decide, reachOf (by decide)⟩
theorem wit_LocalStores : HartIssues (hart [(2, 0x7FFC)]) 0 ∧ storeForm (.stw 1 2 0) = some (4, 1, 2, 0) ∧
    Reaches (hart [(2, 0x7FFC)]) 0 0x7FFC 4 { w := true } ∧ lockedByte ((hart [(2, 0x7FFC)]).ctx 0) 0x7FFC 4 = none :=
  ⟨issuesOf (by decide), by decide, reachOf (by decide), by decide⟩
theorem wit_TypedLoadsAndStores : HartIssues (hart []) 0 ∧ bits ((hart []).ctx 0).regs.fstat 6 3 = 1 ∧
    Reaches (hart []) 0 0 8 { rd := true } ∧ Reaches (hart []) 0 1 1 { w := true } ∧ lockedByte ((hart []).ctx 0) 1 1 = none ∧
    fmtWidth 0x8 / 8 = 8 ∧ fmtWidth 0xD / 8 = 1 :=
  ⟨issuesOf (by decide), by decide, reachOf (by decide), reachOf (by decide), by decide, by decide, by decide⟩
/-- A published slot of a ring at address 0. -/
def ringed (feed : Bool) (tail : Nat) : Engines :=
  { rings := [(1, { valid := true, base := 0, slotb := 64, nslot := 4, feed := feed, head := 0, tail := tail })] }
theorem wit_LoadStoreTraps : (hart []).cur = .hart 0 ∧ ((hart []).ctx 0).regs.pc ≠ 0x01FFFFFFFFFFFFFC ∧
    loadForm (.ldw 1 0 2) = some (4, true, 1, 0, 2) ∧ 2 % 4 ≠ 0 ∧
    localOk (hart []) ((hart []).ctx 0) 0x8000 8 { rd := true } = false ∧
    (localOk (hart [] (ringed false 1)) ((hart [] (ringed false 1)).ctx 0) 0 8 { w := true } = true ∧
      lockedByte ((hart [] (ringed false 1)).ctx 0) 56 8 ≠ none) ∧
    far.toNat % 8 = 0 ∧ far.getLsbD 63 = true ∧ senderCheck (hart []) ((hart []).ctx 0) far false false = .fail := by decide
theorem wit_TypedAccessTraps : (hart []).cur = .hart 0 ∧ ((hart []).ctx 0).regs.pc ≠ 0x01FFFFFFFFFFFFFC ∧ (encode (.ldf 1 2 3 0)).isSome = true ∧
    bits ((hart []).ctx 0).regs.fstat 6 3 = 1 ∧ (9 : BitVec 4).toNat < 0xE ∧ 2 % (fmtWidth 9 / 8) ≠ 0 ∧ localOk (hart []) ((hart []).ctx 0) 0x8000 8 { w := true } = false ∧
    (localOk (hart [] (ringed false 1)) ((hart [] (ringed false 1)).ctx 0) 0 8 { w := true } = true ∧
      lockedByte ((hart [] (ringed false 1)).ctx 0) 56 8 ≠ none) ∧
    far.toNat % 8 = 0 ∧ far.getLsbD 63 = true ∧ ((hart []).ctx 0).chunk = none ∧ senderCheck (hart []) ((hart []).ctx 0) far true false = .fail := by decide
theorem wit_LastAddressTraps : lastHart.cur = .hart 0 ∧ (lastHart.ctx 0).regs.pc = 0x01FFFFFFFFFFFFFC ∧
    (aluResult 64 (getG (lastHart.ctx 0).regs) (getG (lastHart.ctx 0).regs) (.add 1 2 3)).isSome = true ∧
    branchOf 64 (getG (lastHart.ctx 0).regs) (.bne 0 0 4) = some (false, 4) ∧ (loadForm (.ldb 1 2 0)).isSome = true ∧
    (storeForm (.stb 1 2 0)).isSome = true := by decide
/-- The last word of data memory, the first byte behind it, and a misaligned address. -/
theorem wit_BauLoadsAndStores : BauIssues (bau 0) 0 ∧ loadForm (.ldw 1 2 0x3FC) = some (4, true, 1, 2, 0x3FC) ∧
    storeForm (.stw 1 2 0x400) = some (4, 1, 2, 0x400) ∧ storeForm (.sth 1 2 0x401) = some (2, 1, 2, 0x401) ∧
    (getBG ((bau 0).bank 0) 2 + (0x3FC : BitVec 16).signExtend 32).toNat = 0x3FC := ⟨bauOf (by decide), by decide, by decide, by decide, by decide⟩

/-! Full/empty bits, fences, atomics, remote accesses, barriers -/

/-- Word 8 of the scratchpad is full. -/
def filled (s : State) : State := { s with fe := [(sramKey 0 8 / 8, true)] }
/-- A hart that waits for word 8. -/
def waiter : State := filled (hart [] {} (.lds 5 8 true 0))

theorem wit_FullEmptyForms : HartAlone (filled (hart [(2, 8)])) 0 ∧ Reaches (filled (hart [(2, 8)])) 0 8 8 { rd := true } ∧
    tget (filled (hart [(2, 8)])).fe (keyOf (filled (hart [(2, 8)])) 0 8 / 8) false = true ∧
    Reaches (hart []) 0 8 8 { w := true } ∧ lockedByte ((hart []).ctx 0) 8 8 = none ∧
    localOk (hart []) ((hart []).ctx 0) 0x7FF8 8 { rd := true, w := true } = true ∧ arrayBusy ((hart []).ctx 0) 0x7FF8 8 = false ∧
    lockedByte ((hart []).ctx 0) 0x7FF8 8 = none ∧ localOk (hart []) ((hart []).ctx 0) 0x7E00 512 { rd := true, w := true } = true :=
  ⟨aloneOf (by decide), reachOf (by decide), by decide, reachOf (by decide), by decide, by decide, by decide, by decide, by decide⟩
theorem wit_LdsWaitEnds : Canonical waiter ∧ (waiter.ctx 0).wait = .lds 5 8 true 0 ∧ Live waiter 0 ∧ (waiter.ctx 0).armed = none ∧
    (tget waiter.fe (localKey (waiter.ctx 0).gcn 8 / 8) false = true ∧ localBusy waiter 0 8 8 = false) ∧
    ∀ x, x ≠ 0 → (waiter.ctx x).resident = true → False := by
  refine ⟨⟨by decide, by decide⟩, by decide, liveOf (by decide), by decide, by decide, fun x hx h => ?_⟩
  have e : waiter.ctx x = {} := by
    show tget waiter.ctxs x {} = _
    simp [waiter, filled, hart, tget, Ne.symm hx]
  rw [e] at h; exact absurd h (by decide)
/-- A hart with an unacknowledged store to cluster 1. -/
def storing (w : Wait) : State := hartBy (fun h => { h with outst := [{ id := 7, target := 1 }], part := 0 }) (hart [] {} w)
/-- A global, a misaligned, an unreachable and a locked address for the forms that stay local, LDA, STL and atomics; a write that a release covers under way. -/
def awaited : State :=
  { duo (hart [(2, 0x40000)]) with
    net := [{ id := 1, cid := 9, part := 0, addr := 0, pcn := 0, ofs := 0x40000, body := .store (List.replicate 8 1), cover := [{ scope := 4, cycle := 0, hart := 9 }] }] }
theorem wit_SyncTraps : HartAlone (hart [(2, far), (3, 0x8000), (4, 4)]) 0 ∧
    wordForm ((hart [(2, far), (3, 0x8000), (4, 4)]).ctx 0).regs (.fefill 3 4) = some (3, 4, { rd := true, w := true }, true) ∧
    far.getLsbD 63 = true ∧ (4 : W64).toNat % 8 ≠ 0 ∧ (0x8000 : W64).toNat % 8 = 0 ∧ localOk (hart []) ((hart []).ctx 0) 0x8000 8 { rd := true } = false ∧
    (HartAlone awaited 0 ∧ localOk awaited (awaited.ctx 0) 0x40000 8 { rd := true } = true ∧ localBusy awaited 0 0x40000 8 = true) ∧
    (let s := hart [] (ringed false 1)
     HartAlone s 0 ∧ localOk s (s.ctx 0) 56 8 { rd := true, w := true } = true ∧ localBusy s 0 56 8 = false ∧ lockedByte (s.ctx 0) 56 8 = some 56) ∧
    (far.toNat % 8 = 0 ∧ senderCheck (hart []) ((hart []).ctx 0) far true false = .fail) ∧ atomicForm (.amoFaddF32 1 2 3 0 0) = some (4, 1, 2, 3, 0, 0) :=
  ⟨aloneOf (by decide), by decide, by decide, by decide, by decide, by decide, ⟨aloneOf (by decide), by decide, by decide⟩,
    ⟨aloneOf (by decide), by decide, by decide, by decide⟩, by decide, by decide⟩
theorem wit_AcquireRelease : HartAlone (hart []) 0 ∧ (4 : R5).toNat ≤ 4 ∧ Reaches (hart []) 0 0 8 { rd := true } ∧
    Reaches (hart []) 0 0 8 { w := true } ∧ lockedByte ((hart []).ctx 0) 0 8 = none ∧ pendingIn ((hart []).ctx 0) 4 false = false ∧
    pendingIn ((storing .none).ctx 0) 3 false = true ∧
    (((hart [] {} (.stl 8 1 3)).ctx 0).wait = .stl 8 1 3 ∧ Live (hart [] {} (.stl 8 1 3)) 0 ∧
      pendingIn ((hart [] {} (.stl 8 1 3)).ctx 0) 3 false = false) ∧
    (4 < (5 : R5).toNat ∧ (encode (.lda 1 2 5)).isSome = true ∧ (encode (.stl 1 2 5)).isSome = true) :=
  ⟨aloneOf (by decide), by decide, reachOf (by decide), reachOf (by decide), by decide, by decide, by decide,
    ⟨by decide, liveOf (by decide), by decide⟩, by decide⟩
theorem wit_Fences : HartAlone (storing .none) 0 ∧ fenceForm (.fence 0 0 0 3) = some (3, .full) ∧ fenceForm (.fenceAcq 0 0 0 3) = some (3, .acq) ∧
    fenceForm (.fenceRel 0 0 0 0) = some (0, .rel) ∧ (3 : R5).toNat ≤ 4 ∧
    pendingIn ((storing .none).ctx 0) 3 (decide (FenceKind.full = .acq)) = true ∧
    pendingIn ((storing .none).ctx 0) 3 (decide (FenceKind.acq = .acq)) = false ∧
    (((hart [] {} (.fence 3 .full)).ctx 0).wait = .fence 3 .full ∧ Live (hart [] {} (.fence 3 .full)) 0 ∧
      ((hart [] {} (.fence 3 .full)).ctx 0).armed = none ∧
      pendingIn ((hart [] {} (.fence 3 .full)).ctx 0) 3 (decide (FenceKind.full = .acq)) = false) :=
  ⟨aloneOf (by decide), by decide, by decide, by decide, by decide, by decide, by decide, by decide, liveOf (by decide), by decide, by decide⟩
theorem wit_LocalAtomics : HartAlone (hart []) 0 ∧ atomicForm (.amoCas 1 2 3 1 3) = some (8, 1, 2, 3, 1, 3) ∧
    Reaches (hart []) 0 0 8 { rd := true, w := true } ∧ lockedByte ((hart []).ctx 0) 0 8 = none ∧
    pendingIn ((hart []).ctx 0) 4 false = false ∧ atomicForm (.amoFaddF32 1 2 3 0 0) = some (4, 1, 2, 3, 0, 0) :=
  ⟨aloneOf (by decide), by decide, reachOf (by decide), by decide, by decide, by decide⟩

/-- A hart with `far` in g2, in a partition of two clusters. -/
def reacher : State := duo (hart [(2, far), (3, far + 0x40000)])
theorem unorderedOf {s : State} {c : Nat} (h : onTheWay s c = []) (q o n : Nat) : Unordered s c q o n := by
  simp [Unordered, Quiet, h]
theorem reacher_quiet : Fresh reacher ∧ Quiet reacher 0 ∧ Live reacher 0 ∧ HartAlone reacher 0 ∧ Canonical reacher :=
  ⟨by unfold Fresh; decide, by unfold Quiet; decide, liveOf (by decide), aloneOf (by decide), by decide, by decide⟩
theorem wit_RemoteLoads : HartAlone reacher 0 ∧ Live reacher 0 ∧ Fresh reacher ∧ Unordered reacher 0 1 0x40000 8 ∧
    loadForm (.ldd 1 2 0) = some (8, false, 1, 2, 0) ∧ getG (reacher.ctx 0).regs 2 = far ∧ far.getLsbD 63 = true ∧ far.toNat % 8 = 0 ∧
    senderCheck reacher (reacher.ctx 0) far false false = .ok 1 none ∧ receive (reacher.cluster 1) (bits far 0 21) 8 0 = some 0x40000 :=
  ⟨reacher_quiet.2.2.2.1, reacher_quiet.2.2.1, reacher_quiet.1, unorderedOf (by decide) _ _ _, by decide⟩
theorem wit_RemoteStores : Canonical reacher ∧ HartAlone reacher 0 ∧ Fresh reacher ∧ Unordered reacher 0 1 0x40000 8 ∧
    storeForm (.std 1 2 0) = some (8, 1, 2, 0) ∧ senderCheck reacher (reacher.ctx 0) far true false = .ok 1 none ∧
    receive (reacher.cluster 1) (bits far 0 21) 8 1 = some 0x40000 ∧ remoteLocked reacher 1 0x40000 8 = false ∧
    (reacher.ctx 0).outst = [] ∧ reacher.nextId ∉ (reacher.ctx 0).scAcq :=
  ⟨reacher_quiet.2.2.2.2, reacher_quiet.2.2.2.1, reacher_quiet.1, unorderedOf (by decide) _ _ _, by decide⟩
/-- An address of cluster 1 that the receiver rejects. -/
theorem wit_RemoteRejections : HartAlone reacher 0 ∧ Live reacher 0 ∧ Fresh reacher ∧ Quiet reacher 0 ∧
    loadForm (.ldd 1 3 0) = some (8, false, 1, 3, 0) ∧ storeForm (.std 1 3 0) = some (8, 1, 3, 0) ∧
    senderCheck reacher (reacher.ctx 0) (far + 0x40000) false false = .ok 1 none ∧
    senderCheck reacher (reacher.ctx 0) (far + 0x40000) true false = .ok 1 none ∧
    receive (reacher.cluster 1) (bits (far + 0x40000) 0 21) 8 0 = none ∧
    receive (reacher.cluster 1) (bits (far + 0x40000) 0 21) 8 1 = none ∧ (reacher.ctx 0).outst = [] :=
  ⟨reacher_quiet.2.2.2.1, reacher_quiet.2.2.1, reacher_quiet.1, reacher_quiet.2.1, by decide⟩
theorem wit_RemoteAtomics : Canonical reacher ∧ HartAlone reacher 0 ∧ Live reacher 0 ∧ Fresh reacher ∧ Unordered reacher 0 1 0x40000 8 ∧
    atomicForm (.amoAdd 0 2 3 0 0) = some (8, 0, 2, 3, 0, 0) ∧ senderCheck reacher (reacher.ctx 0) far true false = .ok 1 none ∧
    receive (reacher.cluster 1) (bits far 0 21) 8 2 = some 0x40000 ∧ remoteLocked reacher 1 0x40000 8 = false ∧ (reacher.ctx 0).outst = [] :=
  ⟨reacher_quiet.2.2.2.2, reacher_quiet.2.2.2.1, reacher_quiet.2.2.1, reacher_quiet.1, unorderedOf (by decide) _ _ _, by decide⟩

/-- A barrier object 3 of generation 9 for two arrivals, and a hart that has its handle in g2 and the handle before it in g3. -/
def barred (arrived : Nat) (w : Wait) : State :=
  { hart [(2, 0x3009), (3, 0x3008), (4, 1)] {} w .s with
    parts := [(0, { live := true, barriers := [(3, { live := true, count := 2, arrived := arrived, gen := 9, used := true })] })] }
theorem wit_BarrierRequests : HartAlone (barred 1 .none) 0 ∧ pendingIn ((barred 1 .none).ctx 0) 3 false = false ∧
    ((barred 1 .none).ctx 0).priv ≠ .u ∧ HartAlone (storing .none) 0 ∧ pendingIn ((storing .none).ctx 0) 3 false = true :=
  ⟨aloneOf (by decide), by decide, by decide, aloneOf (by decide), by decide⟩
theorem wit_BarrierArrivals : HartAlone (barred 1 .none) 0 ∧ Live (barred 1 .none) 0 ∧ Fresh (barred 1 .none) ∧
    pendingIn ((barred 1 .none).ctx 0) 3 false = false ∧ (tget ((barred 1 .none).part 0).barriers 3 {}).live = true ∧
    (tget ((barred 1 .none).part 0).barriers 3 {}).gen = 9 ∧ (getG ((barred 1 .none).ctx 0).regs 2).toNat = 3 * 4096 + 9 :=
  ⟨aloneOf (by decide), liveOf (by decide), by unfold Fresh; decide, by decide⟩
theorem wit_BarrierMakeAndFree : HartAlone (barred 0 .none) 0 ∧ Live (barred 0 .none) 0 ∧ Fresh (barred 0 .none) ∧
    ((barred 0 .none).ctx 0).priv ≠ .u ∧ 1 ≤ bits (getG ((barred 0 .none).ctx 0).regs 4) 0 16 ∧
    (tget ((barred 0 .none).part 0).barriers 0 {}).live = false ∧ (tget ((barred 0 .none).part 0).barriers 0 {}).used = false ∧
    (tget ((barred 0 .none).part 0).barriers 3 {}).arrived = 0 ∧ (tget ((barred 1 .none).part 0).barriers 3 {}).arrived ≠ 0 :=
  ⟨aloneOf (by decide), liveOf (by decide), by unfold Fresh; decide, by decide⟩
theorem wit_StaleBarriers : HartAlone (barred 1 .none) 0 ∧ Live (barred 1 .none) 0 ∧ Fresh (barred 1 .none) ∧
    ((barred 1 .none).ctx 0).priv ≠ .u ∧ pendingIn ((barred 1 .none).ctx 0) 3 false = false ∧
    (tget ((barred 1 .none).part 0).barriers 0 {}).live = false ∧
    (tget ((barred 1 .none).part 0).barriers 3 {}).gen ≠ 8 :=
  ⟨aloneOf (by decide), liveOf (by decide), by unfold Fresh; decide, by decide⟩
/-- Two members of a gang that both wait in GBAR. -/
def gbarGang : State :=
  { ctxs := [(0, { resident := true, wait := .gbar, task := some 5 }), (1, { resident := true, wait := .gbar, task := some 5, gcn := 1 })] ++
      [(2, { task := some 5, exited := some 0 })]
    tasks := [(5, { members := [0, 1, 2] })] }
/-- A hart with an unacknowledged store to its own cluster by a global address. -/
def homing : State := hartBy (fun h => { h with outst := [{ id := 7, target := 0 }] }) (hart [])
theorem wit_BarrierWaits : HartAlone (barred 1 .none) 0 ∧
    ((tget ((barred 1 .none).part 0).barriers 3 {}).live = true ∧ (tget ((barred 1 .none).part 0).barriers 3 {}).gen = 9 ∧
      (tget ((barred 1 .none).part 0).barriers 3 {}).gen = (10 + 4095) % 4096) ∧
    (((barred 1 (.bwait 0x3009)).ctx 0).wait = .bwait 0x3009 ∧ Live (barred 1 (.bwait 0x3009)) 0 ∧ 9 ≠ (0x3009 % 4096 + 4095) % 4096) ∧
    (HartAlone (hart []) 0 ∧ pendingIn ((hart []).ctx 0) 1 false = false ∧ gang (hart []) 0 = [0]) ∧
    (HartAlone { gbarGang with cur := .hart 0 } 0 ∧ gang { gbarGang with cur := .hart 0 } 0 ≠ [0]) ∧
    (HartAlone homing 0 ∧ pendingIn (homing.ctx 0) 1 false = true) ∧
    ((gbarGang.task 5).members.filter fun x => (gbarGang.ctx x).exited.isNone) = [0, 1] ∧
    ∀ m ∈ [0, 1], (gbarGang.ctx m).wait = .gbar ∧ Live gbarGang m ∧ (gbarGang.ctx m).armed = none :=
  ⟨aloneOf (by decide), by decide, ⟨by decide, liveOf (by decide), by decide⟩, ⟨aloneOf (by decide), by decide, by decide⟩,
    ⟨aloneOf (by decide), by decide⟩, ⟨aloneOf (by decide), by decide⟩, by decide, fun m h => by
      rcases List.mem_cons.1 h with rfl | h
      · exact ⟨by decide, liveOf (by decide), by decide⟩
      · rcases List.mem_cons.1 h with rfl | h
        · exact ⟨by decide, liveOf (by decide), by decide⟩
        · cases h⟩

/-! Traps, control registers, interrupts, chunks, tasks -/

/-- A hart of privilege `p` with trap registers of S and M. -/
def trapping (p : Priv) (ts tm : TrapRegs) : State := hartBy (fun h => { h with ts := ts, tm := tm }) (hart [] {} .none p)
theorem wit_TrapEntry : ((trapping .u {} {}).ctx 0).chunk = none ∧ 63 < 64 ∧
    (trapRegs ((trapping .u {} {}).ctx 0) (levelOf ((trapping .u {} {}).ctx 0) false 63)).tstat.getLsbD 4 = false := by decide
/-- SOFT (code 1) goes to S, which is in a trap. -/
theorem wit_DoubleTrapAndHalt : ((trapping .u { tstat := 16 } {}).ctx 0).chunk = none ∧
    (levelOf ((trapping .u { tstat := 16 } {}).ctx 0) true 1 = .s ∧ ((trapping .u { tstat := 16 } {}).ctx 0).ts.tstat.getLsbD 4 = true ∧
      ((trapping .u { tstat := 16 } {}).ctx 0).tm.tstat.getLsbD 4 = false) ∧
    ((trapping .u {} { tstat := 16 }).ctx 0).tm.tstat.getLsbD 4 = true ∧ levelOf ((trapping .u {} { tstat := 16 }).ctx 0) false 1 = .m := by
  decide
theorem wit_CallsAndBreakpoints : HartAlone (hart []) 0 := aloneOf (by decide)
theorem wit_TrapReturn : HartAlone (trapping .s { tstat := 0x12 } {}) 0 ∧
    (((trapping .s { tstat := 0x12 } {}).ctx 0).priv ≠ .u ∧ ((trapping .s { tstat := 0x12 } {}).ctx 0).ts.tstat.getLsbD 4 = true ∧
      bits ((trapping .s { tstat := 0x12 } {}).ctx 0).ts.tstat 6 58 = 0 ∧ bits ((trapping .s { tstat := 0x12 } {}).ctx 0).ts.tstat 2 2 ≤ 1) ∧
    HartAlone (trapping .s { tstat := 0x18 } {}) 0 ∧ bits ((trapping .s { tstat := 0x18 } {}).ctx 0).ts.tstat 2 2 = 2 :=
  ⟨aloneOf (by decide), by decide, aloneOf (by decide), by decide⟩
theorem wit_SingleStep : let s := hartBy (fun h => { h with armed := some .s }) (hart [])
    s.cur = .hart 0 ∧ (s.ctx 0).regs.pc ≠ 0x01FFFFFFFFFFFFFC ∧ (s.ctx 0).armed = some .s ∧ (s.ctx 0).solo = false ∧ (s.ctx 0).chunk = none ∧
      (trapRegs (s.ctx 0) .s).tstat.getLsbD 4 = false := by decide
/-- A hart in S whose SOFT interrupt is unmasked and pending, or not. -/
def softly (b : Bool) (w : Wait) : State := hartBy (fun h => { h with csr := { h.csr with imask := 2, soft := b } }) (hart [] {} w .s)
theorem wit_WaitForInterrupt : HartAlone (softly true .none) 0 ∧ ((softly true .none).ctx 0).priv ≠ .u ∧
    (((softly true .none).ctx 0).csr.imask.getLsbD 1 = true ∧ ((softly true .none).ctx 0).csr.soft = true) ∧ HartAlone (softly false .none) 0 ∧
    (((softly false .none).ctx 0).csr.event = false ∧ ((softly false .none).ctx 0).csr.imask.getLsbD 0 = false ∧
      ((softly false .none).ctx 0).csr.soft = false) ∧
    ((softly true .wfi).ctx 0).wait = .wfi ∧ Live (softly true .wfi) 0 ∧ ((softly true .wfi).ctx 0).armed = none :=
  ⟨aloneOf (by decide), by decide, by decide, aloneOf (by decide), by decide, by decide, liveOf (by decide), by decide⟩
/-- A hart in M mode that writes MSIZE or FRESUME, alone in its cluster or not, with or without a suspended part 3. -/
def writer (other : List (Nat × Ctx)) (susp : List Susp) : State :=
  { hart [(2, 0x8000000000000003)] {} .none .m with
    ctxs := (hart [(2, 0x8000000000000003)] {} .none .m).ctxs ++ other, parts := [(0, { live := true, susp := susp })] }
theorem wit_CsrMsizeAndFresume : (HartAlone (writer [] []) 0 ∧ ((writer [] []).ctx 0).priv = .m ∧
      (∀ x ∈ (writer [] []).ctxs, x.2.resident = true → x.2.gcn / 8 = 0 → x.2.gcn ≠ 0 → x.2.task = none)) ∧
    (HartAlone (writer [(1, { gcn := 1, resident := true, task := some 5 })] []) 0 ∧
      ¬∀ x ∈ (writer [(1, { gcn := 1, resident := true, task := some 5 })] []).ctxs,
        x.2.resident = true → x.2.gcn / 8 = 0 → x.2.gcn ≠ 0 → x.2.task = none) ∧
    ((csrForm ((writer [] []).ctx 0).regs (.csrw 2 0xC07)).isSome = true ∧ (csrForm ((writer [] []).ctx 0).regs (.csrw 2 0xC09)).isSome = true) ∧
    (∃ u ∈ ((writer [] [{ fid := 3, cid := 0, eid := 1, kind := 1, off := 0, time := 0 }]).part 0).susp, u.fid = bits (getG ((writer [] []).ctx 0).regs 2) 0 16) ∧
    ((writer [] [{ fid := 3, cid := 0, eid := 1, kind := 1, off := 0, time := 0 }]).part 0).fresume = [] ∧
    (¬∃ u ∈ ((writer [] []).part 0).susp, u.fid = bits (getG ((writer [] []).ctx 0).regs 2) 0 16) ∧
    bits (getG ((writer [] []).ctx 0).regs 2) 62 2 ≠ 3 ∧ pendingIn ((writer [] []).ctx 0) 3 false = false :=
  ⟨⟨aloneOf (by decide), by decide⟩, ⟨aloneOf (by decide), by decide⟩, by decide⟩
theorem wit_CsrInstructions : HartAlone (hart []) 0 ∧ (csrForm ((hart []).ctx 0).regs (.csrr 5 0x001)).isSome = true ∧
    csrLegal .u 0x001 true ∧ csrLegal .s 0x401 true ∧ csrLegal .m 0xC01 true :=
  ⟨aloneOf (by decide), by decide, ⟨false, by decide, by decide, by decide⟩, ⟨false, by decide, by decide, by decide⟩,
    ⟨false, by decide, by decide, by decide⟩⟩
/-- FSTAT is a register of U; TSTAT_S (0x402) is none of U, and 0x3FF is not assigned. -/
theorem wit_PrivilegeChecks : (hart []).cur = .hart 0 ∧ ¬csrLegal .u 0x402 false ∧ ¬csrLegal .m 0x3FF false ∧
    (encode (.csrr 5 0x402)).isSome = true ∧ (needsS .tret = true ∧ ((hart []).ctx 0).priv = .u) ∧
    (((hart [] {} .none .s).ctx 0).priv ≠ .m ∧ (encode (.stopat 1 2 3)).isSome = true) ∧ 3 ≤ (3 : R5).toNat ∧
    (encode (.tlbinv 1 2 3)).isSome = true ∧ 8 ≤ (8 : R5).toNat ∧ (encode (.protset 1 8)).isSome = true :=
  ⟨by decide, fun ⟨_, _, h, _⟩ => absurd h (by decide), fun ⟨_, h, _⟩ => (nomatch (show (none : Option Bool) = some _ from h)), by decide⟩
theorem wit_IllegalByUnit : (bau 0).cur = .bau 0 ∧ (encode (.fadd 1 2 3 5 1) = some 0x80221941 ∧ (fMaj 0x80221941).toNat = 0x20) ∧
    (coreForm (.ldd 1 2 0) = true ∧ (encode (.ldd 1 2 0)).isSome = true) ∧ (bauAmount (.slli 1 2 32) = false ∧ (encode (.slli 1 2 32)).isSome = true) ∧
    ((bauFields (.add 16 0 0)).any (fun r => decide (16 ≤ r.toNat)) = true ∧ (encode (.add 16 0 0)).isSome = true) ∧
    (encode (.bdone 6) = some 0xE8060001 ∧ 0x38 ≤ (fMaj 0xE8060001).toNat) ∧ decode 0 = .error .noOperation := by decide
/-- A partition with one cluster and a page in its TLB. -/
def paged (l : Tbl W64) (p : Priv) : State :=
  { hart l {} .none p with
    parts := [(0, { live := true, count := 1, map := [(0, presentEntry 0)] })]
    clusters := [(0, { part := some 0, tlb := [{ asid := 0, va := 0x10000, size := 0x10000, pte := 0x100000000010000 }] })] }
theorem wit_PrivilegedEffects : HartAlone (paged [] .s) 0 ∧ ((paged [] .s).ctx 0).priv ≠ .u ∧ (7 : R5).toNat < 8 ∧ (2 : R5).toNat < 3 ∧
    serves ((paged [] .s).cluster 0) = some ((paged [] .s).ctx 0).part ∧ ((paged [] .s).cluster 0).tlb.length = 1 ∧
    HartAlone (paged [(2, 2048)] .m) 0 ∧ ((paged [(2, 2048)] .m).ctx 0).priv = .m ∧
    (getG ((paged [(2, 2048)] .m).ctx 0).regs 2).toNat = (paged [] .m).gtime + 2048 ∧ ((paged [] .m).part 0).live = true ∧
    ((paged [] .m).part 1).live = false :=
  ⟨aloneOf (by decide), by decide, by decide, by decide, by decide, by decide, aloneOf (by decide), by decide⟩
/-- R152: the old ASID is written before ASID takes g[a], here the same register. -/
theorem test_asidset_same : (match exec (.asidset 5 5) (hart [(5, 0xABCD)] {} .none .s) with
    | .next t => some (getG (t.ctx 0).regs 5, (t.ctx 0).csr.asid, (t.ctx 0).regs.pc) | _ => none) = some (0, 0, 0x1004) := by decide
/-- A hart in S with an interrupt, a posted array trap or a rejected store pending. -/
def interrupted (f : Ctx → Ctx) : State := hartBy f (hart [] {} .gbar .u)
theorem wit_InterruptsAndAsyncExceptions :
    (Live (interrupted fun h => { h with csr := { h.csr with event := true, eventCodes := [0x10] } }) 0 ∧
      ((interrupted fun h => { h with csr := { h.csr with event := true, eventCodes := [0x10] } }).ctx 0).wait ∈ [Wait.none, .gbar, .bkfence, .mfence] ∧
      ((interrupted fun h => { h with csr := { h.csr with event := true, eventCodes := [0x10] } }).ctx 0).tm.tstat.getLsbD 4 = false) ∧
    (∃ h, h = (interrupted fun h => { h with csr := { h.csr with imask := 1, tcmp := 0 } }).ctx 0 ∧
      h.csr.event = false ∧ h.priv = .u ∧ h.csr.imask.getLsbD 0 = true ∧ h.csr.tcmp.toNat ≤ 0 ∧ h.ts.tstat.getLsbD 4 = false) ∧
    (∃ h, h = (interrupted fun h => { h with csr := { h.csr with imask := 2, soft := true } }).ctx 0 ∧
      h.csr.imask.getLsbD 0 = false ∧ h.csr.imask.getLsbD 1 = true ∧ h.csr.soft = true) ∧
    ((interrupted fun h => { h with armed := some .s }).ctx 0).armed.isSome = true ∧
    ((interrupted fun h => { h with eng := { h.eng with posted := some (0x18, 1) } }).ctx 0).eng.posted = some (0x18, 1) ∧
    (∃ h, h = (interrupted fun h => { h with pendStores := [8] }).ctx 0 ∧
      h.eng.posted = none ∧ h.pendStores = [8] ∧ h.recorded = none) :=
  ⟨⟨liveOf (by decide), by decide, by decide⟩, ⟨_, rfl, by decide⟩, ⟨_, rfl, by decide⟩, by decide, by decide, ⟨_, rfl, by decide⟩⟩
/-- Hart 0 has a store to word `8` pending, which hart 1 of the cluster has read. -/
def chunked : State :=
  { cur := .hart 0
    ctxs := [(0, { resident := true, chunk := some { start := {}, stores := [(sramKey 0 8, 1)], writes := [sramKey 0 8 / 8], count := 3, closed := true } }),
      (1, { resident := true, gcn := 1, chunk := some { start := {}, reads := [sramKey 0 8 / 8], count := 1 } })] }
/-- Hart 0 has an open chunk and the word `w` at its PC. -/
def between (w : W32) : State :=
  hartBy (fun h => { h with
    chunk := some { start := {}, count := 1 }
    icache := [{ asid := 0, va := 0x1000 / 32, words := List.replicate 8 w, page := 0, pageSize := 0x10000 }] }) (hart [])
/-- CSRW to XW0 writes a shared register; ECALL does not. -/
theorem wit_ChunkCommits_shared : (((between 0xC805C430).ctx 0).chunk.isSome = true ∧ ((between 0xC805C430).ctx 0).solo = false ∧
      (((between 0xC805C430).ctx 0).chunk.map (·.closed)) = some false ∧ (between 0xC805C430).cur = .hart 0) ∧
    fetchWord ((between 0xC805C430).ctx 0) ((between 0xC805C430).ctx 0).regs.pc.toNat = some 0xC805C430 ∧
    sharedWrite ((between 0xC805C430).ctx 0).regs 0xC805C430 ∧
    (fetchWord ((between 0xC4000001).ctx 0) ((between 0xC4000001).ctx 0).regs.pc.toNat = some 0xC4000001 ∧ 0x22 ≤ (fMaj 0xC4000001).toNat) ∧
    ¬sharedWrite ((between 0xC4000001).ctx 0).regs 0xC4000001 := by
  refine ⟨by decide, by decide, ⟨.csrw 5 0x430, 0, 0x430, _, by decide, rfl, rfl, by decide⟩, by decide, fun ⟨i, d, n, f, h, k, _⟩ => ?_⟩
  obtain rfl : Instr.ecall 0 0 0 0 = i := Except.ok.inj ((show decode 0xC4000001 = .ok (.ecall 0 0 0 0) by decide).symm.trans h)
  cases k
theorem wit_ChunkCommits : ((chunked.ctx 0).chunk.map fun k => (k.count, k.closed)) = some (3, true) ∧ (chunked.ctx 1).resident = true ∧
    (chunked.ctx 1).gcn / 8 = (chunked.ctx 0).gcn / 8 ∧ ((chunked.ctx 1).chunk.map (·.reads)) = some [sramKey 0 8 / 8] := by decide
/-- Two harts of a cluster that ask for a solo grant, the second first. -/
def soloists : State :=
  let line : Line := { asid := 0, va := 0, words := List.replicate 8 0x04430005, page := 0, pageSize := 0x10000 }
  { ctxs := [(0, { resident := true, solo := true, soloSince := 9, icache := [line] }), (1, { resident := true, solo := true, soloSince := 7, gcn := 1, icache := [line] })] }
theorem soloists_ask (c : Nat) (h : c < 2) : asks soloists (soloists.ctx c) := by
  obtain rfl | rfl : c = 0 ∨ c = 1 := by omega
  all_goals exact ⟨by decide, by decide, by decide, 0x04430005, by decide, by decide, by decide⟩
theorem wit_SoloGrants_acks : ((hartBy (fun h => { h with solo := true }) (hart [] {} .acks)).ctx 0).wait = .acks := by decide
theorem wit_SoloGrants : asks soloists (soloists.ctx 1) ∧ (∀ p ∈ soloists.ctxs, ¬asksFirst soloists p.2 (soloists.ctx 1)) ∧
    (∃ p ∈ soloists.ctxs, asksFirst soloists p.2 (soloists.ctx 0)) ∧ ¬asks (hart []) ((hart []).ctx 0) ∧
    (fetchWord ((between 0xC4000001).ctx 0) ((between 0xC4000001).ctx 0).regs.pc.toNat = some 0xC4000001 ∧ 0x22 ≤ (fMaj 0xC4000001).toNat) ∧
    ({ soloists with soloTurn := some 1 } : State).soloTurn = some 1 ∧ ∃ u, hartStep true 1 soloists = .next u :=
  ⟨soloists_ask 1 (by omega), fun p h k => (by decide : ∀ p ∈ soloists.ctxs, ¬(p.2.soloSince < (soloists.ctx 1).soloSince ∨
      (p.2.soloSince = (soloists.ctx 1).soloSince ∧ p.2.gcn < (soloists.ctx 1).gcn))) p h k.2.2,
    ⟨(1, soloists.ctx 1), by decide, soloists_ask 1 (by omega), by decide, by decide⟩, fun h => absurd h.1 (by decide), by decide, by decide, _, rfl⟩
/-- Hart 0 has a store to cluster 1 in flight, of which hart 1 there has read a word. -/
def releasing : State :=
  { duo (hart []) with
    ctxs := [(0, { resident := true }), (1, { resident := true, gcn := 8, chunk := some { start := {}, reads := [sramKey 1 0x40000 / 8], count := 1 } })]
    net := [{ id := 7, cid := 0, part := 0, addr := far, pcn := 1, ofs := 0x40000, body := .store [5] }] }
theorem wit_ReleaseCovers : (releasing.net.map fun p => (p.cid, reqWrites p.body, p.dev, p.pcn, landing releasing p)) = [(0, true, none, 1, some (0x40000, 1))] ∧
    (releasing.ctx 1).resident = true ∧ (releasing.ctx 1).gcn / 8 = 1 ∧ wordsOf (sramKey 1 0x40000) 1 = [sramKey 1 0x40000 / 8] :=
  ⟨rfl, by decide, by decide, by decide⟩
/-- R203, R204: a release at CLUSTER scope by hart 0, whose store is on its way to cluster 1, orders nothing for hart 1 there; one at PACKAGE scope orders the store
before what hart 1 does. -/
theorem test_scope_of_release : ∀ z ∈ [1, 3], writeFirst (cover 0 z releasing) 1 1 0x40000 8 false = decide (z = 3) := by decide
/-- The one member of task 5. -/
def member (l : Tbl W64) (w : Wait) : State :=
  { hartBy (fun h => { h with task := some 5 }) (hart l {} w) with tasks := [(5, { members := [0], phase := .placed })] }
theorem wit_TaskInstructions : (HartAlone (member [] .none) 0 ∧ ((member [] .none).ctx 0).task = some 5) ∧
    (HartAlone (hart [(2, 128), (3, 65535)]) 0 ∧ getG ((hart [(2, 128), (3, 65535)]).ctx 0).regs 4 = 0 ∧
      getG ((hart [(2, 128), (3, 65535)]).ctx 0).regs 3 ≠ 0 ∧ pendingIn ((hart [(2, 128), (3, 65535)]).ctx 0) 3 false = false ∧
      128 % 128 = 0 ∧ 65535 ≤ 65535 ∧ 128 + 128 * 65535 ≤ 2 ^ 57) ∧
    (((hart []).ctx 0).eng.posted = none ∧ ((hart []).ctx 0).eng.aq = [] ∧ ((hart []).ctx 0).task = none) ∧
    (HartAlone (storing .none) 0 ∧ pendingIn ((storing .none).ctx 0) 3 false = true) ∧
    ∀ m ∈ ((member [] .none).task 5).members, m = 0 ∨ ((member [] .none).ctx m).exited.isSome = true :=
  ⟨⟨aloneOf (by decide), by decide⟩, ⟨aloneOf (by decide), by decide⟩, by decide, ⟨aloneOf (by decide), by decide⟩, by decide⟩
/-- A member that waits for the dispatcher's answer to its request 7. -/
def spawner : State :=
  { member [] (.tspawn 7 1) with net := [{ id := 7, cid := 0, part := 0, addr := 128, pcn := 0, ofs := 0, body := .tspawn 128 2 0 }] }
theorem wit_TaskWaitsEnd : (((hart [] {} (.tyield 0)).ctx 0).wait = .tyield 0 ∧ Live (hart [] {} (.tyield 0)) 0 ∧ ((hart [] {} (.tyield 0)).ctx 0).armed = none ∧
      0 ≤ ((hart [] {} (.tyield 0)).ctx 0).csr.cycle.toNat) ∧
    (spawner.ctx 0).wait = .tspawn 7 1 ∧ (spawner.ctx 0).halted = false ∧ (spawner.ctx 0).armed = none ∧ (spawner.ctx 0).task = some 5 ∧
    ((packet spawner 7).map (·.body)) = some (.tspawn 128 2 0) ∧ cool spawner = true :=
  ⟨⟨by decide, liveOf (by decide), by decide, by decide⟩, by decide⟩

/-! Transfers, rings, memory-side adds -/

theorem wit_CounterInstructions : HartAlone (hart [(3, 1)]) 0 ∧ ((hart [(3, 1)]).ctx 0).eng.poison = none ∧
    ¬(getG ((hart [(3, 1)]).ctx 0).regs 3).toNat ≤ (counter (hart [(3, 1)]) 0 0).toNat ∧
    (getG ((hart [(3, 1)]).ctx 0).regs 2).toNat ≤ (counter (hart [(3, 1)]) 0 0).toNat ∧
    (((hart [] {} (.cwait 63 0)).ctx 0).wait = .cwait 63 0 ∧ Live (hart [] {} (.cwait 63 0)) 0 ∧ ((hart [] {} (.cwait 63 0)).ctx 0).pendStores = [] ∧
      ((hart [] {} (.cwait 63 0)).ctx 0).armed = none) :=
  ⟨aloneOf (by decide), by decide, by decide, by decide, by decide, liveOf (by decide), by decide, by decide⟩
/-- The largest ring that fits, and rings with one filled and three free slots. -/
theorem wit_RingInstructions : HartAlone (hart [(3, 0x42000)]) 0 ∧ Unheld ((hart []).ctx 0) 1 ∧ ((hart []).ctx 0).image = none ∧
    (getG ((hart [(3, 0x42000)]).ctx 0).regs 3).toNat % 65536 = 8192 ∧ (getG ((hart [(3, 0x42000)]).ctx 0).regs 3).toNat / 65536 % 65536 = 4 ∧
    0 + 8192 * 4 ≤ 0x8000 ∧ protOk ((hart []).ctx 0).csr.pw ((hart []).ctx 0).priv 0 0x8000 { rd := true, w := true } = true ∧
    HartAlone (hart [(2, 1), (3, 4)] (ringed false 1)) 0 ∧ (ring (hart [] (ringed false 1)) 0 1).valid = true ∧
    (filledOf (ring (hart [] (ringed false 1)) 0 1) = 1 ∧ freeOf (ring (hart [] (ringed false 1)) 0 1) = 3) ∧
    (((hart [] (ringed false 1) (.rwf 5 1 1)).ctx 0).wait = .rwf 5 1 1 ∧ ((hart [] (ringed false 1) (.rwe 5 1 3)).ctx 0).wait = .rwe 5 1 3) ∧
    Live (hart [] (ringed false 1) (.rwf 5 1 1)) 0 :=
  ⟨aloneOf (by decide), by unfold Unheld; decide, by decide, by decide, by decide, by decide, by decide, aloneOf (by decide), by decide,
    by decide, by decide, liveOf (by decide)⟩
/-- A queued AXMM with ring 1 for A and ring 2 for C. -/
def held : Engines :=
  { aq := [{ instr := .axmm 1 1 8, pc := 0, ga := 0, gb := 0, sigma := 0, regs := { s := [(1, { w0 := 0, w1 := 0x21 })] }, pw := [], priv := .u }] }
theorem wit_RingHandleTraps : HartAlone (hart [(2, 5)] (ringed false 1)) 0 ∧ (ring (hart [] (ringed false 1)) 0 7).valid = false ∧
    (ring (hart [] (ringed false 1)) 0 1).nslot < 5 ∧ freeOf (ring (hart [] (ringed false 1)) 0 1) < 4 ∧
    filledOf (ring (hart [] (ringed false 1)) 0 1) < 2 ∧ (ring (hart [] (ringed true 1)) 0 1).feed = true ∧
    (HoldsRing ((hart [] held).ctx 0) 1 0 ∧ HoldsRing ((hart [] held).ctx 0) 2 4) ∧
    (0x2001 % 8 ≠ 0 ∧ 0x8000 < 0x7FF8 + 0x10040 % 65536 * (0x10040 / 65536 % 65536) ∧
      protOk ((hart []).ctx 0).csr.pw ((hart []).ctx 0).priv 0 64 { rd := true, w := true } = true) ∧
    ∃ p ∈ ((hart [] (ringed false 1)).ctx 0).eng.rings, p.1 ≠ 7 ∧ p.2.valid = true ∧ 0 < p.2.base + p.2.slotb * p.2.nslot ∧ p.2.base < 0 + 64 :=
  ⟨aloneOf (by decide), by decide, by decide, by decide, by decide, by decide, ⟨⟨_, List.mem_singleton.2 rfl, 1, 1, 8, .inl rfl, by decide⟩,
    ⟨_, List.mem_singleton.2 rfl, 1, 1, 8, .inl rfl, by decide⟩⟩, by decide, by decide⟩
/-- A hart with a local address, a far one, geometries of 64 bytes and of none with RCE, and a PUTM destination: ring 1 of core 0. -/
def mover (q : List Entry) : State :=
  hart [(2, 0x100), (3, 0x10000), (4, 64), (5, 0x0001000000000040), (6, 0x90)] { q := q }
/-- 64 bytes, and an empty transfer that bumps the counter of a global address. -/
theorem wit_PutGetIssue : HartAlone (mover []) 0 ∧ (mode 64 = 0 ∧ len 64 = 64 ∧ mode 0x0001000000000040 = 1 ∧ len 0x0001000000000040 = 64 ∧
      (0x10000 : W64).getLsbD 63 = false) ∧
    localOk (mover []) ((mover []).ctx 0) 0x100 64 { rd := true } = true ∧ localOk (mover []) ((mover []).ctx 0) 0x100 64 { w := true } = true ∧
    localOk (mover []) ((mover []).ctx 0) 0x100 8 { rd := true } = true ∧
    lockedByte ((mover []).ctx 0) 0x100 64 = none ∧ FarOk (mover []) 0 0x10000 64 true ∧ FarOk (mover []) 0 0x10000 64 false ∧
    (len 0x0000800000000000 = 0 ∧ (0x0000800000000000 : W64).getLsbD 47 = true ∧ mode 0x0000800000000000 = 0 ∧ FarOk (duo (mover [])) 0 far 0 true) ∧
    ((mover []).ctx 0).eng.q.length < 16 ∧ ¬((mover (List.replicate 16 { eid := 1, kind := .put })).ctx 0).eng.q.length < 16 :=
  ⟨aloneOf (by decide), by decide, by decide, by decide, by decide, by decide, by unfold FarOk; decide, by unfold FarOk; decide,
    ⟨by decide, by decide, by decide, by unfold FarOk; decide⟩, by decide, by decide⟩
theorem wit_PutmGetdIssue : HartAlone (mover []) 0 ∧ mode 64 = 0 ∧ localOk (mover []) ((mover []).ctx 0) 0x100 64 { rd := true } = true ∧
    putmBad (mover []) 0 0x90 = false ∧ FarOk (mover []) 0 0x10000 64 false ∧ dpatBad (mover []) 0 0x3000000000000000 64 = false ∧
    ((mover []).ctx 0).eng.q.length < 16 ∧ ¬((mover (List.replicate 16 { eid := 1, kind := .put })).ctx 0).eng.q.length < 16 :=
  ⟨aloneOf (by decide), by decide, by decide, by decide, by unfold FarOk; decide, by decide, by decide, by decide⟩
theorem wit_MemorySideAddIssue : HartAlone (mover []) 0 ∧ (0x10000 : W64).toNat < 2 ^ 57 ∧ (0x10000 : W64).toNat % 16 = 0 ∧
    ((mover []).ctx 0).eng.q.length < 16 ∧ 16 ≤ ((mover (List.replicate 16 { eid := 1, kind := .put })).ctx 0).eng.q.length :=
  ⟨aloneOf (by decide), by decide, by decide, by decide, by decide⟩
theorem wit_TransferIssueTraps : HartAlone (mover []) 0 ∧ 2 ≤ mode 0x0002000000000000 ∧ (encode (.put 2 3 4)).isSome = true ∧
    (encode (.get 2 3 4)).isSome = true ∧ localOk (mover []) ((mover []).ctx 0) 0x8000 64 { rd := true } = false ∧
    localOk (mover []) ((mover []).ctx 0) 0x8000 64 { w := true } = false ∧
    (localOk (hart [] (ringed false 1)) ((hart [] (ringed false 1)).ctx 0) 0 64 { w := true } = true ∧
      lockedByte ((hart [] (ringed false 1)).ctx 0) 0 64 = some 0) ∧
    (¬FarOk (mover []) 0 0x01FFFFFFFFFFFFF0 64 true ∧ ¬FarOk (mover []) 0 0x01FFFFFFFFFFFFF0 64 false ∧ ¬FarOk (mover []) 0 far 0 true) ∧
    putmBad (mover []) 0 0 = true ∧ dpatBad (mover []) 0 0 64 = true ∧ (2 : W64).toNat % 4 ≠ 0 ∧
    (0x0200000000000000 : W64).toNat % 16 = 0 ∧ 2 ^ 57 ≤ (0x0200000000000000 : W64).toNat :=
  ⟨aloneOf (by decide), by decide, by decide, by decide, by decide, by decide, by decide, by unfold FarOk; decide, by decide, by decide, by decide,
    by decide, by decide⟩
/-- A hart whose queue has one entry. -/
def moving (e : Entry) (h : Ctx → Ctx := id) : State := hartBy h (duo (hart [] { q := [e] }))
theorem oldest (e : Entry) : Oldest (moving e) 0 e [] := ⟨rfl, by simp⟩
/-- 4 KiB from the top of the scratchpad to cluster 1 and back, with both counters. -/
def move4 (k : XKind) : Entry := { eid := 3, kind := k, loc := 0x7000, far := far, len := 4096, lce := true, rce := true, rcnt := 2 }
theorem wit_SramTransfers : (∀ k, Canonical (moving (move4 k))) ∧ (∀ k, Oldest (moving (move4 k)) 0 (move4 k) []) ∧
    ((moving (move4 .put)).ctx 0).image = none ∧ (move4 .put).failed = none ∧ (move4 .put).pos = 0 ∧ (move4 .put).loc.toNat + 4096 ≤ 0x8000 ∧
    senderCheck (moving (move4 .put)) ((moving (move4 .put)).ctx 0) far true false = .ok 1 none ∧
    receive ((moving (move4 .put)).cluster 1) (bits far 0 21) 4096 1 = some 0x40000 ∧ remoteLocked (moving (move4 .put)) 1 0x40000 4096 = false ∧
    senderCheck (moving (move4 .get)) ((moving (move4 .get)).ctx 0) far false false = .ok 1 none ∧
    receive ((moving (move4 .get)).cluster 1) (bits far 0 21) 4096 0 = some 0x40000 ∧
    dmaTurn (moving (move4 .put)) 0 (move4 .put) = true ∧ endsBusy (moving (move4 .put)) 0 (move4 .put) (.sram 1 0x40000) 4096 = false ∧
    dmaTurn (moving (move4 .get)) 0 (move4 .get) = true ∧ endsBusy (moving (move4 .get)) 0 (move4 .get) (.sram 1 0x40000) 4096 = false ∧
    cool (moving (move4 .put)) = true ∧ (move4 .put).bumped = false ∧ (move4 .get).bumped = false ∧ 0x40000 % 32 + 4096 ≤ 4096 :=
  ⟨fun k => ⟨rfl, by simp [moving, hartBy, duo, hart, modCtx, tput, tins, tdel]⟩, fun k => oldest _, by decide⟩
/-- The first word of the same segment, still to be written at the far end, or at the local end of the same hart. -/
def lateFar : LateWord := { ctx := none, addr := sramKey 1 0x40000, bytes := List.replicate 8 7 }
def lateNear : LateWord := { ctx := some 0, addr := 0x7000, bytes := List.replicate 8 7 }
def moved4 (k : XKind) (l : List LateWord) : Entry := { move4 k with started := true, pos := 4096, late := l }
/-- The same segment, about to move as a choice has it. -/
def chosen (pick : Nat) (k : XKind) : State := { moving (move4 k) with choice := { pick := pick } }
theorem wit_SegmentWords_chosen : ∀ k ∈ [XKind.put, .get], ∀ n ∈ [1, 2 * 0 + 2, 2 * 4095 + 2], Canonical (chosen n k) ∧ Oldest (chosen n k) 0 (move4 k) [] ∧
    (chosen n k).choice.pick = n ∧ cool (chosen n k) = true ∧ (move4 k).early = [] ∧ (move4 k).part = [] :=
  fun _ _ _ _ => ⟨⟨rfl, by simp [chosen, moving, hartBy, duo, hart, modCtx, tput, tins, tdel]⟩, ⟨rfl, by simp⟩, rfl, rfl, rfl, rfl⟩
theorem wit_SegmentWords_turn : ∀ k ∈ [XKind.put, .get], dmaTurn (chosen 8192 k) 0 (move4 k) = true ∧
    endsBusy (chosen 8192 k) 0 (move4 k) (.sram 1 0x40000) 4096 = false := by decide
/-- The second segment of 4,104 bytes, while a word of the first is left: at its turn, and an entry issued later, while words of one issued before are. -/
theorem wit_SegmentWords_second : ∀ k ∈ [XKind.put, .get], let e := { move4 k with started := true, loc := 0x6000, len := 4104, pos := 4096, late := [lateFar] }
    Oldest (moving e) 0 e [] ∧ dmaTurn (moving e) 0 e = true ∧ endsBusy (moving e) 0 e (.sram 1 (0x40000 + 4096)) 8 = false ∧ e.len = e.pos + 8 ∧
      (0x40000 + e.pos) % 32 + 8 ≤ 4096 ∧ e.loc.toNat + e.len ≤ 0x8000 ∧ receive ((moving e).cluster 1) (bits far 0 21) 4104 1 = some 0x40000 ∧
      receive ((moving e).cluster 1) (bits far 0 21) 4104 0 = some 0x40000 := fun _ _ => by
  refine ⟨oldest _, ?_⟩
  revert ‹_ ∈ _›; revert ‹XKind›; decide
theorem wit_SegmentWords_other : let x := { moved4 .put [lateFar] with len := 4096 }
    let y := { move4 .put with eid := 4 }
    let s := duo (hart [] { q := [x, y] })
    dmaTurn s 0 y = true ∧ x.late ≠ [] ∧ mayStart (s.ctx 0) y = true := by decide
/-- Words of a segment that are left, about to be written alone. -/
theorem wit_SegmentWords_alone : let s := { moving (moved4 .put [lateFar]) with choice := { pick := 3 } }
    Canonical s ∧ Oldest s 0 (moved4 .put [lateFar]) [] ∧ s.choice.pick = 2 * 0 + 3 ∧ cool s = true ∧ 0x1000000000000 ≤ lateFar.addr ∧ (moved4 .put [lateFar]).late[0]? = some lateFar ∧ lateBusy s 0 lateFar = false :=
  ⟨⟨rfl, by simp [moving, hartBy, duo, hart, modCtx, tput, tins, tdel]⟩, ⟨rfl, by simp⟩, rfl, by decide, by decide, rfl, rfl⟩
/-- A word whose bytes are written, about to take its full/empty bit. -/
theorem wit_SegmentWords_bit : let w := { lateFar with bit := true }
    let s := { moving (moved4 .put [w]) with choice := { pick := 3 } }
    Canonical s ∧ Oldest s 0 (moved4 .put [w]) [] ∧ s.choice.pick = 2 * 0 + 3 ∧ (moved4 .put [w]).late[0]? = some w ∧ lateBusy s 0 w = false ∧ w.bit = true :=
  ⟨⟨rfl, by simp [moving, hartBy, duo, hart, modCtx, tput, tins, tdel]⟩, ⟨rfl, by simp⟩, rfl, rfl, rfl, rfl⟩
theorem wit_SegmentWords : (∀ i ∈ [0, 4095], i < 4096) ∧
    Canonical (moving (moved4 .put [lateFar])) ∧ Oldest (moving (moved4 .put [lateFar])) 0 (moved4 .put [lateFar]) [] ∧
    lateBusy (moving (moved4 .put [lateFar])) 0 lateFar = false ∧ lateFar.bytes ≠ [] ∧ (moved4 .put [lateFar]).late[0]? = some lateFar ∧
    lateBusy (moving (moved4 .get [lateNear])) 0 lateNear = false ∧ ((moving (moved4 .get [lateNear])).ctx 0).image = none ∧ 0x7000 + 8 ≤ 0x8000 ∧
    (let s := { moving (moved4 .put [lateFar]) with
                net := [{ id := 1, cid := 9, part := 0, addr := 0, pcn := 1, ofs := 0x40000, body := .store (List.replicate 8 1), cover := [{ scope := 4, cycle := 0, hart := 9 }] }] }
     lateBusy s 0 lateFar = true) :=
  ⟨by decide, ⟨rfl, by simp [moving, hartBy, duo, hart, modCtx, tput, tins, tdel]⟩, oldest _, by decide, by decide, by decide, by decide, by decide, by decide, by decide⟩
/-- A page at virtual address 0 that grants everything, in DRAM. -/
def page0 : TlbEntry := { asid := 0, va := 0, size := 0x10000, pte := 0x01C0000000010000 }
def withPage (s : State) : State := modCluster 0 (fun cl => { cl with tlb := [page0] }) s
def part64 (k : XKind) : Entry := { eid := 3, kind := k, loc := 0x100, far := 0x1000, len := 64 }
/-- The hart's task has version 9 of the page's tile, in frame 0x50000. -/
def renamed (s : State) : State :=
  { hartBy (fun h => { h with task := some 5 }) s with tasks := [(5, { own := [(0, 9)] })], versions := [(9, { tile := 0, writer := 5, frame := 0x50000 })] }
theorem wit_PartTranslation : Oldest (withPage (moving (part64 .get))) 0 (part64 .get) [] ∧ ((part64 .get).susp = none ∧ (part64 .get).part = []) ∧
    ((withPage (moving (part64 .get))).cluster 0).tlb.find? (fun x => x.asid = 0 ∧ x.va ≤ 0x1000 ∧ 0x1000 < x.va + x.size) = some page0 ∧
    page0.pte.getLsbD 54 = true ∧ page0.pte.getLsbD 55 = true ∧ 0x1000 - pteVa page0.pte + 64 ≤ pteSize page0.pte ∧
    FrameOf (withPage (moving (part64 .get))) 0 0 0x1000 page0.pte (pteBase page0.pte) ∧
    FrameOf (renamed (withPage (moving (part64 .get)))) 0 0 0x1000 page0.pte 0x50000 ∧
    framesRetired (withPage (moving (part64 .get))) (pteBase page0.pte) (pteIl page0.pte) 0x1000 64 = false ∧
    framesRetired { withPage (moving (part64 .get)) with banks := [(0, { retired := [1] })] } (pteBase page0.pte) (pteIl page0.pte) 0x1000 64 = true ∧
    cool (withPage (moving (part64 .get))) = true ∧ ((moving (part64 .get)).cluster 0).tlb = [] ∧
    ((moving (part64 .get)).part 0).ptcfg.getLsbD 63 = false ∧ ((moving (part64 .get)).part 0).susp = [] := by
  refine ⟨⟨rfl, by simp⟩, by decide, by decide, by decide, by decide, by decide, .inl ⟨rfl, .inr fun tid h => ?_⟩,
    .inr ⟨by decide, 5, 9, by decide, by decide, by decide, .inl (by decide)⟩, by decide, by decide, by decide, by decide, by decide, by decide⟩
  rw [show ((withPage (moving (part64 .get))).ctx 0).task = none by decide] at h; cases h
/-- A suspended GET of a placed task, with or without its record, and a request of each kind. -/
def suspended (written : Bool) (r : List (Nat × Nat)) : State :=
  { ctxs := [(0, { resident := true, task := some 5, eng := { q := [{ part64 .get with started := true, susp := some 1, lce := true }] } })]
    tasks := [(5, { members := [0], phase := .placed })]
    parts := [(0, { live := true, count := 1, map := [(0, presentEntry 0)], fqcfg := 0x8000000100040000, fresume := r
                    susp := [{ fid := 1, cid := 0, eid := 3, kind := 1, off := 0, time := 0, written := written }] })]
    clusters := [(0, { part := some 0 })] }
/-- The suspended part's partition has a table of one bucket, in which the walk finds the page at 0. -/
def tabledPart : State :=
  { suspended true [(0, 1)] with
    mem := [(0x20002, 1), (0x20006, 0xC0), (0x20007, 0x81)]
    parts := [(0, { (suspended true [(0, 1)]).part 0 with ptcfg := 0xA000000000020000 })] }
theorem wit_Retry : let s := setEntry 0 { part64 .get with started := true, lce := true } (dropPage 0 0 0x1000
      (modPart 0 (fun t => { t with fresume := [], susp := [] }) tabledPart))
    let x : BitVec 128 := 0x81C0000000010000
    (walk 0 0 0x1000 s).1 = .entry x ∧ malformed (walk 0 0 0x1000 s).2 0 x = false ∧ x.getLsbD 54 = true ∧ x.getLsbD 47 = false ∧
      0x1000 - pteVa x + 64 ≤ pteSize x ∧ framesRetired s (pteBase x) (pteIl x) 0x1000 64 = false ∧ cool tabledPart = true ∧
      (tabledPart.ctx 0).part = 0 ∧ (part64 .get).xlated < (part64 .get).len := by decide
/-- A write to the record's slot, on its way, that a release covers for the die, or for the module. -/
theorem wit_FaultRecords_busy : (∀ z ∈ [2, 3],
    coveredFirst { suspended false [] with clusters := [(0, { part := some 0, xw := [(0, 0xF800000000110000)] })], net := [{ id := 1, cid := 9, part := 0, addr := 0, pcn := 0, ofs := 0x40000, body := .store [1], cover := [{ scope := z, cycle := 0, hart := 9 }] }] } 3 0 0x40000 32 =
      decide (z = 3)) ∧ coveredFirst (suspended false []) 3 0 0x40000 32 = false := by decide
theorem wit_FaultRecordsAndResume : Canonical (suspended false []) ∧ Canonical (suspended true [(2, 1)]) ∧
    ((suspended false []).part 0).susp.length = 1 ∧ ((suspended false []).part 0).fqcfg.getLsbD 63 = true ∧
    (let f := ((suspended false []).part 0).fqcfg
     1 ≤ bits f 32 16 ∧ bits f 32 16 ≤ 2048 ∧ bits f 0 19 % 32 = 0 ∧ inShared ((suspended false []).cluster 0) (bits f 0 19) (32 * bits f 32 16) = true) ∧
    (tget ((suspended false []).part 0).map 0 0).getLsbD 63 = true ∧
    tget (suspended false []).fe (sramKey 0 0x40000 / 8) false = false ∧ ((suspended true [(0, 1)]).part 0).fresume = [(0, 1)] ∧
    ((suspended true [(1, 1)]).part 0).fresume = [(1, 1)] ∧ ((suspended true [(1, 1)]).ctx 0).exited = none ∧
    ((suspended true [(2, 1)]).ctx 0).task = some 5 ∧ ((suspended true [(2, 1)]).task 5).phase = .placed :=
  ⟨⟨by decide, by decide⟩, ⟨by decide, by decide⟩, by decide⟩
/-- A PUTM of hart 0 to ring 1 of hart 1, with `tail` slots filled. -/
def claim1 : Entry := { eid := 3, kind := .putm, loc := 0x100, len := 64, dests := [{ ring := 1, core := 1 }] }
def claiming (feed : Bool) (tail : Nat) : State :=
  { ctxs := [(0, { resident := true, task := some 5, eng := { q := [claim1] } }), (1, { resident := true, gcn := 1, task := some 5, eng := ringed feed tail })]
    tasks := [(5, { members := [0, 1], phase := .placed })] }
theorem wit_PutmClaims : Canonical (claiming true 3) ∧ Oldest (claiming true 3) 0 claim1 [] ∧ memberOn (claiming true 3) 0 1 = some 1 ∧
    (freeOf (ring (claiming true 3) 1 1) = 1 ∧ (ring (claiming true 3) 1 1).feed = true ∧ 64 ≤ (ring (claiming true 3) 1 1).slotb) ∧
    claimsFirst (claiming true 3) 1 1 (claiming true 3).nextId = false ∧
    spanBusy (claiming true 3) 0 0x100 64 = false ∧ writeFirst (claiming true 3) 0 (pcnOf 1) (localOfs 1 0x180) 64 false = false ∧
    (let e := { claim1 with dests := [{ ring := 1, core := 1, reached := some (claiming true 3).nextId }] }
     dmaTurn (setEntry 0 e { claiming true 3 with nextId := (claiming true 3).nextId + 1 }) 0 e = true) ∧
    (ring (claiming false 3) 1 1).feed = false ∧ freeOf (ring (claiming true 4) 1 1) = 0 :=
  ⟨⟨by decide, by decide⟩, ⟨rfl, by simp⟩, by decide, by decide, by decide, by decide, by decide, by decide, by decide⟩
/-- A PUTM of 4,104 bytes from a misaligned address into a ring of one slot, at its first segment and at its last. -/
def claimLong (pos : Nat) (hold : List Byte) : Entry :=
  { claim1 with loc := 0x104, len := 4104, dests := [{ ring := 1, core := 1, claimed := decide (pos ≠ 0), pos := pos, hold := hold }] }
def claimingLong (pos : Nat) : State :=
  { ctxs := [(0, { resident := true, task := some 5, eng := { q := [claimLong pos []] } }),
      (1, { resident := true, gcn := 1, task := some 5, eng := { rings := [(1, { valid := true, base := 0, slotb := 8192, nslot := 1, feed := true })] } })]
    tasks := [(5, { members := [0, 1], phase := .placed })] }
theorem wit_PutmClaims_long : ∀ pos ∈ [0, 4096], Canonical (claimingLong pos) ∧ Oldest (claimingLong pos) 0 (claimLong pos []) [] ∧
    memberOn (claimingLong pos) 0 1 = some 1 ∧ pos < 4104 ∧ 0x104 + 4104 ≤ 0x8000 ∧
    (let g := ring (claimingLong pos) 1 1
     g.valid = true ∧ g.feed = true ∧ 4104 ≤ g.slotb ∧ 1 ≤ freeOf g ∧ g.base + g.slotb * g.nslot ≤ 0x8000) ∧
    claimsFirst (claimingLong pos) 1 1 (claimingLong pos).nextId = false ∧ spanBusy (claimingLong pos) 0 (0x104 + pos) 4100 = false ∧
    writeFirst (claimingLong pos) 0 (pcnOf 1) (localOfs 1 pos) 4096 false = false ∧
    (let e := { claimLong pos [] with dests := [{ ring := 1, core := 1, claimed := decide (pos ≠ 0), pos := pos, reached := some (claimingLong pos).nextId }] }
     dmaTurn (setEntry 0 e { claimingLong pos with nextId := (claimingLong pos).nextId + 1 }) 0 e = true) := by
  intro pos h
  rcases List.mem_cons.1 h with rfl | h
  · exact ⟨⟨by decide, by decide⟩, ⟨rfl, by simp⟩, by decide⟩
  · obtain rfl := List.mem_singleton.1 h
    exact ⟨⟨by decide, by decide⟩, ⟨rfl, by simp⟩, by decide⟩
/-- RINIT of ring 1 of hart 1 finds hart 0's payload half written into a slot of it; with nothing written it does not. -/
theorem wit_RingInstructions_writing : slotWriting (claimingLong 4096) 1 1 = true ∧ slotWriting (claimingLong 0) 1 1 = false := by decide
/-- A translated add at the start of bank 0's column 2, and the same one accepted. -/
def add64 (b : Bool) : Entry :=
  { eid := 3, kind := .madd, far := 0x40, len := 4, vals := [5], int := true, accepted := b, part := [{ off := 0, len := 4, base := 0, il := 0, poff := 0x40, gr := 0 }] }
def adding (w : Wait) (q m : List Entry) : State := hart [] { q := q, madds := m } w
theorem wit_MemorySideAdds : Oldest (adding .none [add64 false] []) 0 (add64 false) [] ∧ ((adding .none [] [add64 true]).ctx 0).eng.madds = [add64 true] ∧
    (pageToPhys 0x40 0 0 = 0x40 ∧ ((adding .none [] [add64 true]).bank 0).run = none ∧ cool (adding .none [] [add64 true]) = true ∧
      maddFirst (adding .none [] [add64 true]) (add64 true) = false ∧ isRetired (adding .none [] [add64 true]) 0 (0x40 % 0x800000) = false) ∧
    Sound (adding .none [] [add64 true]) 0 2 ∧ 0x40 % 32 + 4 * 1 ≤ 32 ∧ HartAlone (adding .none [] []) 0 ∧ HartAlone (adding .none [] [add64 true]) 0 ∧
    ((adding .mfence [] []).ctx 0).wait = .mfence ∧ Live (adding .mfence [] []) 0 ∧ ((adding .mfence [] []).ctx 0).pendStores = [] ∧
    ((adding .mfence [] []).ctx 0).armed = none :=
  ⟨⟨rfl, by simp⟩, by decide, by decide, by unfold Sound; decide, by decide, aloneOf (by decide), aloneOf (by decide), by decide, liveOf (by decide),
    by decide, by decide⟩

/-! Instruction fetch, marks, ticks -/

def fetching : State := withPage (duo (hart []))
theorem wit_InstructionFetch : Fetches fetching 0 ∧
    (fetching.cluster 0).tlb.find? (fun x => x.asid = 0 ∧ x.va ≤ 0x1000 ∧ 0x1000 < x.va + x.size) = some page0 ∧
    (page0.pte.getLsbD 56 = true ∧ page0.pte.getLsbD 47 = false ∧ pteVa page0.pte = 0) ∧
    0x1000 % 4 = 0 ∧ spanRetired fetching page0.pte 0x1000 32 = false ∧ pageToPhys 0x1000 (pteBase page0.pte) (pteIl page0.pte) = 0x11000 ∧
    Sound fetching 0 (0x11000 / 32) ∧ (fetching.ctx 0).icache = [] ∧ Fetches (duo (hart [])) 0 ∧ ((duo (hart [])).cluster 0).tlb = [] ∧
    ((duo (hart [])).part 0).ptcfg.getLsbD 63 = false :=
  ⟨⟨liveOf (by decide), by decide, by decide, by decide, by decide, by decide, by decide, by decide⟩, by decide, by decide, by decide, by decide, by decide, by unfold Sound; decide, by decide,
    ⟨liveOf (by decide), by decide, by decide, by decide, by decide, by decide, by decide, by decide⟩, by decide, by decide⟩
/-- Cluster 0 with one unit of mark space, a field of one cell at cell 0, and an operation held or in flight. -/
def marked (l : List MarkOp) (n : List Packet) (l' : Tbl W64 := []) (w : Wait := .none) : State :=
  { hart ([(2, 0x100000), (3, 0x101FFE), (4, 0x102000)] ++ l') {} w with
    gtime := 64, net := n, clusters := [(0, { part := some 0, msize := 1, held := l, mfc := [(0, 0x8000000000000000)] })] }
/-- The deposit or the read of hart 0 at `cell`. -/
def op1 (fn cell : Nat) : MarkOp := { id := 7, cid := 0, gcn := 0, seq := 0, stamp := 0, cell := cell, fn := fn, b := 0, window := false }
def pack1 (cell : Nat) (b : Body) : Packet := { id := 7, cid := 0, part := 0, addr := 0x100000, pcn := 0, ofs := 0x100000 + 2 * cell, body := b }
theorem marked_apart (l : List MarkOp) (n : List Packet) : Apart (marked l n) 0 := by
  have h : ∀ k cell, Holds (marked l n) 0 k cell → k = 0 := fun k cell h => by
    by_contra hk
    have : tget ((marked l n).cluster 0).mfc k 0 = 0 := by
      show tget [(0, (0x8000000000000000 : W64))] k 0 = 0
      simp [tget, Ne.symm hk]
    have := h.1
    simp_all
  exact fun a b cell _ _ ha hb => (h a cell ha).trans (h b cell hb).symm
theorem marked_inside (l : List MarkOp) (n : List Packet) : Inside (marked l n) 0 := by
  refine ⟨show (1 : Nat) ≤ 8 by decide, fun k cell _ h => ?_⟩
  have hk : k = 0 := by
    by_contra hk
    have : tget ((marked l n).cluster 0).mfc k 0 = 0 := by
      show tget [(0, (0x8000000000000000 : W64))] k 0 = 0
      simp [tget, Ne.symm hk]
    have := h.1
    simp_all
  subst hk
  have h2 := h.2.2
  rw [show tget ((marked l n).cluster 0).mfc 0 0 = 0x8000000000000000 from rfl,
    show bits (0x8000000000000000 : W64) 0 15 + 2 ^ bits (0x8000000000000000 : W64) 44 4 * 2 ^ bits (0x8000000000000000 : W64) 40 4 = 1 by decide] at h2
  show cell < 1 * 4096
  omega
theorem wit_MarkIssue : HartAlone (marked [] []) 0 ∧ ((marked [] []).cluster 0).msize = 1 ∧
    (markForm ((marked [] []).ctx 0).regs (.dep 3 5)).isSome = true ∧ (markForm ((marked [] []).ctx 0).regs (.mrd 1 3 1)).isSome = true ∧
    0x101FFE + 2 = 0x100000 + 1 * 0x2000 ∧ (getG ((marked [] []).ctx 0).regs 4).toNat + 2 > 0x100000 + 1 * 0x2000 ∧
    (encode (.mrd 1 2 2)).isSome = true ∧
    (HartAlone (duo (hart [(2, far)])) 0 ∧ senderCheck (duo (hart [(2, far)])) ((duo (hart [(2, far)])).ctx 0) far true true = .ok 1 none) ∧
    senderCheck (hart [(2, far)]) ((hart [(2, far)]).ctx 0) far true true = .fail :=
  ⟨aloneOf (by decide), by decide, by decide, by decide, by decide, by decide, by decide, ⟨aloneOf (by decide), by decide⟩, by decide⟩
theorem wit_MarkAcceptance : packet (marked [] [pack1 0 (.mark (op1 1 0))]) 7 = some (pack1 0 (.mark (op1 1 0))) ∧
    AtRest { marked [] [pack1 0 (.mark (op1 1 0))] with net := [] } 0 ∧ Apart (marked [] []) 0 ∧ Holds (marked [] []) 0 0 0 ∧ ((pack1 0 (.mark (op1 1 0))).ofs - 0x100000) / 2 = 0 ∧
    (∀ n, n < 8 → ¬Holds (marked [] []) 0 n 1) ∧
    (((marked [] [] [] (.mark 7 5 true)).ctx 0).wait = .mark 7 5 true ∧ Live (marked [] [] [] (.mark 7 5 true)) 0 ∧
      ((marked [] [] [] (.mark 7 5 true)).ctx 0).armed = none) :=
  ⟨by decide, ⟨by decide, by decide, by decide, fun _ h => absurd h (by simp)⟩, marked_apart _ _, by unfold Holds InWord; decide, by decide,
    by unfold Holds InWord; decide, by decide, liveOf (by decide), by decide⟩
theorem wit_MarkOperations : AtRest (marked [op1 1 0] []) 0 ∧ Apart (marked [op1 1 0] []) 0 ∧ Inside (marked [op1 1 0] []) 0 ∧
    ((marked [op1 6 0] []).cluster 0).held = [op1 6 0] ∧ Holds (marked [op1 1 0] []) 0 0 (op1 1 0).cell ∧
    (op1 1 0).stamp + horizonOf 0x8000000000000000 ≤ (marked [op1 1 0] []).gtime :=
  ⟨⟨by decide, by decide, by decide, fun _ h => absurd h (by simp [marked])⟩, marked_apart _ _, marked_inside _ _, by decide,
    by unfold Holds InWord; decide, by decide⟩
/-- A schedule of 4096 cycles that has begun, with tick 1 due, of a partition of two clusters: the second has no mark space. -/
def ticking (w : Wait) : State :=
  { marked [] [] [(6, 1), (7, 2)] w with
    gtime := 4096
    clusters := [(0, { part := some 0, msize := 1, mfc := [(0, 0x8000000000000000)] }), (1, { part := some 0 })]
    parts := [(0, { live := true, count := 2, map := [(0, presentEntry 0), (1, presentEntry 1)], tksi := 4096, tksb := 4096, taken := 0, tksn := 1 })] }
theorem ticking_serves {q : Nat} (h : serves ((ticking .none).cluster q) = some 0) : q < 2 := by
  by_contra hq
  have e : (ticking .none).cluster q = {} := by
    simp [ticking, State.cluster, tget, show (0 : Nat) ≠ q by omega, show (1 : Nat) ≠ q by omega]
  rw [e] at h; exact absurd h (by decide)
theorem ticking_rest (q : Nat) (h : q < 2) : AtRest (ticking .none) q ∧ ((ticking .none).cluster q).held = [] ∧ Apart (ticking .none) q ∧
    Inside (ticking .none) q := by
  have : q = 0 ∨ q = 1 := by omega
  rcases this with rfl | rfl
  · exact ⟨⟨by decide, by decide, by decide, fun _ h => absurd h (by simp [ticking, marked])⟩, by decide, marked_apart [] [], marked_inside [] []⟩
  · have none_ (n cell : Nat) : ¬Holds (ticking .none) 1 n cell := fun h => absurd h.1 (by show ¬(0 : W64).getLsbD 63 = true; decide)
    exact ⟨⟨by decide, by decide, by decide, fun _ h => absurd h (by simp [ticking, marked])⟩, by decide,
      fun n _ cell _ _ h => absurd h (none_ n cell), by decide, fun n cell _ h => absurd h (none_ n cell)⟩
/-- An accepted change of field 0 whose cycle has come. -/
def changing : State :=
  modCluster 0 (fun cl => { cl with mfcNext := [{ n := 0, e := 64, v := 0 }], mfcLog := [{ n := 0, e := 64, v := 0 }] }) (marked [] [])
theorem wit_TicksAndConfiguration : OneSchedule (ticking .none) 0 4096 ∧ ((ticking .none).part 0).live = true ∧
    (ticking .none).clusters.Pairwise (fun a b => a.1 < b.1) ∧
    (∀ q, serves ((ticking .none).cluster q) = some 0 → AtRest (ticking .none) q ∧ ((ticking .none).cluster q).held = [] ∧ Apart (ticking .none) q ∧
      Inside (ticking .none) q) ∧
    (serves ((ticking .none).cluster 0) = some 0 ∧ serves ((ticking .none).cluster 1) = some 0) ∧
    ((ticking .none).part 0).tksn ≤ ((ticking .none).part 0).taken + 1 ∧ 4096 + (0 + 1 - 1) * 4096 ≤ (ticking .none).gtime ∧
    ((changing.cluster 0).mfcNext = [{ n := 0, e := 64, v := 0 }] ∧ (changing.cluster 0).mfcLog = [{ n := 0, e := 64, v := 0 }] ∧
      (changing.cluster 0).ticks = [] ∧ (changing.cluster 0).held = [] ∧ changing.net = [] ∧ (changing.cluster 0).msize ≤ 8 ∧ 64 ≤ changing.gtime) ∧
    (∀ x ∈ (marked [] []).ctxs, x.2.resident = true → x.2.gcn / 8 = 0 → x.2.task = none) ∧ ((marked [] []).cluster 0).mfcLog = [] :=
  ⟨⟨by decide, by decide, by decide⟩, by decide, by decide,
    fun _ h => ticking_rest _ (ticking_serves h), ⟨by decide, by decide⟩, by decide, by decide,
    by decide, by decide, by decide⟩
theorem wit_TickInstructions : OneSchedule (ticking .none) ((ticking .none).ctx 0).part 4096 ∧ HartAlone (ticking .none) 0 ∧
    tickNo (ticking .none) 0 = 1 ∧ (getG ((ticking .none).ctx 0).regs 6).toNat ≤ 1 ∧ ¬(getG ((ticking .none).ctx 0).regs 7).toNat ≤ 1 ∧
    (((ticking (.tkwait 1)).ctx 0).wait = .tkwait 1 ∧ Live (ticking (.tkwait 1)) 0 ∧ ((ticking (.tkwait 1)).ctx 0).armed = none) ∧ (encode (.tknum 1 3)).isSome = true :=
  ⟨⟨by decide, by decide, by decide⟩, aloneOf (by decide), by decide, by decide, by decide, ⟨by decide, liveOf (by decide), by decide⟩, by decide⟩

/-! The array -/

/-- Fields of 8 bits at columns 0, 8 and 4, a tile of one element in v0; a shape of 1 by 1 by 1; rings 1 (one filled slot) and 2; scale 1 in f1. -/
def arrays : ArrayRegs :=
  { v := [(0, { word := 0x0000810100000700 }), (1, { word := 0x708 }), (2, { word := 0x704 }), (3, { word := 0x1F10 })]
    s := [(1, { w0 := 0x0109000001010001, w1 := 0x21 })] }
def arrayEngines (q : List AEntry) : Engines :=
  { arr := arrays, aq := q, rings := [(1, { valid := true, base := 0, slotb := 64, nslot := 4, tail := 1 }), (2, { valid := true, base := 256, slotb := 64, nslot := 4 })] }
def arrayHart (q : List AEntry) (l : Tbl W64 := []) (w : Wait := .none) : State :=
  hartBy (fun h => { h with regs := { h.regs with f := [(1, { bits := 0x3FF0000000000000 })] } }) (hart l (arrayEngines q) w)
def queued (i : Instr) : AEntry :=
  { instr := i, pc := 0x1000, ga := 0, gb := 0x10000, sigma := 0, regs := arrays, pw := startPw {}, priv := .u }
theorem arrays_shape : ShapeOk { w0 := 0x0109000001010001, w1 := 0x21 } := by unfold ShapeOk; decide
theorem arrays_apart : ¬Parted { word := 0x0000810100000700 } { word := 0x708 } := fun ⟨⟨x, h⟩, _⟩ => by
  simp [fStart, fWidth, bits] at h; omega
theorem arrays_same : ¬Parted { word := 0x0000810100000700 } { word := 0x0000810100000700 } := fun h => h.2 ⟨rfl, rfl⟩
theorem arrays_meet : Parted { word := 0x708 } { word := 0x704 } := ⟨⟨8, by decide⟩, by decide⟩
theorem wit_ArrayIssue : HartAlone (arrayHart []) 0 ∧ (Instr.axeAdd 0 1 0 0).WellFormed ∧ Suits ((arrayHart []).ctx 0) (.axeAdd 0 1 0 0) ∧
    Suits ((arrayHart []).ctx 0) (.axget 1 2) ∧ (Instr.axmm 1 1 8).WellFormed ∧ Suits ((arrayHart []).ctx 0) (.axmm 1 1 8) ∧
    ((arrayHart []).ctx 0).eng.aq.length < 16 ∧ ¬((arrayHart (List.replicate 16 (queued (.axget 1 2)))).ctx 0).eng.aq.length < 16 ∧
    TileSuits ((arrayHart [] [(2, 0x101)]).ctx 0) 0 3 2 1 := by
  refine ⟨aloneOf (by decide), rfl, ⟨by decide, ?_⟩, trivial, rfl, ⟨arrays_shape, ?_⟩, by decide, by decide, ?_⟩
  · intro v hv
    simp only [List.mem_cons, List.not_mem_nil, or_false] at hv
    rcases hv with rfl | rfl
    · exact arrays_apart
    · exact arrays_same
  · refine ⟨by decide, by decide, by decide, by decide, by decide, by decide, by decide, ?_, by decide⟩
    intro b hb
    obtain rfl : b = 0 := by have : shKb (shapeReg ((arrayHart []).ctx 0) 1) = 1 := by decide
                             omega
    decide
  · unfold TileSuits; decide
/-- A third source of a wrong width; a destination that partly overlaps a source; a comparison, a conversion, a reduction of a wrong width. -/
theorem wit_ArrayShapeTraps : HartAlone (arrayHart []) 0 ∧
    ((Instr.axeAdd 0 1 3 0).WellFormed ∧ First (issueChecks ((arrayHart []).ctx 0) (.axeAdd 0 1 3 0)) (shapeAt 1 3)) ∧
    ((Instr.axeMov 1 2).WellFormed ∧ First (issueChecks ((arrayHart []).ctx 0) (.axeMov 1 2)) (shapeAt 2 1)) ∧
    ((Instr.axeCmplt 0 3 1 0).WellFormed ∧ First (issueChecks ((arrayHart []).ctx 0) (.axeCmplt 0 3 1 0)) (shapeAt 1 3)) ∧
    ((Instr.axeCvt 3 1 0).WellFormed ∧ First (issueChecks ((arrayHart []).ctx 0) (.axeCvt 3 1 0)) (shapeAt 1 3)) ∧
    ((Instr.axsum 1 3 0 0).WellFormed ∧ First (issueChecks ((arrayHart []).ctx 0) (.axsum 1 3 0 0)) (shapeAt 1 3)) :=
  ⟨aloneOf (by decide), ⟨rfl, .inr ⟨by decide, .inr ⟨by decide, .inl ⟨by decide, rfl⟩⟩⟩⟩,
    ⟨rfl, .inr ⟨by decide, .inl ⟨⟨2, by decide, arrays_meet⟩, rfl⟩⟩⟩, ⟨rfl, .inl ⟨by decide, rfl⟩⟩,
    ⟨rfl, .inr ⟨by decide, .inl ⟨by decide, rfl⟩⟩⟩, ⟨rfl, .inl ⟨by decide, rfl⟩⟩⟩
/-- A count above 2,048 rows, no rows, a misaligned address of a 32-bit field, and a tile whose scale is no power of two. -/
theorem wit_ArrayShapeTraps_moves : (let s := arrayHart [] [(2, 0x80100000000), (3, 0x10000), (4, 1), (5, 0x101)]; HartAlone s 0 ∧
      First (issueChecks (s.ctx 0) (.axtag 1 2 8)) (shapeAt 3 2) ∧ First (issueChecks (s.ctx 0) (.axst 1 3 4)) (shapeAt 3 4) ∧
      First (issueChecks (s.ctx 0) (.axld 3 4 3)) (4, 1) ∧ First (issueChecks (s.ctx 0) (.axldf 0 3 5 2)) (0x18, 0)) :=
  ⟨aloneOf (by decide), .inl ⟨by decide, rfl⟩, .inr ⟨by decide, .inl ⟨by decide, rfl⟩⟩,
    .inr ⟨by decide, .inr ⟨by decide, .inl ⟨by decide, rfl⟩⟩⟩, .inr ⟨by decide, .inr ⟨by decide, .inr ⟨by decide, .inr ⟨by decide, .inl ⟨by decide, rfl⟩⟩⟩⟩⟩⟩
/-- A codebook outside the scratchpad (R276). -/
theorem wit_ArrayShapeTraps_codebook : (let s := modEng 0 (fun e => { e with arr := { e.arr with v := [(4, { word := 0xE0300 })] } }) (arrayHart [] [(2, 0x7FF0), (5, 0x101)])
    HartAlone s 0 ∧ First (issueChecks (s.ctx 0) (.axldg 4 2 5 1)) (5, 0x7FF0)) :=
  ⟨aloneOf (by decide), .inr ⟨by decide, .inr ⟨by decide, .inr ⟨by decide, .inl ⟨by decide, rfl⟩⟩⟩⟩⟩
/-- Matrix products that fail each check in its turn: shape, pair, rings, field, tile, scale. -/
theorem wit_ArrayShapeTraps_products :
    (let h := (arrayHart []).ctx 0
     First (issueChecks h (.axmm 2 1 8)) (shapeAt 3 2) ∧ First (issueChecks h (.axmm 1 1 9)) (shapeAt 4 1) ∧ First (issueChecks h (.axgang 1 1 8)) (shapeAt 4 1) ∧
     First (issueChecks { h with eng := { h.eng with rings := [] } } (.axmm 1 1 8)) (shapeAt 5 1) ∧
     First (issueChecks { h with eng := { h.eng with arr := { h.eng.arr with v := [] } } } (.axmm 1 1 8)) (shapeAt 1 0) ∧
     First (issueChecks { h with eng := { h.eng with arr := { h.eng.arr with v := [(0, { word := 0x700 })] } } } (.axmm 1 1 8)) (shapeAt 6 0) ∧
     First (issueChecks h (.axmm 1 2 8)) (0x18, 0)) := by
  have ok : ¬¬ShapeOk (shapeReg ((arrayHart []).ctx 0) 1) := not_not.2 arrays_shape
  exact ⟨.inl ⟨by unfold ShapeOk; decide, rfl⟩, .inr ⟨ok, .inl ⟨by decide, rfl⟩⟩, .inr ⟨ok, .inl ⟨by decide, rfl⟩⟩,
    .inr ⟨ok, .inr ⟨by decide, .inl ⟨by decide, rfl⟩⟩⟩,
    .inr ⟨ok, .inr ⟨by decide, .inr ⟨by decide, .inr ⟨by decide, .inr ⟨by decide, .inr ⟨by decide, .inl ⟨by decide, rfl⟩⟩⟩⟩⟩⟩⟩,
    .inr ⟨ok, .inr ⟨by decide, .inr ⟨by decide, .inr ⟨by decide, .inr ⟨by decide, .inr ⟨by decide, .inr ⟨by decide, .inl ⟨by decide, rfl⟩⟩⟩⟩⟩⟩⟩⟩,
    .inr ⟨ok, .inr ⟨by decide, .inr ⟨by decide, .inr ⟨by decide, .inr ⟨by decide, .inr ⟨by decide, .inr ⟨by decide, .inr ⟨by decide, .inl ⟨by decide, rfl⟩⟩⟩⟩⟩⟩⟩⟩⟩⟩
theorem arrays_fit : FieldsFit arrays := fun v => by
  simp only [arrays, tget]
  repeat' split
  all_goals exact by decide
/-- AXSETV at issue, an empty queue and field registers within the array; a queue that holds AXE.ADD. -/
theorem wit_ArrayCaptured : HartAlone (arrayHart []) 0 ∧ arrayOp (.axsetv 3 12) = true ∧ FieldsFit ((arrayHart []).ctx 0).eng.arr ∧
    (∀ e ∈ ((arrayHart []).ctx 0).eng.aq, Captured e) ∧ (∃ t, exec (.axget 1 2) (arrayHart []) = .next t) ∧
    Captured (queued (.axeAdd 0 1 0 0)) :=
  ⟨aloneOf (by decide), rfl, arrays_fit, fun _ h => absurd h List.not_mem_nil, ⟨_, rfl⟩, arrays_fit, fun _ _ h => by cases h⟩
/-- Words that AXSETV, AXSETS and AXTT take, the first out of range. -/
theorem wit_ArrayRegisters : HartAlone (arrayHart []) 0 ∧ (Instr.axsetv 3 12).WellFormed ∧ (Instr.axsets 1 12 13).WellFormed ∧
    (bits (0x7F00 : W64) 16 4 ≠ 7 ∧ bits (0x7F00 : W64) 0 7 + bits (0x7F00 : W64) 8 7 ≤ 127 ∧ ¬bits (0x7F01 : W64) 0 7 + bits (0x7F01 : W64) 8 7 ≤ 127) ∧
    ShapeOk { w0 := 0x0109000001010001, w1 := 0x21 } ∧ ¬ShapeOk { w0 := 0x0109000001010001, w1 := 0x22 } ∧
    PassOk 0x0083FF7F83FFFFFF ∧ ¬PassOk 0x0084FF7F83FFFFFF ∧ (3 : R5).toNat < 4 ∧
    ((arrayHart []).ctx 0).eng.posted = none ∧ (let s := modEng 0 (fun e => { e with posted := some (5, 8) }) (arrayHart []); (s.ctx 0).eng.posted = some (5, 8)) ∧
    (((arrayHart [] [] (.axwait 0)).ctx 0).wait = .axwait 0 ∧ Live (arrayHart [] [] (.axwait 0)) 0 ∧ ((arrayHart [] [] (.axwait 0)).ctx 0).armed = none) :=
  ⟨aloneOf (by decide), rfl, rfl, by decide, arrays_shape, by unfold ShapeOk; decide, by unfold PassOk; decide, by unfold PassOk; decide,
    by decide, by decide, by decide, by decide, liveOf (by decide), by decide⟩
theorem headOf (i : Instr) : HeadOf (arrayHart [queued i]) 0 (queued i) [] := ⟨rfl, rfl⟩
theorem wit_ArrayElementwise : HeadOf (arrayHart [queued (.axeAdd 0 1 0 0)]) 0 (queued (.axeAdd 0 1 0 0)) [] ∧ elementwise (.axeAdd 0 1 0 0) = true ∧
    ∀ k, ∃ x, writes (arrayHart [queued (.axeAdd 0 1 0 0)]) 0 (queued (.axeAdd 0 1 0 0)) k = some (.field 0 x) :=
  ⟨headOf _, rfl, fun _ => ⟨_, rfl⟩⟩
/-- Row 0 is active and holds 1.0 in the F32 field of columns 16 to 47. -/
def floaty : State :=
  { arrayHart [queued (.axeFma 3 3 3)] with cores := [(0, { rows := [(0, 0x3F8000000000)], tags := [(0, 1)] })] }
theorem wit_ArrayArithmetic : (HeadOf (arrayHart [queued (.axeAdd 0 1 0 0)]) 0 (queued (.axeAdd 0 1 0 0)) [] ∧
      Captured (queued (.axeAdd 0 1 0 0)) ∧ Captured (queued (.axeNot 0 1)) ∧ isInt (formatOf (.axeAdd 0 1 0 0)) = true ∧
      (∃ x, integerForm (fun v => element (arrayHart []) 0 (fieldIn (queued (.axeAdd 0 1 0 0)) v) 0)
        (fun v => fWidth (fieldIn (queued (.axeAdd 0 1 0 0)) v)) false (.axeAdd 0 1 0 0) = some (0, [0, 1, 0], x)) ∧
      ∀ v ∈ [(0 : R5), 1, 0], fWidth (fieldIn (queued (.axeAdd 0 1 0 0)) v) = fmtWidth 0) ∧
    HeadOf floaty 0 (queued (.axeFma 3 3 3)) [] ∧ Captured (queued (.axeFma 3 3 3)) ∧ Active floaty 0 0 ∧
    rationalForm (fun _ => 1) (.axeFma 3 3 3) = some (3, [3, 3, 3], 9, 2) ∧ fWidth (fieldIn (queued (.axeFma 3 3 3)) 3) = fmtWidth 9 ∧
    ratIn (fmtOf 9) (element floaty 0 (fieldIn (queued (.axeFma 3 3 3)) 3) 0) = some 1 ∧ NotSubnormal (fmtOf 9) 1 ∧
    Represents (fmtOf 9) 2 ∧ NotSubnormal (fmtOf 9) 2 := by
  have big (x : ℚ) (h : 1 ≤ x) : NotSubnormal (fmtOf 9) x := by
    refine .inr ((zpow_le_one_of_nonpos₀ (by norm_num) (by decide)).trans ?_)
    rwa [abs_of_nonneg (by linarith)]
  refine ⟨⟨headOf _, ⟨arrays_fit, fun _ _ h => by cases h⟩,
      ⟨arrays_fit, fun d l h => by obtain ⟨rfl, rfl⟩ : (0 : R5) = d ∧ [(1 : R5)] = l := by simpa [widthForm, queued] using h
                                   decide⟩, by decide, ⟨_, rfl⟩, by decide⟩, ⟨rfl, rfl⟩, ⟨arrays_fit, fun _ _ h => by cases h⟩,
    ⟨by decide, by show (BitVec.ofNat 2048 1).getLsbD 0 = true; simp⟩, by norm_num [rationalForm], by decide, ?_,
    big 1 le_rfl, ⟨0x40000000, by decide, ?_⟩, big 2 (by norm_num)⟩
  · rw [ratIn, show fdec (fmtOf 9) (element floaty 0 (fieldIn (queued (.axeFma 3 3 3)) 3) 0) = .fin false (2 ^ 23) (-23) by decide]
    norm_num [ratOf]
  · rw [ratIn, show fdec (fmtOf 9) 0x40000000 = .fin false (2 ^ 23) (-22) by decide]
    norm_num [ratOf]
theorem wit_ArrayTagsAndPass : HeadOf (arrayHart [queued (.axeCmplt 3 0 1 0)]) 0 (queued (.axeCmplt 3 0 1 0)) [] ∧ isInt 0 = true ∧
    HeadOf (arrayHart [queued (.axtag 3 2 10)]) 0 (queued (.axtag 3 2 10)) [] ∧ (10 : BitVec 4).toNat ≤ 10 ∧
    (let e := { queued (.axpass 2) with regs := { arrays with psel := 0x0083FF7F83FFFFFF } };
      HeadOf (arrayHart [e]) 0 e [] ∧ PassOk e.regs.psel) :=
  ⟨headOf _, by decide, headOf _, by decide, ⟨rfl, rfl⟩, by unfold PassOk; decide⟩
theorem wit_ArrayResults : HeadOf (arrayHart [queued (.axsum 5 0 0 0)]) 0 (queued (.axsum 5 0 0 0)) [] ∧ HeadOf (arrayHart [queued (.axmin 5 0 1 0)]) 0 (queued (.axmin 5 0 1 0)) [] ∧
    (let s := modEng 0 (fun e => { e with aresults := [(5, 9)] }) (arrayHart []); (s.ctx 0).eng.aresults = [(5, 9)]) := ⟨headOf _, headOf _, by decide⟩
/-- Element 0 of one element, in the scratchpad and behind it; a tile of 1 by 1 at its top. -/
theorem wit_ArrayTransfers : HeadOf (arrayHart [queued (.axld 0 2 3)]) 0 (queued (.axld 0 2 3)) [] ∧
    transferBusy (arrayHart [queued (.axld 0 2 3)]) 0 (queued (.axld 0 2 3)) = false ∧
    (let s := { arrayHart [queued (.axld 0 2 3)] with
                net := [{ id := 7, cid := 0, part := 0, addr := 0, pcn := 0, ofs := 0x40000, body := .store [5] }]
                clusters := [(0, { part := some 0, xw := [(0, 0x9000038000044010)] })] }
     HeadOf s 0 (queued (.axld 0 2 3)) [] ∧ transferBusy s 0 (queued (.axld 0 2 3)) = true) ∧ fWidth (fieldIn (queued (.axld 0 2 3)) 0) = 8 ∧
    placeOf 0 8 0 = (0, 1, 0) ∧ arrayOk (queued (.axld 0 2 3)) 0 1 { x := true } = true ∧
    lockedByte ((arrayHart [queued (.axst 0 2 3)]).ctx 0) 300 1 = none ∧ arrayOk (queued (.axld 0 2 3)) 0x8000 1 { x := true } = false ∧
    HeadOf (arrayHart [queued (.axldf 0 2 3 1)]) 0 (queued (.axldf 0 2 3 1)) [] ∧ gangSize (arrayHart []) 0 = 1 ∧
    arrayOk (queued (.axldf 0 2 3 1)) 0x7FFF 1 { x := true } = true :=
  ⟨headOf _, by decide, ⟨⟨rfl, rfl⟩, by decide⟩, by decide, by decide, by decide, by decide, by decide, headOf _, by decide, by decide⟩
/-- Two members with AXGANG at the heads of their queues, before or after they join. -/
def gang (joined : Bool) : State :=
  { ctxs := [(0, { resident := true, task := some 5, eng := arrayEngines [{ queued (.axgang 1 1 8) with joined := joined }] }),
      (1, { resident := true, gcn := 1, task := some 5, eng := arrayEngines [{ queued (.axgang 1 1 8) with joined := joined }] })]
    tasks := [(5, { members := [0, 1], phase := .placed })] }
theorem rowReady (s : State) (c : Nat) (e : AEntry) (h : e.rowDone = false ∧ 1 ≤ filledOf (ring s c (shAk (mmShape e))) ∧ 1 ≤ freeOf (ring s c (shCk (mmShape e))) ∧
    shAk (mmShape e) ≠ shCk (mmShape e) ∧ mmFree s c e = true ∧
    arrayOk e (slotsOfMm s c e).1 (shK (mmShape e) * fmtBytes (shA (mmShape e))) { x := true } = true ∧
    arrayOk e (slotsOfMm s c e).2 (shN (mmShape e) * fmtBytes (shC (mmShape e))) { w := true } = true) : RowReady s c e := h
/-- The same row, about to be published in a move of its own. -/
def laterRow : State := { arrayHart [queued (.axmm 1 1 8)] with choice := { later := true } }
theorem wit_MatrixProducts_later : HeadOf laterRow 0 (queued (.axmm 1 1 8)) [] ∧ RowReady laterRow 0 (queued (.axmm 1 1 8)) ∧ laterRow.choice.later = true :=
  ⟨⟨rfl, rfl⟩, rowReady _ _ _ (by decide), rfl⟩
theorem wit_MatrixProducts : HeadOf (arrayHart [queued (.axmm 1 1 8)]) 0 (queued (.axmm 1 1 8)) [] ∧
    RowReady (arrayHart [queued (.axmm 1 1 8)]) 0 (queued (.axmm 1 1 8)) ∧ ((arrayHart [queued (.axmm 1 1 8)]).ctx 0).image = none ∧
    (let x := mmShape (queued (.axmm 1 1 8));
      isInt (shA x) = true ∧ isInt (shB x) = true ∧ shC x = 9 ∧ shKb x = 1 ∧ shK x ≤ 32 ∧ shN x = 1 ∧ shAcc x = false ∧
        (queued (.axmm 1 1 8)).sigma + (tget (queued (.axmm 1 1 8)).regs.v (shBase x) {}).sigma = 0) ∧
    (let e := { queued (.axmm 1 1 8) with pw := [] };
      HeadOf (arrayHart [e]) 0 e [] ∧ 1 ≤ filledOf (ring (arrayHart [e]) 0 1) ∧ 1 ≤ freeOf (ring (arrayHart [e]) 0 2) ∧ mmFree (arrayHart [e]) 0 e = true ∧ arrayOk e 0 1 { x := true } = false) ∧
    ((gang false).task 5).members = [0, 1] ∧ ((gang false).ctx 1).exited = none ∧
    HeadOf (gang false) 1 (queued (.axgang 1 1 8)) [] ∧ Alike (queued (.axgang 1 1 8)) (queued (.axgang 1 1 8)) ∧
    HeadOf (gang true) 1 { queued (.axgang 1 1 8) with joined := true } [] ∧ RowReady (gang true) 1 { queued (.axgang 1 1 8) with joined := true } :=
  ⟨headOf _, rowReady _ _ _ (by decide), by decide, by decide, ⟨⟨rfl, rfl⟩, by decide, by decide, by decide, by decide⟩, by decide, by decide, ⟨by decide, by decide⟩,
    ⟨rfl, fun _ _ => rfl, fun _ _ => rfl⟩, ⟨by decide, by decide⟩, rowReady _ _ _ (by decide)⟩

/-! Bank commands and bank arithmetic units -/

/-- A hart with its bank queue, an offset in g2, a destination in g3, a geometry of two columns in g4. -/
def banker (q : List BCmd) (w : Wait := .none) (p : Option Poison := none) : State :=
  hart [(2, 0x100), (3, 0x200), (4, 64), (5, 4), (6, 0x7FC0)] { bq := q, poison := p } w
theorem bankHart (q : List BCmd) : BankHart (banker q) 0 := ⟨aloneOf ⟨rfl, by simp [banker, hart, State.ctx, tget], rfl, rfl, rfl⟩, rfl⟩
def cmd (k : BKind) : BCmd := { kind := k, ce := true, cnt := 1 }
theorem bankTurn (k : BCmd) (w : Wait) : BankTurn (banker [k] w) 0 k [] := ⟨rfl, rfl, by simp [banker, hart]⟩
theorem wit_BankIssue : BankHart (banker []) 0 ∧ ((banker []).ctx 0).eng.bq.length < 16 ∧
    ¬((banker (List.replicate 16 (cmd (.run 0)))).ctx 0).eng.bq.length < 16 ∧
    ((0x7000 : W64).toNat % 8 = 0 ∧ 0x7000 + 4096 ≤ 0x8000 ∧ protOk ((banker []).ctx 0).csr.pw ((banker []).ctx 0).priv 0x7000 4096 { x := true } = true) ∧
    (mode 64 = 0 ∧ 0x100 + 64 ≤ 0x780000 ∧ (0x200 : W64) &&& ~~~0x37FFFFF#64 = 0 ∧ 0 ∈ gangCores (banker []) 0) ∧
    ((getG ((banker []).ctx 0).regs 5).toNat % 32 ≠ 0 ∧ (0x7FFFC0 : W64).toNat % 32 = 0 ∧ ¬(0x7FFFC0 : W64).toNat < 0x780000) ∧
    ((modCluster 0 (fun cl => { cl with lent := some 1 }) (banker [])).cluster 0).lent.isSome = true ∧
    encode .bkfence = some 0xB8000004 ∧ fMaj 0xB8000004 = 0x2E ∧
    ((0x7008 : W64).toNat % 8 = 0 ∧ 0x8000 < (0x7008 : W64).toNat + 4096) ∧ (mode 0x0001000000000040 ≠ 0 ∧ (encode (.bkcopy 1 2 3)).isSome = true) ∧
    (mode 64 = 0 ∧ bits (0x210 : W64) 0 23 % 32 ≠ 0) ∧ (0x800000 ≤ (0x800000 : W64).toNat ∧ (0x800000 : W64).toNat % 32 = 0) ∧
    (0 ∈ gangCores (banker []) 0 ∧ len 64 = 64 ∧ (0x77FFC0 : W64).toNat + 64 ≤ 0x780000 ∧ 0x780000 < bits (0x77FFE0 : W64) 0 23 + 64 ∧
      bits (0x77FFE0 : W64) 0 23 + 64 ≤ 0x800000 ∧ 0x780000 < (0x77FFE0 : W64).toNat + 64) :=
  ⟨bankHart _, by decide⟩
def poison1 : Poison := { tvalue := 0x1000040, counter := none }
theorem wit_BankFence : ((banker []).ctx 0).armed = none ∧ BankHart (banker []) 0 ∧ ¬FenceWaits ((banker []).ctx 0) ∧ ((banker []).ctx 0).eng.poison = none ∧
    ((banker [] .none (some poison1)).ctx 0).eng.poison = some poison1 ∧ FenceWaits ((banker [cmd (.run 0)]).ctx 0) ∧
    (((banker [] .bkfence).ctx 0).wait = .bkfence ∧ Live (banker [] .bkfence) 0 ∧ ¬FenceWaits ((banker [] .bkfence).ctx 0)) ∧
    ((banker [] .bkfence (some poison1)).ctx 0).eng.poison = some poison1 :=
  ⟨by decide, bankHart _, by simp [FenceWaits, banker, hart, State.ctx, tget], by decide, by decide, Or.inl (by decide),
    ⟨by decide, liveOf (by decide), by simp [FenceWaits, banker, hart, State.ctx, tget]⟩, by decide⟩
/-- A run of context 0 that has reached its end with an uncorrectable column. -/
def ended : State :=
  { banker [{ cmd (.run 0) with started := true }] with
    banks := [(0, { pc := 0x20, slot := true, run := some { cid := 0, psn := some 0x40, ended := some (0, 7, 0x20) } })] }
theorem wit_OverlayRuns : BankTurn (banker [cmd (.load 0x7000)]) 0 (cmd (.load 0x7000)) [] ∧ ((banker [cmd (.load 0x7000)]).ctx 0).image = none ∧
    (0x7000 : W64).toNat + 4096 ≤ 0x8000 ∧ BankTurn (banker [cmd (.run 9)]) 0 (cmd (.run 9)) [] ∧ (cmd (.run 9)).started = false ∧
    ((ended.bank 0).run.bind (·.ended)) = some (0, 7, 0x20) ∧ (ended.ctx 0).eng.bq.length = 1 :=
  ⟨bankTurn _ _, by decide, by decide, bankTurn _ _, by decide, by decide, by decide⟩
theorem wit_BankCopyAndMeta : BankTurn (banker [{ cmd (.copy 0x100 0 0x200 64) with slot := true }]) 0 { cmd (.copy 0x100 0 0x200 64) with slot := true } [] ∧
    (32 * (cmd (.copy 0x100 0 0x200 64)).pos < 64 ∧ 0x100 % 32 = 0 ∧ cool (banker []) = true) ∧ Sound (banker []) 0 8 ∧
    BankTurn (banker [cmd (.copy 0x100 0 0x200 64)]) 0 (cmd (.copy 0x100 0 0x200 64)) [] ∧
    BankTurn (banker [{ cmd (.copy 0x100 0 0x200 64) with pos := 2 }]) 0 { cmd (.copy 0x100 0 0x200 64) with pos := 2 } [] ∧
    memberOn (banker []) 0 0 = some 0 ∧ BankTurn (banker [{ cmd (.mdx 5 0x40 1 3) with ce := false }] .bkmeta) 0 { cmd (.mdx 5 0x40 1 3) with ce := false } [] ∧
    ((banker [] .bkmeta).ctx 0).wait = .bkmeta ∧ ((banker [] .bkmeta).ctx 0).armed = none ∧ ((banker [] .bkmeta).ctx 0).halted = false ∧
    cool (banker [] .bkmeta) = true ∧ Sound (banker [] .bkmeta) 0 (0x40 / 32) :=
  ⟨bankTurn _ _, by decide, by unfold Sound; decide, bankTurn _ _, bankTurn _ _, by decide, bankTurn _ _, by decide, by decide, by decide, by decide,
    by unfold Sound; decide⟩
/-- A GET and a PUT of hart 0 of one column of bank 0, which a BKCOPY has overwritten. -/
def column (k : XKind) : Entry :=
  { eid := 3, kind := k, loc := 0x100, far := 0x200, len := 32, part := [{ off := 0, len := 32, base := 0, il := 0, poff := 0x200, gr := 1 }], xlated := 32 }
def overwritten (k : XKind) : State :=
  { moving (column k) with banks := [(0, { before := [(16, { cid := 0, bytes := List.replicate 32 5, mdata := 0, data := true })] })] }
/-- A transfer that meets the column as it was. -/
theorem wit_UnfencedColumns_old : ∀ k, let s := { overwritten k with choice := { old := [16] } }
    Canonical s ∧ Oldest s 0 (column k) [] ∧ s.choice.pick = 0 ∧ 0x200 / 32 ∈ s.choice.old :=
  fun k => ⟨⟨rfl, by simp [overwritten, moving, hartBy, duo, hart, modCtx, tput, tins, tdel]⟩, ⟨rfl, by simp⟩, rfl, List.mem_singleton.2 rfl⟩
/-- Hart 0 on cluster 0 and hart 1 on cluster 1: an entry of hart 1 comes after a write of hart 0 that a release of cycle 6 covers where release and later
acquire are of PACKAGE scope, and may come before it where the acquire is earlier, or either is of CLUSTER scope. -/
theorem wit_UnfencedColumns_others :
    let s : State := { ctxs := [(0, { gcn := 0 }), (1, { gcn := 8 })] }
    let x : Nat → Before := fun z => { cid := 0, bytes := [], mdata := 0, data := true, fenced := true, cover := [{ scope := z, cycle := 6, hart := 0 }] }
    mayPrecede s 1 [(3, 6)] (x 3) = false ∧ mayPrecede s 1 [(3, 5)] (x 3) = true ∧ mayPrecede s 1 [(1, 6)] (x 3) = true ∧
      mayPrecede s 1 [(3, 6)] (x 1) = true ∧ mayPrecede s 1 [] (x 3) = true ∧ mayPrecede s 0 [] (x 3) = false := by decide
theorem wit_UnfencedColumns_precedes : (∀ k, Precedes (overwritten k) 0 [] { cid := 0, bytes := List.replicate 32 5, mdata := 0, data := true }) ∧
    ¬Precedes (overwritten .get) 0 [] { cid := 0, bytes := [], mdata := 0, data := true, fenced := true } ∧
    ¬Precedes (overwritten .get) 0 [] { cid := 0, bytes := [], mdata := 0, data := true, met := [0] } :=
  ⟨fun _ => ⟨by simp, rfl⟩, by simp [Precedes], fun h => absurd h.1 (by decide)⟩
/-- R196: a PUT of hart 0 has written a column: an entry of hart 1 on the same cluster, whose DMA engine has made that write, does not meet the column as
it was, an entry of hart 2 on another cluster may, until a GET or an instruction fetch there has met it. -/
theorem wit_UnfencedColumns_engine :
    let s : State := { ctxs := [(0, { gcn := 0 }), (1, { gcn := 1 }), (2, { gcn := 8 })] }
    let x : Before := { cid := 0, bytes := [], mdata := 0, data := false, fenced := true, cover := [{ scope := 4, cycle := 0, hart := 0 }], met := [0] }
    let t := meet 1 0 16 { s with banks := [(0, { before := [(16, x)] })] }
    mayPrecede s 1 [] x = false ∧ mayPrecede s 2 [] x = true ∧ (beforeOf t 0 16).map (fun y => mayPrecede t 2 [] y) = some false := by decide
/-- Two columns of a transfer of 64 bytes, to be left, or read ahead out of order; and a column that is left. -/
def columns (k : XKind) (l : List LateWord) : Entry :=
  { eid := 3, kind := k, loc := 0x100, far := 0x200, len := 64, part := [{ off := 0, len := 64, base := 0, il := 0, poff := 0x200, gr := 1 }], xlated := 64, late := l }
theorem wit_UnfencedColumns_columns : (∀ k, Canonical (moving (columns k [])) ∧ Oldest (moving (columns k [])) 0 (columns k []) []) ∧
    (∀ k ∈ [XKind.put, .get], dmaTurn (moving (columns k [])) 0 (columns k []) = true ∧ cool (moving (columns k [])) = true) ∧
    (∀ j ∈ [0, 1], pageToPhys (0x200 + 32 * j) 0 0 < 0x10000000000 ∧ pageToPhys (0x200 + 32 * j) 0 0 % 32 = 0) ∧ Sound (moving (columns .get [])) 0 17 ∧
    (let w : LateWord := { ctx := none, addr := 0x220, bytes := List.replicate 32 7, off := 32 }
     (columns .put [w]).late[0]? = some w ∧ Oldest (moving (columns .put [w])) 0 (columns .put [w]) [] ∧ w.bytes.length = 32 ∧
       ∀ g, ((moving (columns .put [w])).bank g).before = []) :=
  ⟨fun k => ⟨⟨rfl, by simp [moving, hartBy, duo, hart, modCtx, tput, tins, tdel]⟩, oldest _⟩, by decide, by decide, by unfold Sound; decide, rfl, oldest _, rfl, fun _ => rfl⟩
theorem wit_UnfencedColumns : (Sound (banker []) 0 16 ∧ ∀ x ∈ ((banker []).bank 0).before, x.1 ≠ 16) ∧
    (∀ k, Canonical (overwritten k) ∧ Oldest (overwritten k) 0 (column k) [] ∧ Sound (overwritten k) 0 16) ∧ pageToPhys 0x200 0 0 = 0x200 ∧ 0x200 % 32 = 0 ∧
    (∀ k ∈ [XKind.get, .put], dmaTurn (overwritten k) 0 (column k) = true ∧ endsBusy (overwritten k) 0 (column k) (.phys [(0x200, 32)]) 32 = false ∧
      cool (overwritten k) = true ∧ ((overwritten k).ctx 0).image = none) ∧ (((overwritten .get).bank 0).before.map (·.1)) = [16] :=
  ⟨⟨by unfold Sound; decide, by decide⟩, fun k => ⟨⟨rfl, by simp [overwritten, moving, hartBy, duo, hart, modCtx, tput, tins, tdel]⟩, oldest _, ⟨rfl, .inl rfl⟩⟩, by decide,
    by decide, by decide, by decide⟩
/-- A request of bank 0, hot rows, parked requests, and the cycles where the clauses begin. -/
def streaming (t : Nat) : State :=
  { gtime := t, mod := { streamQ := [0] }
    banks := [(0, { slot := true, lastCol := 0, requests := [(3, 128), (4, 129)], hot := [4], parked := [(4, .fetch 1)], lastAdmit := [(4, 1272)] })] }
theorem wit_SlotsAndHotRows : (streaming 0).mod.streamQ = [0] ∧ slotsHeld (streaming 0) (stackOf 0) < 512 ∧
    ((streaming 1280).bank 0).lastCol + 1280 ≤ (streaming 1280).gtime ∧ (streaming 1024).gtime % 1024 = 0 ∧ ((streaming 1024).bank 0).window ≠ (streaming 1024).gtime ∧ (streaming 1025).gtime % 1024 ≠ 0 ∧
    ((streaming 1280).bank 0).parked = [(4, .fetch 1)] ∧ 4 ∈ ((streaming 1280).bank 0).hot ∧ tget ((streaming 1280).bank 0).lastAdmit 4 0 + 8 ≤ (streaming 1280).gtime :=
  by decide
theorem wit_SlotsAndHotRows_full : 512 ≤ slotsHeld { banks := (List.range 512).map fun g => (g, { slot := true }) } 0 := by decide +kernel
/-- The last column outside the save area, the first inside, a misaligned offset, and a unit without a slot. -/
theorem wit_BauColumns : BauIssues (bau 0) 0 ∧ ColumnGoes (bau 0) 0 0x77FFE0 ∧ (Instr.cld 2 5).WellFormed ∧ (Instr.cst 2 5).WellFormed ∧
    (Instr.cstM 2 5 6).WellFormed ∧ (Instr.cldm 2 5 6 7).WellFormed ∧ (getBG ((bau 0 [(5, 0x77FFE0)]).bank 0) 5).toNat = 0x77FFE0 ∧
    (getBG ((bau 0 [(5, 0x780000)]).bank 0) 5).toNat = 0x780000 ∧ (getBG ((bau 0 [(5, 1)]).bank 0) 5).toNat % 32 ≠ 0 ∧
    ((modBank 0 (fun b => { b with slot := false }) (bau 0)).bank 0).slot = false :=
  ⟨bauOf (by decide), ⟨by decide, by decide, by decide, by decide, by decide, by unfold Sound; decide⟩, rfl, rfl, rfl, rfl, by decide⟩
theorem wit_LaneInstructions : BauIssues (bau 0) 0 ∧ (laneForm (.laneFma 3 1 2 11)).isSome = true ∧ (Instr.laneFma 3 1 2 11).WellFormed ∧
    (Instr.laneMin 3 1 2 0).WellFormed ∧ isInt 0 = true ∧ (Instr.laneAnd 3 1 2).WellFormed ∧ (Instr.laneMov 3 1).WellFormed ∧ (Instr.rsum 3 1 2).WellFormed ∧
    (Instr.splat 3 5 9).WellFormed ∧ (Instr.lget 6 4 7).WellFormed ∧ (Instr.lput 4 6 7).WellFormed ∧ (Instr.lld 3 5).WellFormed ∧ (Instr.lst 3 5).WellFormed ∧
    (getBG ((bau 0 [(5, 0x3E0)]).bank 0) 5).toNat % 32 = 0 ∧ (getBG ((bau 0 [(5, 0x3E0)]).bank 0) 5).toNat + 32 ≤ 0x400 :=
  ⟨bauOf (by decide), by decide, rfl, rfl, by decide, rfl, rfl, rfl, rfl, rfl, rfl, rfl, rfl, by decide, by decide⟩
theorem wit_BauSignals : BauIssues (bau 0) 0 ∧ (15 : R5).toNat < 16 ∧ ((bau 0).bank 0).run.isSome = true := ⟨bauOf (by decide), by decide, by decide⟩

/-! The host port, the dispatcher -/

/-- Virtual function 0 of partition 0 with slots, entries and frames, and one cluster. -/
def vf0 (f : Owner → Owner) (s : State) : State :=
  { s with
    owners := [(0, f { vfcfg := 0x0001008008020000 })]
    parts := [(0, { live := true, count := 1, map := [(0, presentEntry 0)], ptcfg := 0x8008000000000000 })]
    clusters := [(0, { part := some 0 })] }
theorem wit_HostRegisterWrites : ((vf0 id {}).owner 0).mbdoor = none ∧ ((vf0 (fun o => { o with mbdoor := some 1 }) {}).owner 0).mbdoor.isSome = true ∧
    ((vf0 id {}).part 0).shared = [] ∧
    (let s := modPart 0 (fun t => { t with shared := [(0, { pad := [(5, 9)] })] }) (vf0 id {})
     (s.part 0).shared.length = 1 ∧ serves (s.cluster 0) = some 0 ∧ (presentEntry 0).getLsbD 63 = true ∧ (presentEntry 0).getLsbD 62 = false ∧
       Memory.wf [(5, 9)] = true ∧ (5 : Nat) < 0x40000 - (s.cluster 0).msize * 0x2000) := by decide
/-- A queue that holds 16 descriptors and one that would hold 17; a ring in host memory that is not aligned; a table of 8 banks. -/
theorem wit_QueueAndTableRegisters : (16 : Nat) ≤ 2 ^ bits (tget ((vf0 id {}).owner 0).qcfg 0 0x0004000000000000) 48 5 ∧
    ¬(17 : Nat) ≤ 2 ^ bits (tget ((vf0 id {}).owner 0).qcfg 0 0x0004000000000000) 48 5 ∧
    tget ((vf0 id {}).owner 0).qhead 0 0 = tget ((vf0 id {}).owner 0).qtail 0 0 ∧
    tget ((vf0 (fun o => { o with qtail := [(0, 1)] }) {}).owner 0).qhead 0 0 ≠ tget ((vf0 (fun o => { o with qtail := [(0, 1)] }) {}).owner 0).qtail 0 0 ∧
    RingPlaced (vf0 id {}) ((vf0 id {}).owner 0) 0x8004000000000000 ∧
    ¬RingPlaced (vf0 id {}) { (vf0 id {}).owner 0 with evbase := 32 } 0x8004000000000000 ∧
    RingPlaced (vf0 id {}) { (vf0 id {}).owner 0 with evbase := 0x8000000000040000 } 0xC004000000000000 ∧
    placeOk (vf0 id {}) 0 0 1 32768 = true ∧ tableRetired (vf0 id {}) 0 1 32768 = false ∧ placeOk (vf0 id {}) 0 0x800000 1 32768 = false :=
  ⟨by decide, by decide, by decide, by decide, by unfold RingPlaced; decide, by unfold RingPlaced; decide,
    ⟨by decide, by decide, by decide, 0, by decide, by decide, by decide⟩, by decide, by decide, by decide⟩
/-- An enabled queue with one descriptor at the start of host memory: a launch of class 0 with one task at address 0, or 0. -/
def launching (m : Memory) : State :=
  { vf0 (fun o => { o with qcfg := [(0, 0x8004000000000000)], qtail := [(0, 1)] }) {} with mem := m }
theorem wit_LaunchReading : (tget ((launching []).owner 0).qcfg 0 0).getLsbD 63 = true ∧ tget ((launching []).owner 0).qtail 0 0 ≠ tget ((launching []).owner 0).qhead 0 0 ∧
    tget ((launching []).owner 0).reading 0 none = none ∧ ((launching []).owner 0).migrating = false ∧
    DescriptorOk (descriptor (launching [(0x800000000004, 1)]) 0 0) 0 ∧ ¬DescriptorOk (descriptor (launching []) 0 0) 0 ∧
    (tget ((vf0 id {}).owner 0).qcfg 0 0x0004000000000000).getLsbD 63 = false :=
  ⟨by decide, by decide, by decide, by decide, by unfold DescriptorOk; decide +kernel, by unfold DescriptorOk; decide +kernel, by decide⟩
/-- A page table in bank 0 whose first entry maps virtual page 0 to frame 2, and a record of a task of one member that writes tile 0, or none. -/
def tabled (ok writes : Bool) (vf : Nat) : State :=
  { vf0 (fun o => { o with reading := [(0, some 3)], vfcfg := BitVec.ofNat 64 vf, pool := [(0, 0x40000)] }) {} with
    nextId := 10, launches := [(3, { ntask := 3 })]
    mem := [(2, 2), (6, 192), (7, 128)] ++ (if ok then [(0x20000, (1 : Byte))] else []) ++ (if writes then [(0x20040, 1)] else [])
    tasks := [(4, { launch := 3, enq := 4, n := 1, wr := [(0, 1)] })] }
/-- Records that cannot be read, fail the check, find no quota, write nothing, or write the tile of an earlier task. -/
theorem wit_TaskReading : tget ((tabled true false 0x0001008008020000).owner 0).reading 0 none = some 3 ∧
    ((tabled true false 0x0001008008020000).launch 3).next + 1 < ((tabled true false 0x0001008008020000).launch 3).ntask ∧
    (tabled true false 0x0001008008020000).versions = [] ∧
    ((readRecord 0 0 0 (launching [])).1 = none ∧ (readRecord 0 0 0 (tabled false false 0x0001008008020000)).1 = some 0 ∧ recordBad 0 = true) ∧
    (readRecord 0 0 0 (tabled true false 0x0001008008020000)).1 = some 1 ∧ recordBad 1 = false ∧
    (quotaFree (tabled true false 0x0001008008020000) 0 = true ∧ quotaFree (tabled true false 0x0001000000000000) 0 = false) ∧
    (tileSet 1 0 = [] ∧ tileSet 1 4 = []) ∧
    (readRecord 0 0 0 (tabled true true 0x0001008008020000)).1 = some (1 + 1#1024 <<< 512) ∧ recordBad (1 + 1#1024 <<< 512) = false ∧
    tileSet (1 + 1#1024 <<< 512) 4 = [(0, 1)] ∧ Earlier (tabled true true 0x0001008008020000) 0 10 (4, { launch := 3, enq := 4, n := 1, wr := [(0, 1)] }) ∧
    Meet [(0, 1)] [(0, 1)] ∧ (walk 0 0 0 (tabled true true 0x0001008008020000)).1 = .entry 0x80C0000000020000 ∧
    malformed (tabled true true 0x0001008008020000) 0 0x80C0000000020000 = false ∧ 
    freeFrame (tabled true true 0x0001008008020000) 0 0 0x80C0000000020000 = some 0 ∧ cool (tabled true true 0x0001008008020000) = true :=
  ⟨by decide, by decide, by decide, by decide +kernel, by decide +kernel, by decide +kernel, by decide, by decide +kernel, by decide +kernel,
    by decide +kernel, by decide +kernel, by unfold Earlier; decide, by unfold Meet; decide, by decide +kernel, by decide, by decide +kernel, by decide⟩
def versioned (w : Version) (k : Task) : State :=
  { tabled true true 0x0001008008020000 with versions := [(6, w)], tasks := [(5, k)] }
theorem wit_VersionsAndEligibility : (let w : Version := { writer := 5, frame := 0x30000 }
      w.filled = false ∧ w.source = none ∧ w.il = 0 ∧ w.frame % 0x10000 = 0 ∧ w.frame + 0x10000 ≤ 0x10000000000) ∧
    (isRetired (versioned {} {}) 0 0x30000 = false ∧ isRetired { versioned {} {} with banks := [(0, { retired := [3] })] } 0 0x30000 = true) ∧
    ((versioned {} { n := 1 }).task 5).phase = .waiting ∧ ((versioned {} { n := 1 }).task 5).n ≠ 0 ∧ ((versioned {} { n := 1 }).task 5).waits = [] ∧
    (∀ x ∈ (versioned {} { n := 1, enq := 5 }).tasks, ¬x.2.enq < 5) ∧
    (let s := versioned {} { n := 1, own := [(0, 6)] }
     ∃ v ∈ (s.task 5).own, (s.version v.2).filled = false) ∧
    (let s : State := { versioned { writer := 4 } { n := 1, enq := 5, wr := [(0, 1)] } with
                        tasks := [(4, { enq := 4, phase := .done }), (5, { n := 1, enq := 5, wr := [(0, 1)] })] }
     (s.version 6).installed = false ∧ (s.version 6).freed = false ∧ hasTile (s.task 5).wr (s.version 6).tile = true ∧ (s.task 5).own = [] ∧
       (s.version 6).asid = (s.task 5).asid.toNat ∧ (s.task 4).enq < (s.task 5).enq ∧ ∀ x ∈ s.versions, x.1 = 6) ∧
    cool (versioned {} {}) = true := by decide
/-- A filled version of tile 0 whose writer has completed; with another version of a later writer. -/
def installing (more : List (Nat × Version)) : State :=
  { versioned {} {} with
    versions := [(6, { writer := 5, frame := 0x30000, filled := true })] ++ more
    tasks := [(5, { phase := .done, enq := 1 }), (7, { enq := 2 })] }
theorem wit_VersionInstallation : (let w := (installing []).version 6; w.freed = false ∧ w.installed = false ∧ w.filled = true) ∧
    ((installing []).task 5).phase = .done ∧
    ((installing [(8, { writer := 7 })]).version 8).freed = false ∧ ((installing [(8, { writer := 7 })]).task 5).enq < ((installing [(8, { writer := 7 })]).task 7).enq ∧
    (∀ x ∈ (installing [(8, { writer := 7 })]).tasks, (0, 6) ∉ x.2.reads) ∧ (∀ x ∈ (installing []).versions, x.1 = 6) ∧
    (walk 0 0 0 (installing [])).1 = .entry 0x80C0000000020000 ∧ (tableSlots 0x8008000000000000 0 0).head? = some 0 ∧
    memWord (installing []) 0 16 = 0x80C0000000020000 ∧
    (((installing []).version 6).frame % 0x10000 = 0 ∧ ((installing []).version 6).frame < 2 ^ 40 ∧ serves ((installing []).cluster 0) = some 0) ∧
    (∀ x ∈ (installing []).tasks, hasTile x.2.rd 0 = false) ∧ ∀ x ∈ tableSlots 0x8008000000000000 0 0, x < 0x10000000000 ∧ x % 16 = 0 ∧
      Sound (installing []) (x / 0x800000) (x % 0x800000 / 32) :=
  ⟨by decide, by decide, by decide, by decide, by decide, by decide, by decide +kernel, by decide +kernel, by decide +kernel,
    by decide, by decide, by unfold Sound; decide +kernel⟩
/-- One version in an aligned frame, filled or installed. -/
theorem wit_VersionFrames : VersionFramed (installing []) ∧ VersionFramed (versioned { frame := 0x30000 } {}) ∧
    (∃ t, exec (.versionInstall 6) (installing []) = .next t) ∧ (∃ t, exec (.versionFill 6) (versioned { frame := 0x30000 } {}) = .next t) ∧
    ∃ t, exec (.taskEnqueue 0 0) (installing []) = .next t :=
  ⟨by unfold VersionFramed; decide, by unfold VersionFramed; decide, ⟨_, rfl⟩, ⟨_, rfl⟩, ⟨_, rfl⟩⟩
/-- An eligible task of one member, and a partition with one free cluster. -/
def placing : State := { vf0 id {} with launches := [(3, {})], nextId := 10, tasks := [(5, { launch := 3, phase := .eligible, n := 1 })] }
theorem wit_TaskPlacement : placeNew placing (placing.task 5) = some (0, 0, [0]) ∧ usedSlots placing 0 0 < 4 ∧
    placeNew { placing with ctxs := (List.range 32).map fun i => (i + 1, { gcn := i % 8, image := some {} }) } (placing.task 5) = none := by decide
/-- Two eligible tasks of one owner, or of two owners with the pointer at VF 0, whose deficit does not suffice; the count of opportunities. -/
def choosing (two : Bool) (n : Nat) : State :=
  { placing with
    owners := if two then [(0, placing.owner 0), (1, placing.owner 0)] else placing.owners
    launches := [(3, {}), (4, { vf := if two then 1 else 0 })]
    parts := [(0, { placing.part 0 with dispatches := n, lastDispatch := 1, deficit := [(4, 2)] })]
    tasks := [(5, { launch := 3, phase := .eligible, n := 1, enq := 1 }), (6, { launch := 4, phase := .eligible, n := 1, enq := 2 })] }
theorem chosen_one : Chosen placing 0 0 5 (placing.task 5) :=
  ⟨by decide, by decide, by decide, by decide, by decide, by decide, by decide, fun h => absurd h (by decide), by decide,
    fun _ => ⟨⟨by decide, by decide, rfl, by unfold Sooner; decide⟩, .inl (by decide)⟩⟩
theorem chosen_first : Chosen (choosing false 0) 0 0 5 ((choosing false 0).task 5) :=
  ⟨by decide, by decide, by decide, by decide, by decide, by decide, by decide, fun h => absurd h (by decide), by decide,
    fun _ => ⟨⟨by decide, by decide, rfl, by unfold Sooner; decide⟩, .inl (by decide)⟩⟩
theorem chosen_other : Chosen (choosing true 0) 0 1 6 ((choosing true 0).task 6) :=
  ⟨by decide, by decide, by decide, by decide, by decide, by decide, by decide, fun h => absurd h (by decide), by decide,
    fun _ => ⟨⟨by decide, by decide, rfl, by unfold Sooner; decide⟩, .inr (.inr ⟨0, by decide, .inr (by decide), by decide, by decide,
      .inr ⟨5, (choosing true 0).task 5, ⟨by decide, by decide, by decide, by unfold Sooner; decide⟩, by decide⟩⟩)⟩⟩
theorem chosen_oldest : Chosen (choosing true 63) 0 0 5 ((choosing true 63).task 5) :=
  ⟨by decide, by decide, by decide, by decide, by decide, by decide, by decide, by unfold Older; decide, by decide, fun h => absurd rfl h⟩
/-- A saved gang of one, whose core is free, beside a new task. -/
def returning : State :=
  { placing with
    ctxs := [(9, { gcn := 3, task := some 5, image := some { pad := [(8, 1)], fe := [1] } })]
    tasks := [(5, { launch := 3, phase := .evicted, n := 1, members := [9] }), (6, { launch := 3, phase := .eligible, n := 1 })] }
theorem chosen_gang : Chosen returning 0 0 5 (returning.task 5) :=
  ⟨by decide, by decide, by decide, by decide, by decide, by decide, by decide, fun h => absurd h (by decide), by decide,
    fun _ => ⟨⟨by decide, by decide, rfl, by unfold Sooner; decide⟩, .inl (by decide)⟩⟩
theorem wit_Dispatch_gang : Canonical returning ∧ (returning.task 5).phase = .evicted ∧ placeOld returning (returning.task 5) = some 0 ∧ (returning.task 5).members = [9] ∧
    (returning.core 3).events = [] ∧ ((returning.ctx 9).image.map fun im => im.pad.wf && im.pad.all (fun x => x.1 < 0x8000) && im.fe.all (· < 0x1000)) = some true :=
  ⟨⟨by decide, by decide⟩, by decide⟩
theorem wit_Dispatch : (placing.task 5).phase = .eligible ∧ placeNew placing (placing.task 5) = some (0, 0, [0]) ∧ (placing.core 0).events = [] ∧
    ((choosing false 0).task 5).phase = .eligible ∧ placeNew (choosing false 0) ((choosing false 0).task 5) = some (0, 0, [0]) ∧
    ((choosing true 0).task 6).phase = .eligible ∧ placeNew (choosing true 0) ((choosing true 0).task 6) = some (0, 0, [0]) ∧
    candidates (vf0 id {}) 0 = [] := by decide
/-- A gang of eight that all block, and an eligible task of a lower-numbered class. -/
def evicting : State :=
  { vf0 id {} with
    ctxs := (List.range 8).map fun i => (i, { resident := true, gcn := i, task := some 5, wait := .gbar })
    launches := [(2, { cls := 0 }), (3, { cls := 1 })]
    tasks := [(5, { launch := 3, phase := .placed, n := 8, members := List.range 8 }), (6, { launch := 2, phase := .eligible, n := 1 })] }
theorem wit_Eviction : (evicting.task 5).phase = .placed ∧ (evicting.task 5).members.Nodup ∧ (evicting.ctx 0).exited = none ∧
    (∀ m ∈ (evicting.task 5).members, (evicting.ctx m).resident = true ∧ (evicting.ctx m).chunk = none ∧
      usedSlots evicting (evicting.ctx m).gcn 0 + 2 ≤ slotCount evicting (evicting.ctx m).gcn 0 ∧
      isBlocking (evicting.ctx m).wait = true ∧ (evicting.ctx m).halted = false ∧ arrayMid (evicting.ctx m) = false) ∧
    (evicting.task 5).residentAt + vfMinres (evicting.owner 0) * 65536 ≤ evicting.gtime ∧
    placeNew evicting (evicting.task 6) = none ∧ classOf evicting (evicting.task 6) < classOf evicting (evicting.task 5) ∧
    placeNew (saveGang 5 evicting) (evicting.task 6) ≠ none :=
  ⟨by decide, by decide, by decide, by decide, by decide, by decide, by decide, by decide +kernel⟩
/-- A task with one member, with its hang counter, limit 1 or none. -/
def running (p : Phase) (e : Option W32) (hang : Nat) (vf : W64) : State :=
  { vf0 (fun o => { o with vfcfg := vf }) {} with
    ctxs := [(0, { resident := true, exited := e, task := some 5 })], tasks := [(5, { launch := 3, phase := p, members := [0], hang := hang })] }
/-- A member that waits in each of the instructions that complete, and a request of TSPAWN on its way. -/
theorem wit_TaskEnds_under_way : ∀ w ∈ [Wait.tlbinv 1 0 0, .tyield 9, .stopat 5 1 0, .tspawn 1 5],
    let s := hartBy (fun h => { h with wait := w }) (running .placed none 0x1000000 1)
    (s.ctx 0).armed = none ∧ (s.ctx 0).chunk = none ∧ (s.ctx 0).halted = false ∧ (s.ctx 0).eng.q = [] ∧ (s.ctx 0).eng.bq = [] ∧ (s.task 5).phase = .placed ∧
      (s.ctx 0).wait = w := by decide
theorem wit_TaskEnds_spawn :
    let s := { running .ending (some 7) 0 0 with net := [{ id := 1, cid := 0, part := 0, addr := 0, pcn := 0, ofs := 0, body := .tspawn 0x80 1 0 }] }
    (s.task 5).members = [0] ∧ working s 0 = true := by decide
theorem wit_TaskEnds : (((running .exited (some 7) 0 0).task 5).phase = .exited ∧ ((running .exited (some 7) 0 0).ctx 0).exited = some 7 ∧
      working (running .exited (some 7) 0 0) 0 = false ∧
      pendingIn ((running .exited (some 7) 0 0).ctx 0) 4 false = false ∧ ((running .exited (some 7) 0 0).ctx 0).eng.poison = none) ∧
    ((running .ending (some 7) 0 0).task 5).phase = .ending ∧
    (((running .placed none 0x1000000 1).task 5).phase = .placed ∧ 1 * 2 ^ 24 ≤ ((running .placed none 0x1000000 1).task 5).hang ∧
      ((running .placed none 0x1000000 1).ctx 0).chunk = none ∧ ((running .placed none 0x1000000 1).ctx 0).eng.q = []) ∧
    ((running .placed none 0xFFFFFF 1).task 5).hang < 1 * 2 ^ 24 ∧ bits ((running .placed none 0 0).owner 0).vfcfg 0 8 = 0 := by decide
/-- One record ready; the ring has room, or is full, or is disabled; the interrupt counts 1 record or waits 1024 cycles. -/
def recording (cfg : W64) (tail : Nat) : State :=
  { vf0 (fun o => { o with evcfg := cfg, evtail := tail, recs := [{ kind := 0, tag := 9, launch := some 3, task := some 5 }] }) {} with
    launches := [(3, {})], tasks := [(5, { launch := 3, phase := .recorded })], gtime := 1024 }
/-- The same with a ring in shared memory of the partition's cluster. -/
def recordingSram : State := { recording 0xC004010000000000 0 with
  owners := [(0, { (recording 0xC004010000000000 0).owner 0 with evbase := 0x8000000000040000 })] }
theorem wit_EventRing_sram : RingPlaced recordingSram (recordingSram.owner 0) (recordingSram.owner 0).evcfg ∧
    clusterAt (recordingSram.part 0) (bits (recordingSram.owner 0).evbase 48 15) = some 0 :=
  ⟨⟨by decide, by decide, by decide, 0, by decide, by decide, by decide⟩, by decide⟩
theorem wit_EventRing_busy : coveredFirst { recordingSram with
      clusters := [(0, { part := some 0, xw := [(0, 0xF800000000110000)] })], net := [{ id := 1, cid := 9, part := 0, addr := 0, pcn := 0, ofs := 0x40000, body := .store [1], cover := [{ scope := 3, cycle := 0, hart := 9 }] }] } 3 0 0x40000 32 = true ∧
    coveredFirst recordingSram 3 0 0x40000 32 = false := by decide
theorem wit_EventRing : RingPlaced (recording 0x8004010000000000 15) ((recording 0x8004010000000000 15).owner 0) 0x8004010000000000 ∧ (((recording 0x8004010000000000 15).owner 0).recs.length = 1 ∧ ((recording 0x8004010000000000 15).owner 0).evcfg.getLsbD 62 = false ∧
      ((recording 0x8004010000000000 15).owner 0).evcfg.getLsbD 63 = true ∧ (15 + 2 ^ 32 - 0) % 2 ^ 32 < 2 ^ bits (0x8004010000000000 : W64) 48 5 ∧
      ((recording 0x8004010000000000 15).launch 3).cls < 4) ∧
    2 ^ bits ((recording 0x8004010000000000 16).owner 0).evcfg 48 5 ≤ (16 + 2 ^ 32 - 0) % 2 ^ 32 ∧
    ((recording 0x0004010000000000 0).owner 0).evcfg.getLsbD 63 = false ∧
    (let s := vf0 (fun o => { o with evcfg := 0x8004000001000000, unsignalled := 1 }) { gtime := 1024 }
     bits (s.owner 0).evcfg 24 16 = 1 ∧ (s.owner 0).unsignalled ≠ 0 ∧ (s.owner 0).oldest + 1 * 1024 ≤ 1024) :=
  ⟨by unfold RingPlaced; decide, by decide⟩

/-! The stop, partitions, mailbox, links, power, faults -/

/-- Partition 0 with a stop at cycle 100 in force or reached, or stopped then. -/
def stopping (t : Nat) (f : Partition → Partition) : State :=
  { ctxs := [(0, { resident := true, wait := .tyield 5 }), (1, { resident := true, gcn := 1, wait := .gbar })], gtime := t
    parts := [(0, f { live := true, count := 1, map := [(0, presentEntry 0)], stop := some 100 })], clusters := [(0, { part := some 0 })] }
theorem stoppable (h : Ctx) (g : h.chunk = none ∧ (h.halted = false ∧ h.exited = none ∧ h.armed = none) ∧ arrayMid h = false ∧
    (h.wait = .tyield 5 ∨ h.wait = .gbar)) : Stoppable h :=
  ⟨g.1, g.2.1, g.2.2.1, by rcases g.2.2.2 with e | e <;> simp [e]⟩
theorem wit_ZugzwangStop : ((stopping 100 id).part 0).stop = some 100 ∧ 100 ≤ (stopping 100 id).gtime ∧ ((stopping 100 id).part 0).stopped = false ∧
    (stopping 100 id).ctxs.Pairwise (fun a b => a.1 < b.1) ∧ (stopping 100 id).tasks.Pairwise (fun a b => a.1 < b.1) ∧
    (∀ x ∈ (stopping 100 id).ctxs, x.2.resident = true → x.2.part = 0 → Stoppable x.2) ∧
    ((stopping 100 (fun t => { t with stopped := true })).part 0).stopped = true ∧ (stopping 99 id).gtime < 100 := by
  refine ⟨by decide, by decide, by decide, by decide, by decide, fun x hx _ _ => stoppable _ ?_, by decide, by decide⟩
  simp only [stopping, List.mem_cons, List.not_mem_nil, or_false] at hx
  rcases hx with rfl | rfl <;> decide
/-- Hart 0 alone, within a row of an AXMM. -/
theorem wit_ZugzwangStop_row : let e : AEntry := { queued (.axmm 0 0 0) with rowDone := true, regs := { (queued (.axmm 0 0 0)).regs with s := [(0, { w0 := 0, w1 := 0x21 })] } }
    let s : State := { ctxs := [(0, { resident := true, eng := { aq := [e] } })], gtime := 100
                       parts := [(0, { live := true, count := 1, map := [(0, presentEntry 0)], stop := some 100 })], clusters := [(0, { part := some 0 })] }
    residents s 0 = [0] ∧ (s.ctx 0).eng.aq = [e] ∧ e.rowDone = true ∧ shAk (mmShape e) ≠ shCk (mmShape e) ∧ (s.ctx 0).image = none ∧ arrayMid (s.ctx 0) = true :=
  ⟨rfl, rfl, rfl, by decide, rfl, rfl⟩
/-- A request of partition 0 in flight. -/
def flushed (f : Partition → Partition) : State :=
  { stopping 164 (fun t => f { t with stop := none, stopped := true, stoppedAt := 100 }) with
    ctxs := [], net := [{ id := 1, cid := 0, part := 0, addr := far, pcn := 0, ofs := 0, body := .load 8 }] }
theorem wit_FlushAndResume : (((flushed id).part 0).stopped = true ∧ ((flushed id).part 0).stoppedAt + 64 ≤ (flushed id).gtime ∧ 0 ∉ ((flushed id).part 0).flushed) ∧
    (0 / 2048 ∈ ((flushed (fun t => { t with flushed := [0] })).part 0).flushed ∧ 0 ∉ ((flushed (fun t => { t with flushed := [0] })).part 0).routers) ∧
    (∀ x ∈ (flushed (fun t => { t with flushed := [0] })).net, isReply x.body = false) ∧
    (∀ q ∈ clustersOf (flushed (fun t => { t with flushed := [0], routers := [0] })) 0, q / 2048 ∈ [0] ∧ q ∈ [0]) ∧
    ((flushed (fun t => { t with flushed := [0], routers := [0] })).part 0).complete = false ∧
    (∃ q ∈ clustersOf (flushed id) 0, q / 2048 ∉ ([] : List Nat)) ∧
    (((flushed (fun t => { t with complete := true })).part 0).complete = true ∧ ((flushed (fun t => { t with complete := true })).part 0).stop = none) ∧
    ((stopping 99 id).part 0).stopped = false ∧ ((flushed (fun t => { t with flushed := [0], routers := [0] })).part 0).resumeHeld = false ∧
    NoReturn (flushed id) 0 ∧ (flushed id).tasks.Pairwise (fun a b => a.1 < b.1) ∧ ((flushed id).part 0).complete = false ∧
    (let s := flushed fun t => { t with complete := true, resumeHeld := true, flushed := [0], routers := [0] }
     (s.part 0).recalls = [] ∧ faultHere s 0 = false ∧ (s.part 0).resumeHeld = true ∧ ∀ q ∈ clustersOf s 0, q / 2048 ∈ (s.part 0).flushed ∧ q ∈ (s.part 0).routers) := by
  unfold NoReturn; decide
/-- A request to resume that was made before the stop is complete: it can be applied as the stop completes, or a cluster is to be fenced. -/
theorem wit_FlushAndResume_before : let k : Partition → Partition := fun t => { t with resumeHeld := true, flushed := [0], routers := [0] }
    let s := flushed k
    (s.part 0).stopped = true ∧ (s.part 0).complete = false ∧ (s.part 0).resumeHeld = true ∧ (s.part 0).recalls = [] ∧ faultHere s 0 = false ∧ NoReturn s 0 ∧
      (∀ q ∈ clustersOf s 0, q / 2048 ∈ (s.part 0).flushed ∧ q ∈ (s.part 0).routers) ∧ (∀ x ∈ s.ctxs, x.2.part = 0 → x.2.resident = false) ∧
      faultHere (modCluster 0 (fun cl => { cl with lasting := some 5 }) (flushed k)) 0 = true := by
  unfold NoReturn; decide
theorem not_recalled {s : State} {p : Nat} (h : (s.part p).recalls = []) (x : Nat) : ¬Recalled s p x := fun ⟨_, h', _⟩ => by simp [h] at h'
theorem wit_AssigningAndLending : (NoneLate State.reset ∧ NoneLate (vf0 id {})) ∧ ((State.reset.cluster 3).part = none ∧ (State.reset.cluster 3).lent = none ∧ (State.reset.cluster 3).fenced = false ∧
      Machine.faulty State.reset 3 = false ∧
      clusterIdle State.reset 3 = true ∧ marksIdle State.reset 3 = true) ∧ ((vf0 id {}).cluster 0).fenced = false ∧ marksIdle (vf0 id {}) 0 = true ∧
    (((stopping 0 id).cluster 0).part.isSome = true ∧ clusterIdle (stopping 0 id) 0 = false) ∧
    (let s := vf0 id {}
     let s := modPart 1 (fun t => { t with live := true }) s
     (s.cluster 0).part = some 0 ∧ (s.cluster 0).lent = none ∧ Machine.faulty s 0 = false ∧ (s.part 1).live = true ∧ clusterIdle s 0 = true ∧ vcnFor (s.part 0) 0 = some 0) ∧
    (∀ x ∈ State.reset.clusters, x.2.lent ≠ some 0) ∧ ∃ x ∈ (modCluster 0 (fun cl => { cl with lent := some 1 }) (vf0 id {})).clusters, x.2.lent = some 1 := by
  unfold NoneLate; decide
/-- The cluster of partition 0, whose stop is complete, has a lasting fault. -/
def hurting : State :=
  modCluster 0 (fun cl => { cl with lasting := some 5 }) (flushed fun t => { t with complete := true, flushed := [0], routers := [0] })
theorem wit_FlushAndResume_faulty : (hurting.part 0).stopped = true ∧ (hurting.part 0).complete = true ∧ faultHere hurting 0 = true ∧
    Machine.faulty hurting 0 = true := by decide
/-- Partition 1 borrows cluster 0 of partition 0; it runs, has stopped, or its stop is complete. -/
def lentOut (f : Partition → Partition) : State :=
  { vf0 id {} with
    clusters := [(0, { part := some 0, lent := some 1 })]
    parts := [(0, { live := true, count := 1, map := [(0, 0)] }), (1, f { live := true, count := 1, map := [(0, presentEntry 0)] })] }
theorem wit_Recall : NoneLate (lentOut id) ∧ (∀ f, ((lentOut f).cluster 0).part = some 0 ∧ ((lentOut f).cluster 0).lent = some 1) ∧
    (lentOut id).clusters.Pairwise (fun x y => x.1 < y.1) ∧ marksIdle (lentOut id) 0 = true ∧ faultHere (lentOut id) 1 = false ∧ NoReturn (lentOut id) 1 ∧
    (∀ x ∈ (lentOut id).clusters, x.2.part = some 0 → x.2.lent = some 1 → x.1 = 0) ∧ vcnFor ((lentOut id).part 0) 0 = some 0 ∧
    vcnFor ((lentOut id).part 1) 0 = some 0 ∧ ((lentOut id).part 1).stopped = false ∧
    (((lentOut fun t => { t with stopped := true, complete := true }).part 1).stopped = true ∧
      ((lentOut fun t => { t with stopped := true, complete := true }).part 1).complete = true) ∧
    ((lentOut fun t => { t with stopped := true }).part 1).complete = false ∧
    (let s := lentOut fun t => { t with stopped := true, complete := true, recalls := [(0, 0)] }
     (∃ r ∈ (s.part 1).recalls, r.1 = 0) ∧ ∀ r ∈ (s.part 1).recalls, r.1 = 0) :=
  ⟨by unfold NoneLate; decide, fun _ => ⟨rfl, rfl⟩, by decide, by decide, by decide, by unfold NoReturn; decide, by decide⟩
/-- Cluster 0 of partition 0 is recalled from partition 1, whose stop is complete, while an operation is held at its mark unit. -/
theorem wit_FlushAndResume_held : let s := { lentOut fun t => { t with stopped := true, complete := true, recalls := [(0, 0)] } with
      clusters := [(0, { part := some 0, lent := some 1, held := [op1 1 0] })] }
    (s.part 1).stopped = true ∧ (s.part 1).complete = true ∧ Recalled s 1 0 ∧ marksIdle s 0 = false :=
  ⟨by decide, by decide, ⟨(0, 0), by decide, (0, { part := some 0, lent := some 1, held := [op1 1 0] }), by decide⟩, by decide⟩
/-- R315, R341: shared memory of a borrowed cluster leaves with an owner of the borrower, and not with one of the lender. -/
theorem wit_Migration_borrowed : let s := { lentOut id with mem := [(sramKey 0 0x40000, 7)], fe := [(sramKey 0 0x40000 / 8, true)] }
    partMemory s 1 = s.mem ∧ partMemory s 0 = [] ∧ partBits s 1 = s.fe ∧ partBits s 0 = [] := by decide
theorem wit_WithdrawalAndMigration : ((placing.part 0).live = true ∧ (placing.task 5).phase ∉ [Phase.ending, .recorded, .done] ∧ (placing.task 5).part = 0) ∧
    (((vf0 id {}).part 0).live = true ∧ (vf0 id {}).tasks = [] ∧ ((vf0 id {}).cluster 0).part = some 0) ∧ (State.reset.part 0).live = false ∧
    ((vf0 id {}).cluster 0).lent = none ∧
    (let s := modPart 1 (fun t => { t with live := true }) (lentOut id)
     (s.part 1).live = true ∧ marksIdle s 0 = true ∧ (s.cluster 0).part = some 0 ∧ (s.cluster 0).lent = some 1 ∧ s.tasks = []) ∧
    (((vf0 id {}).owner 0).migrating = false ∧ ownerBusy (vf0 (fun o => { o with migrating := true }) {}) 0 = false ∧
      ownerBusy { vf0 (fun o => { o with migrating := true }) {} with launches := [(3, {})], tasks := [(5, { launch := 3 })] } 0 = true) := by decide
/-- A mailbox command `code` with a request, started. -/
def boxed (code : Nat) (req : Tbl W64) : State :=
  { vf0 (fun o => { o with mbdoor := some code, mbreq := req }) {} with
    mod := { doors := [0] }, gtime := 10
    parts := [(0, { live := true, count := 1, map := [(0, presentEntry 0)], tksi := 4096 })], clusters := [(0, { part := some 0, msize := 1 })] }
theorem requestOnly (o : Owner) (l : List (Nat × Nat)) (h : ∀ i ∈ List.range 64, (∀ r ∈ l, i < r.1 ∨ r.1 + r.2 ≤ i) → request o i = 0) : RequestOnly o l :=
  fun i hi => h i (List.mem_range.2 hi)
theorem wit_MailboxCommands :
    (NextCommand (boxed 1 [(1, 0x8000000000000000)]) 0 1 ∧ clusterAt ((boxed 1 []).part 0) 0 = some 0 ∧
      RequestOnly ((boxed 1 [(1, 0x8000000000000000)]).owner 0) [(0, 3), (8, 8)] ∧
      FieldAccepted 10 ((boxed 1 []).cluster 0) 0 0x8000000000000000 ∧ ¬FieldAccepted 10 ((boxed 1 []).cluster 0) 0 0xE000000000000000 ∧
      clusterAt ((boxed 1 []).part 0) 1 = none) ∧
    (NextCommand (boxed 2 [(0, 2058), (1, 4096)]) 0 2 ∧ RequestOnly ((boxed 2 [(0, 2058), (1, 4096)]).owner 0) [(0, 16)] ∧
      (boxed 2 []).gtime + 2048 ≤ (2058 : W64).toNat ∧ OneSchedule (boxed 2 [(0, 2058), (1, 4096)]) 0 4096 ∧ ¬(10 + 2048 ≤ 2057)) ∧
    (NextCommand (boxed 3 []) 0 3 ∧ RequestOnly ((boxed 3 []).owner 0) [(0, 32)] ∧ ¬RequestOnly ((boxed 3 [(4, 1)]).owner 0) [(0, 32)]) ∧
    (NextCommand (boxed 4 [(0, 5)]) 0 4 ∧ RequestOnly ((boxed 4 [(0, 5)]).owner 0) [(0, 1)] ∧ request ((boxed 4 [(0, 5)]).owner 0) 0 = 5 ∧
      request ((boxed 4 [(0, 6)]).owner 0) 0 = 6) ∧
    NextCommand (boxed 5 []) 0 5 ∧ NextCommand (boxed 0 []) 0 0 ∧ (vf0 id {}).mod.doors.head? ≠ some 0 :=
  ⟨⟨⟨by decide, by decide⟩, by decide, requestOnly _ _ (by decide), by unfold FieldAccepted; decide, by unfold FieldAccepted; decide, by decide⟩,
    ⟨⟨by decide, by decide⟩, requestOnly _ _ (by decide), by decide, ⟨by decide, by decide, by decide⟩, by decide⟩,
    ⟨⟨by decide, by decide⟩, requestOnly _ _ (by decide), fun h => absurd (h 32 (by decide) (by decide)) (by decide)⟩,
    ⟨⟨by decide, by decide⟩, requestOnly _ _ (by decide), by decide, by decide⟩, ⟨by decide, by decide⟩, ⟨by decide, by decide⟩, by decide⟩
/-- Decoder 0 maps 64 KiB at 256 MiB to device address 0x10000, in a bank of partition 0. -/
def mapped : State := { mod := { decoderBase := [(0, 0x8000000010000000)], decoderMap := [(0, 0x10000010000)] }, clusters := [(0, { part := some 0 })] }
theorem mapped0 : HostMapped mapped 0x1000FFFC 4 0 0x1FFFC :=
  ⟨by decide, ⟨⟨by decide, by decide, by decide⟩, by decide, by decide⟩, fun j h => absurd h (by omega), by decide⟩
theorem mapped_only {j : Nat} (h : Decodes mapped j) : j = 0 := by
  by_contra e
  have : tget mapped.mod.decoderBase j 0 = 0 := by simp [mapped, tget, Ne.symm e]
  have := h.1
  simp_all
theorem wit_HostAccesses : HostMapped mapped 0x1000FFFC 4 0 0x1FFFC ∧ SoundSpan mapped 0x1FFFC 4 ∧ cool mapped = true ∧
    HostOwn mapped 0x10010000 4 ∧ 0x10010000 + [(1 : Byte), 2, 3, 4].length ≤ 2 ^ 47 ∧ HostOwn mapped 0x0FFFFFFC 4 ∧
    2 ^ 47 < 0x7FFFFFFFFFFF + [(1 : Byte), 2].length ∧ ∀ i k, ¬HostMapped mapped 0x1000FFFC 5 i k := by
  refine ⟨mapped0, ⟨by decide, by decide, fun c _ _ => ⟨rfl, .inl rfl⟩⟩, rfl, ⟨by decide, fun j _ h => ?_⟩, by decide, ⟨by decide, fun j _ h => ?_⟩,
    by decide, fun i k h => ?_⟩
  · obtain rfl := mapped_only h; decide
  · obtain rfl := mapped_only h; decide
  · obtain ⟨-, ⟨hd, -, hn⟩, -, -⟩ := h
    obtain rfl := mapped_only hd; exact absurd hn (by decide)
/-- An image on trial, at and around the end of its two seconds. -/
def trial (b : Bool) (t : Nat) : State := { gtime := t, mod := { fw := { trial := b, fused := 3 } } }
theorem wit_ResetAndFirmware : (trial true 2000000000).mod.fw.trial = true ∧ (trial true 2000000000).gtime ≤ 2000000000 ∧
    2000000000 ≤ (trial true 2000000000).gtime ∧ (trial false 0).mod.fw.trial = false ∧ (trial false 0).mod.fw.fused ≤ 3 ∧
    2 < (trial false 0).mod.fw.fused ∧ ∀ im, Config.signatureValid im = true ∨ Config.signatureValid im = false :=
  ⟨by decide, by decide, by decide, by decide, by decide, by decide, fun im => by cases Config.signatureValid im <;> simp⟩
/-- Device 2 with its route over port 3, down since cycle 5 or up, a store of hart 0 unacknowledged; device 4 over port 5. -/
def linked (t : Nat) (ports : List Nat := [3]) : State :=
  { duo (hartBy (fun h => { h with outst := [{ id := 9, target := 0 }] }) (hart [(2, far)])) with
    gtime := t
    mod := { portDown := ports
             links := [(2, { route := 0x3333, down := some 5, seqIn := 1, answers := [(0, some [])]
                             unacked := [{ id := 9, cid := 0, part := 0, addr := far, pcn := 0, ofs := 0, dev := some 2, body := .store [1] }] }),
                       (4, { route := 0x5555 })] } }
/-- A write that a release covers is on its way to the word that device 4 stores to. -/
theorem wit_DeviceLinks_busy : let s := { linked 5 with
      net := [{ id := 1, cid := 0, part := 0, addr := far, pcn := 1, ofs := 0x40000, body := .store (List.replicate 8 1), cover := [{ scope := 4, cycle := 0, hart := 9 }] }] }
    RouteUp s.mod (tget s.mod.links 4 {}) ∧ linkBusy s (.store 1 0x40000 [1]) = true := ⟨⟨0, by decide, by decide, by decide⟩, by decide⟩
/-- R368, R371: port 3 carries a pair's traffic; with it down port 4, the first alternate that is up, carries operation 7 again; port 5 going down changes nothing. -/
theorem test_port_takes_over :
    let l : Link := { route := 0x5643, port := some 3, sent := [(7, 3)], unacked := [{ id := 9, cid := 0, part := 0, addr := 0, pcn := 0, ofs := 0, seq := 7, body := .ack }] }
    let m : Nat → Module := fun p => { portDown := [p] }
    ((afterPorts 9 (m 3) l).port = some 4 ∧ (afterPorts 9 (m 3) l).sent = [(7, 3), (7, 4)]) ∧ afterPorts 9 (m 5) l = l ∧
      (portFor { portDown := [] } (afterPorts 9 (m 3) l)) = some 4 := by decide
/-- A put whose data the peer has not acknowledged, from the one entry of hart 0. -/
def putting : State :=
  { moving { part64 .put with eid := 9, far := far } with
    gtime := 1000005
    mod := { portDown := [3]
             links := [(2, { route := 0x3333, down := some 5
                             unacked := [{ id := 8, cid := 0, part := 0, addr := far, pcn := 0, ofs := 0, dev := some 2, body := .put [1] 9 }] })] } }
/-- The map entry of VCN 1 names cluster 1 of device 4. -/
def peered : State := { linked 5 with parts := [(0, { live := true, count := 2, map := [(0, presentEntry 0), (1, 0xC004000000000001)] })] }
theorem wit_DeviceLinks_issue : HartAlone peered 0 ∧ storeForm (.std 1 2 0) = some (8, 1, 2, 0) ∧
    senderCheck peered (peered.ctx 0) far true false = .ok 1 (some 4) := ⟨aloneOf (by decide), by decide⟩
theorem wit_DeviceLinks_receive : RouteUp (linked 5).mod (tget (linked 5).mod.links 4 {}) ∧ cool (linked 5) = true ∧
    (RouteUp (linked 5 []).mod (tget (linked 5 []).mod.links 2 {}) ∧ (0 : Nat) < (tget (linked 5 []).mod.links 2 {}).seqIn ∧
      ∃ x ∈ (tget (linked 5 []).mod.links 2 {}).answers, x.1 = 0) ∧
    ¬RouteUp (linked 5).mod (tget (linked 5).mod.links 2 {}) ∧ (tget (linked 5).mod.links 4 {}).seqIn < 1 ∧
    (HostMapped { mapped with mod := { (linked 5).mod with decoderBase := mapped.mod.decoderBase, decoderMap := mapped.mod.decoderMap } } 0x1000FFFC 4 0 0x1FFFC ∧
      SoundSpan mapped 0x1FFFC 4) :=
  ⟨⟨0, by decide, by decide, by decide⟩, rfl, ⟨⟨0, by decide, by decide, by decide⟩, by decide, by decide⟩, by unfold RouteUp; decide, by decide,
    ⟨mapped0.1, mapped0.2.1, fun j h => absurd h (by omega), by decide⟩, wit_HostAccesses.2.1⟩
theorem wit_DeviceLinks : receive ((linked 5).cluster 1) 0x40000 8 0 = some 0x40000 ∧ receive ((linked 5).cluster 1) 0x40000 1 1 = some 0x40000 ∧
    receive ((linked 5).cluster 1) 0x40000 8 2 = some 0x40000 ∧ remoteLocked (linked 5) 1 0x40000 8 = false ∧ (∀ x ∈ (linked 5).ctxs, x.2.chunk = none) ∧
    (linked 5).residentOn 0 = some 0 ∧ linkBusy (linked 5) (.atomic 1 0x40000 3 0 0) = false ∧ (3 ∈ (linked 5).mod.portDown ∧ 11 ∉ (linked 5).mod.portDown) ∧
    ((tget (linked 1000005).mod.links 2 {}).down = some 5 ∧ 5 + 1000000 ≤ (linked 1000005).gtime ∧ (linked 1000004).gtime < 5 + 1000000) ∧
    ((tget (linked 1000005).mod.links 2 {}).unacked.length = 1 ∧ ((linked 1000005).ctx 0).exited = none ∧ ((linked 1000005).ctx 0).wait = .none ∧
      (∃ o ∈ ((linked 1000005).ctx 0).outst, o.id = 9) ∧ ∀ x ∈ (linked 1000005).ctxs, x.2.eng.q = []) ∧
    ((tget putting.mod.links 2 {}).unacked.length = 1 ∧ (putting.ctx 0).exited = none ∧ (putting.ctx 0).wait = .none ∧
      ∀ e ∈ (putting.ctx 0).eng.q, e.eid = 9 → e.failed = none ∧ isGet e.kind = false) := by decide
/-- Cluster 0 with a power state. -/
def powered (p : Power) (t : Nat) (m : Module := {}) : State := { gtime := t, mod := m, clusters := [(0, { power := p })] }
theorem wit_OperatingPoints : ((powered { act := 2, stl := 1 } 10000).gtime % 10000 = 0 ∧ ((powered { act := 2, stl := 1 } 10000).cluster 0).power.floor ≤ 600) ∧
    (powered {} 9999).gtime % 10000 ≠ 0 ∧ (Config.millivolts (max (0 + 1) 0) < 850 ∧ 0 < 2 ∧ 2 ≤ 2 * 1 ∧ 0 < 5) ∧
    (let p : Power := { point := 0, req := 1, floor := 600 }
     p.stepping = none ∧ p.point < 1 ∧ Target p 1) ∧
    (let p : Power := { point := 1 }
     p.stepping = none ∧ 0 < p.point ∧ Target p 0 ∧ Config.millivolts p.req ≤ 850) ∧
    (let p : Power := { point := 1, req := 2 }
     Config.millivolts p.req < 850 ∧ p.req ≠ p.point) ∧
    (let p : Power := { point := 2, req := 2 }
     p.req = p.point ∧ Config.millivolts p.req < 850) ∧
    ((powered { stepping := some 2 } 0).cluster 0).power.stepping = some 2 ∧ ((powered {} 0).cluster 0).power.point = ((powered {} 0).cluster 0).power.req ∧
    ((powered {} 100000 { overLimit := true }).mod.overLimit = true ∧ (powered {} 100000).mod.lastThrottle + 100000 ≤ (powered {} 100000).gtime ∧
      (powered {} 99999).gtime < (powered {} 99999).mod.lastThrottle + 100000 ∧ (powered {} 0).mod.overLimit = false ∧
      ((powered {} 0).cluster 0).power.throttled = false ∧ 0 = ((powered {} 0 { lastTaken := 16383 }).mod.lastTaken + 1) % 16384 ∧
      nextInTurn (powered {} 100000 { overLimit := true, lastTaken := 16383 }) 2 = false) := by
  unfold Target; refine ⟨by decide, by decide, by decide, ⟨by decide, by decide, by decide, by decide, fun x h k => ?_⟩,
    ⟨by decide, by decide, ⟨by decide, by decide, fun x h k => ?_⟩, by decide⟩, by decide, by decide, by decide, by decide, by decide⟩
  · exact absurd (show x ≤ 1 from k) (by omega)
  · exact absurd (show x ≤ 0 from k) (by omega)
/-- Sixteen corrected errors within an hour after the first, and a seventeenth just inside or outside it. -/
def errors (t : Nat) : State :=
  { clusters := [(0, { corrected := List.replicate 15 3600000000000 ++ [t] })], banks := [(0, { lasting := some 7, lastingRows := [(3, 9)] })] }
theorem wit_ErrorsAndLastingFaults : (287 < 288 ∧ (tget ((errors 0).bank 0).damage 0 []).Pairwise (· < ·)) ∧ (hart []).residentOn 0 = some 0 ∧
    ((errors 0).bank 0).lasting ≠ none ∧ ((errors 0).bank 1).lasting = none ∧ ((errors 0).cluster 0).lasting = none ∧
    (∃ x ∈ ((errors 0).bank 0).lastingRows, x.1 = 3) ∧ (errors 0).mod.lasting = [] ∧ (errors 0).mod.log = [] ∧
    (Many ((3600000000000 :: ((errors 0).cluster 0).corrected).take 17) ∧ ¬Many ((3600000000001 :: ((errors 0).cluster 0).corrected).take 17)) := by
  refine ⟨by decide, by decide, by decide, by decide, by decide, by decide, by decide, by decide, ⟨3600000000000, 0, by decide, by decide, by decide⟩,
    fun ⟨a, b, h, k, l⟩ => ?_⟩
  obtain rfl : 3600000000001 = a := by simpa using h
  obtain rfl : 0 = b := Option.some.inj k
  omega
/-- Lasting faults found. -/
def faulty (l : List FaultUnit) (s : State) : State := { s with mod := { lasting := l } }
theorem wit_Isolation : FaultUnit.cluster 1 ∉ (faulty [.cluster 0] {}).mod.lasting ∧
    (FaultUnit.row 0 3 ∈ (faulty [.row 0 3] {}).mod.lasting ∧ 3 / 64 ∉ ((faulty [.row 0 3] {}).bank 0).retired ∧ ((faulty [.row 0 3] {}).cluster (0 / 8)).part = none) ∧
    (FaultUnit.bank 0 ∈ (faulty [.bank 0] {}).mod.lasting ∧ ((faulty [.bank 0] {}).bank 0).retired = [] ∧ ((faulty [.bank 0] {}).cluster (0 / 8)).lent = none) ∧
    (let s := modCluster 0 (fun cl => { cl with fenced := true }) (faulty [.cluster 0] (vf0 id {}))
     FaultUnit.cluster 0 ∈ s.mod.lasting ∧ (s.cluster 0).fenced = true) ∧ ((faulty [.cluster 0] (vf0 id {})).cluster 0).fenced = false ∧
    (FaultUnit.cluster 0 ∈ (faulty [.cluster 0] (vf0 id {})).mod.lasting ∧ serves ((faulty [.cluster 0] (vf0 id {})).cluster 0) = some 0 ∧
      ((faulty [.cluster 0] (vf0 id {})).part 0).stopped = false ∧ ((faulty [.cluster 0] (vf0 id {})).part 0).stop = none) ∧
    (let s := modPart 0 (fun t => { t with stopped := true, complete := true }) (faulty [.cluster 0] placing)
     (s.part 0).stopped = true ∧ (s.part 0).complete = true ∧ (s.part 0).recalls = [] ∧ vcnFor (s.part 0) 0 = some 0 ∧ serves (s.cluster 0) = some 0 ∧
       ∀ x ∈ s.clusters, x.1 = 0) ∧
    NoParts (faulty [.row 0 3] {}) ∧ NoParts (faulty [.bank 0] {}) := by unfold NoParts; decide
/-- Cluster 0 is lent to partition 1, whose stop is complete, and has a gang of its lender saved. -/
theorem wit_Isolation_lent : let s := { faulty [.cluster 0] (lentOut fun t => { t with stopped := true, complete := true }) with
      tasks := [(5, { part := 0, vcn := 0, phase := .evicted })] }
    (s.cluster 0).fenced = false ∧ serves (s.cluster 0) = some 1 ∧ (s.cluster 0).part = some 0 ∧ vcnFor (s.part 0) 0 = some 0 ∧
      vcnFor (s.part 1) 0 = some 0 ∧ (s.part 1).recalls = [] ∧ (∀ x ∈ s.clusters, x.1 = 0) ∧ (s.task 5).part = 0 ∧ (s.task 5).vcn = 0 := by decide
/-- A GET of hart 0 has translated a page in the frame of rows 192 to 255 of bank 0, which is to be retired. -/
def pageTaken : Entry := { part64 .get with xlated := 64, part := [{ off := 0, len := 64, base := 0x30000, il := 0, poff := 0x1000, gr := 0 }] }
theorem wit_Isolation_untranslated : let s := faulty [.row 0 200] (moving pageTaken)
    Canonical s ∧ Oldest s 0 pageTaken [] ∧ FaultUnit.row 0 200 ∈ s.mod.lasting ∧ 0x30000 = 0 * 0x800000 + 200 / 64 * 0x10000 ∧
      0x1000 + 64 ≤ 0x10000 ∧ ∀ x ∈ s.ctxs, x.1 = 0 :=
  ⟨⟨rfl, by simp [faulty, moving, hartBy, duo, hart, modCtx, tput, tins, tdel]⟩, ⟨rfl, by simp [pageTaken]⟩, by decide⟩
/-- Region 0x80 of bank 0 is mapped with grade S by the table of `tabled`; region 0 is not. -/
theorem wit_GradeChanges : cool State.reset = true ∧ gradeMapped State.reset 0 8191 (tget (State.reset.bank 0).grades 8191 0) = false ∧ (∀ c, Sound State.reset 0 c) ∧
    gradeMapped (tabled true true 0) 0 0x80 (tget ((tabled true true 0).bank 0).grades 0x80 0) = true :=
  ⟨rfl, by decide +kernel, fun _ => ⟨rfl, .inl rfl⟩, by decide +kernel⟩

/-! Encodings and steps -/

theorem wit_EncodeThenDecode : (Instr.axeAdd 2 0 1 10).WellFormed ∧ encode (.axeAdd 2 0 1 10) = some 0xA8400A81 := ⟨rfl, by decide⟩
theorem wit_DecodeThenEncode : decode 0xA8400A81 = .ok (.axeAdd 2 0 1 10) := by decide
/-- Hart 0 of this state is next, with a line that holds the word at its PC. -/
def ready (w : W32) (h : Ctx → Ctx := id) : State :=
  { hartBy (fun c => h { c with icache := [{ asid := 0, va := 0x1000 / 32, words := List.replicate 8 w, page := 0, pageSize := 0x10000 }] }) (hart []) with agenda := [.hart 0] }
theorem wit_StepKeepsCanonical : Canonical (ready 0x04430005) ∧ ∃ t, step (ready 0x04430005) = .next t := ⟨⟨by decide, by decide⟩, _, rfl⟩
theorem wit_StepRuns : Next (ready 0x04430005) 0 [] ∧ fetchWord ((ready 0x04430005).ctx 0) 0x1000 = some 0x04430005 ∧ decode 0x04430005 = .ok (.addi 2 3 5) ∧
    stalled ((ready 0x04430005).ctx 0) 0x04430005 = false ∧
    stalled ((ready 0x04430005 fun h => { h with eng := { h.eng with aq := [queued (.axget 3 1)] } }).ctx 0) 0x04430005 = true ∧
    Next (ready 0x04430005 fun h => { h with eng := { h.eng with aq := [queued (.axget 3 1)] } }) 0 [] ∧ (∃ e, decode 0 = .error e) ∧
    ((bau 0).soloTurn = none ∧ ((bau 0).bank 0).run.isSome = true ∧ (((bau 0).bank 0).run.bind (·.ended)) = none) ∧ encode (.tick 0) = none :=
  ⟨⟨by decide, liveOf (by decide), by decide, by decide, by decide, by decide, by decide⟩, by decide, by decide, by decide, by decide,
    ⟨by decide, liveOf (by decide), by decide, by decide, by decide, by decide, by decide⟩, ⟨_, rfl⟩, by decide, by decide⟩
theorem wit_StepRuns_choose : let s := { State.reset with agenda := [.choose { pick := 1 }] }
    s.soloTurn = none ∧ s.agenda = [.choose { pick := 1 }] := by decide
theorem wit_LuiAndAupc : HartIssues (hart []) 0 := issuesOf (by decide)
theorem wit_Ecall : HartIssues (hart []) 0 ∧
    (trapRegs ((commitChunk 0 (hart [])).ctx 0) (levelOf ((commitChunk 0 (hart [])).ctx 0) false 8)).tstat.getLsbD 4 = false :=
  ⟨issuesOf (by decide), by decide⟩
theorem wit_Ebreak : HartIssues (hart []) 0 ∧
    (trapRegs ((commitChunk 0 (hart [])).ctx 0) (levelOf ((commitChunk 0 (hart [])).ctx 0) false 11)).tstat.getLsbD 4 = false :=
  ⟨issuesOf (by decide), by decide⟩

/-! ### Single steps with results from the spec's rules -/

/-- The g registers after one instruction of hart 0. -/
def after (i : Instr) (s : State) (r : R5) : W64 := match exec i s with | .next t => getG (t.ctx 0).regs r | _ => 0
/-- R103: signed division by zero gives the largest number, of the most negative number by −1 too. -/
theorem test_div_by_zero : after (.div 1 2 3) (hart [(2, 5)]) 1 = 0x7FFFFFFFFFFFFFFF := by decide
theorem test_div_overflow : after (.div 1 2 3) (hart [(2, 0x8000000000000000), (3, 0xFFFFFFFFFFFFFFFF)]) 1 = 0x7FFFFFFFFFFFFFFF := by decide
/-- R96: g0 stays 0. -/
theorem test_g0 : after (.addi 0 0 5) (hart []) 0 = 0 := by decide
/-- R97: the W forms sign-extend. -/
theorem test_addw_wraps : after (.addw 1 2 3) (hart [(2, 0x7FFFFFFF), (3, 1)]) 1 = 0xFFFFFFFF80000000 := by decide
/-- R111: the chunk's own store is seen by its load, with the sign extension of R108; memory is as before. -/
theorem test_store_forwards : (match exec (.stb 2 0 7) (hart [(2, 0x80)]) with
    | .next t => (after (.ldb 1 0 7) t 1, readByte t.mem (sramKey 0 7)) | _ => (0, 0)) = (0xFFFFFFFFFFFFFF80, 0) := by decide
/-- R52, R128: a misaligned load traps to M with cause 4, TVALUE the address, TPC its own. -/
theorem test_misaligned : (match exec (.ldw 1 2 0) (hart [(2, 6)]) with
    | .next t => ((t.ctx 0).tm.tcause, (t.ctx 0).tm.tvalue, (t.ctx 0).tm.tpc, (t.ctx 0).priv) | _ => (0, 0, 0, .u)) = (4, 6, 0x1000, .m) := by decide
/-- R38, R124: 1 + 1 = 2 in F64, no flag. -/
theorem test_fadd : (match exec (.fadd 1 2 2 1 0) (hartBy (fun h => { h with regs := { h.regs with f := [(2, { bits := 0x3FF0000000000000 })] } }) (hart [])) with
    | .next t => ((getF (t.ctx 0).regs 1).bits, (t.ctx 0).regs.fstat) | _ => (0, 0)) = (0x4000000000000000, 0x40) := by decide
/-- R374: the SHA-512 digest of the three bytes "abc" (FIPS 180-4's example) begins with these eight bytes. -/
theorem test_sha512 : (sha512 [0x61, 0x62, 0x63]).take 8 = [0xDD, 0xAF, 0x35, 0xA1, 0x93, 0x61, 0x7A, 0xBA] := by decide +kernel

end Sys2Proof.Tests
end

section
/-!
SUPPORT. Every step keeps memory and the table of harts in canonical form (log entry 3). Memory changes by byte writes and by
leaving bytes out; the table of harts changes by `modCtx`, which puts a hart in its place, and by maps that keep every number.
So each operation of the machine keeps the form, said once for each, in the order of the model: `h.op` is the form after `op`
where `h` is the form before it, and the proof of a longer operation is the chain of those that it is made of.
-/

namespace Sys2Proof.Claim
open Sys2Proof.Machine

/-! ### Rules for the two tables -/

/-- A write puts a value in the place of its key. -/
theorem rising_tput {α : Type} {l : Tbl α} {k : Nat} {v : α} (h : l.Pairwise fun a b => a.1 < b.1) :
    (tput l k v).Pairwise fun a b => a.1 < b.1 :=
  pairwise_tins v (h.filter _) fun p hp => by
    simp only [tdel, List.mem_filter, decide_eq_true_eq] at hp
    exact hp.2

theorem wf_clearBytes {m : Memory} (h : m.wf = true) (k n : Nat) : Memory.wf (clearBytes m k n) :=
  wf_foldl h _ _ fun _ _ h' => wf_writeByte h' _ _

theorem wf_placeBytes {m : Memory} (h : m.wf = true) (k : Nat) (l : Memory) : Memory.wf (placeBytes m k l) :=
  wf_foldl h _ _ fun _ _ h' => wf_writeByte h' _ _

variable {α β : Type} {s t : State}

protected theorem Canonical.wf (h : Canonical s) : s.mem.wf = true := h.1

/-- What changes neither memory nor the table of harts keeps the canonical form. -/
protected theorem Canonical.congr (h : Canonical s) (hm : t.mem = s.mem) (hc : t.ctxs = s.ctxs) : Canonical t := by
  obtain ⟨wf, rising⟩ := h
  exact ⟨hm ▸ wf, hc ▸ rising⟩

/-- A canonical memory may take the place of memory. -/
protected theorem Canonical.setMem {m : Memory} (h : Canonical s) (hm : m.wf = true) : Canonical { s with mem := m } :=
  ⟨hm, h.2⟩

/-- Harts may change where they stand in the table. -/
protected theorem Canonical.mapCtxs {f : Nat × Ctx → Nat × Ctx} (h : Canonical s) (hm : t.mem = s.mem)
    (hc : t.ctxs = s.ctxs.map f) (hf : ∀ p, (f p).1 = p.1) : Canonical t := by
  refine ⟨hm ▸ h.wf, ?_⟩
  rw [hc, List.pairwise_map]
  exact h.2.imp fun {a b} hab => by rwa [hf, hf]

protected theorem Canonical.modCtx {c f} (h : Canonical s) : Canonical (modCtx c f s) := ⟨h.wf, rising_tput h.2⟩

/-- The state that a function answers with a result keeps the form where the pair is taken apart. -/
theorem Canonical.of_pair {x : α × State} {a : α} (e : x = (a, t)) (h : Canonical x.2) : Canonical t := by
  subst e
  exact h

protected theorem Canonical.ite {p : Prop} [Decidable p] (hs : Canonical s) (ht : Canonical t) :
    Canonical (if p then s else t) := by
  split
  · exact hs
  · exact ht

/-- An update that takes place where a condition holds. -/
protected theorem Canonical.when {p : Prop} [Decidable p] (h : Canonical s) (ht : Canonical s → Canonical t) :
    Canonical (if p then t else s) :=
  .ite (ht h) h

/-- An update that takes place where a condition does not hold. -/
protected theorem Canonical.unless {p : Prop} [Decidable p] (h : Canonical s) (ht : Canonical s → Canonical t) :
    Canonical (if p then s else t) :=
  .ite h (ht h)

protected theorem Canonical.iteSnd {p : Prop} [Decidable p] {x y : α × State} (hx : Canonical x.2) (hy : Canonical y.2) :
    Canonical (if p then x else y).2 := by
  split
  · exact hx
  · exact hy

protected theorem Canonical.iteFun {p : Prop} [Decidable p] {f g : State → State} (hf : Canonical (f s))
    (hg : Canonical (g s)) : Canonical ((if p then f else g) s) := by
  split
  · exact hf
  · exact hg

/-- A fold that carries a state along with other results, `π` being where the state is. -/
protected theorem Canonical.foldlAt (π : β → State) {l : List α} {f : β → α → β} {b : β} (h : Canonical (π b))
    (hf : ∀ b a, Canonical (π b) → Canonical (π (f b a))) : Canonical (π (l.foldl f b)) :=
  List.foldlRecOn (motive := fun b => Canonical (π b)) l f h fun b hb a _ => hf b a hb

protected theorem Canonical.foldl {l : List α} {f : State → α → State} (h : Canonical s)
    (hf : ∀ t a, Canonical t → Canonical (f t a)) : Canonical (l.foldl f s) :=
  h.foldlAt id hf

protected theorem Canonical.forEach {l : List α} {f : α → State → State} (h : Canonical s)
    (hf : ∀ a t, Canonical t → Canonical (f a t)) : Canonical (forEach l f s) :=
  h.foldl fun _ _ => hf _ _

/-- The state that an outcome goes on with, if it does, is canonical. -/
def CanonicalNext : Host.Outcome State Fault Refusal → Prop
  | .next t => Canonical t
  | .fault _ | .refused _ => True

variable {o o' : Host.Outcome State Fault Refusal}

theorem CanonicalNext.next (h : Canonical t) : CanonicalNext (.next t) := h

protected theorem CanonicalNext.ite {p : Prop} [Decidable p] (hs : CanonicalNext o) (ht : CanonicalNext o') :
    CanonicalNext (if p then o else o') := by
  split
  · exact hs
  · exact ht

protected theorem Canonical.after (h : Canonical s) (ho : CanonicalNext o) : Canonical (after s o) := by
  cases o with
  | next t => exact ho
  | fault r => exact h
  | refused r => exact h

/-! ### Tables, memory, chunks, registers, traps and packets -/

protected theorem Canonical.modCore {g f} (h : Canonical s) : Canonical (modCore g f s) := h.congr rfl rfl

protected theorem Canonical.modCluster {q f} (h : Canonical s) : Canonical (modCluster q f s) := h.congr rfl rfl

protected theorem Canonical.modBank {g f} (h : Canonical s) : Canonical (modBank g f s) := h.congr rfl rfl

protected theorem Canonical.modPart {p f} (h : Canonical s) : Canonical (modPart p f s) := h.congr rfl rfl

protected theorem Canonical.modOwner {v f} (h : Canonical s) : Canonical (modOwner v f s) := h.congr rfl rfl

protected theorem Canonical.modLaunch {l f} (h : Canonical s) : Canonical (modLaunch l f s) := h.congr rfl rfl

protected theorem Canonical.modTask {u f} (h : Canonical s) : Canonical (modTask u f s) := h.congr rfl rfl

protected theorem Canonical.modVersion {v f} (h : Canonical s) : Canonical (modVersion v f s) := h.congr rfl rfl

protected theorem Canonical.modMod {f} (h : Canonical s) : Canonical (modMod f s) := h.congr rfl rfl

protected theorem Canonical.modEng {c f} (h : Canonical s) : Canonical (modEng c f s) := h.modCtx

protected theorem Canonical.logEvent {e} (h : Canonical s) : Canonical (logEvent e s) := h.modMod

protected theorem Canonical.squashReaders {q words me} (h : Canonical s) : Canonical (squashReaders q words me s) :=
  h.mapCtxs rfl rfl fun p => by
    split
    · rfl
    · split <;> rfl

protected theorem Canonical.sramWrite {k b me} (h : Canonical s) : Canonical (sramWrite k b me s) :=
  (h.setMem (wf_writeBytes h.wf _ _)).squashReaders

protected theorem Canonical.setFe {words full} (h : Canonical s) : Canonical (setFe words full s) := h.congr rfl rfl

protected theorem Canonical.commitChunk {c} (h : Canonical s) : Canonical (commitChunk c s) := by
  unfold commitChunk
  split
  exacts [h, (h.modCtx.setMem (wf_foldr h.modCtx.wf _)).squashReaders]

protected theorem Canonical.openChunk {c} (h : Canonical s) : Canonical (openChunk c s) := h.modCtx

protected theorem Canonical.putG {c n v} (h : Canonical s) : Canonical (putG c n v s) := h.modCtx

protected theorem Canonical.bump {c n v} (h : Canonical s) : Canonical (bump c n v s) := h.modEng

protected theorem Canonical.haltCore {c c1 c2} (h : Canonical s) : Canonical (haltCore c c1 c2 s) := h.modCtx.logEvent

protected theorem Canonical.takeTrap {c int code value tpc} (h : Canonical s) : Canonical (takeTrap c int code value tpc s) :=
  .ite (.ite h.commitChunk.haltCore h.commitChunk.modCtx) (.ite h.commitChunk.haltCore h.commitChunk.modCtx)

protected theorem Canonical.trapHere {c code value} (h : Canonical s) : Canonical (trapHere c code value s) := h.takeTrap

protected theorem Canonical.illegalWord {c w} (h : Canonical s) : Canonical (illegalWord c w s) := h.trapHere

protected theorem Canonical.illegal {c i} (h : Canonical s) : Canonical (illegal c i s) := h.illegalWord

protected theorem Canonical.stepTrap {c at_} (h : Canonical s) : Canonical (stepTrap c at_ s) := by
  unfold stepTrap
  split
  exacts [h, .ite h.commitChunk.haltCore (.ite h.commitChunk.modCtx h.commitChunk.modCtx)]

protected theorem Canonical.retireChunk {c next} (h : Canonical s) : Canonical (retireChunk c next s) :=
  .stepTrap (.ite h.modCtx.commitChunk h.modCtx)

protected theorem Canonical.retireAt {c next} (h : Canonical s) : Canonical (retireAt c next s) := h.modCtx.stepTrap

protected theorem Canonical.retire {c} (h : Canonical s) : Canonical (retire c s) := h.retireAt

protected theorem Canonical.endRun {g code status} (h : Canonical s) : Canonical (endRun g code status s) := h.modBank

protected theorem Canonical.coreOnly {f} (h : Canonical s) (hf : ∀ x y, Canonical (f x y)) : Canonical (coreOnly s f) := by
  unfold coreOnly
  split
  exacts [hf _ _, h.endRun]

protected theorem Canonical.bauOnly {i f} (h : Canonical s) (hf : ∀ x y, Canonical (f x y)) : Canonical (bauOnly i s f) := by
  unfold bauOnly
  split
  exacts [h.illegal, hf _ _]

protected theorem Canonical.scalar {c f} (h : Canonical s) : Canonical (scalar c f s) :=
  .ite h.trapHere h.openChunk.modCtx.retireChunk

protected theorem Canonical.jump {c target bad f} (h : Canonical s) : Canonical (jump c target bad f s) :=
  .ite h.trapHere h.openChunk.modCtx.retireChunk

protected theorem Canonical.outside {c f} (h : Canonical s) (hf : ∀ x t, Canonical t → Canonical (f x t)) :
    Canonical (outside c f s) :=
  .ite h.commitChunk.trapHere (hf _ _ h.commitChunk)

protected theorem Canonical.finishG {c d v} (h : Canonical s) : Canonical (finishG c d v s) := h.putG.retire

protected theorem Canonical.setWait {c w} (h : Canonical s) : Canonical (setWait c w s) := h.modCtx

protected theorem Canonical.writeLocal {c a b full} (h : Canonical s) : Canonical (writeLocal c a b full s) := by
  unfold writeLocal
  dsimp only
  split
  exacts [.ite h.modCtx (.iteFun h.sramWrite.setFe h.sramWrite), .iteFun h.sramWrite.setFe h.sramWrite]

protected theorem Canonical.setLocalFe {c a n full} (h : Canonical s) : Canonical (setLocalFe c a n full s) := by
  unfold setLocalFe
  dsimp only
  split
  exacts [.ite h.modCtx h.setFe, h.setFe]

protected theorem Canonical.send {p} (h : Canonical s) : Canonical (send p s) := by
  unfold send
  split
  exacts [.congr (h.congr rfl rfl) rfl rfl, .modMod (.congr (h.congr rfl rfl) rfl rfl)]

protected theorem Canonical.unsend {id} (h : Canonical s) : Canonical (unsend id s) := h.congr rfl rfl

protected theorem Canonical.squashMeeting {who q words} (h : Canonical s) : Canonical (squashMeeting who q words s) :=
  h.mapCtxs rfl rfl fun p => by
    split
    · rfl
    · split <;> rfl

protected theorem Canonical.setCovers {c scope covered} (h : Canonical s) : Canonical (setCovers c scope covered s) :=
  .forEach (h.congr rfl rfl) fun _ _ h' => by
    split
    exacts [h'.squashMeeting, h']

protected theorem Canonical.cover {c scope} (h : Canonical s) : Canonical (cover c scope s) := h.setCovers

protected theorem Canonical.carry {c} (h : Canonical s) : Canonical (carry c s) := h.setCovers

protected theorem Canonical.drawNat (h : Canonical s) : Canonical (drawNat s).2 := h.congr rfl rfl

/-! ### Operand forms, control registers, loads and stores -/

protected theorem Canonical.bauNext {g} (h : Canonical s) : Canonical (bauNext g s) := .ite h.endRun h.modBank

protected theorem Canonical.bauOp {g rs f} (h : Canonical s) : Canonical (bauOp g rs f s) := .ite h.endRun h.modBank.bauNext

protected theorem Canonical.bauJump {g rs target f} (h : Canonical s) : Canonical (bauJump g rs target f s) :=
  .ite h.endRun (.ite h.endRun h.modBank)

protected theorem Canonical.alu2 {f f32 d a b} (h : Canonical s) : Canonical (alu2 f f32 d a b s) := by
  unfold alu2
  split
  exacts [h.scalar, h.bauOp]

protected theorem Canonical.alu1 {f f32 d a} (h : Canonical s) : Canonical (alu1 f f32 d a s) := by
  unfold alu1
  split
  exacts [h.scalar, h.bauOp]

protected theorem Canonical.aluCore {f d a b} (h : Canonical s) : Canonical (aluCore f d a b s) :=
  h.coreOnly fun _ _ => h.scalar

protected theorem Canonical.branch {u t32 a b o} (h : Canonical s) : Canonical (branch u t32 a b o s) := by
  unfold branch
  split
  exacts [.ite h.jump h.scalar, .ite h.bauJump h.bauOp]

protected theorem Canonical.setMsize {q v} (h : Canonical s) : Canonical (setMsize q v s) := h.modCluster

protected theorem Canonical.writeMsize {q own v} (h : Canonical s) : Canonical (writeMsize q own v s) :=
  .ite h.logEvent h.setMsize

protected theorem Canonical.writeFresume {p v} (h : Canonical s) : Canonical (writeFresume p v s) :=
  .ite h (.ite h.modPart h.logEvent)

protected theorem Canonical.csrWrite {c n v} (h : Canonical s) : Canonical (csrWrite c n v s) :=
  .ite h.modCtx (.ite h.modCtx (.ite h (.ite h.modCtx (.ite h.modCtx (.ite h.modCtx (.ite h.modCtx (.ite h
    (.ite h.modCtx (.ite h (.ite h.modCluster (.ite h.modCluster (.ite h.modCtx (.ite h.modCtx
      (.ite h.writeMsize (.ite h.writeFresume h)))))))))))))))

protected theorem Canonical.csrOp {i d a n reads new} (h : Canonical s) : Canonical (csrOp i d a n reads new s) :=
  h.coreOnly fun _ _ => .ite h.illegal (h.outside fun _ _ h' => by
    dsimp only
    refine .ite h' (.retire ?_)
    split
    exacts [(h'.when (·.cover)).when (·.putG), ((h'.when (·.cover)).when (·.putG)).csrWrite])

protected theorem Canonical.load {c ea n dst} (h : Canonical s) : Canonical (load c ea n dst s) := by
  unfold load
  dsimp only
  refine .ite h.trapHere (.ite h.trapHere (.ite (.ite h.trapHere (.ite h h.openChunk.modCtx.retireChunk)) ?_))
  split
  exacts [h.commitChunk.trapHere, h.commitChunk.send.setWait]

protected theorem Canonical.postStore {c h1 ea b q dev} (h : Canonical s) : Canonical (postStore c h1 ea b q dev s) :=
  h.send.modCtx

protected theorem Canonical.store {c ea n v f} (h : Canonical s) : Canonical (store c ea n v f s) := by
  unfold store
  dsimp only
  refine .ite h.trapHere (.ite h.trapHere (.ite (.ite h.trapHere (.ite h.trapHere (.ite h h.openChunk.modCtx.retireChunk))) ?_))
  split
  exacts [h.commitChunk.trapHere, h.commitChunk.postStore.modCtx.retire]

protected theorem Canonical.bauMem {g rs a n f} (h : Canonical s) : Canonical (bauMem g rs a n f s) :=
  .ite h.endRun (.ite h.endRun (.ite h.endRun h.bauOp))

protected theorem Canonical.loadI {n sg d a i} (h : Canonical s) : Canonical (loadI n sg d a i s) := by
  unfold loadI
  split
  exacts [h.load, h.bauMem]

protected theorem Canonical.storeI {n d a i} (h : Canonical s) : Canonical (storeI n d a i s) := by
  unfold storeI
  split
  exacts [h.store, h.bauMem]

protected theorem Canonical.fpOp {i m f} (h : Canonical s) : Canonical (fpOp i m f s) :=
  h.coreOnly fun _ _ => by
    split
    exacts [h.illegal, h.scalar]

protected theorem Canonical.fpF {i m u d f} (h : Canonical s) : Canonical (fpF i m u d f s) := h.fpOp

protected theorem Canonical.fpG {i m d f} (h : Canonical s) : Canonical (fpG i m d f s) := h.fpOp

/-! ### Full/empty bits, atomics, fences and barriers (R155 to R173) -/

protected theorem Canonical.fullEmpty {c ea n need lock act} (h : Canonical s)
    (hact : ∀ x y t, Canonical t → Canonical (act x y t)) : Canonical (fullEmpty c ea n need lock act s) :=
  h.outside fun _ _ h' => by
    refine .ite h'.trapHere (.ite h'.trapHere (.ite h'.trapHere (.ite h'.trapHere (.ite h' ?_))))
    split
    exacts [h'.trapHere, hact _ _ _ h']

protected theorem Canonical.ldsDone {c d k empties} (h : Canonical s) : Canonical (ldsDone c d k empties s) :=
  .finishG (.ite h.setFe h)

protected theorem Canonical.ldsOp {empties d a} (h : Canonical s) : Canonical (ldsOp empties d a s) :=
  h.coreOnly fun _ _ => h.fullEmpty fun _ _ _ h' => .ite h'.ldsDone h'.setWait

protected theorem Canonical.execStfl {a b} (h : Canonical s) : CanonicalNext (execStfl a b s) :=
  h.coreOnly fun _ _ => h.fullEmpty fun _ _ _ h' => h'.sramWrite.setFe.retire

protected theorem Canonical.feSpan {full a b} (h : Canonical s) : Canonical (feSpan full a b s) :=
  h.coreOnly fun _ _ => h.fullEmpty fun _ _ _ h' => h'.setFe.retire

protected theorem Canonical.execLda {d a sc} (h : Canonical s) : CanonicalNext (execLda d a sc s) :=
  h.coreOnly fun _ _ => .ite h.illegal (h.outside fun _ _ h' => by
    refine .ite h'.trapHere (.ite (.ite h'.trapHere (.ite h' h'.finishG)) ?_)
    split
    exacts [h'.trapHere, h'.send.setWait])

protected theorem Canonical.stlDo {c ea v sc} (h : Canonical s) : Canonical (stlDo c ea v sc s) := by
  unfold stlDo
  refine .ite h.cover.sramWrite.retire ?_
  split
  exacts [h.cover.trapHere, h.cover.postStore.retire]

protected theorem Canonical.execStl {a b sc} (h : Canonical s) : CanonicalNext (execStl a b sc s) :=
  h.coreOnly fun _ _ => .ite h.illegal (h.outside fun _ _ h' => by
    refine .ite h'.trapHere (.ite h'.trapHere (.ite h'.trapHere (.ite h' ?_)))
    split
    exacts [h'.trapHere, .ite h'.setWait h'.stlDo])

protected theorem Canonical.amoApply {op k y e me} (h : Canonical s) : Canonical (amoApply op k y e me s).2 :=
  .ite h h.sramWrite

protected theorem Canonical.amo {op d a b sc scope} (h : Canonical s) : Canonical (amo op d a b sc scope s) :=
  h.coreOnly fun _ _ => h.outside fun _ _ h' => by
    dsimp only
    refine .ite h'.trapHere (.ite (.ite h'.trapHere (.ite h'.trapHere (.ite h' (h'.when (·.cover)).amoApply.finishG))) ?_)
    split
    · exact h'.trapHere
    · exact .ite (h'.when (·.setWait))
        (.ite (h'.when (·.cover)).send.setWait (h'.when (·.cover)).send.modCtx.retire)

protected theorem Canonical.fenceCover {c scope kind} (h : Canonical s) : Canonical (fenceCover c scope kind s) :=
  .ite h (.ite (.ite h h.cover) (.modCtx (.ite h h.cover)))

protected theorem Canonical.fenceOp {i kind sc} (h : Canonical s) : Canonical (fenceOp i kind sc s) :=
  h.coreOnly fun _ _ => .ite h.illegal (h.outside fun _ _ h' => .ite h'.setWait h'.fenceCover.retire)

protected theorem Canonical.syncRequest {c d body thenWait release} (h : Canonical s) :
    Canonical (syncRequest c d body thenWait release s) :=
  h.outside fun _ _ h' => .ite h'.setWait (.setWait (.send (.ite h'.cover h')))

protected theorem Canonical.staleBarrier {c hd} (h : Canonical s) : Canonical (staleBarrier c hd s) := .ite h.trapHere h.modCtx

protected theorem Canonical.bwaitOn {stale c hd} (h : Canonical s) (hstale : ∀ t, Canonical t → Canonical (stale t)) :
    Canonical (bwaitOn stale c hd s) :=
  .ite (hstale _ h) (.ite h.setWait h.retire)

protected theorem Canonical.execBwait {a} (h : Canonical s) : CanonicalNext (execBwait a s) :=
  h.coreOnly fun _ _ => h.outside fun _ _ h' => h'.bwaitOn fun _ h'' => h''.trapHere

protected theorem Canonical.gbarLeave {members} (h : Canonical s) : Canonical (gbarLeave members s) :=
  .ite (h.forEach fun _ _ h' => h'.retire) h

protected theorem Canonical.execGbar (h : Canonical s) : CanonicalNext (execGbar s) :=
  h.coreOnly fun _ _ => h.outside fun _ _ h' => .ite h' (.ite h'.cover.setWait.gbarLeave h'.cover.setWait)

protected theorem Canonical.execLdsWake {c} (h : Canonical s) : CanonicalNext (execLdsWake c s) := by
  refine .next ?_
  dsimp only
  split
  exacts [.ite h.ldsDone h, h]

protected theorem Canonical.execFenceWaitEnd {c} (h : Canonical s) : CanonicalNext (execFenceWaitEnd c s) := by
  refine .next ?_
  dsimp only
  split
  exacts [.ite h.fenceCover.retire h, .ite h.stlDo h, h]

protected theorem Canonical.execBwaitWake {c} (h : Canonical s) : CanonicalNext (execBwaitWake c s) := by
  refine .next ?_
  dsimp only
  split
  exacts [.ite h.retire h, h]

protected theorem Canonical.reply {id b} (h : Canonical s) : Canonical (reply id b s) := h.congr rfl rfl

protected theorem Canonical.execSyncEngineBarrier {id} (h : Canonical s) : CanonicalNext (execSyncEngineBarrier id s) := by
  refine .next ?_
  split
  · exact h
  · split
    · exact .ite h.reply h.modPart.reply
    · exact .ite h.reply h.modPart.reply
    · exact .ite h.reply (.ite h.reply h.modPart.reply)
    · exact h

protected theorem Canonical.execSyncReply {id} (h : Canonical s) : CanonicalNext (execSyncReply id s) := by
  refine .next ?_
  dsimp only
  split
  · exact h
  · split
    · refine .ite h ?_
      split
      · split
        exacts [h.unsend, h.unsend, h]
      · split
        · exact .ite (h.unsend.putG.bwaitOn fun _ h' => h'.staleBarrier) h.unsend.putG.retire
        · exact h.unsend.staleBarrier
        · exact h
    · exact h

/-! ### Remote accesses -/

protected theorem Canonical.execRemoteAccessArrival {id} (h : Canonical s) : CanonicalNext (execRemoteAccessArrival id s) := by
  refine .next ?_
  split
  · exact h
  · refine .ite h ?_
    split
    · split <;> exact h.reply
    · split
      exacts [h.reply, .ite h.reply h.sramWrite.reply]
    · exact h

protected theorem Canonical.execSyncEngineAtomic {id} (h : Canonical s) : CanonicalNext (execSyncEngineAtomic id s) := by
  refine .next ?_
  split
  · exact h
  · refine .ite h ?_
    split
    · split
      exacts [h.reply, .ite h.reply h.amoApply.reply]
    · exact h

protected theorem Canonical.freeBytes {n} (h : Canonical s) : Canonical (freeBytes n s).2 := h.drawNat

protected theorem Canonical.answered {p} (h : Canonical s) : Canonical (answered p s) := by
  unfold answered
  split
  exacts [h.unsend, h.unsend.modMod]

protected theorem Canonical.answeredId {id} (h : Canonical s) : Canonical (answeredId id s) := by
  unfold answeredId
  split
  exacts [h.answered, h]

protected theorem Canonical.loadArrives {p v} (h : Canonical s) : Canonical (loadArrives p v s) := by
  unfold loadArrives
  dsimp only
  split
  exacts [.ite h.answered.modCtx.retire h.answered, h.answered]

protected theorem Canonical.execRemoteLoadReply {id} (h : Canonical s) : CanonicalNext (execRemoteLoadReply id s) := by
  refine .next ?_
  dsimp only
  split
  · exact h
  · split
    exacts [h.loadArrives, .ite h.freeBytes.loadArrives h, h]

protected theorem Canonical.atomicArrives {p v} (h : Canonical s) : Canonical (atomicArrives p v s) := by
  unfold atomicArrives
  dsimp only
  split
  exacts [.ite h.answered.putG.retire h.answered, h.answered]

protected theorem Canonical.execRemoteAtomicReply {id} (h : Canonical s) : CanonicalNext (execRemoteAtomicReply id s) := by
  refine .next ?_
  dsimp only
  split
  · exact h
  · split
    exacts [h.atomicArrives, .ite h.freeBytes.atomicArrives h, h]

protected theorem Canonical.acknowledge {p} (h : Canonical s) : Canonical (acknowledge p s) := h.answered.modCtx

protected theorem Canonical.execRemoteAck {id} (h : Canonical s) : CanonicalNext (execRemoteAck id s) := by
  refine .next ?_
  split
  · exact h
  · split
    · exact h.acknowledge
    · exact .ite h.acknowledge h
    · exact .ite h.acknowledge h
    · exact .ite h.acknowledge h
    · exact .ite h.acknowledge h
    · exact h

protected theorem Canonical.setFlag {c i} (h : Canonical s) : Canonical (setFlag c i s) := by
  unfold setFlag
  split
  exacts [h, h.modTask]

protected theorem Canonical.postRemoteStore {c v flag} (h : Canonical s) : Canonical (postRemoteStore c v flag s) :=
  .ite h.setFlag h.modCtx

protected theorem Canonical.rejectedEntry {p eid} (h : Canonical s) : Canonical (rejectedEntry p eid s) := h.acknowledge.modCtx

protected theorem Canonical.rejected {p} (h : Canonical s) : Canonical (rejected p s) := by
  unfold rejected
  dsimp only
  split
  · exact .ite (.ite h.answered.trapHere h.answered) (.ite h.acknowledge.postRemoteStore h.answered)
  · exact .ite (.ite h.answered (.ite h.answered.trapHere h.answered.modCtx)) (.ite h.acknowledge.postRemoteStore h.answered)
  · exact .ite h.acknowledge.postRemoteStore h.answered

protected theorem Canonical.execRemoteRejection {id} (h : Canonical s) : CanonicalNext (execRemoteRejection id s) := by
  refine .next ?_
  split
  · exact h
  · split
    · exact h.rejected
    · exact .ite h.rejected h
    · exact .ite h.rejected h
    · exact .ite h.rejected h
    · exact .ite h.rejectedEntry h
    · exact .ite h.rejectedEntry h
    · exact .ite h.rejectedEntry h
    · exact h

/-! ### Columns of a bank and hot rows -/

protected theorem Canonical.readCol {g col src} (h : Canonical s) : Canonical (readCol g col src s).2 := h.modBank

protected theorem Canonical.settle {g col} (h : Canonical s) : Canonical (settle g col s) := .ite h h.modBank

protected theorem Canonical.meet {q g col} (h : Canonical s) : Canonical (meet q g col s) := by
  unfold meet
  split
  exacts [h, .ite h h.modBank]

protected theorem Canonical.unfenced {c g col data} (h : Canonical t) : Canonical (unfenced c g col data s t) := by
  unfold unfenced
  split
  exacts [h, h.modBank]

protected theorem Canonical.putBefore {c met g col} (h : Canonical t) : Canonical (putBefore c met g col s t) := by
  unfold putBefore
  split
  exacts [h, h.modBank]

protected theorem Canonical.mapBefore {c f} (h : Canonical s) : Canonical (mapBefore c f s) := h.congr rfl rfl

protected theorem Canonical.performed {c} (h : Canonical s) : Canonical (performed c s) := h.mapBefore

protected theorem Canonical.recordCovers {c} (h : Canonical s) : Canonical (recordCovers c s) := h.mapBefore

protected theorem Canonical.writeCol {g col l} (h : Canonical s) : Canonical (writeCol g col l s) :=
  (h.setMem (wf_writeBytes h.wf _ _)).settle.modBank

protected theorem Canonical.writeMeta {g col m} (h : Canonical s) : Canonical (writeMeta g col m s) := h.writeCol.modBank

protected theorem Canonical.mergeCol {g col o l src} (h : Canonical s) : Canonical (mergeCol g col o l src s).2 :=
  .iteSnd h.writeCol (.iteSnd h.readCol h.readCol.writeCol)

protected theorem Canonical.physRead {k n src} (h : Canonical s) : Canonical (physRead k n src s).2 :=
  .iteSnd (.iteSnd h (h.foldlAt Prod.snd fun _ _ h' => h'.readCol)) h

protected theorem Canonical.physWrite {k l src} (h : Canonical s) : Canonical (physWrite k l src s).2 := by
  refine .iteSnd (.iteSnd h (h.foldlAt Prod.snd fun p _ h' => ?_)) (h.setMem (wf_writeBytes h.wf _ _))
  dsimp only
  split
  · exact h'
  · split
    · rename_i e
      exact .of_pair e h'.mergeCol
    · rename_i e
      exact .of_pair e h'.mergeCol

protected theorem Canonical.exchangeMeta {w g col v k} (h : Canonical s) : Canonical (exchangeMeta w g col v k s).2 :=
  .iteSnd h.readCol (.ite h.readCol h.readCol.writeMeta)

protected theorem Canonical.park {who n r} (h : Canonical s) : Canonical (park who n r s) := h.modBank

protected theorem Canonical.gate {who f} (h : Canonical s) (hf : ∀ t, Canonical t → Canonical (f t)) :
    Canonical (gate who f s) :=
  .ite (hf _ h) (.ite ((hf _ h).forEach fun _ _ h' => h'.modBank) (h.forEach fun _ _ h' => h'.park))

protected theorem Canonical.execHotRowAdmit {g row} (h : Canonical s) : CanonicalNext (execHotRowAdmit g row s) := by
  refine .next ?_
  dsimp only
  split
  exacts [h, .ite h h.modBank]

/-! ### The walk, the TLB and instruction fetch -/

protected theorem Canonical.probe {q fuel i k base il ln asid va} (h : Canonical s) :
    Canonical (probe q fuel i k base il ln asid va s).2 := by
  induction fuel generalizing i s with
  | zero => exact h
  | succ fuel ih =>
    unfold probe
    refine .iteSnd h ?_
    dsimp only
    generalize hc : List.foldl _ _ _ = cols
    have hcols : Canonical cols.2.2 := hc ▸ h.foldlAt (fun x : List Byte × Bool × State => x.2.2) fun _ _ h' => by
      dsimp only
      split
      exacts [h'.readCol.meet, h'.readCol]
    refine .iteSnd hcols ?_
    split
    exacts [hcols, .iteSnd hcols (ih hcols)]

protected theorem Canonical.walkBy {x0 p asid va} (h : Canonical s) : Canonical (walkBy x0 p asid va s).2 := .iteSnd h h.probe

protected theorem Canonical.walk {p asid va} (h : Canonical s) : Canonical (walk p asid va s).2 := h.walkBy

protected theorem Canonical.tlbFill {q asid e} (h : Canonical s) : Canonical (tlbFill q asid e s) :=
  .ite h.modCluster h.drawNat.modCluster

protected theorem Canonical.freshWalk {q p asid va need} (h : Canonical s) : Canonical (freshWalk q p asid va need s).2 := by
  unfold freshWalk
  split
  · rename_i e
    exact .of_pair e h.walkBy
  · rename_i e
    exact .of_pair e h.walkBy
  · rename_i e
    exact .of_pair e h.walkBy
  · rename_i e
    have ht := Canonical.of_pair e h.walkBy
    exact .iteSnd ht (.iteSnd ht.tlbFill ht.tlbFill)

protected theorem Canonical.dropPage {q asid va} (h : Canonical s) : Canonical (dropPage q asid va s) := h.modCluster

protected theorem Canonical.translate {q p asid va need} (h : Canonical s) :
    Canonical (Machine.translate q p asid va need s).2 := by
  unfold Machine.translate
  split
  exacts [.iteSnd h h.dropPage.freshWalk, h.freshWalk]

protected theorem Canonical.fillLine {c l} (h : Canonical s) : Canonical (fillLine c l s) := .ite h.modCtx h.drawNat.modCtx

protected theorem Canonical.fetchFault {c} (h : Canonical s) : Canonical (fetchFault c s) := h.trapHere

protected theorem Canonical.execInstructionFetchFill {c} (h : Canonical s) : CanonicalNext (execInstructionFetchFill c s) :=
  Canonical.ite h (h.gate fun _ h' => by
    dsimp only
    split
    · rename_i e
      exact (Canonical.of_pair e h'.translate).fetchFault
    · rename_i e
      have ht := Canonical.of_pair e h'.translate
      exact .ite ht.fetchFault (.ite (.ite ht.readCol.meet.fetchFault ht.readCol.meet.fillLine) ht.fillLine))

/-! ### Issue of transfers, counters and rings (R174 to R189) -/

protected theorem Canonical.enqueueEntry {c e} (h : Canonical s) : Canonical (enqueueEntry c e s) :=
  .retire (.modEng (h.congr rfl rfl))

protected theorem Canonical.putGet {i get a b k} (h : Canonical s) : Canonical (putGet i get a b k s) :=
  h.coreOnly fun _ _ => .ite h.illegal (h.outside fun _ _ h' => by
    refine .ite h'.trapHere ?_
    split
    exacts [h'.trapHere, .ite h'.trapHere (.ite h' h'.enqueueEntry)])

protected theorem Canonical.execPutm {a b k} (h : Canonical s) : CanonicalNext (execPutm a b k s) :=
  h.coreOnly fun _ _ => .ite h.illegal (h.outside fun _ _ h' => .ite h'.trapHere (.ite h'.trapHere (.ite h' h'.enqueueEntry)))

protected theorem Canonical.execGetd {b k} (h : Canonical s) : CanonicalNext (execGetd b k s) :=
  h.coreOnly fun _ _ => .ite h.illegal (h.outside fun _ _ h' => .ite h'.trapHere (.ite h'.trapHere (.ite h' h'.enqueueEntry)))

protected theorem Canonical.cwaitDone {c n v} (h : Canonical s) : Canonical (cwaitDone c n v s) := by
  unfold cwaitDone
  split
  exacts [h.modEng.trapHere, h.retire]

protected theorem Canonical.execCwait {a b} (h : Canonical s) : CanonicalNext (execCwait a b s) :=
  h.coreOnly fun _ _ => h.outside fun _ _ h' => .ite h'.setWait h'.cwaitDone

protected theorem Canonical.execCwaitWake {c} (h : Canonical s) : CanonicalNext (execCwaitWake c s) := by
  refine .next ?_
  dsimp only
  split
  exacts [.ite h.cwaitDone h, h]

protected theorem Canonical.setRing {c k r} (h : Canonical s) : Canonical (setRing c k r s) := h.modEng

protected theorem Canonical.execRinit {k a b} (h : Canonical s) : CanonicalNext (execRinit k a b s) :=
  h.coreOnly fun _ _ => .ite h.illegal (h.outside fun _ _ h' =>
    .ite h'.trapHere (.ite h'.trapHere (.ite h'.trapHere (.ite h' h'.setRing.setLocalFe.retire))))

protected theorem Canonical.ringOp {i k b top fed held act} (h : Canonical s)
    (hact : ∀ x y z t, Canonical t → Canonical (act x y z t)) : Canonical (ringOp i k b top fed held act s) :=
  h.coreOnly fun _ _ => .ite h.illegal (h.outside fun _ _ h' => .ite h'.trapHere (hact _ _ _ _ h'))

protected theorem Canonical.slotsFe {c r p n full} (h : Canonical s) : Canonical (slotsFe c r p n full s) :=
  h.forEach fun _ _ h' => h'.setLocalFe

protected theorem Canonical.execRwfWake {c} (h : Canonical s) : CanonicalNext (execRwfWake c s) := by
  refine .next ?_
  dsimp only
  split
  exacts [.ite h.finishG h, h]

protected theorem Canonical.execRweWake {c} (h : Canonical s) : CanonicalNext (execRweWake c s) := by
  refine .next ?_
  dsimp only
  split
  exacts [.ite h.finishG h, h]

protected theorem Canonical.madd {n int vals a} (h : Canonical s) : Canonical (madd n int vals a s) :=
  h.coreOnly fun _ _ => h.outside fun _ _ h' => .ite h'.trapHere (.ite h'.trapHere (.ite h' h'.enqueueEntry))

protected theorem Canonical.mfenceDone {c} (h : Canonical s) : Canonical (mfenceDone c s) := by
  unfold mfenceDone
  split
  exacts [h.modCtx.trapHere, h.retire]

protected theorem Canonical.execMfence (h : Canonical s) : CanonicalNext (execMfence s) :=
  h.coreOnly fun _ _ => h.outside fun _ _ h' => .ite h'.setWait h'.mfenceDone

/-! ### Entries of the DMA engine and fault records -/

protected theorem Canonical.setEntry {c e} (h : Canonical s) : Canonical (setEntry c e s) := h.modEng

protected theorem Canonical.dropEntry {c eid} (h : Canonical s) : Canonical (dropEntry c eid s) := h.modEng

protected theorem Canonical.chargeDram {c n} (h : Canonical s) : Canonical (chargeDram c n s) := by
  unfold chargeDram
  split
  exacts [h, h.modOwner]

protected theorem Canonical.suspend {c e kind} (h : Canonical s) : Canonical (suspend c e kind s).2 := h.drawNat.modPart

protected theorem Canonical.xlate {fuel c first e} (h : Canonical s) : Canonical (xlate fuel c first e s).2 := by
  induction fuel generalizing first e s with
  | zero => exact h
  | succ fuel ih =>
    unfold xlate
    refine .iteSnd h ?_
    dsimp only
    split
    · exact .iteSnd h.translate (.iteSnd h.translate.suspend h.translate)
    · exact .iteSnd (.iteSnd h.translate.suspend h.translate) (.iteSnd h.translate (.iteSnd h.translate (ih h.translate)))

protected theorem Canonical.partStep {c e} (h : Canonical s) : Canonical (partStep c e s) := by
  unfold partStep
  dsimp only
  exact h.xlate.setEntry

protected theorem Canonical.execPartTranslate {c eid} (h : Canonical s) : CanonicalNext (execPartTranslate c eid s) := by
  refine .next ?_
  split
  exacts [h, .ite (h.gate fun _ h' => h'.partStep) h]

protected theorem Canonical.freeList {n} (h : Canonical s) : Canonical (freeList n s).2 := by
  induction n generalizing s with
  | zero => exact h
  | succ n ih => exact ih h.drawNat

protected theorem Canonical.deal {c dpat i l} (h : Canonical s) : Canonical (deal c dpat i l s) :=
  Canonical.foldlAt Prod.snd h fun _ _ h' => by
    split
    exacts [h'.writeLocal, h']

protected theorem Canonical.readUnit {c e old u} (h : Canonical s) : Canonical (readUnit c e old u s).2 := by
  unfold readUnit
  refine .iteSnd h ?_
  split
  · exact h.readCol.chargeDram
  · exact .iteSnd h.readCol.chargeDram.meet (.iteSnd h.readCol.chargeDram.meet.drawNat h.readCol.chargeDram.meet)

protected theorem Canonical.readUnits {c e old l} (h : Canonical s) : Canonical (readUnits c e old l s).2 := by
  induction l generalizing s with
  | nil => exact h
  | cons u l ih =>
    unfold readUnits
    refine ih ?_
    split
    exacts [h, h.readUnit]

protected theorem Canonical.farRead {c e f n old} (h : Canonical s) : Canonical (farRead c e f n old s).2 := by
  unfold farRead
  split
  exacts [h.readUnits, h, h.freeList, h]

protected theorem Canonical.bumpShares {c e} (h : Canonical s) : Canonical (bumpShares c e s) :=
  h.forEach fun _ _ h' => by
    split
    exacts [h'.bump, h']

protected theorem Canonical.writeLocalEnd {c later e l} (h : Canonical s) : Canonical (writeLocalEnd c later e l s) :=
  .setEntry (.ite h (.ite h.deal (.ite h h.writeLocal)))

protected theorem Canonical.readAhead {c e a o n i busy read} (h : Canonical s) :
    Canonical (readAhead c e a o n i busy read s) :=
  .ite h h.setEntry

protected theorem Canonical.unitAhead {c e old x} (h : Canonical s) : Canonical (unitAhead c e old x s) := by
  unfold unitAhead
  split
  exacts [h, .ite h (h.gate fun _ h' => h'.readUnit.setEntry)]

protected theorem Canonical.sourceAhead {c e f old i} (h : Canonical s) : Canonical (sourceAhead c e f old i s) := by
  unfold sourceAhead
  split
  · exact h.readAhead
  · exact h.readAhead
  · exact h.readAhead
  · exact h.readAhead
  · exact h.unitAhead
  · exact h.unitAhead
  · exact h.unitAhead
  · exact h

protected theorem Canonical.writeWord {w} (h : Canonical s) : Canonical (writeWord w s) := by
  unfold writeWord
  refine .ite h ?_
  split
  exacts [h.writeLocal, h.sramWrite]

protected theorem Canonical.fillWord {w} (h : Canonical s) : Canonical (fillWord w s) := by
  unfold fillWord
  split
  exacts [h.setLocalFe, h.setFe]

protected theorem Canonical.writeUnit {c e old w} (h : Canonical s) : Canonical (writeUnit c e old w s).2 := by
  unfold writeUnit
  dsimp only
  split
  · exact h.physWrite
  · split
    · exact .iteSnd h.readCol.chargeDram h.readCol.writeMeta.putBefore.chargeDram
    · split
      · exact h.modBank.chargeDram
      · split
        · rename_i e
          exact (Canonical.of_pair e h.physWrite).putBefore.chargeDram
        · rename_i e
          exact (Canonical.of_pair e h.physWrite).chargeDram

protected theorem Canonical.writeLate {c e old w} (h : Canonical s) : Canonical (writeLate c e old w s).2 :=
  .iteSnd h.writeUnit h.writeWord

protected theorem Canonical.writeAll {c e old l} (h : Canonical s) : Canonical (writeAll c e old l s).2 := by
  induction l generalizing s with
  | nil => exact h
  | cons w l ih =>
    unfold writeAll
    split
    · rename_i eq
      have ht := Canonical.of_pair eq h.writeLate
      exact ih (.ite ht ht.fillWord)
    · rename_i eq
      exact .of_pair eq h.writeLate

protected theorem Canonical.afterWrites {c e rest} (h : Canonical s) : Canonical (afterWrites c e rest s) := by
  unfold afterWrites
  split <;> exact h.setEntry

protected theorem Canonical.landLate {c e old pick} (h : Canonical s) : Canonical (landLate c e old pick s) := by
  unfold landLate
  dsimp only
  refine .ite (.ite h (h.gate fun _ h' => h'.writeAll.afterWrites)) ?_
  split
  · exact h
  · exact .ite h (.ite h.fillWord.setEntry (h.gate fun _ h' => by
    split
    · rename_i e
      exact (Canonical.of_pair e h'.writeLate).setEntry
    · rename_i e
      exact (Canonical.of_pair e h'.writeLate).afterWrites))

protected theorem Canonical.sendPeer {c e d q o b} (h : Canonical s) : Canonical (sendPeer c e d q o b s) := h.send

protected theorem Canonical.moveSegment {c later old e f n} (h : Canonical s) :
    Canonical (moveSegment c later old e f n s) := by
  unfold moveSegment
  dsimp only
  split
  · exact h.setEntry
  · split
    case h_1 | h_2 | h_3 =>
      split
      · exact h.sendPeer.setEntry
      · refine .writeLocalEnd (.farRead ?_)
        split
        exacts [h.forEach fun _ _ h' => h'.answeredId, h]
    case h_4 | h_5 =>
      split
      · exact .ite h.setEntry h.writeAll.afterWrites
      · exact .ite h.setEntry h.sramWrite.setFe.setEntry
      · exact h.sendPeer.setEntry
      · exact h
    case h_6 | h_7 => exact h

protected theorem Canonical.served {c eid} (h : Canonical s) : Canonical (Machine.served c eid s) := h.modCluster.modCore

protected theorem Canonical.execPutgetSegment {c eid} (h : Canonical s) : CanonicalNext (execPutgetSegment c eid s) := by
  refine .next ?_
  split
  · exact h
  · refine .ite h (.ite h.landLate (.ite h (.ite h.setEntry ?_)))
    split
    exacts [h, .ite h.sourceAhead (.ite h (h.gate fun _ h' => h'.moveSegment.served))]

protected theorem Canonical.remoteBump {c e} (h : Canonical s) : Canonical (remoteBump c e s) := by
  unfold remoteBump
  refine .ite h ?_
  split
  · split
    exacts [h.bump, h]
  · exact h.send
  · exact h

protected theorem Canonical.askPeer {c e} (h : Canonical s) : Canonical (askPeer c e s) := by
  unfold askPeer
  refine .ite h.remoteBump ?_
  split
  exacts [h.sendPeer, h]

protected theorem Canonical.execPutgetComplete {c eid} (h : Canonical s) : CanonicalNext (execPutgetComplete c eid s) := by
  have hb {p : Prop} [Decidable p] {n} :
      Canonical (if p then bump c n 1 (dropEntry c eid s) else dropEntry c eid s) := h.dropEntry.when (·.bump)
  refine .next ?_
  dsimp only
  split
  · exact h
  · refine .ite h (.ite h.setEntry (.ite h.askPeer.setEntry (.ite hb ?_)))
    split
    exacts [hb.unless (·.remoteBump), hb.unless (·.remoteBump), hb.bumpShares, hb]

protected theorem Canonical.execPutgetFail {c eid} (h : Canonical s) : CanonicalNext (execPutgetFail c eid s) := by
  refine .next ?_
  split
  · exact h
  · split
    exacts [h, .ite h (.ite h.dropEntry.postRemoteStore.bump h.dropEntry.postRemoteStore)]

protected theorem Canonical.claimSlot {c m dest later e d} (h : Canonical s) : Canonical (claimSlot c m dest later e d s) :=
  .ite (h.unless (·.writeLocal)).setEntry ((h.unless (·.writeLocal)).setRing.when (·.bump)).setEntry

protected theorem Canonical.putmAhead {c e d i} (h : Canonical s) : Canonical (putmAhead c e d i s) := h.readAhead

protected theorem Canonical.execPutmSlotClaim {c eid dest} (h : Canonical s) :
    CanonicalNext (execPutmSlotClaim c eid dest s) := by
  have hn {p : Prop} [Decidable p] {n : Nat} : Canonical (if p then s else { s with nextId := n }) :=
    h.unless fun h => h.congr rfl rfl
  refine .next ?_
  dsimp only
  split
  · exact h
  · split
    · exact h
    · refine .ite h (.ite h.landLate (.ite h ?_))
      split
      · exact hn.setEntry
      · exact .ite hn.setEntry (.ite hn.setEntry.putmAhead (.ite hn.setEntry hn.setEntry.claimSlot.served))

protected theorem Canonical.execMaddAccept {c eid} (h : Canonical s) : CanonicalNext (execMaddAccept c eid s) := by
  refine .next ?_
  split
  exacts [h, .ite h h.dropEntry.modEng]

protected theorem Canonical.execMaddApply {c eid} (h : Canonical s) : CanonicalNext (execMaddApply c eid s) := by
  refine .next ?_
  split
  · exact h
  · split
    · exact h
    · refine .ite h (.ite h.modEng.postRemoteStore (h.gate fun _ h' => ?_))
      exact .ite h'.modEng.readCol.chargeDram.postRemoteStore h'.modEng.readCol.chargeDram.writeCol.putBefore

protected theorem Canonical.raiseEvent {gcn code} (h : Canonical s) : Canonical (raiseEvent gcn code s) := by
  unfold raiseEvent
  split
  exacts [h.modCtx, h.modCore]

protected theorem Canonical.execFaultRecordWrite {p fid} (h : Canonical s) : CanonicalNext (execFaultRecordWrite p fid s) := by
  refine .next ?_
  dsimp only
  split
  · exact h
  · split
    · exact h
    · exact .ite h h.sramWrite.setFe.sramWrite.setFe.sramWrite.setFe.sramWrite.setFe.modPart.raiseEvent

protected theorem Canonical.landRetired {c e} (h : Canonical s) : Canonical (landRetired c e s).2 :=
  .iteSnd h (.ite h.writeAll.setEntry h.writeAll.afterWrites)

protected theorem Canonical.untranslate {c e} (h : Canonical s) : Canonical (untranslate c e s) := by
  unfold untranslate
  dsimp only
  split
  exacts [h.landRetired, .ite h.landRetired.writeLocalEnd h.landRetired.setEntry]

protected theorem Canonical.untranslateAll (h : Canonical s) : Canonical (untranslateAll s) :=
  h.forEach fun _ _ h' => h'.untranslate

protected theorem Canonical.resolve {p act fid f} (h : Canonical s) (hf : ∀ x y t, Canonical t → Canonical (f x y t)) :
    Canonical (resolve p act fid f s) := by
  unfold resolve
  dsimp only
  refine .ite h ?_
  split
  · exact h.modPart
  · split
    exacts [h.modPart, hf _ _ _ h.modPart]

protected theorem Canonical.execFresumeRetry {p fid} (h : Canonical s) : CanonicalNext (execFresumeRetry p fid s) :=
  h.resolve fun _ _ _ h' => h'.dropPage.setEntry.gate fun _ h'' => h''.partStep

/-! ### Contexts of harts: start, save, restore, end -/

protected theorem Canonical.clearSram {k n} (h : Canonical s) : Canonical (clearSram k n s) :=
  h.setMem (wf_clearBytes h.wf _ _)

protected theorem Canonical.placeSram {k n im} (h : Canonical s) : Canonical (placeSram k n im s) :=
  (h.clearSram.setMem (wf_placeBytes h.clearSram.wf _ _)).setFe

protected theorem Canonical.clearBau {g} (h : Canonical s) : Canonical (clearBau g s) := h.modBank

protected theorem Canonical.clearCore {g} (h : Canonical s) : Canonical (clearCore g s) := h.clearSram.modCore

protected theorem Canonical.landWords {q} (h : Canonical s) : Canonical (landWords q s) :=
  .ite h ((h.forEach fun _ _ h' => h'.writeWord.fillWord).mapCtxs rfl rfl fun _ => rfl)

protected theorem Canonical.clearCluster {q} (h : Canonical s) : Canonical (clearCluster q s) :=
  (h.landWords.clearSram.forEach fun _ _ h' => h'.clearCore).modCluster

protected theorem Canonical.takeEvents {c} (h : Canonical s) : Canonical (takeEvents c s) := .ite h h.modCore.modCtx

protected theorem Canonical.enterBau {g p} (h : Canonical s) : Canonical (enterBau g p s) := .ite h h.clearBau.modCore

protected theorem Canonical.enterCore {g p} (h : Canonical s) : Canonical (enterCore g p s) :=
  .enterBau (.modCore (.ite h h.clearCore))

protected theorem Canonical.takeBanks {g c lb} (h : Canonical s) : Canonical (takeBanks g c lb s) := h.modCore

protected theorem Canonical.startGang {tid vcn q cores} (h : Canonical s) : Canonical (startGang tid vcn q cores s) :=
  .modTask (.forEach (h.congr rfl rfl) fun _ _ h' => h'.enterCore.modCtx.takeBanks.takeEvents)

protected theorem Canonical.saveCtx {c} (h : Canonical s) : Canonical (saveCtx c s) :=
  .ite h.commitChunk (.ite h.commitChunk.carry.modCtx.takeBanks.modCore h.commitChunk.carry.modCtx.takeBanks)

protected theorem Canonical.restoreCtx {c q} (h : Canonical s) : Canonical (restoreCtx c q s) := by
  unfold restoreCtx
  dsimp only
  split
  · exact h
  · exact .takeEvents (.modCtx (.takeBanks (.modCore (.placeSram (.enterCore (.ite h h.modCore))))))

protected theorem Canonical.restoreGang {tid q} (h : Canonical s) : Canonical (restoreGang tid q s) :=
  (h.forEach fun _ _ h' => h'.restoreCtx).modTask

protected theorem Canonical.releaseCores {tid} (h : Canonical s) : Canonical (releaseCores tid s) :=
  h.forEach fun _ _ h' => h'.modCore.modCtx

protected theorem Canonical.exitGang {tid} (h : Canonical s) : Canonical (exitGang tid s) := .ite h.releaseCores.modTask h

protected theorem Canonical.saveGang {tid} (h : Canonical s) : Canonical (saveGang tid s) :=
  (h.forEach fun _ _ h' => h'.saveCtx).modTask

protected theorem Canonical.invalidate {p mode va asid} (h : Canonical s) : Canonical (invalidate p mode va asid s) :=
  h.mapCtxs rfl rfl fun p => by split <;> rfl

protected theorem Canonical.tlbinvDone {c} (h : Canonical s) : Canonical (tlbinvDone c s) := by
  unfold tlbinvDone
  dsimp only
  split
  exacts [.ite h.invalidate h.invalidate.retire, h]

protected theorem Canonical.stopatDone {c} (h : Canonical s) : Canonical (stopatDone c s) := by
  unfold stopatDone
  split
  exacts [.ite h h.finishG, h]

protected theorem Canonical.finishStall {c} (h : Canonical s) : Canonical (finishStall c s) := by
  unfold finishStall
  split
  exacts [.ite h h.retire, h.tlbinvDone, h.stopatDone, h]

protected theorem Canonical.endMember {c} (h : Canonical s) : Canonical (endMember c s) :=
  (((h.commitChunk.finishStall.carry.when (·.setFlag)).when (·.setFlag)).when (·.endRun)).modCtx

protected theorem Canonical.endTask {tid kind} (h : Canonical s) : Canonical (endTask tid kind s) :=
  .ite h ((h.forEach fun _ _ h' => h'.endMember).modTask)

protected theorem Canonical.execFresumeExhaust {p fid} (h : Canonical s) : CanonicalNext (execFresumeExhaust p fid s) :=
  Canonical.ite (h.resolve fun _ _ _ h' => by
    dsimp only
    split
    exacts [h'.dropEntry.setFlag.endTask, h'.dropEntry.setFlag]) h

/-! ### Marks (R214 to R236) -/

protected theorem Canonical.setCell {q cell v} (h : Canonical s) : Canonical (setCell q cell v s) :=
  .ite (h.setMem (wf_writeBytes h.wf _ _)) h

protected theorem Canonical.markApply {q n op} (h : Canonical s) : Canonical (markApply q n op s).2 :=
  .iteSnd h.setCell (.iteSnd h.setCell (.iteSnd h (.iteSnd h (.iteSnd h (.iteSnd h h)))))

protected theorem Canonical.fadeField {q n stamp} (h : Canonical s) : Canonical (fadeField q n stamp s) :=
  .ite (h.forEach fun _ _ h' => h'.setCell) h

protected theorem Canonical.clearField {q v} (h : Canonical s) : Canonical (clearField q v s) :=
  .ite (h.forEach fun _ _ h' => h'.setCell) h

protected theorem Canonical.configEffect {q k} (h : Canonical s) : Canonical (configEffect q k s) :=
  .modCluster (.ite h.clearField.clearField h)

protected theorem Canonical.drain {fuel q n k} (h : Canonical s) : Canonical (drain fuel q n k s) := by
  induction fuel generalizing s with
  | zero => exact h
  | succ fuel ih =>
    unfold drain
    split
    exacts [h, ih h.configEffect, ih h.fadeField.modCluster]

protected theorem Canonical.drainAll {q n k} (h : Canonical s) : Canonical (drainAll q n k s) := h.drain

protected theorem Canonical.catchUp {q} (h : Canonical s) : Canonical (catchUp q s) :=
  h.forEach fun _ _ h' => .ite h'.drainAll h'

protected theorem Canonical.markOp {fn store d a b} (h : Canonical s) : Canonical (markOp fn store d a b s) :=
  h.coreOnly fun _ _ => h.outside fun _ _ h' => by
    refine .ite h'.trapHere (.ite (.ite h'.trapHere h'.send.modCore.setWait) ?_)
    split
    exacts [h'.trapHere, h'.send.modCore.setWait]

protected theorem Canonical.execTknum {d sel} (h : Canonical s) : CanonicalNext (execTknum d sel s) :=
  h.coreOnly fun _ _ => .ite h.illegal (h.outside fun _ _ h' => h'.finishG)

protected theorem Canonical.execTkwaitWake {c} (h : Canonical s) : CanonicalNext (execTkwaitWake c s) := by
  refine .next ?_
  dsimp only
  split
  exacts [.ite h.retire h, h]

protected theorem Canonical.markAnswer {id due b} (h : Canonical s) : Canonical (markAnswer id due b s) := h.congr rfl rfl

protected theorem Canonical.execMarkOpArrival {id} (h : Canonical s) : CanonicalNext (execMarkOpArrival id s) := by
  refine .next ?_
  dsimp only
  split
  · exact h
  · split
    · refine .catchUp ?_
      split
      · exact h.markAnswer
      · split
        · exact h.markAnswer
        · exact .ite h.markAnswer (.ite h.modCluster.markAnswer h.modCluster.unsend)
    · exact h

protected theorem Canonical.execMarkOpApply {q n} (h : Canonical s) : CanonicalNext (execMarkOpApply q n s) := by
  refine .next ?_
  dsimp only
  split
  · exact h
  · exact .ite h (.ite h.drainAll.markApply.modCluster.catchUp (h.drainAll.markApply.modCluster.catchUp.congr rfl rfl))

protected theorem Canonical.execTick {p} (h : Canonical s) : CanonicalNext (execTick p s) := by
  refine .next ?_
  dsimp only
  split
  · exact h
  · exact .ite h (h.modPart.forEach fun _ _ h' => h'.forEach fun _ _ h'' => .ite h''.modCluster h''.drainAll.fadeField)

protected theorem Canonical.execMarkConfigEffect {q n} (h : Canonical s) : CanonicalNext (execMarkConfigEffect q n s) := by
  refine .next ?_
  split
  exacts [h, .ite h h.drainAll.configEffect.catchUp]

protected theorem Canonical.dropAnswer {p} (h : Canonical s) : Canonical (dropAnswer p s) := by
  unfold dropAnswer
  split
  exacts [.ite h.unsend h, .ite h.unsend h, h]

protected theorem Canonical.execMarkReply {id} (h : Canonical s) : CanonicalNext (execMarkReply id s) := by
  refine .next ?_
  dsimp only
  split
  · exact h
  · split
    · refine .ite h ?_
      split
      exacts [.retire (.ite h.unsend.putG h.unsend), h.unsend.trapHere, h]
    · exact h.dropAnswer

/-! ### The dispatcher -/

protected theorem Canonical.addRec {v r} (h : Canonical s) : Canonical (addRec v r s) := h.modOwner

protected theorem Canonical.execLaunchRead {v c} (h : Canonical s) : CanonicalNext (execLaunchRead v c s) :=
  Canonical.ite h (.ite h.modOwner.addRec (.modOwner (.modLaunch (h.congr rfl rfl))))

protected theorem Canonical.readRecord {p asid va} (h : Canonical s) : Canonical (readRecord p asid va s).2 := by
  unfold readRecord
  split
  · rename_i e
    have ht := Canonical.of_pair e h.walk
    exact .iteSnd ht (.iteSnd ht (ht.foldlAt (fun x : List Byte × Bool × State => x.2.2) fun _ _ h' => h'.readCol))
  · rename_i e
    exact .of_pair e h.walk

protected theorem Canonical.renameTile {v tid u fl} (h : Canonical s) : Canonical (renameTile v tid u fl s) := by
  unfold renameTile
  refine .ite h ?_
  split
  · rename_i e
    have ht := Canonical.of_pair e h.walk
    refine .ite ht.modTask ?_
    split
    exacts [ht.modTask, .modTask (.modVersion (.modOwner (ht.congr rfl rfl)))]
  · rename_i e
    exact (Canonical.of_pair e h.walk).modTask

protected theorem Canonical.installVersion {ver} (h : Canonical s) : Canonical (installVersion ver s) := by
  unfold installVersion
  refine .ite h (.ite (.ite h h.modVersion.modOwner) (.ite h ?_))
  split
  · rename_i e
    have ht := Canonical.of_pair e h.walk
    refine .modOwner (.modVersion (.mapCtxs (.forEach ?_ fun _ _ h' => h'.modCluster) rfl rfl fun _ => by split <;> rfl))
    split
    exacts [ht.physWrite, ht]
  · rename_i e
    exact (Canonical.of_pair e h.walk).modVersion.modOwner

protected theorem Canonical.installAll (h : Canonical s) : Canonical (installAll s) := h.foldl fun _ _ h' => h'.installVersion

protected theorem Canonical.enqueue {v l asid d} (h : Canonical s) : Canonical (enqueue v l asid d s) :=
  .foldl (.modTask (.congr h.installAll rfl rfl)) fun _ _ h' => h'.renameTile

protected theorem Canonical.takeRecord {v l asid va} (h : Canonical s) : Canonical (takeRecord v l asid va s).2 := by
  unfold takeRecord
  split
  · rename_i e
    exact (Canonical.of_pair e h.readRecord).addRec
  · rename_i e
    have ht := Canonical.of_pair e h.readRecord
    exact .iteSnd ht.addRec (.iteSnd ht.enqueue ht)

protected theorem Canonical.execTaskEnqueue {v c} (h : Canonical s) : CanonicalNext (execTaskEnqueue v c s) :=
  h.gate fun _ h' => by
    split
    · exact h'
    · exact .ite h'.modOwner (.ite h'.takeRecord (.ite h'.takeRecord.modLaunch h'.takeRecord.modLaunch.modOwner))

protected theorem Canonical.copyLine {src dst} (h : Canonical s) : Canonical (copyLine src dst s) := by
  unfold copyLine
  dsimp only
  split
  · split
    exacts [h, .iteSnd h (h.physRead.forEach fun _ _ h' => h'.settle)]
  · refine .physWrite ?_
    split
    exacts [h, .iteSnd h (h.physRead.forEach fun _ _ h' => h'.settle)]

protected theorem Canonical.execVersionFill {ver} (h : Canonical s) : CanonicalNext (execVersionFill ver s) :=
  Canonical.ite h (h.gate fun _ h' => (h'.forEach fun _ _ h'' => h''.copyLine).modVersion)

protected theorem Canonical.drr {fuel p c o l cand} (h : Canonical s) : Canonical (drr fuel p c o l cand s).2 := by
  induction fuel generalizing o s with
  | zero => exact h
  | succ fuel ih =>
    unfold drr
    split
    exacts [ih h.modPart, .iteSnd (ih h.modPart) h.modPart]

protected theorem Canonical.place {tid} (h : Canonical s) : Canonical (place tid s) := by
  unfold place
  dsimp only
  split
  · split
    exacts [h.startGang, h]
  · split
    exacts [h.restoreGang, h]

protected theorem Canonical.execDispatchOpportunity {p} (h : Canonical s) : CanonicalNext (execDispatchOpportunity p s) := by
  unfold execDispatchOpportunity
  dsimp only
  refine .next (.ite h ?_)
  split
  · split
    exacts [h.modPart.place, h.modPart]
  · split
    · rename_i e
      exact (Canonical.of_pair e h.modPart.drr).place
    · rename_i e
      exact .of_pair e h.modPart.drr

protected theorem Canonical.execTaskComplete {tid} (h : Canonical s) : CanonicalNext (execTaskComplete tid s) :=
  Canonical.ite h (((h.forEach fun _ _ h' => .recordCovers (.ite h'.setFlag h')).modTask).addRec)

protected theorem Canonical.releaseGang {tid} (h : Canonical s) : Canonical (releaseGang tid s) := h.releaseCores.modTask

protected theorem Canonical.signal {v} (h : Canonical s) : Canonical (signal v s) := h.modOwner

protected theorem Canonical.execEventRecordWrite {v} (h : Canonical s) : CanonicalNext (execEventRecordWrite v s) := by
  have hw {p : Prop} [Decidable p] {k l} :
      Canonical (if p then setFe (wordsOf k 32) true (sramWrite k l none s) else { s with mem := writeBytes s.mem k l }) :=
    .ite h.sramWrite.setFe (h.setMem (wf_writeBytes h.wf _ _))
  refine .next ?_
  dsimp only
  split
  · exact h
  · split
    · exact h
    · refine .ite h (.ite (.signal (.modOwner ?_)) (.modOwner ?_)) <;> split
      exacts [hw.releaseGang, hw, hw.releaseGang, hw]

protected theorem Canonical.meter {q uj} (h : Canonical s) : Canonical (meter q uj s) :=
  h.modCluster.forEach fun _ _ h' => h'.modTask.modLaunch.modOwner

/-! ### Task instructions (R190 to R194) -/

protected theorem Canonical.takePosted {c} (h : Canonical s) : Canonical (takePosted c s) := by
  unfold takePosted
  split
  exacts [h, h.modEng.trapHere]

protected theorem Canonical.execTspawn {d a b} (h : Canonical s) : CanonicalNext (execTspawn d a b s) :=
  h.coreOnly fun _ _ => h.outside fun _ _ h' => .ite h'.setWait (.ite h'.finishG h'.cover.send.setWait)

protected theorem Canonical.spawnRecords {fuel v l k asid va} (h : Canonical s) :
    Canonical (spawnRecords fuel v l k asid va s).2 := by
  induction fuel generalizing k va s with
  | zero => exact h
  | succ fuel ih =>
    unfold spawnRecords
    split
    · rename_i e
      exact ih (.of_pair e h.takeRecord)
    · rename_i e
      exact .of_pair e h.takeRecord

protected theorem Canonical.spawnFor {c base n asid} (h : Canonical s) : Canonical (spawnFor c base n asid s).2 := by
  unfold spawnFor
  split
  exacts [h, .iteSnd h h.spawnRecords]

protected theorem Canonical.execTspawnAck {c} (h : Canonical s) : CanonicalNext (execTspawnAck c s) := by
  refine .next ?_
  split
  · split
    exacts [h.gate fun _ h' => .ite h'.spawnFor.unsend h'.spawnFor.unsend.finishG, h]
  · exact h

protected theorem Canonical.execTexit {a} (h : Canonical s) : CanonicalNext (execTexit a s) :=
  h.coreOnly fun _ _ => h.outside fun _ _ h' => by
    refine .ite h'.takePosted (.ite h' ?_)
    split
    exacts [h'.modCtx.exitGang, h'.modCtx]

protected theorem Canonical.execTyieldEnd {c} (h : Canonical s) : CanonicalNext (execTyieldEnd c s) := by
  refine .next ?_
  dsimp only
  split
  exacts [.ite h.retire h, h]

/-! ### The associative array (R237 to R279) -/

protected theorem Canonical.axIssue {i a b f chk upd} (h : Canonical s) : Canonical (axIssue i a b f chk upd s) :=
  h.coreOnly fun _ _ => .ite h.illegal (h.outside fun _ _ h' => by
    split
    exacts [h'.trapHere, .ite h' h'.modEng.modEng.retire])

protected theorem Canonical.axPlain {i a b} (h : Canonical s) : Canonical (axPlain i a b s) := h.axIssue

protected theorem Canonical.axNow {i chk upd also} (h : Canonical s) (halso : ∀ x t, Canonical t → Canonical (also x t)) :
    Canonical (axNow i chk upd also s) :=
  h.coreOnly fun _ _ => .ite h.illegal (h.outside fun _ _ h' => by
    split
    exacts [h'.trapHere, (halso _ _ h'.modEng).retire])

protected theorem Canonical.axeFmt {i d a b f} (h : Canonical s) : Canonical (axeFmt i d a b f s) := by
  unfold axeFmt
  exact h.axIssue

protected theorem Canonical.axeCmp {i a b f} (h : Canonical s) : Canonical (axeCmp i a b f s) := by
  unfold axeCmp
  exact h.axIssue

protected theorem Canonical.axeWidth {i d src} (h : Canonical s) : Canonical (axeWidth i d src s) := h.axIssue

protected theorem Canonical.needBanks {c lb} (h : Canonical s) : Canonical (needBanks c lb s) := .ite h.takeBanks h

protected theorem Canonical.execAxwait {a} (h : Canonical s) : CanonicalNext (execAxwait a s) :=
  h.coreOnly fun _ _ => h.outside fun _ _ h' => .ite h'.takePosted (.ite h'.setWait h'.retire)

protected theorem Canonical.execAxwaitEnd {c} (h : Canonical s) : CanonicalNext (execAxwaitEnd c s) := by
  refine .next ?_
  dsimp only
  split
  exacts [.ite h.retire h, h]

protected theorem Canonical.putArrayG {c d v} (h : Canonical s) : Canonical (putArrayG c d v s) := h.modCtx

protected theorem Canonical.chargePass {c n} (h : Canonical s) : Canonical (chargePass c n s) := by
  unfold chargePass
  split
  exacts [h.modOwner, h]

protected theorem Canonical.finishArray {c e} (h : Canonical s) : Canonical (finishArray c e s) := h.modEng.chargePass

protected theorem Canonical.setHead {c f} (h : Canonical s) : Canonical (setHead c f s) := h.modEng

protected theorem Canonical.arrayFault {c code v pc row} (h : Canonical s) : Canonical (arrayFault c code v pc row s) :=
  h.modEng

protected theorem Canonical.transferFault {c code v pc row n} (h : Canonical s) :
    Canonical (transferFault c code v pc row n s) :=
  h.arrayFault.chargePass

protected theorem Canonical.clearTile {c i} (h : Canonical s) : Canonical (clearTile c i s) := by
  unfold clearTile
  split
  exacts [h.modEng, h.modEng, h]

protected theorem Canonical.axExtreme {c e mx d v u f} (h : Canonical s) : Canonical (axExtreme c e mx d v u f s) := by
  unfold axExtreme
  exact .ite h.putArrayG h.modCore.putArrayG

protected theorem Canonical.moveElem {c e st v} (h : Canonical s) : Canonical (moveElem c e st v s) := by
  have hs {p q : Prop} [Decidable p] [Decidable q] {k b me g f} :
      Canonical (if p then s else if q then sramWrite k b me s else modCore g f s) := .ite h (.ite h.sramWrite h.modCore)
  exact .ite h.transferFault (.ite h.transferFault (.ite hs.finishArray hs.setHead))

protected theorem Canonical.moveTileRow {src e l} (h : Canonical s) : Canonical (moveTileRow src e l s) := by
  refine .ite (h.forEach fun _ _ h' => ?_) (h.forEach fun _ _ h' => ?_) <;> split
  exacts [.clearTile (.ite h'.transferFault h'.transferFault), h', .ite h'.modCore.finishArray h'.modCore.setHead, h']

protected theorem Canonical.runHead {c e} (h : Canonical s) : Canonical (runHead c e s) := by
  unfold runHead
  split
  · exact h.putArrayG.finishArray
  · exact h.modCore.finishArray
  · exact h.modEng.finishArray
  · exact h.modEng.finishArray
  · exact h.axExtreme.finishArray
  · exact h.axExtreme.finishArray
  · exact h.needBanks.modEng.putArrayG.finishArray
  · exact h.modCore.finishArray
  · exact h.modCore.finishArray
  · exact h.moveElem
  · exact h.moveElem
  · exact h.moveTileRow
  · refine .ite h.moveTileRow ?_
    split
    · split
      exacts [h.moveTileRow, h]
    · exact h
  · exact h
  · exact h
  · exact h.modCore.finishArray

protected theorem Canonical.execArrayInstrExecute {c} (h : Canonical s) : CanonicalNext (execArrayInstrExecute c s) := by
  refine .next ?_
  dsimp only
  split
  exacts [.ite h.runHead h, h]

protected theorem Canonical.execArrayResultWrite {c} (h : Canonical s) : CanonicalNext (execArrayResultWrite c s) := by
  refine .next ?_
  split
  exacts [h.modEng.putArrayG, h]

protected theorem Canonical.mmCompute {c e} (h : Canonical s) : Canonical (mmCompute c e s) :=
  .ite h.needBanks.modEng.chargePass.sramWrite h.needBanks.modEng.chargePass

protected theorem Canonical.mmCommit {c e} (h : Canonical s) : Canonical (mmCommit c e s) :=
  .ite h.slotsFe.setRing.slotsFe.setRing.finishArray h.slotsFe.setRing.slotsFe.setRing.setHead

protected theorem Canonical.mmRow {l later} (h : Canonical s) : Canonical (mmRow l later s) := by
  have hc : Canonical (Machine.forEach l (fun p s => mmCompute p.1 p.2 s) s) := h.forEach fun _ _ h' => h'.mmCompute
  unfold mmRow
  dsimp only
  refine .ite (h.forEach fun _ _ h' => h'.mmCommit) ?_
  split
  · split
    exacts [h, h.forEach fun _ _ h' => .ite h'.arrayFault h'.arrayFault]
  · split
    · split
      exacts [hc, hc.forEach fun _ _ h' => .ite h'.arrayFault h'.arrayFault]
    · exact .ite (hc.forEach fun _ _ h' => h'.setHead) (hc.forEach fun _ _ h' => h'.mmCommit)

protected theorem Canonical.execAxmmRow {c} (h : Canonical s) : CanonicalNext (execAxmmRow c s) := by
  refine .next ?_
  dsimp only
  split
  exacts [.ite h.mmRow h, h]

protected theorem Canonical.abortOps {l who} (h : Canonical s) : Canonical (abortOps l who s) :=
  h.forEach fun _ _ h' => h'.arrayFault.clearTile

protected theorem Canonical.execGangOpJoin {u} (h : Canonical s) : CanonicalNext (execGangOpJoin u s) := by
  refine .next (.ite h ?_)
  split
  · exact h.abortOps
  · refine .ite h ?_
    split
    · exact h
    · split
      exacts [h.abortOps, h.forEach fun _ _ h' => h'.setHead]

/-! ### System instructions, interrupts and exceptions -/

protected theorem Canonical.execEcall (d a b k : R5) (h : Canonical s) : CanonicalNext (execEcall d a b k s) :=
  h.coreOnly fun _ _ => h.outside fun _ _ h' => h'.takeTrap

protected theorem Canonical.execEbreak (d a b k : R5) (h : Canonical s) : CanonicalNext (execEbreak d a b k s) :=
  h.coreOnly fun _ _ => h.outside fun _ _ h' => h'.trapHere

protected theorem Canonical.execTret (h : Canonical s) : CanonicalNext (execTret s) :=
  h.coreOnly fun _ _ => .ite h.illegal (.ite h.commitChunk.modCtx.stepTrap h.commitChunk.modCtx.modCtx)

protected theorem Canonical.execWfi (h : Canonical s) : CanonicalNext (execWfi s) :=
  h.coreOnly fun _ _ => .ite h.illegal (h.outside fun _ _ h' => .ite h'.retire h'.setWait)

protected theorem Canonical.execTlbinv {a b m} (h : Canonical s) : CanonicalNext (execTlbinv a b m s) :=
  h.coreOnly fun _ _ => .ite h.illegal (h.outside fun _ _ h' => h'.setWait)

protected theorem Canonical.execAsidset {d a} (h : Canonical s) : CanonicalNext (execAsidset d a s) :=
  h.coreOnly fun _ _ => .ite h.illegal (h.outside fun _ _ h' => h'.putG.modCtx.retire)

protected theorem Canonical.execProtset {a n} (h : Canonical s) : CanonicalNext (execProtset a n s) :=
  h.coreOnly fun _ _ => .ite h.illegal (h.outside fun _ _ h' => h'.csrWrite.retire)

protected theorem Canonical.execStopat {d a b} (h : Canonical s) : CanonicalNext (execStopat d a b s) :=
  h.coreOnly fun _ _ => .ite h.illegal (h.outside fun _ _ h' => .setWait (.ite h'.modPart h'))

protected theorem Canonical.takeAt {c int code v} (h : Canonical s) : Canonical (takeAt c int code v s) := by
  unfold takeAt
  split
  exacts [h.takeTrap, h.retire.takeTrap, h]

protected theorem Canonical.execTakeInterrupt {c} (h : Canonical s) : CanonicalNext (execTakeInterrupt c s) := by
  refine .next (.ite h ?_)
  split
  exacts [h, h.takeAt]

protected theorem Canonical.execTakeAsyncException {c} (h : Canonical s) : CanonicalNext (execTakeAsyncException c s) := by
  refine .next (.ite h ?_)
  split
  exacts [h.modEng.takeAt, h.modCtx.takeAt, h]

protected theorem Canonical.takeRecorded {c} (h : Canonical s) : Canonical (takeRecorded c s) := by
  unfold takeRecorded
  split
  exacts [h, h.modCtx.trapHere]

protected theorem Canonical.execIllegalInstruction {w} (h : Canonical s) : CanonicalNext (execIllegalInstruction w s) := by
  refine .next ?_
  split
  exacts [h, h.illegalWord, h.endRun]

protected theorem Canonical.execChunkCommit {c} (h : Canonical s) : CanonicalNext (execChunkCommit c s) :=
  Canonical.ite h.commitChunk h

/-! ### The stop, resumption and clusters of partitions -/

protected theorem Canonical.landFirst {c} (h : Canonical s) : Canonical (landFirst c s) :=
  h.forEach fun _ _ h' => h'.after (by
    split
    exacts [h'.execRemoteAccessArrival, h'.execSyncEngineAtomic])

protected theorem Canonical.finishTransfer {n c} (h : Canonical s) : Canonical (finishTransfer n c s) := by
  induction n generalizing s with
  | zero => exact h
  | succ n ih =>
    unfold finishTransfer
    refine .ite ?_ h
    split
    exacts [.ite h.mmCommit (ih (.runHead (.ite h.landFirst h))), h]

protected theorem Canonical.stopHart {c} (h : Canonical s) : Canonical (stopHart c s) := by
  unfold stopHart
  cases (s.ctx c).wait with
  | acks | fence | stl | bkfence | mfence | axwait | wfi => exact h.setWait
  | _ => exact h.finishStall

protected theorem Canonical.execZugzwangStop {p} (h : Canonical s) : CanonicalNext (execZugzwangStop p s) := by
  refine .next ?_
  dsimp only
  split
  · exact h
  · refine .ite h (.ite h.modPart (.modPart ?_))
    exact h.forEach (fun _ _ h' => h'.commitChunk) |>.forEach (fun _ _ h' => h'.finishTransfer)
      |>.forEach (fun _ _ h' => .ite h' h'.stopHart) |>.forEach (fun _ _ h' => h'.saveCtx)
      |>.forEach fun _ _ h' => h'.modTask

protected theorem Canonical.handleReply {k} (h : Canonical s) : Canonical (handleReply k s) := by
  unfold handleReply
  cases k.body with
  | loadReply => exact h.loadArrives
  | atomicReply => exact h.atomicArrives
  | ack => exact h.acknowledge
  | reject => exact h.rejected
  | syncReply | staleBarrier => exact h.after h.execSyncReply
  | _ => exact h

protected theorem Canonical.execRouterFlush {p q} (h : Canonical s) : CanonicalNext (execRouterFlush p q s) :=
  Canonical.ite h (.modPart (.forEach (h.congr rfl rfl) fun _ _ h' => h'.handleReply))

protected theorem Canonical.restoreSome {l} (h : Canonical s) : Canonical (restoreSome l s) :=
  h.forEach fun _ _ h' => by
    split
    exacts [h', .ite h'.drawNat.restoreGang h'.drawNat]

protected theorem Canonical.restart {p} (h : Canonical s) : Canonical (restart p s) := .modPart (h.congr rfl rfl)

protected theorem Canonical.setPresent {p q on} (h : Canonical s) : Canonical (setPresent p q on s) := by
  unfold setPresent
  split
  exacts [h, h.modPart]

protected theorem Canonical.requestPoint {q c} (h : Canonical s) : Canonical (requestPoint q c s) :=
  .ite h.logEvent h.modCluster

protected theorem Canonical.holdCap {p q} (h : Canonical s) : Canonical (holdCap p q s) := .ite h.requestPoint h

protected theorem Canonical.returnCluster {lender q} (h : Canonical s) : Canonical (returnCluster lender q s) :=
  h.clearCluster.modCluster.setPresent.holdCap

protected theorem Canonical.recallOne {lender borrower q} (h : Canonical s) : Canonical (recallOne lender borrower q s) := by
  unfold recallOne
  refine .returnCluster (.setPresent ?_)
  split
  exacts [h.landWords.modPart, h.landWords]

protected theorem Canonical.resume {p} (h : Canonical s) : Canonical (resume p s) :=
  .ite (((h.forEach fun _ _ h' => h'.recallOne).modPart.restart).restoreSome) h.modPart

protected theorem Canonical.restoreShared {p v q} (h : Canonical s) : Canonical (restoreShared p v q s) := by
  unfold restoreShared
  dsimp only
  split
  exacts [h, h.placeSram.modPart]

protected theorem Canonical.execAssignCluster {p q} (h : Canonical s) : CanonicalNext (execAssignCluster p q s) :=
  Canonical.ite h ((h.clearCluster.drawNat.modCluster.modPart.forEach fun _ _ h' => h'.modCluster).holdCap)

protected theorem Canonical.execLendCluster {p q} (h : Canonical s) : CanonicalNext (execLendCluster p q s) := by
  refine .next ?_
  dsimp only
  split
  exacts [h, .ite h h.clearCluster.modCluster.modPart.setPresent.holdCap]

protected theorem Canonical.askRecall {lender borrower} (h : Canonical s) : Canonical (askRecall lender borrower s) := h.modPart

protected theorem Canonical.execRecallLentClusters {lender borrower} (h : Canonical s) :
    CanonicalNext (execRecallLentClusters lender borrower s) :=
  Canonical.ite h (.ite h.askRecall.modPart (.ite h.askRecall.resume h.askRecall))

protected theorem Canonical.execWithdrawPartition {p} (h : Canonical s) : CanonicalNext (execWithdrawPartition p s) := by
  refine .next (.ite h (.ite (.ite h (.congr (.forEach h fun _ _ h' => ?_) rfl rfl)) (h.forEach fun _ _ h' => h'.endTask)))
  split
  exacts [h'.returnCluster, h']

protected theorem Canonical.execMigrateOwner {v} (h : Canonical s) : CanonicalNext (execMigrateOwner v s) :=
  Canonical.ite h (.ite h.modOwner (.ite h (.modMod (.congr (.ite h.modPart h) rfl rfl))))

/-! ### The host port -/

protected theorem Canonical.writeMapEntry {p vcn v} (h : Canonical s) : Canonical (writeMapEntry p vcn v s) :=
  .ite h.modPart.restoreShared h.modPart

protected theorem Canonical.ringDoor {v x} (h : Canonical s) : Canonical (ringDoor v x s) := .ite h h.modOwner.modMod

protected theorem Canonical.writeVf {f g} (h : Canonical s) : Canonical (writeVf f g s) := .ite h.modOwner h

protected theorem Canonical.writePart {p g} (h : Canonical s) : Canonical (writePart p g s) := .ite h.modPart h

protected theorem Canonical.writeReg {r v} (h : Canonical s) : Canonical (writeReg r v s) := by
  unfold writeReg
  split
  · exact h.writeVf
  · exact h.writeVf
  · exact h.writeVf
  · exact h.writeVf
  · exact .ite h.writeVf h
  · exact .ite h.ringDoor h
  · exact h.writeVf
  · exact .ite h.writeMapEntry h
  · exact h.writePart
  · exact h.writePart
  · exact h.modMod
  · exact .ite h.modMod h
  · exact .ite h.modMod h
  · exact .ite h.modMod h
  · exact .ite h.writePart h
  · exact h

protected theorem Canonical.mailboxDone {f status rsp} (h : Canonical s) : Canonical (mailboxDone f status rsp s) :=
  .modMod (.modOwner (.ite h.logEvent h))

protected theorem Canonical.execField {f} (h : Canonical s) : CanonicalNext (execField f s) := by
  unfold execField
  dsimp only
  refine .next (.ite h ?_)
  split
  exacts [h.mailboxDone, .ite h.mailboxDone h.drawNat.modCluster.mailboxDone]

protected theorem Canonical.execCap {f} (h : Canonical s) : CanonicalNext (execCap f s) :=
  Canonical.ite h (.ite h.mailboxDone ((h.modPart.forEach fun _ _ h' => h'.holdCap).mailboxDone))

protected theorem Canonical.readRuns {src l} (h : Canonical s) : Canonical (readRuns src l s).2 := by
  induction l generalizing s with
  | nil => exact h
  | cons r l ih => exact ih h.physRead

protected theorem Canonical.writeRuns {src l b k} (h : Canonical s) : Canonical (writeRuns src l b k s).2 := by
  induction l generalizing b k s with
  | nil => exact h
  | cons r l ih =>
    unfold writeRuns
    split
    · rename_i e
      exact .of_pair e h.physWrite
    · rename_i e
      exact ih (.of_pair e h.physWrite)

/-! ### Links (R368 to R371) -/

protected theorem Canonical.applyLink {paired op} (h : Canonical s) : Canonical (applyLink paired op s).2 := by
  unfold applyLink
  split
  · split <;> exact h
  · split
    exacts [h, .iteSnd h h.sramWrite.setFe]
  · split
    exacts [h, .iteSnd h h.sramWrite]
  · split
    exacts [h, .iteSnd h h.amoApply]
  · split
    · exact h
    · split
      exacts [h.bump, h]
  · split
    · exact h
    · split
      · rename_i e
        exact .of_pair e h.physWrite
      · rename_i e
        exact .of_pair e h.physWrite
  · split
    exacts [h, h.physRead]

protected theorem Canonical.answerLink {dev seq n v} (h : Canonical s) : Canonical (answerLink dev seq n v s) := h.modMod

protected theorem Canonical.execLinkOpReceive {dev seq paired op} (h : Canonical s) :
    CanonicalNext (execLinkOpReceive dev seq paired op s) :=
  Canonical.ite h (.ite h.answerLink (.ite h (h.gate fun _ h' => h'.applyLink.answerLink)))

protected theorem Canonical.execLinkRouteTimeout {dev} (h : Canonical s) : CanonicalNext (execLinkRouteTimeout dev s) := by
  refine .next ?_
  dsimp only
  split
  · exact h
  · refine .ite h (.mapCtxs (.forEach h fun _ _ h' => ?_) rfl rfl fun _ => rfl)
    split
    exacts [h'.rejected, h'.rejected, h'.rejected, h'.rejectedEntry, h'.rejectedEntry, h'.rejectedEntry, h'.acknowledge]

/-! ### Power, reset, errors and isolation -/

protected theorem Canonical.execGovernorEval {q} (h : Canonical s) : CanonicalNext (execGovernorEval q s) :=
  Canonical.ite h (.ite h.modCluster (.ite h.modCluster.requestPoint (.ite h.modCluster.requestPoint h.modCluster)))

protected theorem Canonical.execVoltageSettled {q} (h : Canonical s) : CanonicalNext (execVoltageSettled q s) := by
  refine .next ?_
  split
  exacts [h, h.modCluster]

protected theorem Canonical.resetModule {fw} (h : Canonical s) : Canonical (resetModule fw s) :=
  ⟨wf_filter h.wf _, .nil⟩

protected theorem Canonical.execSoftError {e} (h : Canonical s) : CanonicalNext (execSoftError e s) := by
  refine .next ?_
  dsimp only
  split
  · exact .ite h h.modBank
  · exact h.modCluster
  · split
    exacts [h.modCluster.commitChunk.haltCore, h.modCluster]

protected theorem Canonical.raiseService (h : Canonical s) : Canonical (raiseService s) := h.modMod

protected theorem Canonical.tableEvent {p} (h : Canonical s) : Canonical (tableEvent p s) := by
  unfold tableEvent
  dsimp only
  split
  · split
    exacts [h.raiseEvent, h]
  · exact h

protected theorem Canonical.retireFrames {g l} (h : Canonical s) : Canonical (retireFrames g l s) := by
  unfold retireFrames
  dsimp only
  split
  exacts [h.modBank.untranslateAll.modMod.tableEvent, h.modBank.untranslateAll.modMod]

protected theorem Canonical.isolated {u} (h : Canonical s) : Canonical (isolated u s) := h.modMod

protected theorem Canonical.stopFor {p} (h : Canonical s) : Canonical (stopFor p s) := h.modPart

protected theorem Canonical.dropCluster {p q} (h : Canonical s) : Canonical (dropCluster p q s) :=
  h.setPresent.forEach fun _ _ h' => h'.endTask

protected theorem Canonical.markFenced {q} (h : Canonical s) : Canonical (markFenced q s) := h.modCluster.modMod

protected theorem Canonical.dropLent {p q} (h : Canonical s) : Canonical (dropLent p q s) := by
  unfold dropLent
  split
  exacts [.ite h h.dropCluster, h]

protected theorem Canonical.fence {u q} (h : Canonical s) : Canonical (fence u q s) := by
  unfold fence
  refine .ite h.isolated ?_
  split
  · exact h.markFenced.isolated
  · exact .ite h.markFenced.dropCluster.dropLent.isolated.resume h.stopFor

protected theorem Canonical.execIsolateFault {u} (h : Canonical s) : CanonicalNext (execIsolateFault u s) := by
  refine .next (.ite h ?_)
  split
  · exact h.raiseService.retireFrames.isolated
  · exact h.raiseService.retireFrames.fence
  · exact h.raiseService.fence

protected theorem Canonical.gradeRead {g col} (h : Canonical s) : Canonical (gradeRead g col s).2 :=
  .ite h.readCol.logEvent h.readCol

protected theorem Canonical.execGradeChange {g region grade} (h : Canonical s) :
    CanonicalNext (execGradeChange g region grade s) :=
  Canonical.ite h (h.gate fun _ h' =>
    .forEach (.modBank (h'.foldlAt Prod.snd fun _ _ h'' => h''.gradeRead)) fun _ _ h'' => h''.writeCol.modBank)

/-! ### The passing of time -/

protected theorem Canonical.chargeCycles {dt} (h : Canonical s) : Canonical (chargeCycles dt s) :=
  h.forEach fun _ _ h' => by
    split
    exacts [h', h'.modOwner]

protected theorem Canonical.advanceHang {dt} (h : Canonical s) : Canonical (advanceHang dt s) := h.congr rfl rfl

protected theorem Canonical.elapse {dt} (h : Canonical s) : Canonical (elapse dt s) :=
  h.drawNat.chargeCycles.advanceHang.mapCtxs rfl rfl fun _ => rfl

protected theorem Canonical.passTime {dt} (h : Canonical s) : Canonical (passTime dt s) := h.elapse

/-! ### Bank commands (R290 to R302) -/

protected theorem Canonical.bankInstr {i f} (h : Canonical s) (hf : ∀ x y t, Canonical t → Canonical (f x y t)) :
    Canonical (bankInstr i f s) :=
  h.coreOnly fun _ _ => .ite h.illegal (h.outside fun _ _ h' => hf _ _ _ h')

protected theorem Canonical.queueCmd {c k next} (h : Canonical s) (hnext : ∀ t, Canonical t → Canonical (next t)) :
    Canonical (queueCmd c k next s) :=
  .ite h (hnext _ h.modEng)

protected theorem Canonical.execBkload {a b} (h : Canonical s) : CanonicalNext (execBkload a b s) :=
  h.bankInstr fun _ _ _ h' => .ite h'.trapHere (.ite h'.trapHere (h'.queueCmd fun _ h'' => h''.retire))

protected theorem Canonical.execBkcopy {a b k} (h : Canonical s) : CanonicalNext (execBkcopy a b k s) :=
  h.coreOnly fun _ _ => .ite h.illegal (h.bankInstr fun _ _ _ h' => .ite h'.trapHere (.ite h'.trapHere
    (.ite h'.trapHere (.ite h'.trapHere (h'.queueCmd fun _ h'' => h''.retire)))))

protected theorem Canonical.bkfenceDone {c} (h : Canonical s) : Canonical (bkfenceDone c s) := by
  unfold bkfenceDone
  dsimp only
  split
  exacts [h.performed.modEng.trapHere, h.performed.retire]

protected theorem Canonical.execBkmeta {d a b k} (h : Canonical s) : CanonicalNext (execBkmeta d a b k s) :=
  h.bankInstr fun _ _ _ h' => .ite h'.trapHere (.ite h'.trapHere (h'.queueCmd fun _ h'' => h''.setWait))

protected theorem Canonical.setHeadCmd {c k} (h : Canonical s) : Canonical (setHeadCmd c k s) := h.modEng

protected theorem Canonical.completeCmd {c psn kind second} (h : Canonical s) :
    Canonical (completeCmd c psn kind second s) := by
  unfold completeCmd
  split
  exacts [h, .modEng (.ite h.bump h)]

protected theorem Canonical.execBkloadComplete {c} (h : Canonical s) : CanonicalNext (execBkloadComplete c s) := by
  refine .next ?_
  split
  · split
    exacts [.ite h.modBank.completeCmd h, h]
  · exact h

protected theorem Canonical.execOverlayStart {c} (h : Canonical s) : CanonicalNext (execOverlayStart c s) := by
  refine .next ?_
  split
  · split
    exacts [.ite h.modBank.setHeadCmd h, h]
  · exact h

protected theorem Canonical.execOverlayEnd {g} (h : Canonical s) : CanonicalNext (execOverlayEnd g s) := by
  refine .next ?_
  split
  · split
    exacts [h.modBank.modMod.completeCmd, h]
  · exact h

protected theorem Canonical.requestSlot {r} (h : Canonical s) : Canonical (requestSlot r s) := h.modMod

protected theorem Canonical.execStreamSlotGrant {stack} (h : Canonical s) : CanonicalNext (execStreamSlotGrant stack s) := by
  refine .next ?_
  split
  exacts [h, .ite h (.ite h.modMod.modBank (h.modMod.mapCtxs rfl rfl fun _ => rfl))]

protected theorem Canonical.execBkcopyColumn {c} (h : Canonical s) : CanonicalNext (execBkcopyColumn c s) := by
  refine .next ?_
  split
  · split
    · exact .ite h (.ite h.setHeadCmd.requestSlot (h.gate fun _ h' => h'.readCol.writeCol.unfenced.chargeDram.setHeadCmd))
    · exact h
  · exact h

protected theorem Canonical.execBkcopyComplete {c} (h : Canonical s) : CanonicalNext (execBkcopyComplete c s) := by
  refine .next ?_
  dsimp only
  split
  · split
    · split
      · split
        · split
          exacts [h.completeCmd.bump, h.completeCmd]
        · exact h.completeCmd
      · exact h
    · exact h
  · exact h

protected theorem Canonical.execBkmetaComplete {c} (h : Canonical s) : CanonicalNext (execBkmetaComplete c s) := by
  refine .next ?_
  split
  · split
    · exact .ite h (h.gate fun _ h' => .ite h'.exchangeMeta.completeCmd.finishG h'.exchangeMeta.completeCmd)
    · exact h
  · exact h

/-! ### Instructions of a bank arithmetic unit -/

protected theorem Canonical.laneOp {i f} (h : Canonical s) : Canonical (laneOp i f s) :=
  h.bauOnly fun _ _ => .ite h.endRun h.modBank.bauNext

protected theorem Canonical.laneMem {i a f} (h : Canonical s) : Canonical (laneMem i a f s) :=
  h.bauOnly fun _ _ => .ite h.endRun h.bauMem

protected theorem Canonical.columnOp {i a act} (h : Canonical s) (hact : ∀ x y t, Canonical t → Canonical (act x y t).2) :
    Canonical (columnOp i a act s) :=
  h.bauOnly fun _ _ => .ite h.endRun (.ite h.endRun (.ite h.endRun (.ite h.requestSlot (h.gate fun _ h' => by
    refine .bauNext ?_
    split
    exacts [(hact _ _ _ h'.modBank).chargeDram, hact _ _ _ h'.modBank]))))

protected theorem Canonical.byRun {g col data} (h : Canonical t) : Canonical (byRun g col data s t) := by
  unfold byRun
  split
  exacts [h.unfenced, h]

protected theorem Canonical.execCldm {d a b k} (h : Canonical s) : CanonicalNext (execCldm d a b k s) :=
  h.columnOp fun _ _ _ h' => .modBank (.ite h'.exchangeMeta.byRun h'.exchangeMeta)

protected theorem Canonical.execBsig {a} (h : Canonical s) : CanonicalNext (execBsig a s) :=
  h.bauOnly fun _ _ => by
    refine .ite h.endRun ?_
    refine .bauNext ?_
    split
    exacts [h.bump, h]

/-! ### Typed loads and stores -/

protected theorem Canonical.execStf {d a u o} (h : Canonical s) : CanonicalNext (execStf d a u o s) :=
  h.coreOnly fun _ _ => by
    dsimp only
    refine .ite h.illegal ?_
    split <;> exact h.store

/-! ### Integer instructions with a form of their own -/

protected theorem Canonical.shiftImm {f f32 d a n} (h : Canonical s) : Canonical (shiftImm f f32 d a n s) := by
  unfold shiftImm
  split
  exacts [h.alu1, .ite h.endRun h.alu1]

protected theorem Canonical.execAupc {d i} (h : Canonical s) : CanonicalNext (execAupc d i s) := by
  refine .next ?_
  split
  exacts [h.scalar, h.bauOp]

protected theorem Canonical.execJal {d o} (h : Canonical s) : CanonicalNext (execJal d o s) := by
  refine .next ?_
  split
  exacts [h.jump, h.bauJump]

protected theorem Canonical.execJalr {d a i} (h : Canonical s) : CanonicalNext (execJalr d a i s) := by
  refine .next ?_
  split
  exacts [h.jump, h.bauJump]

/-! ### Every instruction and event -/

/-- R80: an arm for each row of the opcode table. -/
protected theorem Canonical.exec {i} (h : Canonical s) : CanonicalNext (exec i s) := by
  cases i with
  | add | sub | and | or | xor | andn | sll | srl | sra | ror | slt | sltu | min | max | minu | maxu | addSat | subSat
    | adduSat | subuSat | mul | mulh | mulhu | mulhsu | div | divu | rem | remu =>
    exact h.alu2
  | addw | subw | sextw | mulw | divw | divuw | remw | remuw => exact h.aluCore
  | clz | ctz | popc | sextb | sexth | bswap | addi | andi | ori | xori | slti | sltiu | lui => exact h.alu1
  | slli | srli | srai | rori => exact h.shiftImm
  | aupc => exact h.execAupc
  | beq | bne | blt | bge | bltu | bgeu => exact h.branch
  | jal => exact h.execJal
  | jalr => exact h.execJalr
  | ldb | ldbu | ldh | ldhu | ldw => exact h.loadI
  | ldwu | ldd => exact h.coreOnly fun _ _ => h.loadI
  | stb | sth | stw => exact h.storeI
  | std => exact h.coreOnly fun _ _ => h.storeI
  | ldf => exact h.coreOnly fun _ _ => .ite h.illegal h.load
  | stf => exact h.execStf
  | fadd | fsub | fmul | fdiv | fsqrt | fmin | fmax | fsgnj | fsgnjn | fsgnjx | fcvtFmtI64 | fcvtFmtI32 | fcvtFmtN32 |
    fcvtF32F64 | fcvtF64F32 | fmvgf | fmadd | fmsub | fnmadd | fnmsub =>
    exact h.fpF
  | feq | flt | fle | fclass | fcvtI64Fmt | fcvtI32Fmt | fcvtN32Fmt | fmvfg => exact h.fpG
  | lds | ldse => exact h.ldsOp
  | stfl => exact h.execStfl
  | fefill | feempty => exact h.feSpan
  | fest => exact h.coreOnly fun _ _ => h.fullEmpty fun _ _ _ h' => h'.finishG
  | lda => exact h.execLda
  | stl => exact h.execStl
  | amoAdd | amoAnd | amoOr | amoXor | amoMin | amoMax | amoMinu | amoMaxu | amoSwap | amoCas | amoFaddF32 |
    amoFaddF64 =>
    exact h.amo
  | fence | fenceAcq | fenceRel => exact h.fenceOp
  | barrive | barw => exact h.coreOnly fun _ _ => h.syncRequest
  | bwait => exact h.execBwait
  | gbar => exact h.execGbar
  | bmake | bfree => exact h.coreOnly fun _ _ => .ite h.illegal h.syncRequest
  | put | get => exact h.putGet
  | putm => exact h.execPutm
  | getd => exact h.execGetd
  | cwait => exact h.execCwait
  | cread | targ => exact h.coreOnly fun _ _ => h.outside fun _ _ h' => h'.finishG
  | cadd => exact h.coreOnly fun _ _ => h.outside fun _ _ h' => h'.cover.bump.retire
  | rinit => exact h.execRinit
  | rwf | rwe => exact h.ringOp fun _ _ _ _ h' => .ite h'.setWait h'.finishG
  | rpub => exact h.ringOp fun _ _ _ _ h' => h'.cover.slotsFe.setRing.retire
  | rcon => exact h.ringOp fun _ _ _ _ h' => h'.slotsFe.setRing.retire
  | dep | depx | sns4 | sns8 => exact h.coreOnly fun _ _ => h.markOp
  | snsl => exact h.markOp
  | mrd => exact h.coreOnly fun _ _ => .ite h.illegal h.markOp
  | tknum => exact h.execTknum
  | tkwait => exact h.coreOnly fun _ _ => h.outside fun _ _ h' => .ite h'.setWait h'.retire
  | axsetv | axsets => exact h.coreOnly fun _ _ => .ite h.illegal (h.axNow fun _ _ h' => h')
  | axget | axmatch | axfirst | axcount | axpass => exact h.axPlain
  | axtt => exact h.axNow fun _ _ h' => h'
  | axeAdd | axeSub | axeAddSat | axeSubSat | axeMin | axeMax | axeMul | axeFma => exact h.axeFmt
  | axeCmpeq | axeCmplt => exact h.axeCmp
  | axeCvt | axmm | axgang | axmin | axmax | axsum | axtag | axld | axldf | axldg | axst => exact h.axIssue
  | axeAnd | axeOr | axeXor | axeNot | axeMov | axeSel | axeShl | axeShr | axeSra => exact h.axeWidth
  | axlive => exact h.axNow fun _ _ h' => h'.needBanks
  | axwait => exact h.execAxwait
  | bkload => exact h.execBkload
  | bkrun => exact h.bankInstr fun _ _ _ h' => h'.queueCmd fun _ h'' => h''.retire
  | bkcopy => exact h.execBkcopy
  | bkfence => exact h.bankInstr fun _ _ _ h' => .ite h'.setWait h'.bkfenceDone
  | bkerr => exact h.bankInstr fun _ _ _ h' => .finishG (.ite h'.modBank h')
  | bkmeta => exact h.execBkmeta
  | maddF32 | maddI32 | maddV4 => exact h.madd
  | mfence => exact h.execMfence
  | tspawn => exact h.execTspawn
  | texit => exact h.execTexit
  | tyield => exact h.coreOnly fun _ _ => h.outside fun _ _ h' => .ite h'.retire h'.setWait
  | ecall d a b k => exact h.execEcall d a b k
  | ebreak d a b k => exact h.execEbreak d a b k
  | tret => exact h.execTret
  | wfi => exact h.execWfi
  | icinv => exact h.coreOnly fun _ _ => h.outside fun _ _ h' => h'.modCtx.retire
  | csrr | csrs | csrc | csrw => exact h.csrOp
  | tlbinv => exact h.execTlbinv
  | asidset => exact h.execAsidset
  | protset => exact h.execProtset
  | stopat => exact h.execStopat
  | cld => exact h.columnOp fun _ _ _ h' => h'.readCol.modBank
  | cst => exact h.columnOp fun _ _ _ h' => h'.writeCol.byRun
  | cstM => exact h.columnOp fun _ _ _ h' => .byRun (.ite h'.writeCol h'.writeCol.modBank)
  | cldm => exact h.execCldm
  | laneAdd | laneSub | laneMul | laneFma | laneMin | laneMax | rsum | splat | laneAnd | laneOr | laneXor | laneMov |
    lget | lput =>
    exact h.laneOp
  | lld | lst => exact h.laneMem
  | bdone => exact h.bauOnly fun _ _ => .ite h.endRun h.endRun
  | bsig => exact h.execBsig
  | takeInterrupt => exact h.execTakeInterrupt
  | takeAsyncException => exact h.execTakeAsyncException
  | timerMatch | eventAcknowledgement => exact h.modCtx
  | instructionFetchFill => exact h.execInstructionFetchFill
  | chunkCommit => exact h.execChunkCommit
  | soloGrant => exact Canonical.ite (h.congr rfl rfl) h
  | remoteAccessArrival => exact h.execRemoteAccessArrival
  | syncEngineAtomic => exact h.execSyncEngineAtomic
  | syncEngineBarrier => exact h.execSyncEngineBarrier
  | remoteLoadReply => exact h.execRemoteLoadReply
  | remoteAtomicReply => exact h.execRemoteAtomicReply
  | syncReply => exact h.execSyncReply
  | remoteAck => exact h.execRemoteAck
  | remoteRejection => exact h.execRemoteRejection
  | bwaitWake => exact h.execBwaitWake
  | gbarComplete => exact Canonical.ite h.gbarLeave h
  | ldsWake => exact h.execLdsWake
  | cwaitWake => exact h.execCwaitWake
  | rwfWake => exact h.execRwfWake
  | rweWake => exact h.execRweWake
  | tkwaitWake => exact h.execTkwaitWake
  | fenceWaitEnd => exact h.execFenceWaitEnd
  | bkfenceWaitEnd => exact Canonical.ite h.bkfenceDone h
  | mfenceWaitEnd => exact Canonical.ite h.mfenceDone h
  | tlbinvAck => exact h.tlbinvDone
  | stopAnnounced => exact h.stopatDone
  | tspawnAck => exact h.execTspawnAck
  | tyieldEnd => exact h.execTyieldEnd
  | wfiWake => exact Canonical.ite h.retire h
  | axwaitEnd => exact h.execAxwaitEnd
  | arrayInstrExecute => exact h.execArrayInstrExecute
  | arrayResultWrite => exact h.execArrayResultWrite
  | axmmRow => exact h.execAxmmRow
  | gangOpJoin => exact h.execGangOpJoin
  | axgangRow => exact Canonical.ite h (.ite h.mmRow h)
  | putgetSegment => exact h.execPutgetSegment
  | partTranslate => exact h.execPartTranslate
  | faultRecordWrite => exact h.execFaultRecordWrite
  | putgetComplete => exact h.execPutgetComplete
  | putgetFail => exact h.execPutgetFail
  | putmSlotClaim => exact h.execPutmSlotClaim
  | bkloadComplete => exact h.execBkloadComplete
  | overlayStart => exact h.execOverlayStart
  | overlayEnd => exact h.execOverlayEnd
  | bkcopyColumn => exact h.execBkcopyColumn
  | bkcopyComplete => exact h.execBkcopyComplete
  | bkmetaComplete => exact h.execBkmetaComplete
  | streamSlotGrant => exact h.execStreamSlotGrant
  | streamSlotIdleRelease => exact Canonical.ite h.modBank h
  | maddAccept => exact h.execMaddAccept
  | maddApply => exact h.execMaddApply
  | hotRowWindow => exact Canonical.ite h h.modBank
  | hotRowAdmit => exact h.execHotRowAdmit
  | markOpArrival => exact h.execMarkOpArrival
  | markOpApply => exact h.execMarkOpApply
  | tick => exact h.execTick
  | markConfigEffect => exact h.execMarkConfigEffect
  | msizeWrite => exact h.writeMsize
  | fresumeRetry => exact h.execFresumeRetry
  | fresumeFail => exact Canonical.ite (h.resolve fun _ _ _ h' => h'.setEntry) h
  | fresumeExhaust => exact h.execFresumeExhaust
  | registerWrite => exact h.writeReg
  | qtailWrite => exact Canonical.ite h (.ite h.logEvent h.modOwner)
  | qcfgWrite => exact Canonical.ite h h.modOwner
  | evcfgWrite => exact h.writeVf
  | ptcfgWrite => exact Canonical.ite h.modPart h.logEvent
  | launchRead => exact h.execLaunchRead
  | taskEnqueue => exact h.execTaskEnqueue
  | versionFill => exact h.execVersionFill
  | taskEligible => exact Canonical.ite h h.modTask
  | dispatchOpportunity => exact h.execDispatchOpportunity
  | evictGang => exact Canonical.ite h h.saveGang
  | taskComplete => exact h.execTaskComplete
  | eventRecordWrite => exact h.execEventRecordWrite
  | eventInterruptTimeout => exact Canonical.ite h h.signal
  | versionInstall => exact h.gate fun _ h' => h'.installVersion
  | hangExpiry => exact Canonical.ite h h.endTask
  | zugzwangStop => exact h.execZugzwangStop
  | flushToken => exact Canonical.ite h h.modPart
  | routerFlush => exact h.execRouterFlush
  | stopComplete => exact Canonical.ite h (.ite h.modPart.resume h.modPart)
  | partitionResume => exact Canonical.ite h (.ite h.resume h.modPart)
  | recallLentClusters => exact h.execRecallLentClusters
  | lendCluster => exact h.execLendCluster
  | assignCluster => exact h.execAssignCluster
  | withdrawPartition => exact h.execWithdrawPartition
  | migrateOwner => exact h.execMigrateOwner
  | field => exact h.execField
  | ticks => exact Canonical.ite h (.ite h.mailboxDone h.modPart.mailboxDone)
  | snapshot => exact Canonical.ite h (.ite h.mailboxDone h.mailboxDone)
  | cap => exact h.execCap
  | mailboxUnknown => exact Canonical.ite h.mailboxDone h
  | hostMemAccess => exact .ite trivial (h.gate fun _ h' => .ite h'.writeRuns h'.readRuns.modMod)
  | spdmRequest => exact Canonical.ite h h.modMod
  | firmwareImage => exact Canonical.ite h.modMod h.logEvent
  | firmwareHealthy => exact Canonical.ite h.modMod h
  | firmwareHealthTimeout => exact Canonical.ite h.logEvent.resetModule h
  | linkOpReceive => exact h.execLinkOpReceive
  | linkPortDown => exact Canonical.ite h h.modMod.logEvent
  | linkRouteTimeout => exact h.execLinkRouteTimeout
  | governorEval => exact h.execGovernorEval
  | operatingPointStep => exact Canonical.ite h (.ite h.modCluster h.modCluster)
  | voltageSettled => exact h.execVoltageSettled
  | voltageFloorChange => exact Canonical.ite h.modCluster.logEvent h.modCluster
  | powerThrottle => exact Canonical.ite h (.ite h.modMod.modCluster.logEvent h.modMod.modCluster)
  | thermalReset => exact h.logEvent.resetModule
  | moduleReset => exact h.resetModule
  | lastingFault => exact Canonical.ite h h.modMod.logEvent.raiseService
  | isolateFault => exact h.execIsolateFault
  | gradeChange => exact h.execGradeChange
  | illegalInstruction => exact h.execIllegalInstruction
  | softError => exact h.execSoftError
  | markReply => exact h.execMarkReply
  | linkPortUp => exact h.modMod
  | powerLimitCleared => exact .modMod (h.congr rfl rfl)

/-! ### A step -/

protected theorem Canonical.noteIssue {c w} (h : Canonical s) : Canonical (noteIssue c w s) := .modCtx (.ite h.carry h)

protected theorem Canonical.issueWord {c w} (h : Canonical s) : CanonicalNext (issueWord c w s) := by
  have hc : Canonical { s with cur := .hart c } := h.congr rfl rfl
  unfold issueWord
  split
  exacts [hc.execIllegalInstruction, .ite h hc.noteIssue.exec]

protected theorem Canonical.hartStep {granted c} (h : Canonical s) : CanonicalNext (hartStep granted c s) := by
  refine .ite h (.ite h.takeRecorded (.ite h.execTakeAsyncException (.ite h.execTakeInterrupt (.ite h
    (.ite h.execChunkCommit ?_)))))
  split
  exacts [h.execInstructionFetchFill, .ite h h.issueWord]

protected theorem Canonical.grantStep {c} (h : Canonical s) : CanonicalNext (grantStep c s) := by
  unfold grantStep
  have hg : CanonicalNext (hartStep true c s) := h.hartStep
  cases hr : hartStep true c s with
  | next t => exact Canonical.modCtx (show CanonicalNext (.next t) from hr ▸ hg)
  | fault r => trivial
  | refused r => trivial

protected theorem Canonical.bauStep {g} (h : Canonical s) : CanonicalNext (bauStep g s) := by
  have hb : Canonical { s with cur := .bau g } := h.congr rfl rfl
  unfold bauStep
  dsimp only
  split
  · exact h
  · refine .ite h ?_
    split
    exacts [hb.execIllegalInstruction, hb.exec]

protected theorem Canonical.runMove {m} (h : Canonical s) : CanonicalNext (runMove m s) := by
  cases m with
  | time dt => exact h.passTime
  | hart c => exact h.hartStep
  | bau g => exact h.bauStep
  | energy q uj => exact h.meter
  | event i => exact .ite h.exec h
  | choose x => exact h.congr rfl rfl

protected theorem Canonical.step (h : Canonical s) : CanonicalNext (step s) := by
  unfold step
  split
  · exact Canonical.grantStep (h.congr rfl rfl)
  · exact Canonical.runMove (h.congr rfl rfl)
  · exact Canonical.runMove (h.congr rfl rfl)

end Sys2Proof.Claim
end

section
open Sys2Proof Sys2Proof.Machine Sys2Proof.Claim

/-- Settles O19, from `Canonical.step`: each operation that the next move runs keeps the form. -/
theorem stepKeepsCanonical : Obligations.StepKeepsCanonical := by
  unfold Obligations.StepKeepsCanonical
  intro s t h e
  have ht := h.step
  rwa [e] at ht
end

section
open Sys2Proof Sys2Proof.Machine Sys2Proof.Claim

/-- Settles O22: nothing is listed after reset, so that every accessor gives the default of its type. -/
theorem resetState : Obligations.ResetState := by
  unfold Obligations.ResetState
  refine ⟨⟨rfl, List.Pairwise.nil⟩, rfl, rfl, rfl, fun _ => rfl, fun c => ?_, fun v => ?_, fun p => ?_, fun q => ?_, rfl, rfl⟩
  · refine ⟨rfl, fun r => ?_, rfl, rfl, rfl, rfl, rfl, rfl, rfl, rfl, fun _ => rfl⟩
    exact ite_self (c := r = 0) (0 : W64)
  · have reset : State.reset.owner v = {} := rfl
    rw [reset]
    exact ⟨by decide, by decide, rfl, fun c => by
      have unlisted : qcfgOf {} c = 0x0004000000000000 := rfl
      rw [unlisted]
      decide, by decide⟩
  · exact ⟨rfl, rfl, rfl, rfl, rfl, rfl, rfl⟩
  · exact ⟨rfl, fun _ => rfl⟩
end

section
/-!
SUPPORT. Chunks between harts: which harts a write, a commit or a release squashes (R200 to R205), and what covers writes
after a release.
-/

namespace Sys2Proof.Claim
open Sys2Proof.Machine

/-! ### Squashes (R201) -/

variable {α β : Type} {s t u : State} {h h' : Ctx} {c x : Nat}

/-- A table mapped entry by entry, each keeping its key, reads the mapped value. -/
theorem tget_map {f : Nat → α → β} {g : Nat × α → Nat × β} (hg : ∀ p, g p = (p.1, f p.1 p.2)) (l : Tbl α) {k : Nat} {d : α} {e : β}
    (hd : f k d = e) : tget (l.map g) k e = f k (tget l k d) := by
  induction l with
  | nil => exact hd.symm
  | cons p r ih =>
    rw [List.map_cons, hg]
    simp only [tget]
    split
    · next e => rw [e]
    · exact ih

theorem squash_none (e : h.chunk = none) (n : Nat) : squash n h = h := by
  unfold squash
  rw [e]

theorem squashedAt_squash {k : Chunk} (e : h.chunk = some k) (n : Nat) : SquashedAt n h (squash n h) := by
  refine ⟨k, e, ?_⟩
  unfold squash
  rw [e]

theorem squash_chunk (n : Nat) (h : Ctx) : (squash n h).chunk = none := by
  unfold squash
  split
  · assumption
  · rfl

/-- A hart is as it was, or its open chunk has been squashed. -/
def KeptOrSquashed (n : Nat) (h h' : Ctx) : Prop := h' = h ∨ SquashedAt n h h'

theorem KeptOrSquashed.squash (n : Nat) (h : Ctx) : KeptOrSquashed n h (squash n h) := by
  cases e : h.chunk with
  | none => exact .inl (squash_none e n)
  | some k => exact .inr (squashedAt_squash e n)

/-- With no chunk open there is nothing to squash. -/
theorem KeptOrSquashed.eq {n : Nat} (k : KeptOrSquashed n h h') (e : h.chunk = none) : h' = h := by
  obtain k | ⟨q, hq, -⟩ := k
  · exact k
  · rw [e] at hq
    cases hq

theorem KeptOrSquashed.trans {n : Nat} {h'' : Ctx} (k : KeptOrSquashed n h h') (k' : KeptOrSquashed n h' h'') :
    KeptOrSquashed n h h'' := by
  obtain rfl | ⟨q, hq, rfl⟩ := k
  · exact k'
  · rw [k'.eq rfl]
    exact .inr ⟨q, hq, rfl⟩

/-- Commits and releases: the harts of `t` are those of `s`, their open chunks kept or squashed at its time. -/
def Squashes (s t : State) : Prop := t.gtime = s.gtime ∧ ∀ x, KeptOrSquashed s.gtime (s.ctx x) (t.ctx x)

theorem Squashes.refl (s : State) : Squashes s s := ⟨rfl, fun _ => .inl rfl⟩

theorem Squashes.trans (a : Squashes s t) (b : Squashes t u) : Squashes s u := by
  obtain ⟨ha, a⟩ := a
  obtain ⟨hb, b⟩ := b
  refine ⟨hb.trans ha, fun x => (a x).trans ?_⟩
  have := b x
  rwa [ha] at this

theorem Squashes.forEach {g : α → State → State} (l : List α) (hg : ∀ a u, Squashes u (g a u)) (s : State) :
    Squashes s (forEach l g s) := by
  unfold Machine.forEach
  induction l generalizing s with
  | nil => exact .refl s
  | cons a l ih => exact (hg a s).trans (ih _)

/-- A hart is squashed where `p` holds, and else as it was. -/
def SquashedIf (p : Prop) (n : Nat) (h h' : Ctx) : Prop := (p → h' = squash n h) ∧ (¬p → h' = h)

theorem SquashedIf.kept {p : Prop} {n : Nat} (k : SquashedIf p n h h') : KeptOrSquashed n h h' := by
  by_cases hp : p
  · rw [k.1 hp]
    exact .squash n h
  · exact .inl (k.2 hp)

theorem SquashedIf.congr {p q : Prop} {n : Nat} (k : SquashedIf p n h h') (e : p ↔ q) : SquashedIf q n h h' := propext e ▸ k

/-- A table of harts whose entries are each kept or squashed. -/
theorem SquashedIf.ofMap {P : Nat → Ctx → Prop} {f : Nat × Ctx → Nat × Ctx} {n : Nat} (open_ : ∀ x h, P x h → h.chunk ≠ none)
    (yes : ∀ p, P p.1 p.2 → f p = (p.1, Machine.squash n p.2)) (no : ∀ p, ¬P p.1 p.2 → f p = p) (x : Nat) :
    SquashedIf (P x (s.ctx x)) n (s.ctx x) (tget (s.ctxs.map f) x {}) := by
  classical
  have e : tget (s.ctxs.map f) x {} = if P x (s.ctx x) then Machine.squash n (s.ctx x) else s.ctx x := by
    refine tget_map (k := x) (d := {}) (f := fun x h => if P x h then Machine.squash n h else h) (fun p => ?_) s.ctxs
      (if_neg fun h => open_ x _ h rfl)
    by_cases hp : P p.1 p.2
    · rw [if_pos hp, yes p hp]
    · rw [if_neg hp, no p hp]
  rw [e]
  exact ⟨fun h => if_pos h, fun h => if_neg h⟩

/-- R200: which harts a commit or a write squashes. -/
theorem squashReaders_ctx (q : Nat) (words : List Nat) (me : Option Nat) (s : State) (x : Nat) :
    SquashedIf (some x ≠ me ∧ (s.ctx x).resident = true ∧ pcnOf (s.ctx x).gcn = q ∧
        ∃ k, (s.ctx x).chunk = some k ∧ ∃ w ∈ k.reads, w ∈ words) s.gtime (s.ctx x) ((squashReaders q words me s).ctx x) := by
  refine SquashedIf.ofMap (P := fun x h => some x ≠ me ∧ h.resident = true ∧ pcnOf h.gcn = q ∧
    ∃ k, h.chunk = some k ∧ ∃ w ∈ k.reads, w ∈ words) ?_ (fun p hp => ?_) (fun p hp => ?_) x
  · rintro x h ⟨-, -, -, k, e, -⟩ e'
    rw [e'] at e
    cases e
  · obtain ⟨other, res, pcn, k, e, w, hr, hw⟩ := hp
    rw [e]
    exact if_pos ⟨other, res, pcn, List.any_eq_true.2 ⟨w, hr, List.contains_iff_mem.2 hw⟩⟩
  · cases e : p.2.chunk with
    | none => rfl
    | some k =>
      refine if_neg fun ⟨other, res, pcn, any⟩ => hp ⟨other, res, pcn, k, e, ?_⟩
      obtain ⟨w, hr, hw⟩ := List.any_eq_true.1 any
      exact ⟨w, hr, List.contains_iff_mem.1 hw⟩

/-- R200: the writer of words is not squashed. -/
theorem squashReaders_self (q : Nat) (words : List Nat) (s : State) : (squashReaders q words (some c) s).ctx c = s.ctx c :=
  (squashReaders_ctx q words (some c) s c).2 fun h => h.1 rfl

/-- R200, R201: which harts `squashMeeting` squashes. -/
theorem squashMeeting_ctx (who : Nat → Bool) (q : Nat) (words : List Nat) (s : State) (x : Nat) :
    SquashedIf (who x = true ∧ (s.ctx x).resident = true ∧ pcnOf (s.ctx x).gcn = q ∧
        ∃ k, (s.ctx x).chunk = some k ∧ ∃ w ∈ words, w ∈ k.reads ∨ w ∈ k.writes) s.gtime (s.ctx x)
      ((squashMeeting who q words s).ctx x) := by
  refine SquashedIf.ofMap (P := fun x h => who x = true ∧ h.resident = true ∧ pcnOf h.gcn = q ∧
    ∃ k, h.chunk = some k ∧ ∃ w ∈ words, w ∈ k.reads ∨ w ∈ k.writes) ?_ (fun p hp => ?_) (fun p hp => ?_) x
  · rintro x h ⟨-, -, -, k, e, -⟩ e'
    rw [e'] at e
    cases e
  · obtain ⟨named, res, pcn, k, e, w, hw, met⟩ := hp
    rw [e]
    exact if_pos ⟨named, res, pcn, List.any_eq_true.2 ⟨w, List.mem_append.2 met, List.contains_iff_mem.2 hw⟩⟩
  · cases e : p.2.chunk with
    | none => rfl
    | some k =>
      refine if_neg fun ⟨named, res, pcn, any⟩ => hp ⟨named, res, pcn, k, e, ?_⟩
      obtain ⟨w, met, hw⟩ := List.any_eq_true.1 any
      exact ⟨w, List.contains_iff_mem.1 hw, List.mem_append.1 met⟩

/-- Squashes one after another: of each hart the first takes place, and the rest find no chunk. -/
theorem forEach_squash {P : α → Nat → Ctx → Prop} {g : α → State → State} {n : Nat} (open_ : ∀ a x h, P a x h → h.chunk ≠ none)
    (hg : ∀ a u x, u.gtime = n → (g a u).gtime = n ∧ SquashedIf (P a x (u.ctx x)) n (u.ctx x) ((g a u).ctx x)) (l : List α) (s : State)
    (hs : s.gtime = n) (x : Nat) : SquashedIf (∃ a ∈ l, P a x (s.ctx x)) n (s.ctx x) ((forEach l g s).ctx x) := by
  unfold forEach
  induction l generalizing s with
  | nil => exact ⟨fun h => by simp at h, fun _ => rfl⟩
  | cons a l ih =>
    obtain ⟨time, first, kept⟩ := hg a s x hs
    obtain ⟨rest, restKept⟩ := ih (g a s) time
    by_cases p : P a x (s.ctx x)
    · rw [first p] at restKept
      have done : ¬∃ b ∈ l, P b x (squash n (s.ctx x)) := fun ⟨b, _, hb⟩ => open_ b x _ hb (squash_chunk _ _)
      exact ⟨fun _ => restKept done, fun no => absurd ⟨a, List.mem_cons_self, p⟩ no⟩
    · rw [kept p] at rest restKept
      simp only [List.mem_cons, exists_eq_or_imp, p, false_or]
      exact ⟨rest, restKept⟩

/-! ### Releases (R203 to R205) -/

/-- R205: what covers a write of hart `x` after a release of hart `c` at scope `z`. -/
def extendCover (c z n : Nat) (covered : Nat → List Release → Bool) (x : Nat) (k : List Release) : List Release :=
  if covered x k then addRelease { scope := z, cycle := n, hart := c } k else k

/-- The same for a packet in flight, and for a column that a write has replaced. -/
def extendPacket (c z n : Nat) (covered : Nat → List Release → Bool) (p : Packet) : Packet :=
  if reqWrites p.body then { p with cover := extendCover c z n covered p.cid p.cover } else p
def extendColumn (c z n : Nat) (covered : Nat → List Release → Bool) (x : Before) : Before :=
  if x.fenced then { x with cover := extendCover c z n covered x.cid x.cover } else x

/-- Hart `x`, which packet `p` comes before from a release on, has met in its chunk what the packet writes. -/
def Overtaken (s : State) (c : Nat) (p p' : Packet) (x : Nat) (h : Ctx) : Prop :=
  x ≠ c ∧ ordersAfter s p.cover x = false ∧ ordersAfter s p'.cover x = true ∧ h.resident = true ∧ pcnOf h.gcn = p.pcn ∧
    ∃ o n, landing s p = some (o, n) ∧ ∃ k, h.chunk = some k ∧ ∃ w ∈ wordsOf (sramKey p.pcn o) n, w ∈ k.reads ∨ w ∈ k.writes

/-- R205: the squashes of the harts that one packet overtakes. -/
def squashOvertaken (s : State) (c : Nat) (p p' : Packet) (t : State) : State :=
  match landing s p with
  | some x => squashMeeting (fun y => decide (y ≠ c) && !ordersAfter s p.cover y && ordersAfter s p'.cover y) p.pcn
      (wordsOf (sramKey p.pcn x.1) x.2) t
  | none => t

theorem squashOvertaken_ctx (s : State) (c : Nat) (p p' : Packet) (u : State) (x : Nat) :
    (squashOvertaken s c p p' u).gtime = u.gtime ∧
      SquashedIf (Overtaken s c p p' x (u.ctx x)) u.gtime (u.ctx x) ((squashOvertaken s c p p' u).ctx x) := by
  unfold squashOvertaken
  split
  · next x' e =>
    obtain ⟨o, n⟩ := x'
    refine ⟨rfl, ?_⟩
    have h := squashMeeting_ctx (fun y => decide (y ≠ c) && !ordersAfter s p.cover y && ordersAfter s p'.cover y) p.pcn
      (wordsOf (sramKey p.pcn o) n) u x
    simp only [Bool.and_eq_true, decide_eq_true_eq, Bool.not_eq_true', and_assoc] at h
    refine h.congr ?_
    simp only [Overtaken, e, Option.some.injEq, Prod.mk.injEq, and_assoc, exists_and_left, exists_eq_left']
  · next e =>
    refine ⟨rfl, fun ⟨_, _, _, _, _, o, n, e', _⟩ => ?_, fun _ => rfl⟩
    rw [e] at e'
    cases e'

variable {z : Nat} {covered : Nat → List Release → Bool}

/-- R205: a release in parts: what covers packets and columns changes, and harts are squashed. -/
theorem setCovers_parts (c z : Nat) (covered : Nat → List Release → Bool) (s : State) :
    setCovers c z covered s =
      forEach (s.net.filter fun p => p.dev.isNone && decide (extendPacket c z s.gtime covered p ≠ p))
        (fun p => squashOvertaken s c p (extendPacket c z s.gtime covered p)) { s with
          net := s.net.map (extendPacket c z s.gtime covered)
          banks := s.banks.map fun x => (x.1, { x.2 with before := x.2.before.map fun y => (y.1, extendColumn c z s.gtime covered y.2) }) } :=
  rfl

theorem setCovers_device (c z : Nat) (covered : Nat → List Release → Bool) (s : State) :
    ∃ cs, setCovers c z covered s = { s with
      ctxs := cs, net := s.net.map (extendPacket c z s.gtime covered)
      banks := s.banks.map fun x => (x.1, { x.2 with before := x.2.before.map fun y => (y.1, extendColumn c z s.gtime covered y.2) }) } := by
  rw [setCovers_parts]
  refine forEach_ctxs _ _ (fun p u => ?_) _
  unfold squashOvertaken
  split
  · exact ⟨_, rfl⟩
  · exact ⟨u.ctxs, rfl⟩

/-- R205: which harts a release squashes. -/
theorem setCovers_ctx (c z : Nat) (covered : Nat → List Release → Bool) (s : State) (x : Nat) :
    SquashedIf (∃ p ∈ s.net, p.dev = none ∧ Overtaken s c p (extendPacket c z s.gtime covered p) x (s.ctx x)) s.gtime (s.ctx x)
      ((setCovers c z covered s).ctx x) := by
  have h := forEach_squash (P := fun p x h => Overtaken s c p (extendPacket c z s.gtime covered p) x h) (n := s.gtime)
    (fun p x h ⟨_, _, _, _, _, o, n, _, k, e, _⟩ e' => by rw [e'] at e; cases e)
    (fun p u x e => e ▸ squashOvertaken_ctx s c p _ u x)
    (s.net.filter fun p => p.dev.isNone && decide (extendPacket c z s.gtime covered p ≠ p)) { s with
          net := s.net.map (extendPacket c z s.gtime covered)
          banks := s.banks.map fun x => (x.1, { x.2 with before := x.2.before.map fun y => (y.1, extendColumn c z s.gtime covered y.2) }) } rfl x
  rw [← setCovers_parts] at h
  refine h.congr (exists_congr fun p => ?_)
  simp only [List.mem_filter, Bool.and_eq_true, Option.isNone_iff_eq_none, decide_eq_true_eq, and_assoc]
  refine and_congr_right fun _ => and_congr_right fun _ => and_iff_right_of_imp fun ⟨_, before, after, _⟩ same => ?_
  rw [same, before] at after
  cases after

theorem Squashes.setCovers (c z : Nat) (covered : Nat → List Release → Bool) (s : State) : Squashes s (setCovers c z covered s) := by
  refine ⟨?_, fun x => (setCovers_ctx c z covered s x).kept⟩
  obtain ⟨_, e⟩ := setCovers_device c z covered s
  rw [e]

/-- A release does not squash its own hart. -/
theorem setCovers_self (c z : Nat) (covered : Nat → List Release → Bool) (s : State) : (setCovers c z covered s).ctx c = s.ctx c :=
  (setCovers_ctx c z covered s c).2 fun ⟨_, _, _, other, _⟩ => other rfl

theorem carry_self (c : Nat) (s : State) : (carry c s).ctx c = s.ctx c := setCovers_self ..
theorem Squashes.carry (c : Nat) (s : State) : Squashes s (carry c s) := .setCovers ..

/-! ### What a release covers (R195, R203 to R205) -/

theorem sameInstance_iff (s : State) (z c y : Nat) : sameInstance s z c y = true ↔ together s c y z := by
  unfold sameInstance together pcnOf dieOf
  rcases z with _ | _ | _ | z <;> simp

theorem ordersAfter_iff (s : State) (k : List Release) (y : Nat) : ordersAfter s k y = true ↔ coveredFor s y k := by
  simp only [ordersAfter, List.any_eq_true, sameInstance_iff, coveredFor]

/-- R203, R204: a release of hart `c` at scope `z` is newly listed for a write of hart `x` that the releases `k` cover. -/
def Grows (s : State) (c z x : Nat) (k : List Release) : Prop :=
  (x = c ∨ ((s.ctx x).gcn / 8 = (s.ctx c).gcn / 8 ∧ coveredFor s c k)) ∧ ∀ r ∈ k, r.hart = c → r.scope < z

/-- R203, R204: whose writes `cover` covers. -/
def coversFor (s : State) (c x : Nat) (k : List Release) : Bool :=
  decide (x = c) || (decide (pcnOf (s.ctx x).gcn = pcnOf (s.ctx c).gcn) && ordersAfter s k c)

theorem coversFor_iff (s : State) (c x : Nat) (k : List Release) :
    coversFor s c x k = true ↔ x = c ∨ ((s.ctx x).gcn / 8 = (s.ctx c).gcn / 8 ∧ coveredFor s c k) := by
  simp only [coversFor, Bool.or_eq_true, Bool.and_eq_true, decide_eq_true_eq, ordersAfter_iff]
  exact Iff.rfl

theorem extendCover_grown (s : State) (c z x : Nat) (k : List Release) :
    let k' := extendCover c z s.gtime (coversFor s c) x k
    (Grows s c z x k → k' = k ++ [{ scope := z, cycle := s.gtime, hart := c }]) ∧ (¬Grows s c z x k → k' = k) := by
  have listed : (k.any fun r => decide (r.hart = c) && decide (z ≤ r.scope)) = true ↔ ¬∀ r ∈ k, r.hart = c → r.scope < z := by
    simp [List.any_eq_true]
  refine ⟨fun ⟨his, new⟩ => ?_, fun no => ?_⟩
  · unfold extendCover addRelease
    rw [if_pos ((coversFor_iff s c x k).2 his), if_neg (fun e => listed.1 e new)]
  · unfold extendCover addRelease
    split
    · next his => exact if_pos (listed.2 fun new => no ⟨(coversFor_iff s c x k).1 his, new⟩)
    · rfl

theorem extendPacket_eq (c z n : Nat) (covered : Nat → List Release → Bool) (p : Packet) :
    ∃ k, extendPacket c z n covered p = { p with cover := k } ∧
      (reqWrites p.body = true → k = extendCover c z n covered p.cid p.cover) ∧ (reqWrites p.body = false → k = p.cover) := by
  unfold extendPacket
  split
  · next h => exact ⟨_, rfl, fun _ => rfl, fun no => absurd (h.symm.trans no) nofun⟩
  · next h => exact ⟨_, rfl, fun yes => absurd yes h, fun _ => rfl⟩

theorem extendColumn_eq (c z n : Nat) (covered : Nat → List Release → Bool) (x : Before) :
    ∃ k, extendColumn c z n covered x = { x with cover := k } ∧
      (x.fenced = true → k = extendCover c z n covered x.cid x.cover) ∧ (x.fenced = false → k = x.cover) := by
  unfold extendColumn
  split
  · next h => exact ⟨_, rfl, fun _ => rfl, fun no => absurd (h.symm.trans no) nofun⟩
  · next h => exact ⟨_, rfl, fun yes => absurd yes h, fun _ => rfl⟩

/-- R204: a release orders a packet newly before hart `y`. -/
def NewlyBefore (s : State) (c z : Nat) (p : Packet) (y : Nat) : Prop :=
  reqWrites p.body = true ∧ Grows s c z p.cid p.cover ∧ ¬coveredFor s y p.cover ∧ together s c y z

theorem newlyBefore_iff (s : State) (c z : Nat) (p : Packet) (y : Nat) :
    NewlyBefore s c z p y ↔
      ordersAfter s p.cover y = false ∧ ordersAfter s (extendPacket c z s.gtime (coversFor s c) p).cover y = true := by
  rw [← Bool.not_eq_true, ordersAfter_iff, ordersAfter_iff]
  obtain ⟨k, e, writes, reads⟩ := extendPacket_eq c z s.gtime (coversFor s c) p
  obtain ⟨new, old⟩ := extendCover_grown s c z p.cid p.cover
  rw [e]
  refine ⟨fun ⟨hw, grows, before, tog⟩ => ⟨before, ?_⟩, fun ⟨before, after⟩ => ?_⟩
  · rw [writes hw, new grows]
    exact ⟨_, List.mem_append_right _ (List.mem_singleton_self _), tog⟩
  · have hw : reqWrites p.body = true := by
      by_contra no
      rw [reads (Bool.not_eq_true _ ▸ no)] at after
      exact before after
    rw [writes hw] at after
    have grows : Grows s c z p.cid p.cover := by
      by_contra no
      rw [old no] at after
      exact before after
    rw [new grows] at after
    obtain ⟨r, hr, tog⟩ := after
    obtain hr | hr := List.mem_append.1 hr
    · exact absurd ⟨r, hr, tog⟩ before
    · rw [List.mem_singleton.1 hr] at tog
      exact ⟨hw, grows, before, tog⟩

/-- R201: the harts that a release squashes, with what their chunks have met. -/
theorem overtaken_iff {s : State} {c x : Nat} (z : Nat) (p : Packet) {h : Ctx} {k : Chunk} (hx : x ≠ c) (hk : h.chunk = some k) :
    Overtaken s c p (extendPacket c z s.gtime (coversFor s c) p) x h ↔ NewlyBefore s c z p x ∧ h.resident = true ∧ h.gcn / 8 = p.pcn ∧
      ∃ o n, landing s p = some (o, n) ∧ ∃ w ∈ wordsOf (sramKey p.pcn o) n, w ∈ k.reads ∨ w ∈ k.writes := by
  simp only [Overtaken, hk, Option.some.injEq, exists_eq_left', newlyBefore_iff, and_assoc, ne_eq, hx, not_false_eq_true, true_and, pcnOf]

theorem bank_mapped {f : Nat × Bank → Nat × Bank} {g : Bank → Bank} (hf : ∀ p, f p = (p.1, g p.2)) (hg : g {} = {}) (l : Tbl Bank) (n : Nat) :
    tget (l.map f) n {} = g (tget l n {}) :=
  tget_map (f := fun _ b => g b) hf l hg

end Sys2Proof.Claim
end

section
open Sys2Proof Sys2Proof.Machine Sys2Proof.Claim

theorem Sys2Proof.Claim.releaseCovers : Claim.ReleaseCovers := by
  unfold Claim.ReleaseCovers
  intro s c z
  obtain ⟨cs, e⟩ := setCovers_device c z (coversFor s c) s
  have covers : cover c z s = setCovers c z (coversFor s c) s := rfl
  rw [← covers] at e
  refine ⟨by rw [e], by rw [e]; exact List.length_map _, fun i p hp => ?_, fun g => ?_, setCovers_self .., fun x hx => ?_⟩
  · obtain ⟨k, ep, writes, reads⟩ := extendPacket_eq c z s.gtime (coversFor s c) p
    refine ⟨k, ?_, fun hw => ?_, reads⟩
    · rw [e, List.getElem?_map, hp, Option.map_some, ep]
    · rw [writes hw]
      exact extendCover_grown s c z p.cid p.cover
  · have eb : (cover c z s).bank g = { s.bank g with before := (s.bank g).before.map fun y =>
        (y.1, extendColumn c z s.gtime (coversFor s c) y.2) } := by
      rw [e]
      exact bank_mapped (g := fun b => { b with before := b.before.map fun y => (y.1, extendColumn c z s.gtime (coversFor s c) y.2) })
        (fun _ => rfl) rfl _ _
    rw [eb]
    refine ⟨rfl, fun i n y hy => ?_⟩
    obtain ⟨k, ep, fenced, open_⟩ := extendColumn_eq c z s.gtime (coversFor s c) y
    refine ⟨k, ?_, fun hf => ?_, open_⟩
    · rw [List.getElem?_map, hy, Option.map_some, ep]
    · rw [fenced hf]
      exact extendCover_grown s c z y.cid y.cover
  · obtain ⟨yes, no⟩ := setCovers_ctx c z (coversFor s c) s x
    refine ⟨fun none => (setCovers_ctx c z (coversFor s c) s x).kept.eq none, fun k hk => ⟨fun apart => no ?_, fun ⟨p, hp, new, dev, met⟩ => ?_⟩⟩
    · rintro ⟨p, hp, dev, behind⟩
      obtain ⟨new, met⟩ := (overtaken_iff z p hx hk).1 behind
      exact apart ⟨p, hp, new, dev, met⟩
    · have squashed := yes ⟨p, hp, dev, (overtaken_iff z p hx hk).2 ⟨new, met⟩⟩
      rw [covers, squashed]
      exact squashedAt_squash hk _

end

section
/-! SUPPORT. Commits of chunks (R143, R199, R200) and what an instruction outside chunks makes of one before it. -/

namespace Sys2Proof.Claim
open Sys2Proof.Machine

/-! ### Commits (R143, R200) -/

variable {s t : State} {h : Ctx} {c : Nat} {k : Chunk}

/-- R200: the hart after the commit of its chunk. -/
def committed (h : Ctx) (k : Chunk) : Ctx :=
  { h with chunk := none, squashes := 0, solo := false, csr := { h.csr with retired := h.csr.retired + BitVec.ofNat 64 k.count } }

theorem commitChunk_parts (e : (s.ctx c).chunk = some k) :
    commitChunk c s = squashReaders (pcnOf (s.ctx c).gcn) k.writes (some c)
      { modCtx c (fun h => committed h k) s with mem := k.stores.foldr (fun p m => writeByte m p.1 p.2) s.mem } := by
  unfold commitChunk
  rw [e]
  change squashReaders (pcnOf ((modCtx c (fun h => committed h k) s).ctx c).gcn) _ _ _ = _
  rw [modCtx_ctx, if_pos rfl]
  rfl

theorem commitChunk_device (c : Nat) (s : State) : { commitChunk c s with ctxs := s.ctxs, mem := s.mem } = s := by
  unfold commitChunk
  split <;> rfl

theorem commitChunk_self (e : (s.ctx c).chunk = some k) : (commitChunk c s).ctx c = committed (s.ctx c) k := by
  rw [commitChunk_parts e, squashReaders_self]
  change (modCtx c (fun h => committed h k) s).ctx c = _
  rw [modCtx_ctx, if_pos rfl]

theorem commitChunk_other (e : (s.ctx c).chunk = some k) {x : Nat} (hx : x ≠ c) :
    SquashedIf ((s.ctx x).resident = true ∧ pcnOf (s.ctx x).gcn = pcnOf (s.ctx c).gcn ∧
      ∃ q, (s.ctx x).chunk = some q ∧ ∃ w ∈ q.reads, w ∈ k.writes) s.gtime (s.ctx x) ((commitChunk c s).ctx x) := by
  rw [commitChunk_parts e]
  have h := squashReaders_ctx (pcnOf (s.ctx c).gcn) k.writes (some c)
    { modCtx c (fun h => committed h k) s with mem := k.stores.foldr (fun p m => writeByte m p.1 p.2) s.mem } x
  have kept : (modCtx c (fun h => committed h k) s).ctx x = s.ctx x := (modCtx_ctx ..).trans (if_neg hx)
  change SquashedIf (_ ∧ ((modCtx c (fun h => committed h k) s).ctx x).resident = true ∧
    pcnOf ((modCtx c (fun h => committed h k) s).ctx x).gcn = _ ∧ ∃ q, ((modCtx c (fun h => committed h k) s).ctx x).chunk = some q ∧ _)
    s.gtime ((modCtx c (fun h => committed h k) s).ctx x) _ at h
  rw [kept] at h
  refine h.congr (and_iff_right ?_)
  simpa using hx

/-- R30, R199: after a commit no chunk of the hart is open; privilege and registers are as they were. -/
theorem commitChunk_chunk (c : Nat) (s : State) : ((commitChunk c s).ctx c).chunk = none := by
  cases e : (s.ctx c).chunk with
  | none => rw [commitChunk_none e, e]
  | some k => rw [commitChunk_self e, committed]

theorem commitChunk_regs (c : Nat) (s : State) : ((commitChunk c s).ctx c).regs = (s.ctx c).regs := by
  cases e : (s.ctx c).chunk with
  | none => rw [commitChunk_none e]
  | some k => rw [commitChunk_self e, committed]

theorem commitChunk_priv (c : Nat) (s : State) : ((commitChunk c s).ctx c).priv = (s.ctx c).priv := by
  cases e : (s.ctx c).chunk with
  | none => rw [commitChunk_none e]
  | some k => rw [commitChunk_self e, committed]

theorem commitChunk_cur (c : Nat) (s : State) : (commitChunk c s).cur = s.cur := by
  unfold commitChunk
  split <;> rfl

theorem commitChunk_commitChunk (c : Nat) (s : State) : commitChunk c (commitChunk c s) = commitChunk c s :=
  commitChunk_none (commitChunk_chunk c s)

/-- R111, R200: held stores, newest first, applied to memory: the newest store of a byte stands. -/
theorem readByte_stores (m : Memory) (l : List (Nat × Byte)) (a : Nat) :
    readByte (l.foldr (fun p m => writeByte m p.1 p.2) m) a =
      ((l.find? fun p => p.1 = a).map (·.2)).getD (readByte m a) := by
  induction l with
  | nil => rfl
  | cons p l ih =>
    rw [List.foldr_cons, readByte_writeByte, ih, List.find?_cons]
    by_cases e : p.1 = a
    · simp [e]
    · simp [e, Ne.symm e]

theorem commitChunk_sees (e : (s.ctx c).chunk = some k) (a : Nat) : readByte (commitChunk c s).mem a = sees s c a := by
  rw [commitChunk_mem]
  simp only [e, readByte_stores, sees, heldStores, openedChunk, Option.getD_some]
  cases k.stores.find? fun p => p.1 = a <;> rfl

/-- R143, R155: an instruction that takes an exception or acts outside chunks commits first, so that a commit before it changes nothing. -/
theorem takeTrap_commitChunk (c : Nat) (int : Bool) (code : Nat) (v p : W64) (s : State) :
    takeTrap c int code v p (commitChunk c s) = takeTrap c int code v p s := by
  unfold takeTrap
  rw [commitChunk_commitChunk]

theorem illegal_commitChunk (c : Nat) (i : Instr) (s : State) : illegal c i (commitChunk c s) = illegal c i s := by
  unfold illegal illegalWord trapHere
  rw [commitChunk_regs, takeTrap_commitChunk]

theorem outside_commitChunk (c : Nat) (f : Ctx → State → State) (s : State) : outside c f (commitChunk c s) = outside c f s := by
  unfold outside
  rw [commitChunk_commitChunk]

theorem csrOp_commitChunk (hc : s.cur = .hart c) (i : Instr) (d a : R5) (n : Nat) (reads : Bool) (new : Option (W64 → W64 → W64 → W64)) :
    csrOp i d a n reads new (commitChunk c s) = csrOp i d a n reads new s := by
  unfold csrOp
  rw [coreOnly_hart ((commitChunk_cur c s).trans hc), coreOnly_hart hc, illegal_commitChunk, outside_commitChunk]
  simp only [csrIllegal, commitChunk_priv]

/-- R143: an instruction that writes a register which the cores share is a CSR write, which changes nothing before its commit. -/
theorem sharedWrite_commitChunk {r : Regs} {w : W32} {i : Instr} (h : sharedWrite r w) (dec : decode w = .ok i) :
    writesShared w = true ∧ (s.cur = .hart c → exec i (commitChunk c s) = exec i s) := by
  obtain ⟨j, d, n, f, dec', form, writes, range⟩ := h
  obtain rfl : j = i := by
    rw [dec] at dec'
    exact (Except.ok.inj dec').symm
  have shared {m : BitVec 12} (e : m.toNat = n) :
      (decide (0x420 ≤ m.toNat) && decide (m.toNat < 0x438) || decide (m.toNat = 0xC07)) = true := by
    rw [e]
    simpa using range
  unfold writesShared
  rw [dec]
  unfold csrForm at form
  split at form
  · cases form
    cases writes
  · cases form
    exact ⟨shared rfl, fun hc => congrArg Host.Outcome.next (csrOp_commitChunk hc ..)⟩
  · cases form
    exact ⟨shared rfl, fun hc => congrArg Host.Outcome.next (csrOp_commitChunk hc ..)⟩
  · cases form
    exact ⟨shared rfl, fun hc => congrArg Host.Outcome.next (csrOp_commitChunk hc ..)⟩
  · cases form

theorem sharedWrite_of_writesShared (r : Regs) {w : W32} (h : writesShared w = true) : sharedWrite r w := by
  unfold writesShared at h
  split at h
  · next d a n dec => exact ⟨_, d, n.toNat, _, dec, rfl, rfl, by simpa using h⟩
  · next d a n dec => exact ⟨_, d, n.toNat, _, dec, rfl, rfl, by simpa using h⟩
  · next a n dec => exact ⟨_, 0, n.toNat, _, dec, rfl, rfl, by simpa using h⟩
  · cases h

/-! ### Which chunks may commit (R30, R199) -/

theorem chunkEnded_iff (hk : h.chunk = some k) : chunkEnded h = true ↔ k.closed = true ∨ h.solo = true ∨
    ∃ w, fetchWord h h.regs.pc.toNat = some w ∧ 0x22 ≤ (fMaj w).toNat ∧ writesShared w = false := by
  unfold chunkEnded
  cases e : fetchWord h h.regs.pc.toNat with
  | none => simp [hk, or_comm]
  | some w => simp [hk, or_assoc, or_left_comm]

theorem exec_chunkCommit (c : Nat) (s : State) :
    exec (.chunkCommit c) s = .next (if chunkEnded (s.ctx c) then commitChunk c s else s) := rfl

end Sys2Proof.Claim
end

section
open Sys2Proof Sys2Proof.Machine Sys2Proof.Claim

theorem Sys2Proof.Claim.chunkCommits : Claim.ChunkCommits := by
  unfold Claim.ChunkCommits
  refine ⟨fun s c k w hk opened notSolo hw shared => ⟨?_, fun i dec hc => ?_⟩, fun s c k hk ended => ?_⟩
  · rw [exec_chunkCommit, if_neg]
    rw [chunkEnded_iff hk, opened, notSolo]
    rintro (h | h | ⟨w', hw', -, alone⟩)
    · cases h
    · cases h
    · cases hw.symm.trans hw'
      obtain ⟨i, _, _, _, dec, _⟩ := id shared
      rw [(sharedWrite_commitChunk (s := s) (c := c) shared dec).1] at alone
      cases alone
  · exact ((sharedWrite_commitChunk shared dec).2 hc).symm
  · have may : chunkEnded (s.ctx c) = true := (chunkEnded_iff hk).2 <| ended.imp_right <| Or.imp_right fun ⟨w, hw, major, own⟩ =>
      ⟨w, hw, major, Bool.not_eq_true _ ▸ fun shared => own (sharedWrite_of_writesShared _ shared)⟩
    refine ⟨commitChunk c s, by rw [exec_chunkCommit, if_pos may], commitChunk_device c s, commitChunk_self hk, commitChunk_sees hk,
      fun x hx => ?_⟩
    have other := commitChunk_other hk hx
    dsimp only
    split
    · next e => exact other.kept.eq e
    · next q e =>
      have same : squash s.gtime (s.ctx x) = { s.ctx x with
          regs := q.start, chunk := none, squashes := (s.ctx x).squashes + 1, solo := (s.ctx x).solo || decide (1 ≤ (s.ctx x).squashes)
          soloSince := if (s.ctx x).solo then (s.ctx x).soloSince else s.gtime } := by
        unfold squash
        rw [e]
      obtain ⟨yes, no⟩ := other
      split
      · next met =>
        obtain ⟨res, pcn, read⟩ := met
        rw [yes ⟨res, pcn, q, e, read⟩, same]
      · next apart =>
        refine no fun ⟨res, pcn, q', e', read⟩ => apart ⟨res, pcn, ?_⟩
        cases e.symm.trans e'
        exact read

end

section
namespace Sys2Proof.Claim
open Sys2Proof.Machine

/-! ### Solo grants (R29, R30) -/

variable {s : State} {h : Ctx} {c : Nat}

theorem wantsGrant_iff : wantsGrant s h = true ↔ asks s h := by
  unfold wantsGrant asks chunkNext
  cases fetchWord h h.regs.pc.toNat with
  | none => simp
  | some w => simp [and_assoc]

/-- R30: a request of the cluster goes before that of `h`. -/
theorem notFirst_iff (p : Ctx) : (wantsGrant s p && decide (pcnOf p.gcn = pcnOf h.gcn) &&
    (decide (p.soloSince < h.soloSince) || (decide (p.soloSince = h.soloSince) && decide (p.gcn < h.gcn)))) = true ↔ asksFirst s p h := by
  simp only [Bool.and_eq_true, Bool.or_eq_true, decide_eq_true_eq, wantsGrant_iff, and_assoc]
  exact Iff.rfl

theorem exec_soloGrant (c : Nat) (s : State) [Decidable (asks s (s.ctx c) ∧ ∀ p ∈ s.ctxs, ¬asksFirst s p.2 (s.ctx c))] :
    exec (.soloGrant c) s =
      .next (if asks s (s.ctx c) ∧ ∀ p ∈ s.ctxs, ¬asksFirst s p.2 (s.ctx c) then { s with soloTurn := some c } else s) := by
  change Host.Outcome.next (ite (_ = true) _ _) = _
  refine congrArg _ (if_congr ?_ rfl rfl)
  rw [Bool.and_eq_true, wantsGrant_iff, List.all_eq_true]
  refine and_congr_right fun _ => forall₂_congr fun p _ => ?_
  rw [Bool.not_eq_true', ← Bool.not_eq_true, notFirst_iff]

/-- R29, R199: a hart that waits for acknowledgements, or whose next instruction belongs to no chunk, issues as under a grant. -/
theorem hartStep_ungranted (free : (s.ctx c).wait = .acks ∨ chunkNext (s.ctx c) = false) : hartStep false c s = hartStep true c s := by
  have held (granted : Bool) :
      ((s.ctx c).solo && !granted && decide ((s.ctx c).wait ≠ .acks) && chunkNext (s.ctx c)) = false := by
    obtain acks | other := free
    · simp [acks]
    · simp [other]
  simp only [hartStep, held]

end Sys2Proof.Claim
end

section
open Sys2Proof Sys2Proof.Machine Sys2Proof.Claim

theorem Sys2Proof.Claim.soloGrants : Claim.SoloGrants := by
  classical
  unfold Claim.SoloGrants
  refine ⟨fun s c acks => hartStep_ungranted (.inl acks), fun s c w hw major => hartStep_ungranted (.inr ?_),
    fun s c => ⟨fun his first => ?_, fun ⟨p, hp, before⟩ => ?_, fun no => ?_⟩, fun s c u turn run => ?_⟩
  · simpa [chunkNext, hw] using major
  · rw [exec_soloGrant, if_pos ⟨his, first⟩]
  · rw [exec_soloGrant, if_neg fun h => h.2 p hp before]
  · rw [exec_soloGrant, if_neg fun h => no h.1]
  · refine ⟨modCtx c (fun h => { h with soloSince := if h.solo then u.gtime else h.soloSince }) u, ?_, fun x hx => ?_, rfl, ?_⟩
    · simp only [step, turn, grantStep, run]
    · rw [modCtx_ctx, if_neg hx]
    · rw [modCtx_ctx, if_pos rfl]

/-- Settles O37: commits, solo grants and what a release covers, each from the rule of its operation. -/
theorem chunkOrder : Obligations.ChunkOrder := by
  unfold Obligations.ChunkOrder
  exact ⟨Claim.chunkCommits, Claim.soloGrants, Claim.releaseCovers⟩

end

section
/-! SUPPORT. What a move and an issue run (R29, R282), and what an issue notes of the hart's acquires (R203). -/

namespace Sys2Proof.Claim
open Sys2Proof.Machine

/-! ### Issue (R29, R203, R282) -/

variable {s t : State} {h : Ctx} {c x : Nat} {w : W32} {r : List Move}

theorem carry_device (c : Nat) (s : State) : { carry c s with ctxs := s.ctxs, net := s.net, banks := s.banks } = s := by
  obtain ⟨_, e⟩ := setCovers_device c 4 (fun x k => decide (x ≠ c) && ordersAfter s k c) s
  unfold carry
  rw [e]

/-- R203: the acquire that a hart has behind it when it issues, where no read of an atomic is awaited. -/
def acquireBehind (h : Ctx) : Option Nat := if h.scAcq.isEmpty then h.acq else none

/-- R203: what an issue at cycle `n` makes of a hart with acquire `done` behind it. -/
def noted (w : W32) (n : Nat) (done : Option Nat) (h : Ctx) : Ctx :=
  match done with
  | some z => { h with acquired := tput h.acquired z n, acq := acquires w }
  | none => { h with acq := widerScope h.acq (acquires w) }

/-- R205, R208, R210: what a hart may have acquired is carried on where it has an acquire behind it, and by TEXIT. -/
def carried (c : Nat) (w : W32) (s : State) : State :=
  if (acquireBehind (s.ctx c)).isSome || (fMaj w == 0x30 && fFn w == 2) then carry c s else s

theorem noteIssue_parts (c : Nat) (w : W32) (s : State) :
    noteIssue c w s = modCtx c (noted w (carried c w s).gtime (acquireBehind (s.ctx c))) (carried c w s) := rfl

theorem carried_self (c : Nat) (w : W32) (s : State) : (carried c w s).ctx c = s.ctx c := by
  unfold carried
  split
  · exact carry_self c s
  · rfl

theorem Squashes.carried (c : Nat) (w : W32) (s : State) : Squashes s (carried c w s) := by
  unfold Claim.carried
  split
  · exact .carry c s
  · exact .refl s

theorem carried_device (c : Nat) (w : W32) (s : State) : { carried c w s with ctxs := s.ctxs, net := s.net, banks := s.banks } = s := by
  unfold carried
  split
  · exact carry_device c s
  · rfl

theorem carried_same (none : acquireBehind (s.ctx c) = none) (other : ¬(fMaj w = 0x30 ∧ fFn w = 2)) : carried c w s = s := by
  refine if_neg ?_
  rw [none]
  simpa using other

theorem noteIssue_self (c : Nat) (w : W32) (s : State) :
    (noteIssue c w s).ctx c = noted w s.gtime (acquireBehind (s.ctx c)) (s.ctx c) := by
  rw [noteIssue_parts, modCtx_ctx, if_pos rfl, carried_self, (Squashes.carried c w s).1]

theorem noteIssue_other (hx : x ≠ c) : (noteIssue c w s).ctx x = (carried c w s).ctx x := by
  rw [noteIssue_parts, modCtx_ctx, if_neg hx]

theorem acquireBehind_some {z : Nat} (e : h.acq = some z) (read : h.scAcq = []) : acquireBehind h = some z := by
  rw [acquireBehind, read, List.isEmpty_nil, if_pos rfl, e]

theorem acquireBehind_none (e : h.acq = none ∨ h.scAcq ≠ []) : acquireBehind h = none := by
  unfold acquireBehind
  obtain e | e := e
  · rw [e, ite_self]
  · exact if_neg (by simpa using e)

theorem noted_noteIssue (c : Nat) (w : W32) (s : State) : Noted c w s (noteIssue c w s) := by
  refine ⟨carried_device c w s, fun z e read => ?_, fun e => ?_, fun x hx => ?_, fun e other => ?_⟩
  · rw [noteIssue_self, acquireBehind_some e read]
    exact ⟨rfl, fun y d => tget_tput ..⟩
  · rw [noteIssue_self, acquireBehind_none e]
    simp only [noted, widerScope]
    rcases (s.ctx c).acq <;> rcases acquires w <;> rfl
  · rw [noteIssue_other hx]
    exact (Squashes.carried c w s).2 x
  · have same := carried_same (acquireBehind_none e) other
    rw [noteIssue_parts, same]
    exact ⟨rfl, rfl, fun x hx => (modCtx_ctx ..).trans (if_neg hx)⟩

theorem canMove_of_live (l : Live s c) : canMove s (s.ctx c) = true := by
  obtain ⟨res, going, stays, -, runs, stop⟩ := l
  have notReached : stopReached s (s.ctx c) = false := by
    unfold stopReached
    simp only [runs, Bool.false_or]
    split
    · next t e => exact decide_eq_false (Nat.not_le.2 (stop t e))
    · rfl
  simp [canMove, canWake, res, going, stays, notReached]

/-- R29, R30, R132, R199: a hart with nothing to take first issues the word at its PC. -/
theorem hartStep_issues (moves : canMove s (s.ctx c) = true) (recorded : (s.ctx c).recorded = none)
    (noAsync : pendingAsync (s.ctx c) = false) (noInterrupt : takenInterrupt s (s.ctx c) = none)
    (ready : (s.ctx c).wait = .none ∨ (s.ctx c).wait = .acks) (room : ∀ k, (s.ctx c).chunk = some k → k.closed = false)
    (notSolo : (s.ctx c).solo = false) (hw : fetchWord (s.ctx c) (s.ctx c).regs.pc.toNat = some w) :
    hartStep false c s = issueWord c w s := by
  have issues : ¬((s.ctx c).wait ≠ .none ∧ (s.ctx c).wait ≠ .acks) := fun ⟨a, b⟩ => ready.elim a b
  have roomy : (((s.ctx c).chunk.map (·.closed)).getD false) = false := by
    cases e : (s.ctx c).chunk with
    | none => rfl
    | some k => exact room k e
  simp [hartStep, moves, recorded, noAsync, noInterrupt, issues, roomy, hw, notSolo]

/-- Log entry 1: with no solo grant given, a step makes the first move of the agenda. -/
theorem step_move {m : Move} (turn : s.soloTurn = none) (agenda : s.agenda = m :: r) : step s = runMove m { s with agenda := r } := by
  cases s
  cases turn
  cases agenda
  rfl

theorem step_issues (n : Next s c r) (hw : fetchWord (s.ctx c) (s.ctx c).regs.pc.toNat = some w) :
    step s = issueWord c w { s with agenda := r } := by
  obtain ⟨⟨turn, agenda⟩, live, -, notSolo, ⟨recorded, noAsync, noInterrupt⟩, ready, room⟩ := n
  rw [step_move turn agenda]
  exact hartStep_issues (s := { s with agenda := r }) (canMove_of_live live) recorded noAsync noInterrupt ready room notSolo hw

theorem bauStep_decoded {g : Nat} {k : Run} {i : Instr} (run : (s.bank g).run = some k) (runs : k.ended = none)
    (dec : decode (tget (s.bank g).code ((s.bank g).pc / 4) 0) = .ok i) : bauStep g s = exec i { s with cur := .bau g } := by
  simp only [bauStep, run, runs, dec]
  rfl

theorem bauStep_illegal {g : Nat} {k : Run} {e : DecodeError} (run : (s.bank g).run = some k) (runs : k.ended = none)
    (dec : decode (tget (s.bank g).code ((s.bank g).pc / 4) 0) = .error e) :
    bauStep g s = exec (.illegalInstruction (tget (s.bank g).code ((s.bank g).pc / 4) 0)) { s with cur := .bau g } := by
  simp only [bauStep, run, runs, dec]
  rfl

theorem isEvent_of {i : Instr} (event : encode i = none) (other : ∀ w, i ≠ .illegalInstruction w) : isEvent i = true := by
  unfold isEvent
  split
  · next w => exact absurd rfl (other w)
  · rw [event]
    rfl

end Sys2Proof.Claim
end

section
open Sys2Proof Sys2Proof.Machine Sys2Proof.Claim

/-- Settles O20: a step makes the move that is next, and an issue comes down to `exec` of the decoded word. -/
theorem stepRuns : Obligations.StepRuns := by
  unfold Obligations.StepRuns
  refine ⟨fun s c r w n hw => ⟨fun i dec runs => ?_, fun i dec held => ?_, fun e dec => ?_⟩,
    fun s g k r turn agenda run runs => ⟨fun i dec => ?_, fun e dec => ?_⟩, fun s i r turn agenda event other => ?_,
    fun s x r turn agenda => ?_⟩
  · refine ⟨?_, noted_noteIssue ..⟩
    rw [step_issues n hw]
    simp only [issueWord, dec]
    exact if_neg (by rw [← Bool.not_eq_true] at runs; exact runs)
  · rw [step_issues n hw]
    simp only [issueWord, dec]
    exact if_pos held
  · rw [step_issues n hw]
    simp only [issueWord, dec]
    rfl
  · rw [step_move turn agenda]
    exact bauStep_decoded (s := { s with agenda := r }) run runs dec
  · rw [step_move turn agenda]
    exact bauStep_illegal (s := { s with agenda := r }) run runs dec
  · rw [step_move turn agenda]
    exact if_pos (isEvent_of event other)
  · rw [step_move turn agenda]
    rfl

end

section
namespace Sys2Proof.Claim
open Sys2Proof.Machine

/-! ### Waits for interrupts, interrupts and asynchronous exceptions (R131, R132, R139, R140) -/

variable {s t : State} {h : Ctx} {c : Nat}

theorem onlyHart_modCtx (c : Nat) (f : Ctx → Ctx) (s : State) : OnlyHart c s (modCtx c f s) :=
  ⟨rfl, fun _ hx => (modCtx_ctx ..).trans (if_neg hx), fun _ => rfl⟩

theorem modCtx_self (c : Nat) (f : Ctx → Ctx) (s : State) : (modCtx c f s).ctx c = f (s.ctx c) := (modCtx_ctx ..).trans (if_pos rfl)

/-- R94, R149: an instruction with no step armed retires. -/
theorem retired_retire (armed : (s.ctx c).armed = none) : Retired c s (retire c s) (nextPc (s.ctx c).regs (s.ctx c).regs) := by
  unfold retire
  rw [retireAt_eq armed]
  exact ⟨onlyHart_modCtx .., modCtx_self ..⟩

/-- R139: an interrupt that ends WFI is pending. -/
def Pending (s : State) (h : Ctx) : Prop :=
  h.csr.event = true ∨ (h.csr.imask.getLsbD 0 = true ∧ h.csr.tcmp.toNat ≤ s.gtime) ∨ (h.csr.imask.getLsbD 1 = true ∧ h.csr.soft = true)

theorem wfiEnds_iff : wfiEnds s h = true ↔ Pending s h := by
  simp only [wfiEnds, Pending, Bool.or_eq_true, Bool.and_eq_true, decide_eq_true_eq, or_assoc]

theorem outside_alone (a : HartAlone s c) (f : Ctx → State → State) : outside c f s = f (s.ctx c) s :=
  outside_eq a.noChunk a.notLast f

theorem exec_icinv (a : HartAlone s c) : exec .icinv s = .next (retire c (modCtx c (fun h => { h with icache := [] }) s)) := by
  change Host.Outcome.next (coreOnly s _) = _
  rw [coreOnly_hart a.cur, outside_alone a]

theorem exec_wfi (a : HartAlone s c) (priv : (s.ctx c).priv ≠ .u) :
    exec .wfi s = .next (if wfiEnds s (s.ctx c) then retire c s else setWait c .wfi s) := by
  change Host.Outcome.next (coreOnly s _) = _
  rw [coreOnly_hart a.cur, if_neg priv, outside_alone a]

theorem boundary_here (at_ : h.wait ∈ [Wait.none, .gbar, .bkfence, .mfence]) : boundary h.wait = .at_ := by
  simp only [List.mem_cons, List.not_mem_nil, or_false] at at_
  obtain e | e | e | e := at_ <;> rw [e] <;> rfl

/-- R131: there a trap is taken at once, with TPC at the current instruction. -/
theorem takeAt_here (at_ : (s.ctx c).wait ∈ [Wait.none, .gbar, .bkfence, .mfence]) (int : Bool) (code : Nat) (v : W64) :
    takeAt c int code v s = takeTrap c int code v (s.ctx c).regs.pc s := by
  unfold takeAt
  rw [boundary_here at_]

/-- R132: what S must hold for an interrupt of S to be taken, and M for an EVENT. -/
def sTakes (h : Ctx) : Bool := !inTrap h.ts && (decide (h.priv = .u) || (decide (h.priv = .s) && h.ts.tstat.getLsbD 0))
def mTakes (h : Ctx) : Bool := !inTrap h.tm && (decide (h.priv ≠ .m) || h.tm.tstat.getLsbD 0)

theorem sTakes_of (idle : h.ts.tstat.getLsbD 4 = false) (enabled : h.priv = .u ∨ (h.priv = .s ∧ h.ts.tstat.getLsbD 0 = true)) :
    sTakes h = true := by
  simp only [sTakes, inTrap, idle, Bool.not_false, Bool.true_and, Bool.or_eq_true, Bool.and_eq_true, decide_eq_true_eq]
  exact enabled

theorem mTakes_of (idle : h.tm.tstat.getLsbD 4 = false) (enabled : h.priv = .m → h.tm.tstat.getLsbD 0 = true) : mTakes h = true := by
  simp only [mTakes, inTrap, idle, Bool.not_false, Bool.true_and, Bool.or_eq_true, decide_eq_true_eq]
  exact or_iff_not_imp_left.2 fun e => enabled (not_not.1 e)

theorem takenInterrupt_armed (armed : h.armed.isSome = true) : takenInterrupt s h = none := if_pos armed

/-- R132: with no step armed EVENT comes first, then TIMER, then SOFT. -/
theorem takenInterrupt_unarmed (armed : h.armed = none) : takenInterrupt s h =
    if h.csr.event && mTakes h then some (2, h.csr.eventCodes.headD 0)
    else if h.csr.imask.getLsbD 0 && decide (h.csr.tcmp.toNat ≤ s.gtime) && sTakes h then some (0, 0)
    else if h.csr.imask.getLsbD 1 && h.csr.soft && sTakes h then some (1, 0) else none :=
  if_neg (by rw [armed]; decide)

theorem takenInterrupt_event (armed : h.armed = none) (event : h.csr.event = true) (takes : mTakes h = true) :
    takenInterrupt s h = some (2, h.csr.eventCodes.headD 0) := by
  rw [takenInterrupt_unarmed armed, event, takes]
  rfl

theorem takenInterrupt_timer (armed : h.armed = none) (event : h.csr.event = false) (takes : sTakes h = true)
    (timer : h.csr.imask.getLsbD 0 = true ∧ h.csr.tcmp.toNat ≤ s.gtime) : takenInterrupt s h = some (0, 0) := by
  rw [takenInterrupt_unarmed armed, event, takes, timer.1, decide_eq_true timer.2]
  rfl

theorem takenInterrupt_soft (armed : h.armed = none) (event : h.csr.event = false) (takes : sTakes h = true)
    (noTimer : ¬(h.csr.imask.getLsbD 0 = true ∧ h.csr.tcmp.toNat ≤ s.gtime)) (mask : h.csr.imask.getLsbD 1 = true)
    (soft : h.csr.soft = true) : takenInterrupt s h = some (1, 0) := by
  have noTimer' : (h.csr.imask.getLsbD 0 && decide (h.csr.tcmp.toNat ≤ s.gtime)) = false := by
    rw [← Bool.not_eq_true, Bool.and_eq_true, decide_eq_true_eq]
    exact noTimer
  rw [takenInterrupt_unarmed armed, event, takes, noTimer', mask, soft]
  rfl

/-- R132: an interrupt that may be taken is taken, where no exception goes first. -/
theorem exec_takeInterrupt (live : Live s c) (at_ : (s.ctx c).wait ∈ [Wait.none, .gbar, .bkfence, .mfence])
    (recorded : (s.ctx c).recorded = none) (stores : (s.ctx c).pendStores = []) {code : Nat} {v : W64}
    (taken : takenInterrupt s (s.ctx c) = some (code, v)) :
    exec (.takeInterrupt c) s = .next (takeTrap c true code v (s.ctx c).regs.pc s) := by
  have noAsync : pendingAsync (s.ctx c) = false := by simp [pendingAsync, stores, live.2.2.2.1]
  refine congrArg Host.Outcome.next ((if_neg ?_).trans ?_)
  · simp [canMove_of_live live, recorded, noAsync]
  · simp only [taken]
    exact takeAt_here at_ ..

theorem exec_takeAsyncException (live : Live s c) (at_ : (s.ctx c).wait ∈ [Wait.none, .gbar, .bkfence, .mfence])
    (recorded : (s.ctx c).recorded = none) {v : W64} {r : List W64} (stores : (s.ctx c).pendStores = v :: r) :
    exec (.takeAsyncException c) s =
      .next (takeTrap c false 7 v (s.ctx c).regs.pc (modCtx c (fun h => { h with pendStores := r }) s)) := by
  refine congrArg Host.Outcome.next ((if_neg ?_).trans ?_)
  · simp [canMove_of_live live, recorded, boundary_here at_]
  · have self := modCtx_self c (fun h => { h with pendStores := r }) s
    simp only [live.2.2.2.1, stores]
    rw [takeAt_here (by rw [self]; exact at_), self]

end Sys2Proof.Claim
end

section
open Sys2Proof Sys2Proof.Machine Sys2Proof.Claim

theorem Sys2Proof.Claim.waitForInterrupt : Claim.WaitForInterrupt := by
  unfold Claim.WaitForInterrupt
  intro s c
  refine ⟨fun a => ⟨_, exec_icinv a, ?_⟩, fun a priv ends => ⟨retire c s, ?_, retired_retire a.notArmed⟩, fun a priv stays => ?_,
    fun wait live armed ends => ⟨retire c s, ?_, retired_retire armed⟩⟩
  · unfold retire
    rw [retireAt_eq (by rw [modCtx_self]; exact a.notArmed), modCtx_comp]
    refine ⟨onlyHart_modCtx .., ?_⟩
    rw [modCtx_self, modCtx_self]
    rfl
  · rw [exec_wfi a priv, if_pos (wfiEnds_iff.2 ends)]
  · rw [exec_wfi a priv, if_neg fun e => stays (wfiEnds_iff.1 e)]
  · exact congrArg Host.Outcome.next (if_pos ⟨wait, canMove_of_live live, wfiEnds_iff.2 ends⟩)

theorem Sys2Proof.Claim.interruptsAndAsyncExceptions : Claim.InterruptsAndAsyncExceptions := by
  unfold Claim.InterruptsAndAsyncExceptions
  intro s c
  refine ⟨fun live at_ recorded _ stores armed event idle enabled => ?_, fun live at_ recorded _ stores armed event idle enabled => ⟨?_, ?_⟩,
    fun armed => ?_, fun live _ _ code v posted => ?_, fun live at_ recorded _ v r stores => exec_takeAsyncException live at_ recorded stores,
    ⟨_, rfl, onlyHart_modCtx .., modCtx_self ..⟩, ⟨_, rfl, onlyHart_modCtx .., ?_⟩⟩
  · exact exec_takeInterrupt live at_ recorded stores (takenInterrupt_event armed event (mTakes_of idle enabled))
  · exact fun timer => exec_takeInterrupt live at_ recorded stores (takenInterrupt_timer armed event (sTakes_of idle enabled) timer)
  · exact fun noTimer mask soft =>
      exec_takeInterrupt live at_ recorded stores (takenInterrupt_soft armed event (sTakes_of idle enabled) noTimer mask soft)
  · refine congrArg Host.Outcome.next ?_
    dsimp only
    rw [takenInterrupt_armed armed]
    exact ite_self _
  · obtain ⟨-, -, -, nonePosted, -⟩ := live
    cases nonePosted.symm.trans posted
  · rw [modCtx_self]
    cases (s.ctx c).csr.eventCodes with
    | nil => rfl
    | cons x l => cases l <;> simp

/-- Settles O42: waits for interrupts, and which trap is taken, in the order of R132. -/
theorem interrupts : Obligations.Interrupts := by
  unfold Obligations.Interrupts
  exact ⟨Claim.waitForInterrupt, Claim.interruptsAndAsyncExceptions⟩

end

section
/-!
SUPPORT. A task that ends with HANG while a member with a step armed stands in TYIELD: the instruction under way retires, its
STEP trap goes to M (R138), and with IN_TRAP of M set the core halts (R129), so that the task's record shows FH (R327).
-/

namespace Sys2Proof.Claim
open Sys2Proof.Machine

/-- The member of such a task: in TYIELD, the step armed by a TRET of M, M in a trap. -/
def steppedYield : Ctx :=
  { resident := true, task := some 0, wait := .tyield 0, armed := some .m, tm := { tstat := 0x10 } }

/-- Task 0 of a virtual function with HANGLIM 1, at its limit. -/
def hangingStep : State :=
  { owners := [(0, { vfcfg := 1 })]
    tasks := [(0, { phase := .placed, members := [0], hang := 2 ^ 24 })]
    ctxs := [(0, steppedYield)] }

/-- R328: the halt of the member sets the flag of the task's record. -/
theorem flags_hangingStep : ((after hangingStep (exec (.hangExpiry 0) hangingStep)).task 0).flags = 0x10 := by decide

end Sys2Proof.Claim
end

section
open Sys2Proof Sys2Proof.Machine Sys2Proof.Claim

theorem Sys2Proof.Claim.not_taskEnds : ¬Claim.TaskEnds := by
  unfold Claim.TaskEnds
  rintro ⟨-, -, ends⟩
  obtain ⟨expires, -⟩ := ends hangingStep 0 rfl
  obtain ⟨t, run, -, task, -⟩ := expires (by decide) (by decide) (by decide) (by decide)
  have flags : (t.task 0).flags = 0x10 := by
    have e := flags_hangingStep
    rwa [run] at e
  rw [task] at flags
  exact absurd flags (by decide)

/-- Refutes O57: a member that stands in TYIELD with a step armed halts at its STEP trap where IN_TRAP of M is set, and then the
record of the task shows the halt, although the member had not halted before. -/
theorem not_taskCompletion : ¬Obligations.TaskCompletion := by
  unfold Obligations.TaskCompletion
  rintro ⟨ends, -⟩
  exact Claim.not_taskEnds ends

end

section
/-! SUPPORT. Saving a gang (R27, R333 to R335): what a save leaves of its members and of other harts. -/

namespace Sys2Proof.Claim
open Sys2Proof.Machine

variable {s t u : State} {h h' : Ctx} {c x : Nat}

/-- R333: the cells of a span, at offsets from its start. -/
theorem readByte_sliceBytes (m : Memory) (k n a : Nat) :
    readByte (sliceBytes m k n) a = if a < n then readByte m (k + a) else 0 := by
  unfold sliceBytes readByte
  induction m with
  | nil => simp [tget]
  | cons p m ih =>
    by_cases within : k ≤ p.1 ∧ p.1 < k + n
    · rw [List.filter_cons_of_pos (by simpa using within), List.map_cons]
      simp only [tget, ih]
      by_cases e : p.1 = k + a
      · rw [if_pos (by omega), if_pos (by omega), if_pos e]
      · rw [if_neg (by omega), if_neg e]
    · rw [List.filter_cons_of_neg (by simpa using within), ih]
      by_cases ha : a < n
      · rw [if_pos ha, if_pos ha, tget, if_neg (by omega)]
      · rw [if_neg ha, if_neg ha]

/-- R333: what a save leaves of a hart whose chunk has committed. -/
structure SavedFrom (s : State) (h h' : Ctx) : Prop where
  resident : h'.resident = false
  regs : h'.regs = h.regs
  csr : h'.csr = h.csr
  chunk : h'.chunk = none
  image : ∃ im, h'.image = some im ∧ im.pad = sliceBytes s.mem (sramKey (pcnOf h.gcn) (coreOf h.gcn * 0x8000)) 0x8000

/-- R333: the context that a save leaves, with its image. -/
def savedCtx (im : Image) (h : Ctx) : Ctx :=
  { h with
    image := some im
    resident := false
    icache := []
    wait := match h.wait with | .remoteLoad .. => .none | w => w
    eng := { h.eng with acc := liveAcc h.eng } }

/-- R333, R334: a save changes the context and the banks of its core, what releases cover, and the chunks that they squash. -/
theorem saveCtx_resident (res : (s.ctx c).resident = true) (idle : (s.ctx c).chunk = none) :
    ∃ ks, saveCtx c s = { modCtx c (savedCtx (imageOf (carry c s) (s.ctx c))) (carry c s) with cores := ks } := by
  unfold saveCtx
  rw [commitChunk_none idle]
  simp only [res, Bool.not_true, Bool.false_eq_true, if_false, carry_self]
  split
  · exact ⟨_, rfl⟩
  · exact ⟨_, rfl⟩

theorem saveCtx_self (res : (s.ctx c).resident = true) (idle : (s.ctx c).chunk = none) :
    SavedFrom s (s.ctx c) ((saveCtx c s).ctx c) := by
  obtain ⟨ks, e⟩ := saveCtx_resident res idle
  have self : (saveCtx c s).ctx c = savedCtx (imageOf (carry c s) (s.ctx c)) (s.ctx c) := by
    rw [e]
    exact (modCtx_self ..).trans (congrArg _ (carry_self c s))
  rw [self]
  refine ⟨rfl, rfl, rfl, idle, _, rfl, ?_⟩
  unfold imageOf
  rw [carry_mem]

theorem saveCtx_other (res : (s.ctx c).resident = true) (idle : (s.ctx c).chunk = none) (hx : x ≠ c) :
    KeptOrSquashed s.gtime (s.ctx x) ((saveCtx c s).ctx x) := by
  obtain ⟨ks, e⟩ := saveCtx_resident res idle
  have other : (saveCtx c s).ctx x = (carry c s).ctx x := by
    rw [e]
    exact (modCtx_ctx ..).trans (if_neg hx)
  rw [other]
  exact (Squashes.carry c s).2 x

/-- A save leaves memory, time and the dispatcher's tables. -/
def SameDevice (s t : State) : Prop :=
  { t with ctxs := s.ctxs, net := s.net, banks := s.banks, cores := s.cores } = s

theorem saveCtx_device (res : (s.ctx c).resident = true) (idle : (s.ctx c).chunk = none) : SameDevice s (saveCtx c s) := by
  obtain ⟨ks, e⟩ := saveCtx_resident res idle
  rw [e]
  exact congrArg (fun u : State => { u with cores := s.cores }) (carry_device c s)

theorem SameDevice.trans (a : SameDevice s t) (b : SameDevice t u) : SameDevice s u := by
  unfold SameDevice at *
  exact (congrArg (fun v : State => { v with ctxs := s.ctxs, net := s.net, banks := s.banks, cores := s.cores }) b).trans a

theorem SameDevice.mem (a : SameDevice s t) : t.mem = s.mem := by
  unfold SameDevice at a
  exact (congrArg State.mem a :)
theorem SameDevice.gtime (a : SameDevice s t) : t.gtime = s.gtime := by
  unfold SameDevice at a
  exact (congrArg State.gtime a :)
theorem SameDevice.tasks (a : SameDevice s t) : t.tasks = s.tasks := by
  unfold SameDevice at a
  exact (congrArg State.tasks a :)

/-- R333: members that stand between chunks are saved one after another; every other hart is kept, its chunk perhaps squashed. -/
theorem saveAll (l : List Nat) (distinct : l.Nodup) (s : State) (idle : ∀ m ∈ l, (s.ctx m).resident = true ∧ (s.ctx m).chunk = none) :
    let t := forEach l saveCtx s
    SameDevice s t ∧ (∀ x, x ∉ l → KeptOrSquashed s.gtime (s.ctx x) (t.ctx x)) ∧ ∀ m ∈ l, SavedFrom s (s.ctx m) (t.ctx m) := by
  unfold forEach
  induction l generalizing s with
  | nil => exact ⟨rfl, fun x _ => .inl rfl, nofun⟩
  | cons c l ih =>
    obtain ⟨new, distinct⟩ := List.nodup_cons.1 distinct
    obtain ⟨res, none⟩ := idle c List.mem_cons_self
    have device := saveCtx_device res none
    have same (m : Nat) (hm : m ∈ l) : (saveCtx c s).ctx m = s.ctx m :=
      (saveCtx_other res none fun e => new (e ▸ hm)).eq (idle m (List.mem_cons_of_mem c hm)).2
    obtain ⟨rest, others, saved⟩ := ih distinct (saveCtx c s) fun m hm => by
      rw [same m hm]
      exact idle m (List.mem_cons_of_mem c hm)
    rw [device.gtime] at others
    rw [List.foldl_cons]
    refine ⟨device.trans rest, fun x hx => ?_, fun m hm => ?_⟩
    · rw [List.mem_cons, not_or] at hx
      obtain ⟨hc, hl⟩ := hx
      exact (saveCtx_other res none hc).trans (others x hl)
    · obtain rfl | hl := List.mem_cons.1 hm
      · have first := saveCtx_self res none
        rw [(others m new).eq first.chunk]
        exact first
      · obtain ⟨a, b, c, d, im, image, pad⟩ := saved m hl
        rw [same m hl] at b c pad
        rw [device.mem] at pad
        exact ⟨a, b, c, d, im, image, pad⟩

/-- R335: when a gang is evicted. -/
theorem exec_evictGang {tid : Nat} (placed : (s.task tid).phase = .placed)
    (running : ∃ m ∈ (s.task tid).members, (s.ctx m).exited = none)
    (blocked : ∀ m ∈ (s.task tid).members, (s.ctx m).exited.isSome = true ∨
      (isBlocking (s.ctx m).wait = true ∧ (s.ctx m).halted = false ∧ arrayMid (s.ctx m) = false))
    (slots : ∀ m ∈ (s.task tid).members, usedSlots s (s.ctx m).gcn (s.task tid).part + 2 ≤ slotCount s (s.ctx m).gcn (s.task tid).part)
    (minres : (s.task tid).residentAt + vfMinres (s.owner (s.launch (s.task tid).launch).vf) * 65536 ≤ s.gtime)
    (wanted : ∃ x ∈ s.tasks, x.2.part = (s.task tid).part ∧ x.2.phase = .eligible ∧ classOf s x.2 < classOf s (s.task tid) ∧
      placeNew s x.2 = none ∧ placeNew (saveGang tid s) x.2 ≠ none) :
    exec (.evictGang tid) s = .next (saveGang tid s) := by
  refine congrArg Host.Outcome.next (if_neg ?_)
  have all_blocked : ((s.task tid).members.all fun m =>
      (s.ctx m).exited.isSome || (isBlocking (s.ctx m).wait && !(s.ctx m).halted && !arrayMid (s.ctx m))) = true := by
    simpa [and_assoc] using blocked
  have not_all_exited : ¬((s.task tid).members.all fun m => (s.ctx m).exited.isSome) = true := by
    obtain ⟨m, hm, stays⟩ := running
    exact fun all => absurd (List.all_eq_true.1 all m hm) (by rw [stays]; decide)
  have free : ((s.task tid).members.all fun m =>
      decide (usedSlots s (s.ctx m).gcn (s.task tid).part + 2 ≤ slotCount s (s.ctx m).gcn (s.task tid).part)) = true := by
    simpa using slots
  have want : (s.tasks.any fun t => decide (t.2.part = (s.task tid).part) && decide (t.2.phase = .eligible) &&
      decide (classOf s t.2 < classOf s (s.task tid)) && (placeNew s t.2).isNone && (placeNew (saveGang tid s) t.2).isSome) = true := by
    obtain ⟨x, hx, part, phase, lower, unfit, fit⟩ := wanted
    exact List.any_eq_true.2 ⟨x, hx, by simp [part, phase, lower, unfit, Option.isSome_iff_ne_none, fit]⟩
  rw [all_blocked, free, want]
  simp [placed, not_all_exited, minres]

end Sys2Proof.Claim
end

section
open Sys2Proof Sys2Proof.Machine Sys2Proof.Claim

/-- Settles O11: the gang is saved member by member; a save keeps memory, and a hart outside the gang loses at most its open chunk. -/
theorem eviction : Obligations.Eviction := by
  unfold Obligations.Eviction
  intro s tid k placed distinct running members minres wanted
  refine ⟨saveGang tid s, exec_evictGang placed running (fun m hm => (members m hm).2.2.2) (fun m hm => (members m hm).2.2.1) minres wanted, ?_⟩
  obtain ⟨device, others, saved⟩ := saveAll k.members distinct s fun m hm => ⟨(members m hm).1, (members m hm).2.1⟩
  have task (j : Nat) : (forEach k.members saveCtx s).task j = s.task j := congrArg (fun l => tget l j ({} : Task)) device.tasks
  refine ⟨device.mem, ?_, fun j hj => ?_, others, fun m hm => ?_⟩
  · have placed' : ((forEach k.members saveCtx s).task tid).phase = .placed := by rw [task, placed]
    refine (modTask_task ..).trans ((if_pos rfl).trans ?_)
    rw [if_pos placed', task, device.gtime]
  · exact (modTask_task ..).trans ((if_neg hj).trans (task j))
  · obtain ⟨a, b, c, d, im, image, pad⟩ := saved m hm
    refine ⟨a, b, c, im, image, fun i => ?_⟩
    rw [pad, readByte_sliceBytes]
    rfl
end

section
/-! SUPPORT. Launch descriptors and task records as the dispatcher reads them (R20 to R22, R317 to R321, R363). -/

namespace Sys2Proof.Claim
open Sys2Proof.Machine

/-! ### Launches (R22, R363) -/

variable {s t : State} {f c : Nat}

theorem modOwner_self (f : Nat) (g : Owner → Owner) (s : State) : (modOwner f g s).owner f = g (s.owner f) :=
  (modOwner_owner ..).trans (if_pos rfl)

theorem modOwner_other {x : Nat} (hx : x ≠ f) (g : Owner → Owner) (s : State) : (modOwner f g s).owner x = s.owner x :=
  (modOwner_owner ..).trans (if_neg hx)

/-- R22: the check of a descriptor. -/
def descriptorBad (d : BitVec 256) (c : Nat) : Bool :=
  decide (bits d 192 64 ≠ 0) || decide (bits d 48 16 ≠ 0) || decide (bits d 2 30 ≠ 0) ||
    decide (bits d 32 16 = 0) || decide (bits d 64 64 % 128 ≠ 0) || decide (bits d 0 2 ≠ c)

theorem descriptorBad_iff (d : BitVec 256) (c : Nat) : descriptorBad d c = true ↔ ¬DescriptorOk d c := by
  simp only [descriptorBad, DescriptorOk, Bool.or_eq_true, decide_eq_true_eq]
  omega

/-- R363: QHEAD after a descriptor is read. -/
def nextHead (c : Nat) (o : Owner) : Owner := { o with qhead := tset 0 o.qhead c ((tget o.qhead c 0 + 1) % 0x100000000) }

/-- R2: a field as a quotient and a remainder. -/
theorem bits_eq {w : Nat} (x : BitVec w) (lo n : Nat) : bits x lo n = x.toNat / 2 ^ lo % 2 ^ n := by
  rw [bits, BitVec.extractLsb'_toNat, Nat.shiftRight_eq_div_pow]

/-- R22: the launch of a descriptor. -/
def launchOf (f c : Nat) (d : BitVec 256) (o : Owner) : Launch :=
  { vf := f, cls := c, budget := bits d 128 64, tasks := bits d 64 64, ntask := bits d 32 16, asid := bits o.lasid 0 16 }

/-- R22, R317, R363: the next descriptor is rejected, or becomes a launch. -/
def rejectLaunch (f c : Nat) (s : State) : State := addRec f { kind := 1, cls := c } (modOwner f (nextHead c) s)
def startLaunch (f c : Nat) (s : State) : State :=
  modOwner f (fun o => { o with reading := tput o.reading c (some s.nextId) })
    (modLaunch s.nextId (fun _ => launchOf f c (descriptor s f c) (s.owner f)) { modOwner f (nextHead c) s with nextId := s.nextId + 1 })

/-- R22, R317, R363: what reading a descriptor does, where one is to be read. -/
theorem exec_launchRead (hf : f < 64) (hc : c < 4) (enabled : (qcfgOf (s.owner f) c).getLsbD 63 = true)
    (some_ : tget (s.owner f).qtail c 0 ≠ tget (s.owner f).qhead c 0) (done : tget (s.owner f).reading c none = none)
    (stays : (s.owner f).migrating = false) :
    exec (.launchRead f c) s = .next (if descriptorBad (descriptor s f c) c then rejectLaunch f c s else startLaunch f c s) := by
  refine congrArg Host.Outcome.next ((if_neg ?_).trans rfl)
  rintro (h | h | h | h | h | h)
  · exact absurd hf (Nat.not_lt.2 h)
  · exact absurd hc (Nat.not_lt.2 h)
  · rw [enabled] at h
    cases h
  · exact some_ h
  · rw [done] at h
    cases h
  · rw [stays] at h
    cases h

theorem exec_launchRead_not (none : (qcfgOf (s.owner f) c).getLsbD 63 = false ∨ tget (s.owner f).qtail c 0 = tget (s.owner f).qhead c 0 ∨
    (tget (s.owner f).reading c none).isSome = true ∨ (s.owner f).migrating = true) : exec (.launchRead f c) s = .next s := by
  refine congrArg Host.Outcome.next (if_pos (.inr (.inr ?_)))
  rw [Bool.not_eq_true']
  exact none

theorem rejectLaunch_self (f c : Nat) (s : State) :
    (rejectLaunch f c s).owner f = { nextHead c (s.owner f) with recs := (s.owner f).recs ++ [{ kind := 1, cls := c }] } := by
  unfold rejectLaunch addRec
  rw [modOwner_self, modOwner_self]
  rfl

theorem startLaunch_self (f c : Nat) (s : State) : (startLaunch f c s).owner f =
    { nextHead c (s.owner f) with reading := tput (s.owner f).reading c (some s.nextId) } := by
  unfold startLaunch
  rw [modOwner_self, modLaunch_owner]
  exact congrArg (fun o : Owner => { o with reading := tput o.reading c (some s.nextId) }) (modOwner_self ..)

theorem startLaunch_launch (f c : Nat) (s : State) (j : Nat) :
    (startLaunch f c s).launch j = if j = s.nextId then launchOf f c (descriptor s f c) (s.owner f) else s.launch j := by
  unfold startLaunch
  rw [modOwner_launch, modLaunch_launch]
  rfl

theorem nextHead_qhead (c : Nat) (o : Owner) : tget (nextHead c o).qhead c 0 = (tget o.qhead c 0 + 1) % 2 ^ 32 :=
  (tget_tset ..).trans (if_pos rfl)

end Sys2Proof.Claim
end

section
open Sys2Proof Sys2Proof.Machine Sys2Proof.Claim

theorem Sys2Proof.Claim.launchReading : Claim.LaunchReading := by
  unfold Claim.LaunchReading
  intro s f c hf hc
  refine ⟨fun enabled some_ done stays => ⟨fun ok => ⟨startLaunch f c s, ?_, rfl, rfl, fun j => ?_, ?_, ?_, ?_, fun x hx => ?_⟩,
    fun bad => ⟨rejectLaunch f c s, ?_, ⟨rfl, ?_, fun x hx => ?_⟩, ?_⟩⟩, exec_launchRead_not⟩
  · rw [exec_launchRead hf hc enabled some_ done stays, if_neg fun e => (descriptorBad_iff _ _).1 e ok]
  · rw [startLaunch_launch]
    unfold launchOf
    rw [bits_eq (s.owner f).lasid, pow_zero, Nat.div_one]
    rfl
  · rw [startLaunch_self]
    rfl
  · rw [startLaunch_self]
    exact nextHead_qhead c _
  · rw [startLaunch_self]
    exact (tget_tput ..).trans (if_pos rfl)
  · exact (modOwner_other hx ..).trans (modOwner_other hx ..)
  · rw [exec_launchRead hf hc enabled some_ done stays, if_pos ((descriptorBad_iff _ _).2 bad)]
  · rw [rejectLaunch_self]
    rfl
  · exact (modOwner_other hx ..).trans (modOwner_other hx ..)
  · rw [rejectLaunch_self]
    exact nextHead_qhead c _

end

section
namespace Sys2Proof.Claim
open Sys2Proof.Machine

/-! ### Reads by the dispatcher change banks only (R68, R344, R348) -/

variable {s t u : State} {f c l : Nat} {d : BitVec 1024}

/-- Only banks may differ. -/
def OnlyBanks (s t : State) : Prop := ∃ bs, t = { s with banks := bs }

theorem OnlyBanks.refl (s : State) : OnlyBanks s s := ⟨s.banks, rfl⟩

theorem OnlyBanks.trans (a : OnlyBanks s t) (b : OnlyBanks t u) : OnlyBanks s u := by
  obtain ⟨_, rfl⟩ := a
  obtain ⟨bs, rfl⟩ := b
  exact ⟨bs, rfl⟩

theorem OnlyBanks.readCol (g col src : Nat) (s : State) : OnlyBanks s (readCol g col src s).2 := ⟨_, rfl⟩

/-- Columns read one after another, as a walk and the reading of a record do. -/
theorem OnlyBanks.readCols (k : Nat) (js : List Nat) (q : List Byte × Bool × State) :
    OnlyBanks q.2.2 (js.foldl (fun (q : List Byte × Bool × State) j =>
      let (r, s) := Machine.readCol (k / 0x800000) (k % 0x800000 / 32 + j) 1 q.2.2
      (q.1 ++ r.bytes, q.2.1 || r.unc, s)) q).2.2 := by
  induction js generalizing q with
  | nil => exact .refl _
  | cons j js ih => exact (OnlyBanks.readCol ..).trans (ih _)

theorem OnlyBanks.probe (fuel i h base il ln asid va : Nat) (s : State) :
    OnlyBanks s (probe none fuel i h base il ln asid va s).2 := by
  induction fuel generalizing i s with
  | zero => exact .refl s
  | succ fuel ih =>
    unfold Machine.probe
    dsimp only
    have read := OnlyBanks.readCols (pageToPhys (128 * ((h + i) % 2 ^ ln)) base il) (List.range 4) ([], false, s)
    split
    · exact .refl s
    · split
      · exact read
      · split
        · exact read
        · split
          · exact read
          · exact read.trans (ih ..)

theorem OnlyBanks.walk (p asid va : Nat) (s : State) : OnlyBanks s (walk p asid va s).2 := by
  unfold Machine.walk walkBy
  dsimp only
  split
  · exact .refl s
  · exact .probe ..

theorem OnlyBanks.of_walk {p asid va : Nat} {r : Found} (walked : Machine.walk p asid va s = (r, t)) : OnlyBanks s t := by
  have banks := OnlyBanks.walk p asid va s
  rwa [walked] at banks

theorem OnlyBanks.readRecord (p asid va : Nat) (s : State) : OnlyBanks s (readRecord p asid va s).2 := by
  have walked := OnlyBanks.walk p asid va s
  unfold Machine.readRecord
  split
  · next e t eq =>
    rw [eq] at walked
    split
    · exact walked
    · dsimp only
      split
      · exact walked
      · exact walked.trans (.readCols ..)
  · next eq =>
    rw [eq] at walked
    exact walked

/-! ### Tiles (R20, R21) -/

theorem mem_tilesOf (a : List (Nat × Nat)) (t : Nat) : t ∈ tilesOf a ↔ hasTile a t = true := by
  simp only [tilesOf, List.mem_dedup, List.mem_flatMap, stride, List.mem_map, List.mem_range, hasTile, List.any_eq_true,
    Bool.and_eq_true, decide_eq_true_eq]
  refine exists_congr fun r => and_congr_right fun _ => ⟨fun ⟨i, hi, e⟩ => by omega, fun h => ⟨t - r.1, by omega, by omega⟩⟩

/-- R21: two sets that hold one tile share it. -/
theorem meet_of_hasTile {a b : List (Nat × Nat)} {t : Nat} (ha : hasTile a t = true) (hb : hasTile b t = true) : Meet a b := by
  simp only [hasTile, List.any_eq_true, Bool.and_eq_true, decide_eq_true_eq] at ha hb
  obtain ⟨x, hx, _⟩ := ha
  obtain ⟨y, hy, _⟩ := hb
  exact ⟨x, hx, y, hy, by omega, by omega⟩

theorem hasTile_of_meet {a : List (Nat × Nat)} {t : Nat} (h : Meet a [(t, 1)]) : hasTile a t = true := by
  obtain ⟨x, hx, y, hy, _⟩ := h
  obtain rfl := List.mem_singleton.1 hy
  simp only [hasTile, List.any_eq_true, Bool.and_eq_true, decide_eq_true_eq]
  exact ⟨x, hx, by omega, by omega⟩

theorem mem_inFlight (s : State) (v n : Nat) (x : Nat × Task) : x ∈ inFlight s v n ↔ Earlier s v n x := by
  simp only [inFlight, List.mem_filter, Bool.and_eq_true, decide_eq_true_eq, Bool.not_eq_true', completed, decide_eq_false_iff_not,
    Earlier, and_assoc]

/-- R20: a range of a record that passes the check. -/
theorem rangeOf_bits (d : BitVec 1024) (i : Nat) (small : bits d (256 + 64 * i) 64 / 2 ^ 57 = 0) :
    rangeOf (bits d (256 + 64 * i) 64) = tileRange d i := by
  rw [bits_eq] at small
  have shift : d.toNat / 2 ^ (272 + 64 * i) = d.toNat / 2 ^ (256 + 64 * i) / 2 ^ 16 := by
    rw [Nat.div_div_eq_div_mul, ← pow_add]
    congr 2
    omega
  simp only [rangeOf, tileRange, bits_eq, shift, Prod.mk.injEq]
  generalize d.toNat / 2 ^ (256 + 64 * i) = y at *
  omega

theorem recordBad_ranges (ok : recordBad d = false) (i : Nat) (hi : i < 8) : bits d (256 + 64 * i) 64 / 2 ^ 57 = 0 := by
  by_contra big
  rw [← Bool.not_eq_true] at ok
  refine ok (Bool.or_eq_true_iff.2 (.inr (List.any_eq_true.2 ⟨i, List.mem_range.2 hi, ?_⟩)))
  exact Bool.or_eq_true_iff.2 (.inl (decide_eq_true big))

theorem rangesOf_tileSet (lo : Nat) (ok : ∀ i, i < 4 → bits d (256 + 64 * (lo + i)) 64 / 2 ^ 57 = 0) :
    rangesOf d (256 + 64 * lo) = tileSet d lo := by
  have range (i : Nat) (hi : i < 4) : rangeOf (bits d (256 + 64 * lo + 64 * i) 64) = tileRange d (lo + i) := by
    rw [← rangeOf_bits d (lo + i) (ok i hi)]
    congr 2
    omega
  unfold rangesOf tileSet
  congr 1
  simp only [List.range_succ, List.range_zero, List.nil_append, List.cons_append, List.map_cons, List.map_nil]
  rw [range 0 (by omega), range 1 (by omega), range 2 (by omega), range 3 (by omega)]
  rfl

/-! ### Records (R20, R317 to R321) -/

theorem takeRecord_unreadable {asid : BitVec 16} {va : Nat} (read : readRecord (vfPart (s.owner f)) asid.toNat va s = (none, t)) :
    takeRecord f l asid va s = (true, addRec f { kind := 1, launch := some l } t) := by
  unfold takeRecord
  rw [read]

theorem takeRecord_bad {asid : BitVec 16} {va : Nat} (read : readRecord (vfPart (s.owner f)) asid.toNat va s = (some d, t))
    (bad : recordBad d = true) :
    takeRecord f l asid va s = (true, addRec f { kind := 1, launch := some l, tag := BitVec.ofNat 64 (bits d 768 64) } t) := by
  unfold takeRecord
  rw [read]
  exact if_pos bad

theorem takeRecord_full {asid : BitVec 16} {va : Nat} (read : readRecord (vfPart (s.owner f)) asid.toNat va s = (some d, t))
    (ok : recordBad d = false) (full : quotaFree t f = false) : takeRecord f l asid va s = (false, t) := by
  unfold takeRecord
  rw [read]
  exact (if_neg (by rw [ok]; decide)).trans (if_neg (by rw [full]; decide))

theorem takeRecord_enqueue {asid : BitVec 16} {va : Nat} (read : readRecord (vfPart (s.owner f)) asid.toNat va s = (some d, t))
    (ok : recordBad d = false) (free : quotaFree t f = true) : takeRecord f l asid va s = (true, enqueue f l asid d t) := by
  unfold takeRecord
  rw [read]
  exact (if_neg (by rw [ok]; decide)).trans (if_pos free)

/-- R317: the launch whose record has been taken goes on to the next one. -/
def nextRecord (l : Nat) (s : State) : State := modLaunch l (fun k => { k with next := k.next + 1 }) s

/-- R317: a record of the launch that is read, which is not its last: taken, or left where there is no quota. -/
theorem exec_taskEnqueue_taken (idle : cool s = true) (reading : tget (s.owner f).reading c none = some l)
    (more : (s.launch l).next + 1 < (s.launch l).ntask)
    (taken : takeRecord f l (BitVec.ofNat 16 (s.launch l).asid) ((s.launch l).tasks + 128 * (s.launch l).next) s = (true, t)) :
    exec (.taskEnqueue f c) s = .next (nextRecord l t) := by
  refine congrArg Host.Outcome.next ((if_pos idle).trans ?_)
  simp only [reading]
  rw [if_neg (by omega), taken]
  exact if_pos more

theorem exec_taskEnqueue_left (idle : cool s = true) (reading : tget (s.owner f).reading c none = some l)
    (more : (s.launch l).next + 1 < (s.launch l).ntask)
    (left : takeRecord f l (BitVec.ofNat 16 (s.launch l).asid) ((s.launch l).tasks + 128 * (s.launch l).next) s = (false, t)) :
    exec (.taskEnqueue f c) s = .next t := by
  refine congrArg Host.Outcome.next ((if_pos idle).trans ?_)
  simp only [reading]
  rw [if_neg (by omega), left]
  rfl

theorem nextRecord_task (j : Nat) : (nextRecord l s).task j = s.task j := rfl

theorem nextRecord_owner (j : Nat) : (nextRecord l s).owner j = s.owner j := rfl

theorem nextRecord_version (j : Nat) : (nextRecord l s).version j = s.version j := rfl

theorem nextRecord_launch (same : t.launches = s.launches) (j : Nat) :
    (nextRecord l t).launch j = if j = l then { s.launch l with next := (s.launch l).next + 1 } else s.launch j := by
  have launches (j : Nat) : t.launch j = s.launch j := congrArg (fun t => tget t j ({} : Launch)) same
  unfold nextRecord
  rw [modLaunch_launch, launches, launches]

theorem modTask_self (n : Nat) (g : Task → Task) (s : State) : (modTask n g s).task n = g (s.task n) :=
  (modTask_task ..).trans (if_pos rfl)

theorem modTask_other {n j : Nat} (hj : j ≠ n) (g : Task → Task) (s : State) : (modTask n g s).task j = s.task j :=
  (modTask_task ..).trans (if_neg hj)

theorem modVersion_self (n : Nat) (g : Version → Version) (s : State) : (modVersion n g s).version n = g (s.version n) :=
  (modVersion_version ..).trans (if_pos rfl)

theorem addRec_self (f : Nat) (r : Rec) (s : State) :
    (addRec f r s).owner f = { s.owner f with recs := (s.owner f).recs ++ [r] } := modOwner_self ..

/-- R317 to R321: the task of a record, before its tiles are looked at. -/
def taskOf (s : State) (f l : Nat) (asid : BitVec 16) (d : BitVec 1024) : Task :=
  { launch := l, part := vfPart (s.owner f), entry := w64 (bits d 64 64), arg := w64 (bits d 128 64), tag := w64 (bits d 768 64),
    asid := asid, n := bits d 0 4, grp := d.getLsbD 8, rd := rangesOf d 256, wr := rangesOf d 512, enq := s.nextId
    holdsSlot := true, holdsDep := true }

/-- R321: with no version and no writer in flight, the mapped frame is current. -/
theorem currentVersion_none {v asid tile : Nat} {fl : List (Nat × Task)} (fresh : s.versions = [])
    (unwritten : ∀ x ∈ fl, hasTile x.2.wr tile = false) : currentVersion s v asid fl tile = none := by
  have none : (fl.filter fun p => hasTile p.2.wr tile && decide (p.2.asid.toNat = asid)) = [] :=
    List.filter_eq_nil_iff.2 fun x hx => by rw [unwritten x hx]; nofun
  unfold currentVersion openVersions
  rw [none, fresh]
  rfl

/-- R317 to R321: a record enters as a waiting task whose written tiles are then renamed one by one. -/
theorem enqueue_eq {asid : BitVec 16} (fresh : s.versions = [])
    (unwritten : ∀ x ∈ inFlight s f s.nextId, ∀ tile, hasTile (rangesOf d 256) tile = true → hasTile x.2.wr tile = false) :
    enqueue f l asid d s = (tilesOf (rangesOf d 512)).foldl (fun u tile => renameTile f s.nextId tile (inFlight s f s.nextId) u)
      (modTask s.nextId (fun _ => taskOf s f l asid d) { s with nextId := s.nextId + 1 }) := by
  have none : ((tilesOf (rangesOf d 256)).filterMap fun tile =>
      (currentVersion s f asid.toNat (inFlight s f s.nextId) tile).map fun w => (tile, w)) = [] := by
    refine List.filterMap_eq_nil_iff.2 fun tile ht => ?_
    rw [currentVersion_none fresh fun x hx => unwritten x hx tile ((mem_tilesOf ..).1 ht)]
    rfl
  have installed : installAll s = s := by
    unfold installAll
    rw [fresh]
    rfl
  unfold enqueue
  simp only [installed, none]
  rfl

/-- R20: the ranges of a record that passes the check. -/
theorem taskOf_eq (ok : recordBad d = false) (a : Nat) : taskOf s f l (BitVec.ofNat 16 a) d =
    { launch := l, part := vfPart (s.owner f), entry := BitVec.ofNat 64 (bits d 64 64), arg := BitVec.ofNat 64 (bits d 128 64)
      tag := BitVec.ofNat 64 (bits d 768 64), asid := BitVec.ofNat 16 (a % 65536), n := bits d 0 4, grp := d.getLsbD 8
      rd := tileSet d 0, wr := tileSet d 4, enq := s.nextId, holdsSlot := true, holdsDep := true } := by
  have rd : rangesOf d 256 = tileSet d 0 := rangesOf_tileSet 0 fun i hi => recordBad_ranges ok (0 + i) (by omega)
  have wr : rangesOf d 512 = tileSet d 4 := rangesOf_tileSet 4 fun i hi => recordBad_ranges ok (4 + i) (by omega)
  have space : BitVec.ofNat 16 (a % 65536) = BitVec.ofNat 16 a := BitVec.eq_of_toNat_eq (by simp)
  rw [space, ← rd, ← wr]
  rfl

theorem renameTile_alone {tid tile : Nat} {fl : List (Nat × Task)}
    (alone : ∀ x ∈ fl, hasTile x.2.rd tile = false ∧ hasTile x.2.wr tile = false) : renameTile f tid tile fl s = s := by
  have none : (fl.filter fun p => hasTile p.2.rd tile || hasTile p.2.wr tile) = [] :=
    List.filter_eq_nil_iff.2 fun x hx => by rw [(alone x hx).1, (alone x hx).2]; decide
  unfold renameTile
  simp only [none]
  rfl

/-- R319, R320: a renamed tile that the task does not read: its version takes a frame of the pool and has no source. -/
def renamed (f tid tile i : Nat) (e : BitVec 128) (asid : Nat) (s : State) : State :=
  modTask tid (fun k => { k with own := k.own ++ [(tile, s.nextId)] })
    (modVersion s.nextId (fun _ => { vf := f, tile := tile, asid := asid, writer := tid, frame := frameBase f (s.owner f) i
                                     il := pteIl e, gr := pteGr e, slot := i })
      (modOwner f (fun o => { o with used := o.used ++ [i] }) { s with nextId := s.nextId + 1 }))

theorem renamed_task (f tid tile i : Nat) (e : BitVec 128) (asid : Nat) (s : State) :
    (renamed f tid tile i e asid s).task tid = { s.task tid with own := (s.task tid).own ++ [(tile, s.nextId)] } := modTask_self ..

theorem renamed_owner (f tid tile i : Nat) (e : BitVec 128) (asid : Nat) (s : State) :
    (renamed f tid tile i e asid s).owner f = { s.owner f with used := (s.owner f).used ++ [i] } := by
  unfold renamed
  rw [modTask_owner, modVersion_owner, modOwner_self]
  rfl

theorem renamed_version (f tid tile i : Nat) (e : BitVec 128) (asid : Nat) (s : State) :
    (renamed f tid tile i e asid s).version s.nextId =
      { vf := f, tile := tile, asid := asid, writer := tid, frame := frameBase f (s.owner f) i, il := pteIl e, gr := pteGr e, slot := i } := by
  unfold renamed
  rw [modTask_version, modVersion_self]

theorem renameTile_renamed {tid tile i : Nat} {e : BitVec 128} {fl : List (Nat × Task)} {x : Nat × Task} (hx : x ∈ fl)
    (meets : hasTile x.2.rd tile = true ∨ hasTile x.2.wr tile = true) (unread : hasTile (s.task tid).rd tile = false)
    (walked : walk (s.task tid).part (s.task tid).asid.toNat (tile * 0x10000) s = (.entry e, t))
    (well : malformed t (s.task tid).part e = false) (small : pteBig e = false) (device : e.getLsbD 47 = false)
    (frame : freeFrame t f (s.task tid).part e = some i) :
    renameTile f tid tile fl s = renamed f tid tile i e (s.task tid).asid.toNat t := by
  have against : (fl.filter fun p => hasTile p.2.rd tile || hasTile p.2.wr tile).isEmpty = false := by
    rw [List.isEmpty_eq_false_iff_exists_mem]
    exact ⟨x, List.mem_filter.2 ⟨hx, by simpa using meets⟩⟩
  unfold renameTile
  simp only [against, walked, well, small, device, frame, unread]
  rfl

/-- R319: tiles that no earlier task in flight shares are not renamed. -/
theorem renameTiles_alone {tid : Nat} {fl : List (Nat × Task)} {tiles : List Nat}
    (alone : ∀ tile ∈ tiles, ∀ x ∈ fl, hasTile x.2.rd tile = false ∧ hasTile x.2.wr tile = false) :
    tiles.foldl (fun u tile => renameTile f tid tile fl u) s = s :=
  List.foldlRecOn (motive := (· = s)) tiles _ rfl fun u same tile ht => by
    rw [same]
    exact renameTile_alone (alone tile ht)

theorem tilesOf_single (tile : Nat) : tilesOf [(tile, 1)] = [tile] := by simp [tilesOf, stride]

/-- R319: a record that shares no tile with an earlier task in flight becomes a waiting task and no more. -/
theorem enqueue_alone {asid : BitVec 16} (fresh : s.versions = [])
    (apart : ∀ x, Earlier s f s.nextId x →
      ¬Meet x.2.wr (rangesOf d 256) ∧ ¬Meet x.2.rd (rangesOf d 512) ∧ ¬Meet x.2.wr (rangesOf d 512)) :
    enqueue f l asid d s = modTask s.nextId (fun _ => taskOf s f l asid d) { s with nextId := s.nextId + 1 } := by
  have apart (x : Nat × Task) (hx : x ∈ inFlight s f s.nextId) := apart x ((mem_inFlight ..).1 hx)
  have no {a b : List (Nat × Nat)} {tile : Nat} (not : ¬Meet a b) (hb : hasTile b tile = true) : hasTile a tile = false :=
    eq_false_of_ne_true fun ha => not (meet_of_hasTile ha hb)
  rw [enqueue_eq fresh fun x hx _ ht => no (apart x hx).1 ht]
  exact renameTiles_alone fun tile ht x hx =>
    have written := (mem_tilesOf ..).1 ht
    ⟨no (apart x hx).2.1 written, no (apart x hx).2.2 written⟩

/-- R319: a record that writes one tile, which an earlier task in flight shares, and reads none. -/
theorem enqueue_renamed {asid : BitVec 16} {tile i : Nat} {e : BitVec 128} {x : Nat × Task} (fresh : s.versions = [])
    (wr : rangesOf d 512 = [(tile, 1)]) (rd : rangesOf d 256 = []) (earlier : Earlier s f s.nextId x)
    (meets : Meet x.2.wr [(tile, 1)] ∨ Meet x.2.rd [(tile, 1)])
    (walked : walk (vfPart (s.owner f)) asid.toNat (tile * 0x10000)
      (modTask s.nextId (fun _ => taskOf s f l asid d) { s with nextId := s.nextId + 1 }) = (.entry e, t))
    (well : malformed t (vfPart (s.owner f)) e = false) (small : pteBig e = false) (device : e.getLsbD 47 = false)
    (frame : freeFrame t f (vfPart (s.owner f)) e = some i) :
    enqueue f l asid d s = renamed f s.nextId tile i e asid.toNat t := by
  have task : (modTask s.nextId (fun _ => taskOf s f l asid d) { s with nextId := s.nextId + 1 }).task s.nextId =
      taskOf s f l asid d := modTask_self ..
  have unread (tile : Nat) (ht : hasTile (rangesOf d 256) tile = true) : False := by
    rw [rd] at ht
    nomatch ht
  rw [enqueue_eq fresh fun _ _ tile ht => (unread tile ht).elim, wr, tilesOf_single]
  refine (renameTile_renamed (t := t) (i := i) ((mem_inFlight ..).2 earlier) (meets.symm.imp hasTile_of_meet hasTile_of_meet) ?_ ?_ ?_ small device ?_).trans
    ?_
  · rw [task]
    exact congrArg (hasTile · tile) rd
  · rw [task]
    exact walked
  · rw [task]
    exact well
  · rw [task]
    exact frame
  · rw [task]
    rfl

end Sys2Proof.Claim
end

section
open Sys2Proof Sys2Proof.Machine Sys2Proof.Claim

theorem Sys2Proof.Claim.taskReading : Claim.TaskReading := by
  unfold Claim.TaskReading
  intro s s1 f c l d o la p asid advanced idle reading more fresh read
  have read' : readRecord (vfPart (s.owner f)) (BitVec.ofNat 16 la.asid).toNat (la.tasks + 128 * la.next) s = (d, s1) := by
    rw [BitVec.toNat_ofNat]
    exact read
  have banks := OnlyBanks.readRecord p asid (la.tasks + 128 * la.next) s
  rw [read] at banks
  obtain ⟨bs, rfl⟩ := banks
  have advance (u : State) (hu : u.launches = s.launches) : advanced (nextRecord l u) :=
    ⟨(nextRecord_launch hu l).trans (if_pos rfl), fun j hj => (nextRecord_launch hu j).trans (if_neg hj)⟩
  refine ⟨fun none => ?_, fun w some_ => ⟨fun bad => ?_, fun ok full => ?_, fun ok free => ?_⟩⟩
  · subst none
    exact ⟨_, exec_taskEnqueue_taken idle reading more (takeRecord_unreadable read'), rfl, advance _ rfl, addRec_self ..⟩
  · subst some_
    exact ⟨_, exec_taskEnqueue_taken idle reading more (takeRecord_bad read' bad), rfl, advance _ rfl, addRec_self ..⟩
  · subst some_
    exact ⟨_, exec_taskEnqueue_left idle reading more (takeRecord_full read' ok full), rfl⟩
  · subst some_
    have run := exec_taskEnqueue_taken (c := c) idle reading more (takeRecord_enqueue read' ok free)
    have task := taskOf_eq (s := { s with banks := bs }) (f := f) (l := l) ok la.asid
    have reads : rangesOf w 256 = tileSet w 0 := congrArg Task.rd task
    have writes : rangesOf w 512 = tileSet w 4 := congrArg Task.wr task
    refine ⟨fun apart => ?_, fun tile x e i s2 wr rd earlier meets walked well small device frame => ?_⟩
    · rw [enqueue_alone (s := { s with banks := bs }) fresh (by rw [reads, writes]; exact apart)] at run
      refine ⟨_, run, rfl, advance _ rfl, rfl, ?_, fun j hj => (nextRecord_task j).trans (modTask_other hj ..)⟩
      exact (nextRecord_task _).trans ((modTask_self ..).trans task)
    · have toNat : (BitVec.ofNat 16 la.asid).toNat = asid := BitVec.toNat_ofNat ..
      have walked' : walk (vfPart (s.owner f)) (BitVec.ofNat 16 la.asid).toNat (tile * 0x10000)
          (modTask s.nextId (fun _ => taskOf { s with banks := bs } f l (BitVec.ofNat 16 la.asid) w)
            { s with banks := bs, nextId := s.nextId + 1 }) = (.entry e, s2) := by
        rw [toNat, task]
        exact walked
      obtain ⟨bs', rfl⟩ := OnlyBanks.of_walk walked
      dsimp only at wr rd
      rw [enqueue_renamed (s := { s with banks := bs }) fresh (writes.trans wr) (reads.trans rd) earlier (by rw [wr] at meets; exact meets) walked'
        well small device frame, toNat] at run
      refine ⟨_, run, rfl, advance _ rfl, rfl, ?_, (nextRecord_owner _).trans (renamed_owner ..),
        (nextRecord_version _).trans (renamed_version ..)⟩
      refine (nextRecord_task _).trans ((renamed_task ..).trans ?_)
      refine congrArg (fun k : Task => { k with own := k.own ++ [(tile, s.nextId + 1)] }) ?_
      exact (tget_tput ..).trans (if_pos rfl)

/-- Settles O54: the launch of a descriptor that passes, and the task of a record within quota. -/
theorem launchesAndTasks : Obligations.LaunchesAndTasks := by
  unfold Obligations.LaunchesAndTasks
  exact ⟨Claim.launchReading, Claim.taskReading⟩
end

section
/-! SUPPORT. Placement of new tasks (R325, R333). -/

namespace Sys2Proof.Claim
open Sys2Proof.Machine

variable {s : State} {k : Task} {free cores : List Nat} {n : Nat}

/-- R325: the cores that are picked are taken of a part of the free ones. -/
theorem pickCores_some {grp : Bool} (h : pickCores free n grp = some cores) :
    cores.length = n ∧ cores.Sublist free ∧ (grp = false → cores = free.take n) ∧
      (grp = true → cores = (free.filter (· < 4)).take n ∨
        ((free.filter (· < 4)).length < n ∧ cores = (free.filter (4 ≤ ·)).take n)) := by
  unfold pickCores at h
  dsimp only at h
  split at h
  · next grouped =>
    split at h
    · next low =>
      obtain rfl := Option.some.inj h
      exact ⟨List.length_take_of_le low, (List.take_sublist ..).trans List.filter_sublist, by rw [grouped]; nofun, fun _ => .inl rfl⟩
    · next low =>
      split at h
      · next high =>
        obtain rfl := Option.some.inj h
        exact ⟨List.length_take_of_le high, (List.take_sublist ..).trans List.filter_sublist, by rw [grouped]; nofun,
          fun _ => .inr ⟨Nat.lt_of_not_le low, rfl⟩⟩
      · nomatch h
  · next single =>
    split at h
    · next enough =>
      obtain rfl := Option.some.inj h
      exact ⟨List.length_take_of_le enough, List.take_sublist .., fun _ => rfl, fun g => absurd g single⟩
    · nomatch h

/-- R325, R333: the free cores of a cluster on which a partition has a save slot free. -/
def openCores (s : State) (p q : Nat) : List Nat :=
  (freeCores s q).filter fun c => usedSlots s (q * 8 + c) p < slotCount s (q * 8 + c) p

theorem mem_openCores_lt {p q c : Nat} (h : c ∈ openCores s p q) : c < 8 :=
  List.mem_range.1 (List.mem_filter.1 (List.mem_filter.1 h).1).1

theorem openCores_eq (s : State) (p q : Nat) : openCores s p q =
    (freeCores s q).filter fun c => usedSlots s (q * 8 + c) p < if (s.cluster q).lent = some p then 1 else 4 := by
  refine List.filter_congr fun c hc => ?_
  have small := List.mem_range.1 (List.mem_filter.1 hc).1
  have cluster : pcnOf (q * 8 + c) = q := by
    unfold pcnOf
    omega
  unfold slotCount
  rw [cluster]

/-- R325: the better of the place found so far and the one at the next VCN. -/
def bestOf (s : State) (k : Task) (best : Option (Nat × Nat × List Nat)) (v : Nat) : Option (Nat × Nat × List Nat) :=
  match clusterAt (s.part k.part) v with
  | none => best
  | some q => match pickCores (openCores s k.part q) k.n k.grp with
    | none => best
    | some cores => match best with
      | none => some (v, q, cores)
      | some (_, q', _) => if (freeCores s q).length < (freeCores s q').length then some (v, q, cores) else best

theorem placeNew_eq (s : State) (k : Task) : placeNew s k = (List.range (s.part k.part).count).foldl (bestOf s k) none := rfl

/-- R325: what the search has found below a VCN. -/
def BestBelow (s : State) (k : Task) (m : Nat) : Option (Nat × Nat × List Nat) → Prop
  | none => ∀ v q, v < m → clusterAt (s.part k.part) v = some q → pickCores (openCores s k.part q) k.n k.grp = none
  | some (v, q, cores) => v < m ∧ clusterAt (s.part k.part) v = some q ∧ pickCores (openCores s k.part q) k.n k.grp = some cores ∧
      ∀ v' q', v' < m → clusterAt (s.part k.part) v' = some q' → pickCores (openCores s k.part q') k.n k.grp ≠ none →
        (freeCores s q).length < (freeCores s q').length ∨ ((freeCores s q).length = (freeCores s q').length ∧ v ≤ v')

/-- A VCN that offers no place leaves what was found. -/
theorem BestBelow.skip {m : Nat} {best : Option (Nat × Nat × List Nat)} (h : BestBelow s k m best)
    (no : ∀ q, clusterAt (s.part k.part) m = some q → pickCores (openCores s k.part q) k.n k.grp = none) :
    BestBelow s k (m + 1) best := by
  match best with
  | none =>
    intro v q hv at_
    obtain old | rfl := Nat.lt_succ_iff_lt_or_eq.1 hv
    · exact h v q old at_
    · exact no q at_
  | some (v, q, cores) =>
    obtain ⟨hv, at_, pick, least⟩ := h
    refine ⟨hv.trans m.lt_succ_self, at_, pick, fun v' q' hv' at' can => ?_⟩
    obtain old | rfl := Nat.lt_succ_iff_lt_or_eq.1 hv'
    · exact least v' q' old at' can
    · exact absurd (no q' at') can

theorem BestBelow.bestOf {m : Nat} {best : Option (Nat × Nat × List Nat)} (h : BestBelow s k m best) :
    BestBelow s k (m + 1) (bestOf s k best m) := by
  unfold Claim.bestOf
  split
  · next none => exact h.skip fun q at_ => by rw [none] at at_; nomatch at_
  · next q at_ =>
    have at_unique {q' : Nat} (at' : clusterAt (s.part k.part) m = some q') : q' = q := Option.some.inj (at'.symm.trans at_)
    split
    · next no =>
      exact h.skip fun q' at' => by rw [at_unique at', no]
    · next cores pick =>
      match best with
      | none =>
        refine ⟨m.lt_succ_self, at_, pick, fun v' q' hv' at' can => ?_⟩
        obtain old | rfl := Nat.lt_succ_iff_lt_or_eq.1 hv'
        · exact absurd (h v' q' old at') can
        · rw [at_unique at']
          exact .inr ⟨rfl, le_rfl⟩
      | some (v, q0, cores0) =>
        obtain ⟨hv, at0, pick0, least⟩ := h
        dsimp only
        split
        · next fewer =>
          refine ⟨m.lt_succ_self, at_, pick, fun v' q' hv' at' can => ?_⟩
          obtain old | rfl := Nat.lt_succ_iff_lt_or_eq.1 hv'
          · have := least v' q' old at' can
            omega
          · rw [at_unique at']
            exact .inr ⟨rfl, le_rfl⟩
        · next more =>
          refine ⟨hv.trans m.lt_succ_self, at0, pick0, fun v' q' hv' at' can => ?_⟩
          obtain old | rfl := Nat.lt_succ_iff_lt_or_eq.1 hv'
          · exact least v' q' old at' can
          · rw [at_unique at']
            omega

theorem bestBelow_fold (s : State) (k : Task) (m : Nat) : BestBelow s k m ((List.range m).foldl (bestOf s k) none) := by
  induction m with
  | zero => exact fun _ _ h => absurd h (Nat.not_lt_zero _)
  | succ m ih =>
    rw [List.range_succ, List.foldl_append]
    exact ih.bestOf

/-- R325: what `placeNew` answers. -/
theorem placeNew_best {v q : Nat} (h : placeNew s k = some (v, q, cores)) :
    BestBelow s k (s.part k.part).count (some (v, q, cores)) := by
  rw [← h, placeNew_eq]
  exact bestBelow_fold ..

theorem placeNew_cores {v q : Nat} (h : placeNew s k = some (v, q, cores)) :
    cores.length = k.n ∧ cores.Nodup ∧ ∀ c ∈ cores, c < 8 := by
  obtain ⟨-, -, pick, -⟩ := placeNew_best h
  obtain ⟨length, sub, -⟩ := pickCores_some pick
  exact ⟨length, (sub.trans (List.filter_sublist.trans List.filter_sublist)).nodup List.nodup_range,
    fun c hc => mem_openCores_lt (sub.subset hc)⟩

theorem taskPlacement : Claim.TaskPlacement := by
  unfold Claim.TaskPlacement
  intro s k v q cores placed p free open_
  have openIs (x : Nat) : open_ x = openCores s k.part x := (openCores_eq s k.part x).symm
  obtain ⟨hv, at_, pick, least⟩ := placeNew_best placed
  obtain ⟨length, sub, single, grouped⟩ := pickCores_some pick
  rw [← openIs] at sub single grouped
  exact ⟨at_, hv, length, fun c hc => sub.subset hc, single, grouped, fun v' q' hv' at' can => least v' q' hv' at' (openIs q' ▸ can)⟩

end Sys2Proof.Claim
end

section
/-! SUPPORT. The choice among candidates (R323, R324). -/

namespace Sys2Proof.Claim
open Sys2Proof.Machine

variable {s t u : State} {k : Task} {p f c o fuel tid : Nat} {l : List Nat} {cand : List (Nat × Task)}

/-! ### Least keys (R323) -/

theorem lexLt_asymm {a b : List Nat} (h : lexLt a b = true) : lexLt b a = false := by
  induction a generalizing b with
  | nil =>
    cases b with
    | nil => nomatch h
    | cons => rfl
  | cons x a ih =>
    cases b with
    | nil => nomatch h
    | cons y b =>
      simp only [lexLt, Bool.or_eq_true, Bool.and_eq_true, decide_eq_true_eq] at h
      simp only [lexLt, Bool.or_eq_false_iff, Bool.and_eq_false_iff, decide_eq_false_iff_not]
      obtain less | ⟨rfl, less⟩ := h
      · exact ⟨by omega, .inl (by omega)⟩
      · exact ⟨lt_irrefl x, .inr (ih less)⟩

theorem leastBy_mem {α : Type} {key : α → List Nat} {l : List α} {a : α} (h : leastBy key l = some a) : a ∈ l := by
  induction l generalizing a with
  | nil => nomatch h
  | cons x r ih =>
    unfold leastBy at h
    split at h
    · obtain rfl := Option.some.inj h
      exact List.mem_cons_self
    · next b eq =>
      split at h
      · exact List.mem_cons_of_mem x (Option.some.inj h ▸ ih eq)
      · exact Option.some.inj h ▸ List.mem_cons_self

/-- An element whose key is below every other one is the least. -/
theorem leastBy_eq {α : Type} {key : α → List Nat} {l : List α} {a : α} (ha : a ∈ l)
    (least : ∀ b ∈ l, b ≠ a → lexLt (key a) (key b) = true) : leastBy key l = some a := by
  induction l with
  | nil => nomatch ha
  | cons x r ih =>
    have rest (b : α) (hb : b ∈ r) := least b (List.mem_cons_of_mem x hb)
    unfold leastBy
    by_cases hr : a ∈ r
    · rw [ih hr rest]
      dsimp only
      split
      · rfl
      · next not =>
        by_cases e : x = a
        · rw [e]
        · exact absurd (least x List.mem_cons_self e) not
    · obtain rfl : a = x := (List.mem_cons.1 ha).resolve_right hr
      split
      · rfl
      · next b eq =>
        have hb := leastBy_mem eq
        exact if_neg (by rw [lexLt_asymm (rest b hb fun e => hr (e ▸ hb))]; decide)

/-- R323: `Sooner` is the order of the keys. -/
theorem lexLt_ownKey {x y : Nat × Task} (h : Sooner x.2 y.2) : lexLt (ownKey x) (ownKey y) = true := by
  unfold ownKey
  obtain ⟨old, later⟩ | ⟨new, new', less⟩ := h
  · rw [if_neg old]
    split
    · simp [lexLt]
    · next old' =>
      have := later.resolve_left old'
      simpa [lexLt] using this
  · rw [if_pos new, if_pos new']
    simpa [lexLt] using less

theorem lexLt_older {x y : Task} (h : Older s x y) :
    lexLt [x.eligAt, (s.launch x.launch).vf, x.enq] [y.eligAt, (s.launch y.launch).vf, y.enq] = true := by
  unfold Older at h
  simpa [lexLt] using h

/-- Entries of a table with rising keys are known by their keys. -/
theorem eq_of_key {α : Type} {l : List (Nat × α)} (rising : l.Pairwise fun a b => a.1 < b.1) {a b : Nat × α} (ha : a ∈ l) (hb : b ∈ l)
    (same : a.1 = b.1) : a = b := by
  induction rising with
  | nil => nomatch ha
  | cons below _ ih =>
    obtain rfl | ha' := List.mem_cons.1 ha
    · obtain rfl | hb' := List.mem_cons.1 hb
      · rfl
      · exact absurd same (below _ hb').ne
    · obtain rfl | hb' := List.mem_cons.1 hb
      · exact absurd same (below _ ha').ne'
      · exact ih ha' hb'

theorem foldl_min_eq {l : List Nat} {b c : Nat} (below : c ≤ b) (least : ∀ x ∈ l, c ≤ x) (among : c = b ∨ c ∈ l) : l.foldl min b = c := by
  induction l generalizing b with
  | nil => exact (among.resolve_right List.not_mem_nil).symm
  | cons x l ih =>
    have hx := least x List.mem_cons_self
    refine ih (le_min below hx) (fun y hy => least y (List.mem_cons_of_mem x hy)) ?_
    obtain rfl | rfl | hl := among.imp_right List.mem_cons.1
    · exact .inl (min_eq_left hx).symm
    · exact .inl (min_eq_right below).symm
    · exact .inr hl

/-! ### Candidates of an owner in a class -/

/-- R323: the candidates of a class. -/
def inClass (s : State) (p c : Nat) : List (Nat × Task) := (candidates s p).filter fun x => classOf s x.2 = c

theorem FirstOf.least (rising : s.tasks.Pairwise fun a b => a.1 < b.1) (h : FirstOf s p f c tid k) :
    leastBy ownKey ((inClass s p c).filter fun x => (s.launch x.2.launch).vf = f) = some (tid, k) := by
  obtain ⟨among, owner, cls, sooner⟩ := h
  refine leastBy_eq (List.mem_filter.2 ⟨List.mem_filter.2 ⟨among, decide_eq_true cls⟩, decide_eq_true owner⟩) fun b hb other => ?_
  obtain ⟨hb, ownerB⟩ := List.mem_filter.1 hb
  obtain ⟨hb, clsB⟩ := List.mem_filter.1 hb
  refine lexLt_ownKey (sooner b hb (fun e => other ?_) (of_decide_eq_true ownerB) (of_decide_eq_true clsB))
  exact eq_of_key rising (List.mem_filter.1 hb).1 (List.mem_filter.1 among).1 e

theorem leastBy_none (no : ∀ x ∈ candidates s p, classOf s x.2 = c → (s.launch x.2.launch).vf ≠ f) :
    leastBy ownKey ((inClass s p c).filter fun x => (s.launch x.2.launch).vf = f) = none := by
  have empty : ((inClass s p c).filter fun x => (s.launch x.2.launch).vf = f) = [] := by
    refine List.filter_eq_nil_iff.2 fun x hx => ?_
    obtain ⟨hx, cls⟩ := List.mem_filter.1 hx
    simpa using no x hx (of_decide_eq_true cls)
  rw [empty]
  rfl

/-! ### Rounds (R324) -/

/-- Only deficits and pointers of partitions may differ. -/
def DeficitsOnly (s t : State) : Prop :=
  ∃ ps : Tbl Partition, t = { s with parts := ps } ∧
    ∀ x, { tget ps x {} with deficit := (s.part x).deficit, pointer := (s.part x).pointer } = s.part x

theorem DeficitsOnly.trans (a : DeficitsOnly s t) (b : DeficitsOnly t u) : DeficitsOnly s u := by
  obtain ⟨ps, rfl, same⟩ := a
  obtain ⟨qs, rfl, same'⟩ := b
  refine ⟨qs, rfl, fun x => ?_⟩
  rw [← same x]
  exact congrArg (fun t : Partition => { t with deficit := (s.part x).deficit, pointer := (s.part x).pointer }) (same' x)

theorem DeficitsOnly.modPart {g : Partition → Partition} (same : ∀ x, { g x with deficit := x.deficit, pointer := x.pointer } = x) :
    DeficitsOnly s (modPart p g s) := by
  refine ⟨_, rfl, fun x => ?_⟩
  rw [tget_tput]
  split
  · next e => rw [e]; exact same _
  · rfl

/-- R324: the deficit of an owner in a class. -/
def deficitOf (s : State) (p o c : Nat) : Nat := tget (s.part p).deficit (o * 4 + c) 0

/-- R324: the deficit at a key of the table is set. -/
def setDeficit (p key d : Nat) (s : State) : State := modPart p (fun t => { t with deficit := tset 0 t.deficit key d }) s

theorem setDeficit_only {key d : Nat} : DeficitsOnly s (setDeficit p key d s) := .modPart fun _ => rfl

theorem deficitOf_setDeficit {key d o : Nat} :
    deficitOf (setDeficit p key d s) p o c = if o * 4 + c = key then d else deficitOf s p o c := by
  unfold deficitOf setDeficit
  rw [modPart_part, if_pos rfl]
  exact tget_tset ..

/-- R324: the state of a round that ends with a choice. -/
structure Chooses (s t : State) (p f c n : Nat) : Prop where
  only : DeficitsOnly s t
  pointer : tget (t.part p).pointer c 0 = f
  paid : n ≤ deficitOf s p f c → deficitOf t p f c = deficitOf s p f c - n

/-- R324: an owner with no candidate loses its deficit. -/
theorem drr_skip (none : leastBy ownKey (cand.filter fun t => (s.launch t.2.launch).vf = o) = none) :
    drr (fuel + 1) p c o l cand s = drr fuel p c (nextOwner l o) l cand (setDeficit p (o * 4 + c) 0 s) := by
  rw [drr]
  dsimp only
  rw [none]
  rfl

/-- R324: an owner whose deficit is too small gains its weight. -/
theorem drr_gain {x : Nat × Task} (first : leastBy ownKey (cand.filter fun t => (s.launch t.2.launch).vf = o) = some x)
    (poor : deficitOf s p o c < x.2.n) : drr (fuel + 1) p c o l cand s =
      drr fuel p c (nextOwner l o) l cand (setDeficit p (o * 4 + c) (deficitOf s p o c + vfWeight (s.owner o)) s) := by
  rw [drr]
  dsimp only
  rw [first]
  exact if_pos poor

/-- R324: an owner whose deficit suffices has its candidate chosen. -/
theorem drr_take {x : Nat × Task} (first : leastBy ownKey (cand.filter fun t => (s.launch t.2.launch).vf = o) = some x)
    (rich : x.2.n ≤ deficitOf s p o c) : ∃ t, drr (fuel + 1) p c o l cand s = (some x.1, t) ∧ Chooses s t p o c x.2.n := by
  refine ⟨_, ?_, .modPart (p := p) (g := fun k => { k with
    deficit := tset 0 k.deficit (o * 4 + c) (deficitOf s p o c - x.2.n), pointer := tset 0 k.pointer c o }) fun _ => rfl, ?_, fun _ => ?_⟩
  · rw [drr]
    dsimp only
    rw [first]
    exact if_neg (Nat.not_lt.2 rich)
  · rw [modPart_part, if_pos rfl]
    exact (tget_tset ..).trans (if_pos rfl)
  · unfold deficitOf
    rw [modPart_part, if_pos rfl]
    exact (tget_tset ..).trans (if_pos rfl)

/-- R324: a sole owner gains its weight until its deficit suffices. -/
theorem drr_sole {x : Nat × Task} (first : leastBy ownKey (cand.filter fun t => (s.launch t.2.launch).vf = o) = some x)
    (weight : vfWeight (s.owner o) ≠ 0) (enough : x.2.n ≤ deficitOf s p o c + fuel) :
    ∃ t, drr (fuel + 1) p c o [o] cand s = (some x.1, t) ∧ Chooses s t p o c x.2.n := by
  induction fuel generalizing s with
  | zero => exact drr_take first enough
  | succ fuel ih =>
    by_cases rich : x.2.n ≤ deficitOf s p o c
    · exact drr_take first rich
    · have next : nextOwner [o] o = o := by simp [nextOwner]
      rw [drr_gain first (Nat.lt_of_not_le rich), next]
      obtain ⟨t, run, chosen⟩ := ih (s := setDeficit p (o * 4 + c) (deficitOf s p o c + vfWeight (s.owner o)) s) first weight (by
        rw [deficitOf_setDeficit, if_pos rfl]
        omega)
      exact ⟨t, run, setDeficit_only.trans chosen.only, chosen.pointer, fun h => absurd h rich⟩

/-! ### Where a round begins -/

/-- R324: the owner at which a round begins. -/
def startOwner (l : List Nat) (o : Nat) : Nat := ((l.find? fun x => o ≤ x).orElse fun _ => l.head?).getD 0

theorem startOwner_mem {l : List Nat} (rising : l.Pairwise (· < ·)) (ho : o ∈ l) : startOwner l o = o := by
  have found : l.find? (fun x => o ≤ x) = some o := by
    induction rising with
    | nil => nomatch ho
    | cons below _ ih =>
      obtain rfl | ho' := List.mem_cons.1 ho
      · exact List.find?_cons_of_pos (decide_eq_true le_rfl)
      · rw [List.find?_cons_of_neg (by simpa using below o ho'), ih ho']
  unfold startOwner
  rw [found]
  rfl

theorem startOwner_single (f o : Nat) : startOwner [f] o = f := by
  unfold startOwner
  by_cases h : o ≤ f
  · simp [h]
  · simp [h]

theorem nextOwner_two {f g : Nat} (rising : l.Pairwise (· < ·)) (two : l = [f, g] ∨ l = [g, f]) : nextOwner l g = f := by
  obtain rfl | rfl := two
  · have less : f < g := by simpa using rising
    simp [nextOwner, less.le]
  · have less : g < f := by simpa using rising
    simp [nextOwner, less]

theorem ownersOf_rising (rising : s.owners.Pairwise fun a b => a.1 < b.1) (p : Nat) : (ownersOf s p).Pairwise (· < ·) :=
  List.pairwise_map.2 (rising.filter _)

/-! ### A round chooses the candidate that the order names -/

/-- R323: an opportunity of the partition is counted. -/
def counted (p : Nat) (s : State) : State :=
  modPart p (fun t => { t with dispatches := (s.part p).dispatches + 1, lastDispatch := s.gtime }) s

theorem counted_part : (counted p s).part p = { s.part p with dispatches := (s.part p).dispatches + 1, lastDispatch := s.gtime } := by
  unfold counted
  rw [modPart_part, if_pos rfl]

theorem deficitOf_counted : deficitOf (counted p s) p o c = deficitOf s p o c := by
  unfold deficitOf
  rw [counted_part]

theorem drr_reached (owners : s.owners.Pairwise fun a b => a.1 < b.1) (tasks : s.tasks.Pairwise fun a b => a.1 < b.1)
    (small : k.n ≤ 8) (first : FirstOf s p f c tid k) (reached : Reached s p f c k) :
    ∃ t, drr ((ownersOf s p).length * 10 + 1) p c (startOwner (ownersOf s p) (tget (s.part p).pointer c 0)) (ownersOf s p)
      (inClass s p c) (counted p s) = (some tid, t) ∧ Chooses (counted p s) t p f c k.n := by
  have least := first.least tasks
  have rising := ownersOf_rising owners p
  obtain ⟨sole, weight⟩ | ⟨among, at_, rich⟩ | ⟨g, other, two, at_, rich, poor⟩ := reached
  · rw [sole, startOwner_single]
    exact drr_sole (x := (tid, k)) least weight (by simp only [List.length_singleton]; omega)
  · rw [at_, startOwner_mem rising among]
    exact drr_take (x := (tid, k)) least (deficitOf_counted.symm ▸ rich)
  · have amongG : g ∈ ownersOf s p := by
      obtain e | e := two <;> simp [e]
    have length : (ownersOf s p).length * 10 + 1 = 19 + 1 + 1 := by
      obtain e | e := two <;> simp [e]
    rw [at_, startOwner_mem rising amongG, length]
    have after (d : Nat) (round : drr (19 + 1 + 1) p c g (ownersOf s p) (inClass s p c) (counted p s) =
        drr (19 + 1) p c (nextOwner (ownersOf s p) g) (ownersOf s p) (inClass s p c) (setDeficit p (g * 4 + c) d (counted p s))) :
        ∃ t, drr (19 + 1 + 1) p c g (ownersOf s p) (inClass s p c) (counted p s) = (some tid, t) ∧
          Chooses (counted p s) t p f c k.n := by
      have same : deficitOf (setDeficit p (g * 4 + c) d (counted p s)) p f c = deficitOf (counted p s) p f c := by
        rw [deficitOf_setDeficit, if_neg (by omega)]
      have rich' : k.n ≤ deficitOf (setDeficit p (g * 4 + c) d (counted p s)) p f c := by
        rw [same, deficitOf_counted]
        exact rich
      obtain ⟨t, run, chosen⟩ := drr_take (s := setDeficit p (g * 4 + c) d (counted p s)) (x := (tid, k)) (fuel := 19) (l := ownersOf s p)
        least rich'
      rw [round, nextOwner_two rising two]
      exact ⟨t, run, setDeficit_only.trans chosen.only, chosen.pointer, same ▸ chosen.paid⟩
    obtain none | ⟨i, x, firstG, poor⟩ := poor
    · exact after _ (drr_skip (leastBy_none none))
    · exact after _ (drr_gain (x := (i, x)) (firstG.least tasks) (deficitOf_counted.symm ▸ poor))

/-! ### A dispatch opportunity (R323) -/

/-- Of the tables that placing reads, only counters, deficits and pointers of partitions may differ. -/
def SamePlaces (s t : State) : Prop :=
  ∃ ps : Tbl Partition, t = { s with parts := ps } ∧ ∀ x, (tget ps x {}).count = (s.part x).count ∧ (tget ps x {}).map = (s.part x).map

theorem counted_places : SamePlaces s (counted p s) := by
  refine ⟨_, rfl, fun x => ?_⟩
  rw [tget_tput]
  split
  · next e => rw [e]; exact ⟨rfl, rfl⟩
  · exact ⟨rfl, rfl⟩

theorem SamePlaces.deficits (a : SamePlaces s t) (b : DeficitsOnly t u) : SamePlaces s u := by
  obtain ⟨ps, rfl, same⟩ := a
  obtain ⟨qs, rfl, same'⟩ := b
  refine ⟨qs, rfl, fun x => ?_⟩
  have count := congrArg Partition.count (same' x)
  have map := congrArg Partition.map (same' x)
  exact ⟨count.trans (same x).1, map.trans (same x).2⟩

theorem exec_dispatchOpportunity_left
    (h : (s.part p).stopped = true ∨ s.gtime % 16 ≠ 0 ∨ candidates s p = [] ∨ ((s.part p).dispatches ≠ 0 ∧ (s.part p).lastDispatch = s.gtime)) :
    exec (.dispatchOpportunity p) s = .next s := by
  refine congrArg Host.Outcome.next (if_pos ?_)
  rw [List.isEmpty_iff]
  tauto

/-- R323: an opportunity that is used. -/
theorem exec_dispatchOpportunity (live : (s.part p).live = true) (runs : (s.part p).stopped = false) (now : s.gtime % 16 = 0)
    (once : (s.part p).dispatches ≠ 0 → (s.part p).lastDispatch ≠ s.gtime) (some_ : candidates s p ≠ []) :
    exec (.dispatchOpportunity p) s = .next (
      if ((s.part p).dispatches + 1) % 64 = 0 then
        match leastBy (fun x : Nat × Task => [x.2.eligAt, (s.launch x.2.launch).vf, x.2.enq]) (candidates s p) with
        | some x => place x.1 (counted p s)
        | none => counted p s
      else
        let c := ((candidates s p).map fun x => classOf s x.2).foldl min 3
        match drr ((ownersOf s p).length * 10 + 1) p c (startOwner (ownersOf s p) (tget (s.part p).pointer c 0)) (ownersOf s p)
          (inClass s p c) (counted p s) with
        | (some tid, s) => place tid s
        | (none, s) => s) := by
  refine congrArg Host.Outcome.next ((if_neg ?_).trans rfl)
  rw [List.isEmpty_iff, live, runs]
  tauto

/-- R323, R324: an opportunity places the candidate that the order names, and moves deficits and pointer as R324 says. -/
theorem dispatch_chosen (h : Chosen s p f tid k) :
    ∃ u, exec (.dispatchOpportunity p) s = .next (place tid u) ∧ SamePlaces s u ∧ PointerAt s u p f k ∧
      (u.part p).dispatches = (s.part p).dispatches + 1 ∧ (u.part p).lastDispatch = s.gtime := by
  obtain ⟨live, runs, now, once, ⟨-, -, small⟩, ⟨-, owners⟩, ⟨among, tasks⟩, oldest, class_, turn⟩ := h
  have run := exec_dispatchOpportunity live runs now once (List.ne_nil_of_mem among)
  by_cases round : ((s.part p).dispatches + 1) % 64 = 0
  · have least : leastBy (fun x : Nat × Task => [x.2.eligAt, (s.launch x.2.launch).vf, x.2.enq]) (candidates s p) = some (tid, k) :=
      leastBy_eq among fun b hb other => lexLt_older (oldest round b hb fun e =>
        other (eq_of_key tasks (List.mem_filter.1 hb).1 (List.mem_filter.1 among).1 e))
    rw [if_pos round, least] at run
    refine ⟨counted p s, run, counted_places, fun not => absurd round not, ?_, ?_⟩ <;> rw [counted_part]
  · obtain ⟨low, lowest⟩ := class_ round
    obtain ⟨first, reached⟩ := turn round
    have cls : ((candidates s p).map fun x => classOf s x.2).foldl min 3 = classOf s k :=
      foldl_min_eq low (List.forall_mem_map.2 lowest) (.inr (List.mem_map.2 ⟨_, among, rfl⟩))
    rw [if_neg round] at run
    simp only [cls] at run
    obtain ⟨u, chooses, only, pointer, paid⟩ := drr_reached owners tasks small first reached
    rw [chooses] at run
    rw [deficitOf_counted] at paid
    have same : { u.part p with deficit := ((counted p s).part p).deficit, pointer := ((counted p s).part p).pointer } =
        (counted p s).part p := by
      obtain ⟨ps, rfl, same⟩ := only
      exact same p
    rw [counted_part] at same
    have counts := congrArg Partition.dispatches same
    have last := congrArg Partition.lastDispatch same
    exact ⟨u, run, counted_places.deficits only, fun _ => ⟨pointer, fun _ _ => paid⟩, counts, last⟩

end Sys2Proof.Claim
end

section
/-! SUPPORT. What a core holds for a hart: its context, its scratchpad with full/empty bits, its array contents (R16, R19). -/

namespace Sys2Proof.Claim
open Sys2Proof.Machine

/-! ### Tables and memory -/

theorem tget_unlisted {α : Type} {t : Tbl α} {k : Nat} {d : α} (h : ∀ p ∈ t, p.1 ≠ k) : tget t k d = d := by
  induction t with
  | nil => rfl
  | cons p t ih =>
    rw [tget, if_neg (h p List.mem_cons_self)]
    exact ih fun p hp => h p (List.mem_cons_of_mem _ hp)

theorem tget_filter_key {α : Type} (P : Nat → Bool) (t : Tbl α) (k : Nat) (d : α) :
    tget (t.filter fun p => P p.1) k d = if P k = true then tget t k d else d := by
  induction t with
  | nil => simp [tget]
  | cons p t ih =>
    by_cases keep : P p.1 = true
    · rw [List.filter_cons_of_pos (p := fun p : Nat × α => P p.1) keep, tget, tget, ih]
      by_cases e : p.1 = k
      · rw [if_pos e, if_pos e, if_pos (e ▸ keep)]
      · rw [if_neg e, if_neg e]
    · rw [List.filter_cons_of_neg (p := fun p : Nat × α => P p.1) keep, ih, tget]
      by_cases e : p.1 = k
      · rw [if_neg (e ▸ keep), if_neg (e ▸ keep)]
      · rw [if_neg e]

theorem tget_setWords (words : List Nat) (full : Bool) (t : Tbl Bool) (w : Nat) :
    tget (words.foldl (fun t x => tset false t x full) t) w false = if w ∈ words then full else tget t w false := by
  induction words generalizing t with
  | nil => rfl
  | cons x words ih =>
    rw [List.foldl_cons, ih, tget_tset]
    by_cases e : w = x
    · simp [e]
    · simp [e]

theorem readByte_zeroed (l m : Memory) (a : Nat) : readByte (l.foldl (fun m c => writeByte m c.1 0) m) a =
    if ∃ c ∈ l, c.1 = a then 0 else readByte m a := by
  induction l generalizing m with
  | nil => simp
  | cons c l ih =>
    rw [List.foldl_cons, ih, readByte_writeByte]
    by_cases e : c.1 = a
    · simp [e]
    · simp [e, Ne.symm e]

theorem readByte_clearBytes (m : Memory) (k n a : Nat) :
    readByte (clearBytes m k n) a = if k ≤ a ∧ a < k + n then 0 else readByte m a := by
  unfold clearBytes
  rw [readByte_zeroed]
  by_cases within : k ≤ a ∧ a < k + n
  · rw [if_pos within]
    split
    · rfl
    · next unlisted =>
      refine tget_unlisted fun p hp e => unlisted ⟨p, List.mem_filter.2 ⟨hp, ?_⟩, e⟩
      rw [e]
      exact decide_eq_true within
  · rw [if_neg within, if_neg]
    rintro ⟨c, hc, rfl⟩
    exact within (of_decide_eq_true (List.mem_filter.1 hc).2)

theorem readByte_placeBytes_other {m l : Memory} {k a : Nat} (h : ∀ x ∈ l, k + x.1 ≠ a) :
    readByte (placeBytes m k l) a = readByte m a := by
  unfold placeBytes
  induction l generalizing m with
  | nil => rfl
  | cons x l ih =>
    rw [List.foldl_cons, ih fun y hy => h y (List.mem_cons_of_mem _ hy), readByte_writeByte, if_neg (h x List.mem_cons_self).symm]

/-- R19: bytes put into a cleared span. -/
theorem readByte_placeBytes {m l : Memory} {k a : Nat} (rising : l.Pairwise fun x y => x.1 < y.1) (zero : readByte m (k + a) = 0) :
    readByte (placeBytes m k l) (k + a) = readByte l a := by
  induction rising generalizing m with
  | nil => exact zero
  | @cons x l below _ ih =>
    change readByte (placeBytes (writeByte m (k + x.1) x.2) k l) (k + a) = readByte (x :: l) a
    unfold readByte
    rw [tget]
    by_cases e : x.1 = a
    · rw [if_pos e]
      refine (readByte_placeBytes_other fun y hy => ?_).trans ?_
      · have := below y hy
        omega
      · rw [readByte_writeByte, if_pos (by omega)]
    · rw [if_neg e]
      refine ih ?_
      rw [readByte_writeByte, if_neg (by omega), zero]

/-! ### What stands at a core -/

/-- R16, R19: what member `m` on core `c` of cluster `q` has, but for the physical accumulator banks of the core. -/
@[ext] structure Held where
  ctx : Ctx
  core : Core
  pad : Nat → Byte
  full : Nat → Bool
  cluster : Cluster
  gtime : Nat

/-- R57: where the scratchpad of a core lies. -/
def padKey (q c : Nat) : Nat := sramKey q (c * 0x8000)

def heldAt (q c m : Nat) (s : State) : Held where
  ctx := s.ctx m
  core := { s.core (q * 8 + c) with accBanks := [] }
  pad a := if a < 0x8000 then readByte s.mem (padKey q c + a) else 0
  full w := if w < 0x1000 then tget s.fe (padKey q c / 8 + w) false else false
  cluster := s.cluster q
  gtime := s.gtime

variable {s t : State} {q c c' m m' g p : Nat} {im : Image}

/-- Scratchpads of two cores of a cluster are apart. -/
theorem padKey_apart (q : Nat) (apart : c' ≠ c) : padKey q c' + 0x8000 ≤ padKey q c ∨ padKey q c + 0x8000 ≤ padKey q c' := by
  unfold padKey sramKey
  omega

theorem padKey_eight (q c : Nat) : padKey q c = 8 * (padKey q c / 8) := by
  unfold padKey sramKey Config.sramBase
  omega

theorem padKey_core (hc : c < 8) : sramKey (pcnOf (q * 8 + c)) (coreOf (q * 8 + c) * 0x8000) = padKey q c := by
  have pcn : pcnOf (q * 8 + c) = q := by
    unfold pcnOf
    omega
  have core : coreOf (q * 8 + c) = c := by
    unfold coreOf
    omega
  rw [pcn, core]
  rfl

theorem heldAt_modCtx (other : m' ≠ m) (f : Ctx → Ctx) : heldAt q c' m' (modCtx m f s) = heldAt q c' m' s := by
  unfold heldAt
  rw [modCtx_ctx, if_neg other]
  rfl

theorem heldAt_modCore (other : c' ≠ c) (f : Core → Core) : heldAt q c' m' (modCore (q * 8 + c) f s) = heldAt q c' m' s := by
  unfold heldAt
  rw [modCore_core, if_neg (by omega)]
  rfl

/-- R334: who holds the physical accumulator banks of a core is not part of what stands there. -/
theorem heldAt_banks {f : Core → Core} (same : ∀ k, { f k with accBanks := [] } = { k with accBanks := [] }) :
    heldAt q c' m' (modCore g f s) = heldAt q c' m' s := by
  unfold heldAt
  rw [modCore_core]
  split
  · next e => rw [same, e]; rfl
  · rfl

theorem heldAt_takeBanks (g m : Nat) (lb : BitVec 2) : heldAt q c' m' (takeBanks g m lb s) = heldAt q c' m' s :=
  heldAt_banks fun _ => rfl

theorem heldAt_takeEvents (other : m' ≠ m) (apart : c' ≠ c) (at_ : (s.ctx m).gcn = q * 8 + c) :
    heldAt q c' m' (takeEvents m s) = heldAt q c' m' s := by
  unfold takeEvents
  dsimp only
  split
  · rfl
  · rw [heldAt_modCtx other, at_, heldAt_modCore apart]

theorem takeEvents_none (none : (s.core (s.ctx m).gcn).events = []) : takeEvents m s = s := by
  unfold takeEvents
  dsimp only
  rw [none]
  rfl

/-! ### Scratchpads (R16, R19) -/

theorem heldAt_clearSram (apart : c' ≠ c) :
    heldAt q c' m' (clearSram (padKey q c) 0x8000 s) = heldAt q c' m' s := by
  have far := padKey_apart q apart
  have eight := padKey_eight q c
  have eight' := padKey_eight q c'
  ext1
  · rfl
  · rfl
  · funext a
    refine ite_congr rfl (fun ha => ?_) fun _ => rfl
    exact (readByte_clearBytes ..).trans (if_neg (by omega))
  · funext w
    refine ite_congr rfl (fun hw => ?_) fun _ => rfl
    refine (tget_filter_key (fun x => decide ¬(padKey q c / 8 ≤ x ∧ x < (padKey q c + 0x8000) / 8)) ..).trans (if_pos (decide_eq_true ?_))
    omega
  · rfl
  · rfl

theorem clearSram_pad {a : Nat} (ha : a < 0x8000) : readByte (clearSram (padKey q c) 0x8000 s).mem (padKey q c + a) = 0 :=
  (readByte_clearBytes ..).trans (if_pos (by omega))

theorem clearSram_full {w : Nat} (hw : w < 0x1000) : tget (clearSram (padKey q c) 0x8000 s).fe (padKey q c / 8 + w) false = false := by
  have eight := padKey_eight q c
  refine (tget_filter_key (fun x => decide ¬(padKey q c / 8 ≤ x ∧ x < (padKey q c + 0x8000) / 8)) ..).trans (if_neg ?_)
  rw [decide_eq_true_eq]
  omega

/-- R19, R56: an image that fits a scratchpad. -/
structure Fits (im : Image) : Prop where
  rising : im.pad.Pairwise fun x y => x.1 < y.1
  pad : ∀ x ∈ im.pad, x.1 < 0x8000
  fe : ∀ w ∈ im.fe, w < 0x1000

theorem heldAt_placeSram (fits : Fits im) (apart : c' ≠ c) :
    heldAt q c' m' (placeSram (padKey q c) 0x8000 im s) = heldAt q c' m' s := by
  have far := padKey_apart q apart
  have eight := padKey_eight q c
  have eight' := padKey_eight q c'
  rw [← heldAt_clearSram (s := s) (m' := m') apart]
  ext1
  · rfl
  · rfl
  · funext a
    refine ite_congr rfl (fun ha => ?_) fun _ => rfl
    refine readByte_placeBytes_other fun x hx => ?_
    have := fits.pad x hx
    omega
  · funext w
    refine ite_congr rfl (fun hw => ?_) fun _ => rfl
    refine (tget_setWords ..).trans (if_neg fun mem => ?_)
    obtain ⟨x, hx, e⟩ := List.mem_map.1 mem
    have := fits.fe x hx
    omega
  · rfl
  · rfl

theorem placeSram_pad (fits : Fits im) {a : Nat} (ha : a < 0x8000) :
    readByte (placeSram (padKey q c) 0x8000 im s).mem (padKey q c + a) = readByte im.pad a :=
  readByte_placeBytes fits.rising (clearSram_pad (s := s) ha)

theorem placeSram_full {w : Nat} (hw : w < 0x1000) :
    tget (placeSram (padKey q c) 0x8000 im s).fe (padKey q c / 8 + w) false = im.fe.contains w := by
  refine (tget_setWords ..).trans ?_
  have listed : padKey q c / 8 + w ∈ im.fe.map (padKey q c / 8 + ·) ↔ im.fe.contains w = true := by
    simp
  by_cases h : im.fe.contains w = true
  · rw [if_pos (listed.2 h), h]
  · rw [if_neg (fun x => h (listed.1 x)), eq_false_of_ne_true h]
    exact clearSram_full (s := s) hw

/-! ### A core takes a context (R16, R281, R315) -/

/-- R16: what another partition left on a core is cleared. -/
def freshCore (q c p : Nat) (s : State) : State := if (s.core (q * 8 + c)).lastPart = some p then s else clearCore (q * 8 + c) s

theorem enterCore_eq (q c p : Nat) (s : State) : enterCore (q * 8 + c) p s =
    enterBau (q * 8 + c) p (modCore (q * 8 + c) (fun k => { k with lastPart := some p }) (freshCore q c p s)) := rfl

theorem clearCore_eq (hc : c < 8) : clearCore (q * 8 + c) s =
    modCore (q * 8 + c) (fun k => { k with rows := [], tags := [], accBanks := [] }) (clearSram (padKey q c) 0x8000 s) := by
  unfold clearCore
  rw [padKey_core hc]

theorem heldAt_freshCore (hc : c < 8) (apart : c' ≠ c) : heldAt q c' m' (freshCore q c p s) = heldAt q c' m' s := by
  unfold freshCore
  split
  · rfl
  · rw [clearCore_eq hc, heldAt_modCore apart, heldAt_clearSram apart]

theorem heldAt_enterBau (apart : c' ≠ c) : heldAt q c' m' (enterBau (q * 8 + c) p s) = heldAt q c' m' s := by
  unfold enterBau
  split
  · rfl
  · rw [heldAt_modCore apart]
    rfl

theorem heldAt_enterCore (hc : c < 8) (apart : c' ≠ c) :
    heldAt q c' m' (enterCore (q * 8 + c) p s) = heldAt q c' m' s := by
  rw [enterCore_eq, heldAt_enterBau apart, heldAt_modCore apart, heldAt_freshCore hc apart]

/-- Only banks, cores and SRAM may differ. -/
def OnlyCores (s t : State) : Prop := ∃ ks bs mem fe, t = { s with cores := ks, banks := bs, mem := mem, fe := fe }

theorem enterBau_only : OnlyCores s (enterBau g p s) := by
  unfold enterBau
  split
  · exact ⟨_, _, _, _, rfl⟩
  · exact ⟨_, _, _, _, rfl⟩

theorem enterCore_only : OnlyCores s (enterCore g p s) := by
  unfold enterCore
  obtain ⟨ks, bs, mem, fe, e⟩ := enterBau_only (g := g) (p := p)
    (s := modCore g (fun k => { k with lastPart := some p }) (if (s.core g).lastPart = some p then s else clearCore g s))
  dsimp only
  rw [e]
  split
  · exact ⟨_, _, _, _, rfl⟩
  · exact ⟨_, _, _, _, rfl⟩

/-- R16: the core that a context of a partition enters. -/
structure CoreEntered (s t : State) (q c p : Nat) : Prop where
  lastPart : (t.core (q * 8 + c)).lastPart = some p
  events : (t.core (q * 8 + c)).events = (s.core (q * 8 + c)).events
  cleared : (s.core (q * 8 + c)).lastPart ≠ some p →
    (∀ a, a < 0x8000 → readByte t.mem (padKey q c + a) = 0) ∧ (t.core (q * 8 + c)).rows = [] ∧ (t.core (q * 8 + c)).tags = []

theorem enterBau_mem : (enterBau g p s).mem = s.mem := by
  unfold enterBau
  split <;> rfl

theorem enterBau_core : ∃ b, (enterBau g p s).core g = { s.core g with bauPart := b } := by
  unfold enterBau
  split
  · exact ⟨(s.core g).bauPart, rfl⟩
  · rw [modCore_core, if_pos rfl]
    exact ⟨_, rfl⟩

theorem modCore_self (g : Nat) (f : Core → Core) (s : State) : (modCore g f s).core g = f (s.core g) := (modCore_core ..).trans (if_pos rfl)

theorem enterCore_entered (hc : c < 8) : CoreEntered s (enterCore (q * 8 + c) p s) q c p := by
  obtain ⟨b, core⟩ := enterBau_core (g := q * 8 + c) (p := p)
    (s := modCore (q * 8 + c) (fun k => { k with lastPart := some p }) (freshCore q c p s))
  rw [← enterCore_eq, modCore_self] at core
  have fresh : (freshCore q c p s).core (q * 8 + c) = if (s.core (q * 8 + c)).lastPart = some p then s.core (q * 8 + c)
      else { s.core (q * 8 + c) with rows := [], tags := [], accBanks := [] } := by
    unfold freshCore
    rw [clearCore_eq hc]
    split
    · rfl
    · exact modCore_self ..
  refine ⟨by rw [core], ?_, fun other => ⟨fun a ha => ?_, ?_, ?_⟩⟩
  · rw [core, fresh]
    split <;> rfl
  · rw [enterCore_eq, enterBau_mem]
    unfold freshCore
    rw [if_neg other, clearCore_eq hc]
    exact clearSram_pad ha
  · rw [core, fresh, if_neg other]
  · rw [core, fresh, if_neg other]

/-! ### Steps over the members of a gang -/

section
variable {α β : Type} {l : List α} {f : α → State → State} {view : α → State → β} {was : α → β}

/-- Steps that leave one another's view alone: the view of an element that is not among them is as before. -/
theorem forEach_keeps {a : α} (new : a ∉ l) (start : ∀ b ∈ l, view b s = was b) (nodup : l.Nodup)
    (frame : ∀ b ∈ l, ∀ u, view b u = was b → ∀ x, x = a ∨ x ∈ l → x ≠ b → view x (f b u) = view x u) :
    view a (forEach l f s) = view a s := by
  induction l generalizing s with
  | nil => rfl
  | cons b l ih =>
    obtain ⟨notin, nodup⟩ := List.nodup_cons.1 nodup
    have step (x : α) (hx : x = a ∨ x ∈ l) (other : x ≠ b) : view x (f b s) = view x s :=
      frame b List.mem_cons_self s (start b List.mem_cons_self) x (hx.imp_right (List.mem_cons_of_mem b)) other
    refine (ih (fun h => new (List.mem_cons_of_mem b h)) (fun x hx => ?_) nodup fun x hx u hu y hy other => ?_).trans
      (step a (.inl rfl) fun e => new (e ▸ List.mem_cons_self))
    · rw [step x (.inr hx) fun e => notin (e ▸ hx)]
      exact start x (List.mem_cons_of_mem b hx)
    · exact frame x (List.mem_cons_of_mem b hx) u hu y (hy.imp_right (List.mem_cons_of_mem b)) other

/-- Steps that leave one another's view alone: each finds its view as it was, and what it makes of it stays. -/
theorem forEach_each {a : α} (among : a ∈ l) (start : ∀ b ∈ l, view b s = was b) (nodup : l.Nodup)
    (frame : ∀ b ∈ l, ∀ u, view b u = was b → ∀ x ∈ l, x ≠ b → view x (f b u) = view x u) :
    ∃ u, view a u = was a ∧ view a (forEach l f s) = view a (f a u) := by
  induction l generalizing s with
  | nil => nomatch among
  | cons b l ih =>
    obtain ⟨notin, nodup'⟩ := List.nodup_cons.1 nodup
    obtain rfl | later := List.mem_cons.1 among
    · refine ⟨s, start a among, forEach_keeps (was := was) notin (fun x hx => ?_) nodup' fun x hx u hu y hy other => ?_⟩
      · rw [frame a among s (start a among) x (List.mem_cons_of_mem a hx) fun e => notin (e ▸ hx)]
        exact start x (List.mem_cons_of_mem a hx)
      · exact frame x (List.mem_cons_of_mem a hx) u hu y (hy.elim (fun e => e ▸ among) (List.mem_cons_of_mem a)) other
    · refine ih (s := f b s) later (fun x hx => ?_) nodup' fun x hx u hu y hy other => ?_
      · rw [frame b List.mem_cons_self s (start b List.mem_cons_self) x (List.mem_cons_of_mem b hx) fun e => notin (e ▸ hx)]
        exact start x (List.mem_cons_of_mem b hx)
      · exact frame x (List.mem_cons_of_mem b hx) u hu y (List.mem_cons_of_mem b hy) other
end

end Sys2Proof.Claim
end

section
/-! SUPPORT. Start of the members of a task (R15, R16). -/

namespace Sys2Proof.Claim
open Sys2Proof.Machine

variable {s t u s0 : State} {k : Task} {q c m p tid vcn i n : Nat} {cores : List Nat} {x y : Nat × Nat}

/-! ### The context at task start -/

theorem tget_filter_nonzero {w : Nat} {l : Tbl (BitVec w)} (rising : l.Pairwise fun a b => a.1 < b.1) (j : Nat) :
    tget (l.filter fun a => a.2 ≠ 0) j 0 = tget l j 0 := by
  induction rising with
  | nil => rfl
  | @cons a l below _ ih =>
    by_cases zero : a.2 = 0
    · rw [List.filter_cons_of_neg (by simpa using zero), ih, tget]
      split
      · next e =>
        rw [zero]
        exact tget_unlisted fun b hb => by have := below b hb; omega
      · rfl
    · rw [List.filter_cons_of_pos (by simpa using zero), tget, tget, ih]

theorem startCtx_registers {cl : Cluster} {gcn part : Nat} {rt map : W64} {r : R5} (r7 : r ≠ 7) :
    getG (startCtx cl tid i n vcn gcn part k rt map).regs r = match r.toNat with
      | 2 => 0x8000 | 3 => rt | 4 => k.arg | 5 => BitVec.ofNat 64 i
      | 6 => BitVec.ofNat 64 n | 8 => k.tag | 9 => k.tag | _ => 0 := by
  have not7 : r.toNat ≠ 7 := fun e => r7 (BitVec.eq_of_toNat_eq e)
  have zero : r = 0 ↔ r.toNat = 0 := by
    rw [BitVec.toNat_eq]
    rfl
  unfold getG startCtx
  dsimp only
  rw [tget_filter_nonzero (by simp)]
  simp only [zero]
  generalize r.toNat = j at not7
  match j, not7 with
  | 0, _ | 1, _ | 2, _ | 3, _ | 4, _ | 5, _ | 6, _ | 8, _ | 9, _ => rfl
  | j + 10, _ =>
    rw [if_neg (by omega)]
    refine tget_unlisted fun a ha => ?_
    simp only [List.mem_cons, List.not_mem_nil, or_false] at ha
    obtain rfl | rfl | rfl | rfl | rfl | rfl | rfl | rfl := ha <;> dsimp only <;> omega

theorem startCtx_map {cl : Cluster} {gcn part : Nat} {rt map : W64} :
    getG (startCtx cl tid i n vcn gcn part k rt map).regs 7 = map := by
  unfold getG startCtx
  dsimp only
  rw [tget_filter_nonzero (by simp)]
  rfl

theorem startCtx_regions (cl : Cluster) (gcn part : Nat) (rt map : W64) (j : Nat) (hj : 2 ≤ j) :
    tget (startCtx cl tid i n vcn gcn part k rt map).csr.pw j 0 = 0 :=
  tget_unlisted (t := startPw cl) fun a ha => by
    simp only [startPw, List.mem_cons, List.not_mem_nil, or_false] at ha
    obtain rfl | rfl := ha <;> omega

/-- A digit is not changed by a multiple of a higher power. -/
theorem digit_add_mul {n i : Nat} (hi : i < n) (a d : Nat) : (a + d * 16 ^ n) / 16 ^ i % 16 = a / 16 ^ i % 16 := by
  obtain ⟨j, rfl⟩ := Nat.exists_eq_add_of_lt hi
  have power : d * 16 ^ (i + j + 1) = 16 ^ i * (16 * (d * 16 ^ j)) := by ring
  rw [power, Nat.add_mul_div_left _ _ (by positivity), Nat.add_mul_mod_self_left]

/-- A number of base 16 with its digits. -/
theorem digits_foldl {d : Nat → Nat} (small : ∀ i, d i < 16) (n : Nat) :
    (List.range n).foldl (fun a i => a + d i * 2 ^ (4 * i)) 0 < 16 ^ n ∧
      ∀ i, i < n → (List.range n).foldl (fun a i => a + d i * 2 ^ (4 * i)) 0 / 16 ^ i % 16 = d i := by
  induction n with
  | zero => exact ⟨by simp, fun _ h => absurd h (Nat.not_lt_zero _)⟩
  | succ n ih =>
    rw [List.range_succ, List.foldl_append]
    simp only [List.foldl_cons, List.foldl_nil]
    generalize (List.range n).foldl (fun a i => a + d i * 2 ^ (4 * i)) 0 = a at ih ⊢
    obtain ⟨below, digits⟩ := ih
    have power : 2 ^ (4 * n) = 16 ^ n := by rw [pow_mul]; rfl
    have top := small n
    rw [power]
    refine ⟨?_, fun i hi => ?_⟩
    · rw [pow_succ]
      nlinarith
    · obtain old | rfl := Nat.lt_succ_iff_lt_or_eq.1 hi
      · rw [digit_add_mul old]
        exact digits i old
      · rw [Nat.add_mul_div_right _ _ (by positivity), Nat.div_eq_of_lt below, Nat.zero_add, Nat.mod_eq_of_lt top]

/-- R16: the fields of a gang map. -/
theorem gangMap_fields (hv : vcn < 32768) (small : ∀ c ∈ cores, c < 8) : GangMap (gangMap vcn cores) vcn cores := by
  have digit (i : Nat) : cores[i]?.getD 15 < 16 := by
    cases e : cores[i]? with
    | none => decide
    | some c => exact (small c (List.mem_of_getElem? e)).trans (by decide)
  obtain ⟨below, digits⟩ := digits_foldl digit 8
  have value : (gangMap vcn cores).toNat =
      (List.range 8).foldl (fun a i => a + (cores[i]?.getD 15) * 2 ^ (4 * i)) 0 + (0x80000000 + vcn * 0x10000) * 16 ^ 8 := by
    unfold gangMap w64
    rw [BitVec.toNat_ofNat]
    omega
  generalize (List.range 8).foldl (fun a i => a + (cores[i]?.getD 15) * 2 ^ (4 * i)) 0 = a at *
  unfold GangMap
  simp only [bits_eq, BitVec.getLsbD, Nat.testBit_eq_decide_div_mod_eq, decide_eq_true_eq, value]
  refine ⟨by omega, by omega, by omega, fun i hi => ?_⟩
  rw [pow_mul, List.getD_eq_getElem?_getD]
  exact (digit_add_mul hi _ _).trans (digits i hi)

/-! ### What starting a member changes -/

/-- Only banks, cores, SRAM and the contexts named may differ. -/
structure OnlyHarts (named : Nat → Prop) (s t : State) : Prop where
  state : ∃ cs ks bs mem fe, t = { s with ctxs := cs, cores := ks, banks := bs, mem := mem, fe := fe }
  ctx : ∀ c, ¬named c → t.ctx c = s.ctx c

variable {named : Nat → Prop}

theorem OnlyHarts.refl (s : State) : OnlyHarts named s s := ⟨⟨_, _, _, _, _, rfl⟩, fun _ _ => rfl⟩

theorem OnlyHarts.trans (a : OnlyHarts named s t) (b : OnlyHarts named t u) : OnlyHarts named s u := by
  obtain ⟨⟨_, _, _, _, _, rfl⟩, ctx⟩ := a
  obtain ⟨⟨_, _, _, _, _, rfl⟩, ctx'⟩ := b
  exact ⟨⟨_, _, _, _, _, rfl⟩, fun c hc => (ctx' c hc).trans (ctx c hc)⟩

theorem OnlyHarts.forEach {α : Type} {f : α → State → State} {l : List α} (step : ∀ a ∈ l, ∀ u, OnlyHarts named u (f a u)) :
    OnlyHarts named s (forEach l f s) :=
  List.foldlRecOn (motive := OnlyHarts named s) l _ (.refl s) fun u ih a ha => ih.trans (step a ha u)

theorem OnlyCores.onlyHarts (h : OnlyCores s t) : OnlyHarts named s t := by
  obtain ⟨_, _, _, _, rfl⟩ := h
  exact ⟨⟨_, _, _, _, _, rfl⟩, fun _ _ => rfl⟩

theorem OnlyHarts.modCtx (hm : named m) (f : Ctx → Ctx) : OnlyHarts named s (modCtx m f s) :=
  ⟨⟨_, _, _, _, _, rfl⟩, fun c hc => (modCtx_ctx ..).trans (if_neg fun e : c = m => hc (e ▸ hm))⟩

theorem OnlyHarts.modCore (g : Nat) (f : Core → Core) : OnlyHarts named s (modCore g f s) := ⟨⟨_, _, _, _, _, rfl⟩, fun _ _ => rfl⟩

theorem OnlyHarts.takeEvents (hm : named m) : OnlyHarts named s (takeEvents m s) := by
  unfold Machine.takeEvents
  dsimp only
  split
  · exact .refl s
  · exact (OnlyHarts.modCore ..).trans (.modCtx hm _)

theorem OnlyHarts.parts (h : OnlyHarts named s t) : t.parts = s.parts := by
  obtain ⟨_, _, _, _, _, rfl⟩ := h.state
  rfl

theorem OnlyHarts.tasks (h : OnlyHarts named s t) : t.tasks = s.tasks := by
  obtain ⟨_, _, _, _, _, rfl⟩ := h.state
  rfl

theorem OnlyHarts.nextId (h : OnlyHarts named s t) : t.nextId = s.nextId := by
  obtain ⟨_, _, _, _, _, rfl⟩ := h.state
  rfl

theorem OnlyHarts.gtime (h : OnlyHarts named s t) : t.gtime = s.gtime := by
  obtain ⟨_, _, _, _, _, rfl⟩ := h.state
  rfl

/-! ### Members -/

/-- R16: member `x.2`, on core `x.1`, at the start of a task of state `s0`. -/
def memberStart (s0 : State) (tid vcn q : Nat) (cores : List Nat) (x : Nat × Nat) (cl : Cluster) : Ctx :=
  startCtx cl tid x.2 cores.length vcn (q * 8 + x.1) (s0.task tid).part (s0.task tid)
    (s0.owner (s0.launch (s0.task tid).launch).vf).rtptr (gangMap vcn cores)

/-- R16: the core is entered and the member stands at task start. -/
def seatMember (s0 : State) (tid vcn q : Nat) (cores : List Nat) (x : Nat × Nat) (s : State) : State :=
  let s := enterCore (q * 8 + x.1) (s0.task tid).part s
  takeBanks (q * 8 + x.1) (s0.nextId + x.2) 3
    (modCtx (s0.nextId + x.2) (fun _ => memberStart s0 tid vcn q cores x (s.cluster q)) s)

def startMember (s0 : State) (tid vcn q : Nat) (cores : List Nat) (x : Nat × Nat) (s : State) : State :=
  takeEvents (s0.nextId + x.2) (seatMember s0 tid vcn q cores x s)

theorem startGang_eq (tid vcn q : Nat) (cores : List Nat) (s : State) : startGang tid vcn q cores s =
    let t := forEach cores.zipIdx (startMember s tid vcn q cores) { s with nextId := s.nextId + cores.length }
    modTask tid (fun k => { k with
      phase := .placed, vcn := vcn, members := stride s.nextId 1 cores.length, residentAt := t.gtime, holdsSlot := false }) t := rfl

theorem modCtx_same (m : Nat) (f : Ctx → Ctx) (s : State) : (modCtx m f s).ctx m = f (s.ctx m) := (modCtx_ctx ..).trans (if_pos rfl)

theorem takeBanks_ctx (g m : Nat) (lb : BitVec 2) (s : State) (c : Nat) : (takeBanks g m lb s).ctx c = s.ctx c := rfl

theorem seatMember_ctx : (seatMember s0 tid vcn q cores x s).ctx (s0.nextId + x.2) = memberStart s0 tid vcn q cores x (s.cluster q) := by
  obtain ⟨ks, bs, mem, fe, e⟩ := enterCore_only (s := s) (g := q * 8 + x.1) (p := (s0.task tid).part)
  have cluster : (enterCore (q * 8 + x.1) (s0.task tid).part s).cluster q = s.cluster q := by
    rw [e]
    rfl
  unfold seatMember
  dsimp only
  rw [takeBanks_ctx, modCtx_same, cluster]

theorem seatMember_mem : (seatMember s0 tid vcn q cores x s).mem = (enterCore (q * 8 + x.1) (s0.task tid).part s).mem := rfl

theorem takeBanks_core (g m : Nat) (lb : BitVec 2) (s : State) : ∃ b, (takeBanks g m lb s).core g = { s.core g with accBanks := b } :=
  ⟨_, modCore_self ..⟩

theorem seatMember_core (hc : x.1 < 8) :
    CoreEntered s (seatMember s0 tid vcn q cores x s) q x.1 (s0.task tid).part := by
  obtain ⟨lastPart, events, cleared⟩ := enterCore_entered (s := s) (q := q) (p := (s0.task tid).part) hc
  obtain ⟨b, core⟩ : ∃ b, (seatMember s0 tid vcn q cores x s).core (q * 8 + x.1) =
      { (enterCore (q * 8 + x.1) (s0.task tid).part s).core (q * 8 + x.1) with accBanks := b } := takeBanks_core ..
  refine ⟨?_, ?_, fun other => ?_⟩
  · rw [core]
    exact lastPart
  · rw [core]
    exact events
  · rw [core, seatMember_mem]
    exact cleared other

theorem heldAt_startMember (hx : x.1 < 8) (core : c ≠ x.1) (member : m ≠ s0.nextId + x.2) :
    heldAt q c m (startMember s0 tid vcn q cores x s) = heldAt q c m s := by
  unfold startMember
  rw [heldAt_takeEvents (c := x.1) member core (by rw [seatMember_ctx]; rfl)]
  unfold seatMember
  dsimp only
  rw [heldAt_takeBanks, heldAt_modCtx member, heldAt_enterCore hx core]

/-- R351: with no EVENT code left on the core, a member starts with none. -/
theorem startMember_quiet (hx : x.1 < 8) (quiet : (s.core (q * 8 + x.1)).events = []) :
    startMember s0 tid vcn q cores x s = seatMember s0 tid vcn q cores x s := by
  refine takeEvents_none ?_
  rw [seatMember_ctx]
  exact (seatMember_core hx).events.trans quiet

theorem startMember_only : OnlyHarts (s0.nextId ≤ ·) s (startMember s0 tid vcn q cores x s) := by
  have here : s0.nextId ≤ s0.nextId + x.2 := Nat.le_add_right ..
  exact (enterCore_only.onlyHarts.trans (.modCtx here _)).trans ((OnlyHarts.modCore ..).trans (.takeEvents here))

end Sys2Proof.Claim
end

section
/-! SUPPORT. New tasks are dispatched (R15, R16, R325). -/

namespace Sys2Proof.Claim
open Sys2Proof.Machine

variable {s t u v : State} {k : Task} {q c m p tid vcn i core : Nat} {cores : List Nat} {x y : Nat × Nat}

/-! ### What two states that hold the same for a hart have in common -/

section
variable (same : heldAt q c m s = heldAt q c m t)
include same

theorem held_ctx : s.ctx m = t.ctx m := congrArg Held.ctx same
theorem held_rows : (s.core (q * 8 + c)).rows = (t.core (q * 8 + c)).rows := congrArg (fun h => h.core.rows) same
theorem held_tags : (s.core (q * 8 + c)).tags = (t.core (q * 8 + c)).tags := congrArg (fun h => h.core.tags) same
theorem held_events : (s.core (q * 8 + c)).events = (t.core (q * 8 + c)).events := congrArg (fun h => h.core.events) same
theorem held_lastPart : (s.core (q * 8 + c)).lastPart = (t.core (q * 8 + c)).lastPart := congrArg (fun h => h.core.lastPart) same
theorem held_cluster : s.cluster q = t.cluster q := congrArg Held.cluster same
theorem held_gtime : s.gtime = t.gtime := congrArg Held.gtime same

theorem held_pad {a : Nat} (ha : a < 0x8000) : readByte s.mem (padKey q c + a) = readByte t.mem (padKey q c + a) := by
  have pad := congrFun (congrArg Held.pad same) a
  exact (if_pos ha).symm.trans (pad.trans (if_pos ha))

theorem held_full {w : Nat} (hw : w < 0x1000) : tget s.fe (padKey q c / 8 + w) false = tget t.fe (padKey q c / 8 + w) false := by
  have full := congrFun (congrArg Held.full same) w
  exact (if_pos hw).symm.trans (full.trans (if_pos hw))
end

theorem CoreEntered.congr (h : CoreEntered s t q c p) (before : heldAt q c m s = heldAt q c m u)
    (after : heldAt q c m t = heldAt q c m v) : CoreEntered u v q c p := by
  obtain ⟨lastPart, events, cleared⟩ := h
  refine ⟨(held_lastPart after).symm.trans lastPart, ?_, fun other => ?_⟩
  · rw [← held_events after, ← held_events before]
    exact events
  · obtain ⟨pad, rows, tags⟩ := cleared (held_lastPart before ▸ other)
    exact ⟨fun a ha => (held_pad after ha).symm.trans (pad a ha), (held_rows after).symm.trans rows, (held_tags after).symm.trans tags⟩

/-! ### The members of a gang at their start -/

/-- R16: a member at task start, on a core that the context has entered. -/
theorem memberStart_started (hv : vcn < 32768) (small : ∀ c ∈ cores, c < 8)
    (entered : CoreEntered s t q core (s.task tid).part) :
    Started s t tid (s.task tid) vcn q cores i core (memberStart s tid vcn q cores (core, i) (s.cluster q)) where
  pc := rfl
  user := ⟨rfl, rfl, rfl, rfl⟩
  registers _ r7 := startCtx_registers r7
  map := by
    unfold memberStart
    rw [startCtx_map]
    exact gangMap_fields hv small
  floating := ⟨rfl, rfl⟩
  space := ⟨rfl, rfl⟩
  regions := ⟨rfl, rfl, fun j hj => startCtx_regions _ _ _ _ _ j hj⟩
  engines := rfl
  place := ⟨rfl, rfl, rfl, rfl, rfl, rfl⟩
  fresh := ⟨rfl, rfl, rfl, rfl, rfl, rfl, rfl⟩
  pad := entered.cleared

/-- Different members have different cores and different numbers. -/
theorem zipIdx_apart (nodup : cores.Nodup) (hx : x ∈ cores.zipIdx) (hy : y ∈ cores.zipIdx) (other : x ≠ y) : x.1 ≠ y.1 ∧ x.2 ≠ y.2 := by
  have atX := List.mem_zipIdx_iff_getElem?.1 hx
  have atY := List.mem_zipIdx_iff_getElem?.1 hy
  refine ⟨fun e => other (Prod.ext e ?_), fun e => other (Prod.ext ?_ e)⟩
  · obtain ⟨lt, -⟩ := List.getElem?_eq_some_iff.1 atX
    exact (List.getElem?_inj lt nodup).1 (by rw [atX, atY, e])
  · rw [e] at atX
    exact Option.some.inj (atX.symm.trans atY)

theorem startGang_only : OnlyHarts (s.nextId ≤ ·) { s with nextId := s.nextId + cores.length }
    (forEach cores.zipIdx (startMember s tid vcn q cores) { s with nextId := s.nextId + cores.length }) :=
  .forEach fun _ _ _ => startMember_only

/-- R15, R16: a member of a gang that is started. -/
theorem startGang_started (hv : vcn < 32768) (nodup : cores.Nodup) (small : ∀ c ∈ cores, c < 8)
    (quiet : ∀ c ∈ cores, (s.core (q * 8 + c)).events = []) (at_ : cores[i]? = some core) :
    Started s (startGang tid vcn q cores s) tid (s.task tid) vcn q cores i core ((startGang tid vcn q cores s).ctx (s.nextId + i)) ∧
      ((startGang tid vcn q cores s).core (q * 8 + core)).lastPart = some (s.task tid).part := by
  have among : (core, i) ∈ cores.zipIdx := List.mem_zipIdx_iff_getElem?.2 at_
  have here (x : Nat × Nat) (hx : x ∈ cores.zipIdx) : x.1 ∈ cores := List.mem_of_getElem? (List.mem_zipIdx_iff_getElem?.1 hx)
  have distinct : cores.zipIdx.Nodup := List.Nodup.of_map Prod.fst (by rwa [List.zipIdx_map_fst])
  obtain ⟨u, before, after⟩ := forEach_each (f := startMember s tid vcn q cores) (s := { s with nextId := s.nextId + cores.length })
    (view := fun x => heldAt q x.1 (s.nextId + x.2)) (was := fun x => heldAt q x.1 (s.nextId + x.2) s) among (fun _ _ => rfl) distinct
    fun b hb u _ x hx other => by
      obtain ⟨core, number⟩ := zipIdx_apart nodup hx hb other
      exact heldAt_startMember (small _ (here b hb)) core (by omega)
  have member := here _ among
  rw [startMember_quiet (small _ member) ((held_events before).trans (quiet _ member))] at after
  have after : heldAt q core (s.nextId + i) (startGang tid vcn q cores s) = heldAt q core (s.nextId + i) (seatMember s tid vcn q cores (core, i) u) :=
    after
  have entered := (seatMember_core (s0 := s) (tid := tid) (vcn := vcn) (cores := cores) (x := (core, i)) (small _ member)).congr before after.symm
  have ctx : (startGang tid vcn q cores s).ctx (s.nextId + i) = memberStart s tid vcn q cores (core, i) (s.cluster q) := by
    rw [held_ctx after, seatMember_ctx (x := (core, i)), held_cluster before]
  rw [ctx]
  exact ⟨memberStart_started hv small entered, entered.lastPart⟩

/-! ### A dispatch opportunity that places a new task -/

theorem clusterAt_congr {a b : Partition} (count : a.count = b.count) (map : a.map = b.map) (v : Nat) : clusterAt a v = clusterAt b v := by
  unfold clusterAt
  rw [count, map]

theorem SamePlaces.placeNew (h : SamePlaces s t) (k : Task) : placeNew t k = placeNew s k := by
  obtain ⟨ps, rfl, same⟩ := h
  have best : bestOf { s with parts := ps } k = bestOf s k := by
    funext best v
    unfold bestOf
    rw [show clusterAt (({ s with parts := ps } : State).part k.part) v = _ from clusterAt_congr (same k.part).1 (same k.part).2 v]
    rfl
  rw [placeNew_eq, placeNew_eq, best]
  exact congrArg (fun n => (List.range n).foldl _ _) (same k.part).1

theorem place_new {r : Nat × Nat × List Nat} (eligible : (s.task tid).phase = .eligible) (placed : placeNew s (s.task tid) = some r) :
    place tid s = startGang tid r.1 r.2.1 r.2.2 s := by
  unfold place
  dsimp only
  rw [if_pos eligible, placed]

/-- R324: what is said of pointer and deficits speaks of the partition alone. -/
theorem PointerAt.congr {f : Nat} (h : PointerAt s t p f k) (same : u.part p = t.part p) : PointerAt s u p f k := by
  unfold PointerAt at h ⊢
  rw [same]
  exact h

theorem startGang_parts : (startGang tid vcn q cores s).parts = s.parts := (startGang_only (cores := cores)).parts

theorem startGang_part : (startGang tid vcn q cores s).part p = s.part p := congrArg (fun t => tget t p ({} : Partition)) startGang_parts

/-- R15, R16: what starting a gang does to tasks and other contexts. -/
theorem startGang_task : (startGang tid vcn q cores s).task tid =
    { s.task tid with phase := .placed, vcn := vcn, members := (List.range cores.length).map (s.nextId + ·), residentAt := s.gtime
                      holdsSlot := false } := by
  have only := startGang_only (s := s) (tid := tid) (vcn := vcn) (q := q) (cores := cores)
  have same : (forEach cores.zipIdx (startMember s tid vcn q cores) { s with nextId := s.nextId + cores.length }).task tid = s.task tid :=
    congrArg (fun t => tget t tid ({} : Task)) only.tasks
  rw [startGang_eq]
  dsimp only
  rw [modTask_self, same, only.gtime]
  simp only [stride, Nat.one_mul]

theorem startGang_task_other {j : Nat} (other : j ≠ tid) : (startGang tid vcn q cores s).task j = s.task j :=
  (modTask_other other ..).trans (congrArg (fun t => tget t j ({} : Task)) (startGang_only (cores := cores)).tasks)

theorem startGang_nextId : (startGang tid vcn q cores s).nextId = s.nextId + cores.length := startGang_only.nextId

theorem startGang_ctx (old : c < s.nextId) : (startGang tid vcn q cores s).ctx c = s.ctx c :=
  (startGang_only (cores := cores)).ctx c (Nat.not_le.2 old)

theorem dispatch_new {f v : Nat} (chosen : Chosen s p f tid k) (eligible : k.phase = .eligible) (placed : placeNew s k = some (v, q, cores))
    (hv : v < 32768) (quiet : ∀ c ∈ cores, (s.core (q * 8 + c)).events = []) :
    ∃ t, exec (.dispatchOpportunity p) s = .next t ∧ t.nextId = s.nextId + k.n ∧ PointerAt s t p f k ∧
      (t.part p).dispatches = (s.part p).dispatches + 1 ∧ (t.part p).lastDispatch = s.gtime ∧
      t.task tid = { k with phase := .placed, vcn := v, members := (List.range k.n).map (s.nextId + ·), residentAt := s.gtime, holdsSlot := false } ∧
      (∀ j, j ≠ tid → t.task j = s.task j) ∧ (∀ c, c < s.nextId → t.ctx c = s.ctx c) ∧
      ∀ i core, cores[i]? = some core → Started s t tid k v q cores i core (t.ctx (s.nextId + i)) ∧
        (t.core (q * 8 + core)).lastPart = some p := by
  obtain ⟨u, run, places, pointer, counts, last⟩ := dispatch_chosen chosen
  obtain ⟨rfl, rfl, -⟩ := chosen.task
  obtain ⟨length, nodup, small⟩ := placeNew_cores placed
  have placedU := (places.placeNew (s.task tid)).trans placed
  obtain ⟨ps, rfl, -⟩ := places
  rw [place_new (s := { s with parts := ps }) eligible placedU] at run
  refine ⟨_, run, ?_, pointer.congr startGang_part, ?_, ?_, ?_, fun j hj => startGang_task_other hj, fun c hc => startGang_ctx hc,
    fun i core at_ => ?_⟩
  · rw [startGang_nextId, length]
  · rw [startGang_part, counts]
  · rw [startGang_part, last]
  · rw [startGang_task, length]
    rfl
  · obtain ⟨started, lastPart⟩ := startGang_started (s := { s with parts := ps }) (tid := tid) hv nodup small quiet at_
    exact ⟨{ started with }, lastPart⟩

end Sys2Proof.Claim
end

section
/-! SUPPORT. Saved gangs are placed again (R19, R325). -/

namespace Sys2Proof.Claim
open Sys2Proof.Machine

variable {s t u : State} {k : Task} {q c c' m m' p tid : Nat} {im : Image}

theorem OnlyCores.trans (a : OnlyCores s t) (b : OnlyCores t u) : OnlyCores s u := by
  obtain ⟨_, _, _, _, rfl⟩ := a
  obtain ⟨_, _, _, _, rfl⟩ := b
  exact ⟨_, _, _, _, rfl⟩

theorem modCore_only (g : Nat) (f : Core → Core) : OnlyCores s (modCore g f s) := ⟨_, _, _, _, rfl⟩

theorem placeSram_only (key n : Nat) : OnlyCores s (placeSram key n im s) := ⟨_, _, _, _, rfl⟩

theorem takeBanks_only (g m : Nat) (lb : BitVec 2) : OnlyCores s (takeBanks g m lb s) := ⟨_, _, _, _, rfl⟩

/-! ### A saved member -/

/-- R64: the core of a cluster on which a member stands. -/
def seatOf (h : Ctx) : Nat := h.gcn % 8

theorem seatOf_lt (h : Ctx) : seatOf h < 8 := Nat.mod_lt _ (by decide)

/-- R334: a member that comes back to another cluster gives up the banks of its old core. -/
def leftBanks (c q : Nat) (s : State) : State :=
  if q * 8 + seatOf (s.ctx c) = (s.ctx c).gcn then s else modCore (s.ctx c).gcn (dropBanks c) s

/-- R19, R244: the scratchpad, the array contents and the banks of a member stand on its core again. -/
def seatSaved (c q : Nat) (im : Image) (s : State) : State :=
  let h := s.ctx c
  let g := q * 8 + seatOf h
  takeBanks g c h.eng.arr.lb (modCore g (fun k => { k with rows := im.rows, tags := im.tags })
    (placeSram (padKey q (seatOf h)) 0x8000 im (enterCore g h.part (leftBanks c q s))))

/-- R19, R158: the context of a member that is restored. -/
def restored (g t : Nat) (h : Ctx) : Ctx := { h with image := none, resident := true, gcn := g, wait := rewait t h.wait }

theorem restored_gcn {g t : Nat} {h : Ctx} : (restored g t h).gcn = g := rfl

theorem seatSaved_mem : (seatSaved c q im s).mem = (placeSram (padKey q (seatOf (s.ctx c))) 0x8000 im
    (enterCore (q * 8 + seatOf (s.ctx c)) (s.ctx c).part (leftBanks c q s))).mem := rfl

theorem seatSaved_fe : (seatSaved c q im s).fe = (placeSram (padKey q (seatOf (s.ctx c))) 0x8000 im
    (enterCore (q * 8 + seatOf (s.ctx c)) (s.ctx c).part (leftBanks c q s))).fe := rfl

theorem placeSram_core (key n g : Nat) : (placeSram key n im s).core g = s.core g := rfl

theorem seatSaved_core : ∃ b, (seatSaved c q im s).core (q * 8 + seatOf (s.ctx c)) =
    { (enterCore (q * 8 + seatOf (s.ctx c)) (s.ctx c).part (leftBanks c q s)).core (q * 8 + seatOf (s.ctx c)) with
      rows := im.rows, tags := im.tags, accBanks := b } := by
  unfold seatSaved
  dsimp only
  obtain ⟨b, core⟩ := takeBanks_core (q * 8 + seatOf (s.ctx c)) c (s.ctx c).eng.arr.lb
    (modCore (q * 8 + seatOf (s.ctx c)) (fun k => { k with rows := im.rows, tags := im.tags })
      (placeSram (padKey q (seatOf (s.ctx c))) 0x8000 im (enterCore (q * 8 + seatOf (s.ctx c)) (s.ctx c).part (leftBanks c q s))))
  rw [modCore_self, placeSram_core] at core
  exact ⟨b, core⟩

theorem leftBanks_only : OnlyCores s (leftBanks c q s) := by
  unfold leftBanks
  split
  · exact ⟨_, _, _, _, rfl⟩
  · exact modCore_only ..

theorem heldAt_leftBanks : heldAt q c' m' (leftBanks c q s) = heldAt q c' m' s := by
  unfold leftBanks
  split
  · rfl
  · exact heldAt_banks fun _ => rfl

theorem seatSaved_only : OnlyCores s (seatSaved c q im s) :=
  (leftBanks_only.trans (enterCore_only.trans (placeSram_only ..))).trans ((modCore_only ..).trans (takeBanks_only ..))

theorem OnlyCores.ctx (h : OnlyCores s t) (c : Nat) : t.ctx c = s.ctx c := by
  obtain ⟨_, _, _, _, rfl⟩ := h
  rfl

theorem OnlyCores.gtime (h : OnlyCores s t) : t.gtime = s.gtime := by
  obtain ⟨_, _, _, _, rfl⟩ := h
  rfl

theorem restoreCtx_image (saved : (s.ctx c).image = some im) :
    restoreCtx c q s = takeEvents c (modCtx c (restored (q * 8 + seatOf (s.ctx c)) s.gtime) (seatSaved c q im s)) := by
  have core : coreOf (q * 8 + coreOf (s.ctx c).gcn) = seatOf (s.ctx c) := by
    unfold coreOf seatOf
    omega
  rw [← (seatSaved_only (s := s) (c := c) (q := q) (im := im)).gtime]
  unfold restoreCtx
  dsimp only
  rw [saved]
  dsimp only
  rw [core]
  rfl

/-- R19: what stands on the core of a member that is seated. -/
structure Seated (s t : State) (q c : Nat) (im : Image) : Prop where
  pad : ∀ a, a < 0x8000 → readByte t.mem (padKey q c + a) = readByte im.pad a
  full : ∀ w, w < 0x1000 → tget t.fe (padKey q c / 8 + w) false = im.fe.contains w
  rows : (t.core (q * 8 + c)).rows = im.rows
  tags : (t.core (q * 8 + c)).tags = im.tags
  events : (t.core (q * 8 + c)).events = (s.core (q * 8 + c)).events

theorem Seated.modCtx (h : Seated s t q c im) (f : Ctx → Ctx) : Seated s (modCtx m f t) q c im :=
  ⟨h.pad, h.full, h.rows, h.tags, h.events⟩

theorem Seated.congr {v : State} (h : Seated s t q c im) (before : heldAt q c m s = heldAt q c m u)
    (after : heldAt q c m v = heldAt q c m t) : Seated u v q c im :=
  ⟨fun a ha => (held_pad after ha).trans (h.pad a ha), fun w hw => (held_full after hw).trans (h.full w hw),
    (held_rows after).trans h.rows, (held_tags after).trans h.tags, (held_events after).trans (h.events.trans (held_events before))⟩

theorem seatSaved_seated (fits : Fits im) : Seated s (seatSaved c q im s) q (seatOf (s.ctx c)) im := by
  have entered := enterCore_entered (s := leftBanks c q s) (q := q) (p := (s.ctx c).part) (seatOf_lt (s.ctx c))
  have quiet : ((leftBanks c q s).core (q * 8 + seatOf (s.ctx c))).events = (s.core (q * 8 + seatOf (s.ctx c))).events :=
    held_events (m := 0) heldAt_leftBanks
  obtain ⟨b, core⟩ := seatSaved_core (s := s) (c := c) (q := q) (im := im)
  refine ⟨fun a ha => ?_, fun w hw => ?_, by rw [core], by rw [core], ?_⟩
  · rw [seatSaved_mem, placeSram_pad fits ha]
  · rw [seatSaved_fe, placeSram_full hw]
  · rw [core]
    exact entered.events.trans quiet

theorem heldAt_restoreCtx (saved : (s.ctx c).image = some im) (fits : Fits im) (core : c' ≠ seatOf (s.ctx c)) (member : m' ≠ c) :
    heldAt q c' m' (restoreCtx c q s) = heldAt q c' m' s := by
  have at_ : ((modCtx c (restored (q * 8 + seatOf (s.ctx c)) s.gtime) (seatSaved c q im s)).ctx c).gcn = q * 8 + seatOf (s.ctx c) := by
    rw [modCtx_same, seatSaved_only.ctx]
    rfl
  rw [restoreCtx_image saved, heldAt_takeEvents member core at_, heldAt_modCtx member]
  unfold seatSaved
  dsimp only
  rw [heldAt_takeBanks, heldAt_modCore core, heldAt_placeSram fits core, heldAt_enterCore (seatOf_lt _) core, heldAt_leftBanks]

/-- R351: with no EVENT code left on the core, a member comes back with none. -/
theorem restoreCtx_quiet (saved : (s.ctx c).image = some im) (fits : Fits im)
    (quiet : (s.core (q * 8 + seatOf (s.ctx c))).events = []) :
    restoreCtx c q s = modCtx c (restored (q * 8 + seatOf (s.ctx c)) s.gtime) (seatSaved c q im s) := by
  rw [restoreCtx_image saved]
  refine takeEvents_none ?_
  rw [modCtx_same, seatSaved_only.ctx, restored_gcn, modCtx_core, (seatSaved_seated fits).events]
  exact quiet

variable {named : Nat → Prop}

theorem restoreCtx_only (hc : named c) : OnlyHarts named s (restoreCtx c q s) := by
  cases saved : (s.ctx c).image with
  | none =>
    unfold restoreCtx
    dsimp only
    rw [saved]
    exact .refl s
  | some im =>
    rw [restoreCtx_image saved]
    exact seatSaved_only.onlyHarts.trans (.trans (.modCtx hc _) (.takeEvents hc))

/-! ### A saved gang -/

theorem restoreGang_eq (tid q : Nat) (s : State) : restoreGang tid q s =
    let t := forEach (s.task tid).members (fun c s => restoreCtx c q s) s
    modTask tid (fun k => { k with phase := if k.phase = .ending then .ending else .placed, residentAt := t.gtime }) t := rfl

theorem restoreGang_only : OnlyHarts (· ∈ (s.task tid).members) s (forEach (s.task tid).members (fun c s => restoreCtx c q s) s) :=
  .forEach fun _ hc _ => restoreCtx_only hc

theorem restoreGang_task (evicted : (s.task tid).phase = .evicted) :
    (restoreGang tid q s).task tid = { s.task tid with phase := .placed, residentAt := s.gtime } := by
  have only := restoreGang_only (s := s) (tid := tid) (q := q)
  have same : (forEach (s.task tid).members (fun c s => restoreCtx c q s) s).task tid = s.task tid :=
    congrArg (fun t => tget t tid ({} : Task)) only.tasks
  rw [restoreGang_eq]
  dsimp only
  rw [modTask_self, same, only.gtime, evicted]
  rfl

theorem restoreGang_task_other {j : Nat} (other : j ≠ tid) : (restoreGang tid q s).task j = s.task j :=
  (modTask_other other ..).trans (congrArg (fun t => tget t j ({} : Task)) restoreGang_only.tasks)

theorem restoreGang_part : (restoreGang tid q s).part p = s.part p :=
  congrArg (fun t => tget t p ({} : Partition)) (restoreGang_only (tid := tid) (q := q)).parts

/-- R19: a member of a gang that is restored. -/
theorem restoreGang_member (distinct : (s.task tid).members.Nodup)
    (seats : ((s.task tid).members.map fun m => (s.ctx m).gcn % 8).Nodup)
    (saved : ∀ m ∈ (s.task tid).members, (s.core (q * 8 + (s.ctx m).gcn % 8)).events = [] ∧ ∃ im, (s.ctx m).image = some im ∧ Fits im)
    (hm : m ∈ (s.task tid).members) (image : (s.ctx m).image = some im) :
    (restoreGang tid q s).ctx m = restored (q * 8 + seatOf (s.ctx m)) s.gtime (s.ctx m) ∧
      Seated s (restoreGang tid q s) q (seatOf (s.ctx m)) im := by
  obtain ⟨u, before, after⟩ := forEach_each (f := fun c s => restoreCtx c q s) (s := s)
    (view := fun m => heldAt q (seatOf (s.ctx m)) m) (was := fun m => heldAt q (seatOf (s.ctx m)) m s) hm (fun _ _ => rfl) distinct
    fun b hb u was x hx other => by
      obtain ⟨-, im, image, fits⟩ := saved b hb
      have ctx := held_ctx was
      have apart : seatOf (s.ctx x) ≠ seatOf (s.ctx b) := fun e => other (List.inj_on_of_nodup_map seats hx hb e)
      exact heldAt_restoreCtx (by rw [ctx, image]) fits (by rw [ctx]; exact apart) other
  obtain ⟨quiet, im', image', fits⟩ := saved m hm
  obtain rfl : im' = im := Option.some.inj (image'.symm.trans image)
  have ctx := held_ctx before
  have imageU : (u.ctx m).image = some im' := by rw [ctx, image]
  have quietU : (u.core (q * 8 + seatOf (u.ctx m))).events = [] := by
    rw [ctx]
    exact (held_events before).trans quiet
  rw [restoreCtx_quiet imageU fits quietU] at after
  have after : heldAt q (seatOf (s.ctx m)) m (restoreGang tid q s) =
    heldAt q (seatOf (s.ctx m)) m (modCtx m (restored (q * 8 + seatOf (u.ctx m)) u.gtime) (seatSaved m q im' u)) := after
  have seated := (seatSaved_seated (s := u) (c := m) (q := q) fits).modCtx (m := m) (restored (q * 8 + seatOf (u.ctx m)) u.gtime)
  rw [ctx] at seated after
  refine ⟨?_, seated.congr before after⟩
  rw [held_ctx after, modCtx_same, seatSaved_only.ctx, ctx, held_gtime before]

/-! ### A dispatch opportunity that places a saved gang -/

theorem SamePlaces.placeOld (h : SamePlaces s t) (k : Task) : placeOld t k = placeOld s k := by
  obtain ⟨ps, rfl, same⟩ := h
  unfold Machine.placeOld
  rw [show clusterAt (({ s with parts := ps } : State).part k.part) k.vcn = _ from clusterAt_congr (same k.part).1 (same k.part).2 k.vcn]
  rfl

theorem place_old (evicted : (s.task tid).phase = .evicted) (placed : placeOld s (s.task tid) = some q) :
    place tid s = restoreGang tid q s := by
  unfold place
  dsimp only
  rw [if_neg (by rw [evicted]; decide), placed]

theorem rewait_other {t : Nat} {w : Wait} (h : isLds w = false) : rewait t w = w := by
  cases w with
  | lds => nomatch h
  | _ => rfl

theorem dispatch_old {f : Nat} (chosen : Chosen s p f tid k) (evicted : k.phase = .evicted) (placed : placeOld s k = some q)
    (distinct : k.members.Nodup) (seats : (k.members.map fun m => (s.ctx m).gcn % 8).Nodup)
    (saved : ∀ m ∈ k.members, (s.core (q * 8 + (s.ctx m).gcn % 8)).events = [] ∧ ∃ im, (s.ctx m).image = some im ∧ Fits im) :
    ∃ t, exec (.dispatchOpportunity p) s = .next t ∧ t.nextId = s.nextId ∧ PointerAt s t p f k ∧
      (t.part p).dispatches = (s.part p).dispatches + 1 ∧ (t.part p).lastDispatch = s.gtime ∧
      t.task tid = { k with phase := .placed, residentAt := s.gtime } ∧ (∀ j, j ≠ tid → t.task j = s.task j) ∧
      (∀ c, c ∉ k.members → t.ctx c = s.ctx c) ∧
      ∀ m ∈ k.members, ∀ im, (s.ctx m).image = some im → t.ctx m = restored (q * 8 + seatOf (s.ctx m)) s.gtime (s.ctx m) ∧ Seated s t q (seatOf (s.ctx m)) im := by
  obtain ⟨u, run, places, pointer, counts, last⟩ := dispatch_chosen chosen
  obtain ⟨rfl, rfl, -⟩ := chosen.task
  have placedU := (places.placeOld (s.task tid)).trans placed
  obtain ⟨ps, rfl, -⟩ := places
  rw [place_old (s := { s with parts := ps }) evicted placedU] at run
  refine ⟨_, run, restoreGang_only.nextId, pointer.congr restoreGang_part, ?_, ?_, restoreGang_task (s := { s with parts := ps }) evicted,
    fun j hj => restoreGang_task_other hj, fun c hc => restoreGang_only.ctx c hc, fun m hm im image => ?_⟩
  · rw [restoreGang_part, counts]
  · rw [restoreGang_part, last]
  · obtain ⟨ctx, seated⟩ := restoreGang_member (s := { s with parts := ps }) (tid := tid) distinct seats saved hm image
    exact ⟨ctx, { seated with }⟩

end Sys2Proof.Claim
end

section
open Sys2Proof Sys2Proof.Machine Sys2Proof.Claim

theorem Sys2Proof.Claim.dispatch : Claim.Dispatch := by
  unfold Claim.Dispatch
  refine ⟨fun s p f tid k v q cores chosen eligible placed hv quiet => dispatch_new chosen eligible placed hv quiet,
    fun s p f tid k q _ chosen evicted placed distinct seats saved => ?_, fun s p h => exec_dispatchOpportunity_left h⟩
  have fits (m : Nat) (hm : m ∈ k.members) :
      (s.core (q * 8 + (s.ctx m).gcn % 8)).events = [] ∧ ∃ im, (s.ctx m).image = some im ∧ Fits im := by
    obtain ⟨quiet, im, image, wf, pad, fe⟩ := saved m hm
    unfold Memory.wf at wf
    rw [Bool.and_eq_true, decide_eq_true_eq] at wf
    exact ⟨quiet, im, image, wf.1, pad, fe⟩
  obtain ⟨t, run, nextId, pointer, counts, last, task, others, frame, members⟩ := dispatch_old chosen evicted placed distinct seats fits
  refine ⟨t, run, nextId, pointer, counts, last, task, others, frame, fun m hm im image => ?_⟩
  obtain ⟨ctx, pad, full, rows, tags, -⟩ := members m hm im image
  dsimp only
  rw [ctx]
  exact ⟨rfl, rfl, rfl, rfl, fun no => rewait_other no, pad, full, rows, tags⟩

/-- Settles O56: a dispatch opportunity places the candidate that the order names, and no other. -/
theorem dispatching : Obligations.Dispatching := by
  unfold Obligations.Dispatching
  exact ⟨Claim.taskPlacement, Claim.dispatch⟩
end

section
/-! SUPPORT. Rounding of values that a format represents (R35, R36, R42): the encoding is found again, and no flag is set. -/

namespace Sys2Proof.Claim
open Sys2Proof.Machine

variable {f : Fmt} {mode k m n g x z : Nat} {s : Bool} {e d q : Int} {v : ℚ}

/-! ### Naturals times powers of two -/

/-- Equal values under an exponent that is not above the other differ by a power of two that is a natural number. -/
theorem mul_two_pow_of_scaled_eq (h : (m : ℚ) * 2 ^ e = n * 2 ^ d) (hd : d ≤ e) : m * 2 ^ (e - d).toNat = n := by
  have split : (2 : ℚ) ^ e = 2 ^ (e - d).toNat * 2 ^ d := by
    rw [← zpow_natCast, Int.toNat_of_nonneg (by omega), ← zpow_add₀ two_ne_zero]
    congr 1
    omega
  rw [split, ← mul_assoc] at h
  exact_mod_cast mul_right_cancel₀ (zpow_ne_zero d two_ne_zero) h

theorem log2_mul_two_pow (hm : m ≠ 0) (k : Nat) : Nat.log2 (m * 2 ^ k) = Nat.log2 m + k := by
  induction k with
  | zero => simp
  | succ k ih =>
    rw [pow_succ, ← mul_assoc, Nat.log2_eq_log_two, Nat.log_mul_base one_lt_two (by positivity), ← Nat.log2_eq_log_two, ih, add_assoc]

/-- The place of the leading bit is a matter of the value alone. -/
theorem add_log2_of_scaled_eq (h : (m : ℚ) * 2 ^ e = n * 2 ^ d) (hm : m ≠ 0) (hn : n ≠ 0) : e + Nat.log2 m = d + Nat.log2 n := by
  obtain hd | he := le_total d e
  · have := log2_mul_two_pow hm (e - d).toNat
    rw [mul_two_pow_of_scaled_eq h hd] at this
    omega
  · have := log2_mul_two_pow hn (d - e).toNat
    rw [mul_two_pow_of_scaled_eq h.symm he] at this
    omega

/-- Rounding to units of which the value is a multiple leaves it as it is. -/
theorem roundQ_of_scaled_eq (h : (m : ℚ) * 2 ^ e = k * 2 ^ q) : roundQ mode s m e q false = (k, false) := by
  have quantised : quantise m e q false = (k, 0) := by
    unfold quantise
    split
    · next le => rw [mul_two_pow_of_scaled_eq h le]; rfl
    · next gt =>
      have whole := mul_two_pow_of_scaled_eq h.symm (by omega : e ≤ q)
      simp [← whole]
  simp [roundQ, quantised, roundUp]

/-! ### Encodings of finite values -/

/-- R35, R36: what the model's formats have in common. -/
structure SoundFmt (f : Fmt) : Prop where
  ew : 1 ≤ f.ew
  width : f.width ≤ 64
  e4 : f.e4 = true → f.ew = 4 ∧ f.fw = 3
  /-- Only zero is encoded by zeros under the sign. -/
  zero : ∀ s, fdec f (withSign f s 0) = .fin s 0 (f.emin - f.fw)

theorem fmtOf_sound {code : Nat} (lo : 8 ≤ code) (hi : code ≤ 13) : SoundFmt (fmtOf code) := by
  interval_cases code <;> exact ⟨by decide, by decide, by decide, by decide⟩

/-- R35, R36: the bits `g` under the sign encode the finite magnitude `m × 2^e`. The exponent field of all ones holds no finite value,
but in E4, where it holds all but the NaN. -/
inductive Magnitude (f : Fmt) : (g m : Nat) → (e : Int) → Prop
  | subnormal (fr : Nat) (frac : fr < 2 ^ f.fw) : Magnitude f fr fr (f.emin - f.fw)
  | normal (ex fr : Nat) (frac : fr < 2 ^ f.fw) (pos : 1 ≤ ex) (notTop : f.e4 = false → ex + 1 < 2 ^ f.ew)
      (notNan : f.e4 = true → ex < 2 ^ f.ew ∧ ¬(ex = 15 ∧ fr = 7)) :
      Magnitude f (ex * 2 ^ f.fw + fr) (fr + 2 ^ f.fw) (ex - f.bias - f.fw)

/-- The sign is bit `ew + fw` of an encoding. -/
theorem withSign_of_lt (hx : x < 2 ^ f.width) :
    withSign f (decide (x / 2 ^ (f.ew + f.fw) % 2 = 1)) (x / 2 ^ f.fw % 2 ^ f.ew * 2 ^ f.fw + x % 2 ^ f.fw) = x := by
  have sign : x / 2 ^ (f.ew + f.fw) < 2 := by
    rw [Nat.div_lt_iff_lt_mul (by positivity), ← pow_succ']
    rwa [Fmt.width, show 1 + f.ew + f.fw = f.ew + f.fw + 1 by omega] at hx
  have frac := Nat.div_add_mod' x (2 ^ f.fw)
  have exp := Nat.div_add_mod' (x / 2 ^ f.fw) (2 ^ f.ew)
  rw [Nat.div_div_eq_div_mul, ← pow_add, Nat.add_comm f.fw] at exp
  obtain zero | one := Nat.le_one_iff_eq_zero_or_eq_one.1 (Nat.le_of_lt_succ sign)
  · rw [zero, Nat.zero_mul, Nat.zero_add] at exp
    simp [withSign, zero, exp, frac]
  · rw [one, Nat.one_mul] at exp
    rw [withSign, one, if_pos (by decide), ← Nat.add_assoc, pow_add, ← Nat.add_mul, exp, frac]

/-- An encoding of a finite value is its sign above its magnitude. -/
theorem magnitude_of_fdec (hx : x < 2 ^ f.width) (h : fdec f x = .fin s m e) : ∃ g, x = withSign f s g ∧ Magnitude f g m e := by
  have whole := withSign_of_lt hx
  have frac : x % 2 ^ f.fw < 2 ^ f.fw := Nat.mod_lt _ (by positivity)
  have exp : x / 2 ^ f.fw % 2 ^ f.ew < 2 ^ f.ew := Nat.mod_lt _ (by positivity)
  unfold fdec at h
  dsimp only at h
  generalize decide (x / 2 ^ (f.ew + f.fw) % 2 = 1) = sg at whole h
  generalize x % 2 ^ f.fw = fr at whole h frac
  generalize x / 2 ^ f.fw % 2 ^ f.ew = ex at whole h exp
  split at h
  · cases h
  split at h
  · next e4 =>
    split at h
    · cases h
    · next notNan =>
      split at h
      · next zero =>
        cases h
        exact ⟨_, by simpa [zero] using whole.symm, .subnormal _ frac⟩
      · next pos =>
        cases h
        exact ⟨_, whole.symm, .normal ex fr frac (by omega) (by simp [e4]) fun _ => ⟨exp, notNan⟩⟩
  · next e4 =>
    split at h
    · split at h <;> cases h
    · next notTop =>
      split at h
      · next zero =>
        cases h
        exact ⟨_, by simpa [zero] using whole.symm, .subnormal _ frac⟩
      · next pos =>
        cases h
        exact ⟨_, whole.symm, .normal ex fr frac (by omega) (fun _ => by omega) (by simp [e4])⟩

/-! ### Rounding (R42) -/

theorem log2_of_normal {fr w : Nat} (frac : fr < 2 ^ w) : Nat.log2 (fr + 2 ^ w) = w := by
  rw [Nat.log2_eq_iff (by positivity), pow_succ]
  omega

/-- A magnitude is a multiple of the unit in which its format rounds it. -/
theorem Magnitude.unit (h : Magnitude f g m e) (hm : m ≠ 0) :
    max (e + Nat.log2 m - f.fw) (f.emin - f.fw) = e := by
  cases h with
  | subnormal _ frac =>
    have : Nat.log2 m < f.fw := (Nat.log2_lt hm).2 frac
    omega
  | normal ex fr frac pos =>
    rw [log2_of_normal frac, Fmt.emin]
    omega

/-- R35: a magnitude with the leading bit of a normal value is in the range of its format. -/
theorem Magnitude.inRange (h : Magnitude f g m e) (hf : SoundFmt f) (big : 2 ^ f.fw ≤ m) :
    e + f.fw ≤ f.emax ∧ (f.e4 = true → e + f.fw = 8 → m ≠ 15) := by
  cases h with
  | subnormal _ frac => omega
  | normal ex fr frac pos notTop notNan =>
    unfold Fmt.emax Fmt.bias
    cases e4 : f.e4 with
    | false =>
      have top := notTop e4
      rw [← Nat.sub_add_cancel hf.ew, pow_succ] at top
      simp only [Bool.false_eq_true, if_false, false_implies, and_true]
      omega
    | true =>
      obtain ⟨ew, fw⟩ := hf.e4 e4
      have := notNan e4
      simp only [ew, fw, if_true] at this ⊢
      omega

/-- R35, R36: the exponent field and fraction of a normal value, from its magnitude. -/
theorem Magnitude.bits_eq (h : Magnitude f g m e) :
    (if m < 2 ^ f.fw then m else (e + f.fw + f.bias).toNat * 2 ^ f.fw + (m - 2 ^ f.fw)) = g := by
  cases h with
  | subnormal _ frac => rw [if_pos frac]
  | normal ex fr =>
    rw [if_neg (by omega), show (ex : Int) - f.bias - f.fw + f.fw + f.bias = ex by omega, Int.toNat_natCast, Nat.add_sub_cancel]

theorem Magnitude.lt (h : Magnitude f g m e) : m < 2 ^ (f.fw + 1) := by
  rw [pow_succ]
  cases h <;> omega

/-- R42: a value that the format represents is rounded to its encoding, with no flag, in whatever way it is written as a
natural number times a power of two. -/
theorem roundTo_of_magnitude (hf : SoundFmt f) (h : Magnitude f g n d) (hn : n ≠ 0) (hv : (m : ℚ) * 2 ^ e = n * 2 ^ d) :
    roundTo f mode false s m e false = (withSign f s g, 0) := by
  have hm : m ≠ 0 := by
    rintro rfl
    simp [hn, zpow_ne_zero] at hv
  have fits : (decide (2 ^ f.fw ≤ n) && (decide (f.emax < d + f.fw) || (f.e4 && decide (d + f.fw = 8) && decide (n = 15)))) = false := by
    by_cases big : 2 ^ f.fw ≤ n
    · obtain ⟨top, last⟩ := h.inRange hf big
      simp only [Int.not_lt.2 top, decide_false, Bool.false_or, Bool.and_eq_false_imp, Bool.and_eq_true, decide_eq_true_eq,
        decide_eq_false_iff_not, and_imp]
      exact fun _ => last
    · simp [big]
  simp only [roundTo, if_neg hm, add_log2_of_scaled_eq hv hm hn, h.unit hn, roundQ_of_scaled_eq hv, if_neg h.lt.ne, fits,
    h.bits_eq, bit, Bool.false_eq_true, Bool.and_false, Bool.false_and, if_false]

end Sys2Proof.Claim
end

section
open Sys2Proof Sys2Proof.Machine Sys2Proof.Claim

/-- Settles O1: a value that the format represents is a multiple of the unit in which it is rounded. -/
theorem representableIsExact : Obligations.RepresentableIsExact := by
  unfold Obligations.RepresentableIsExact
  intro code mode x s m e lo hi hx ⟨dec, hm⟩
  obtain ⟨g, rfl, mag⟩ := magnitude_of_fdec hx dec
  exact roundTo_of_magnitude (fmtOf_sound lo hi) mag hm rfl
end

section
/-!
SUPPORT. Arithmetic on finite values in rational numbers (R42, R44, R118, R121, R126): what an operation answers where the format
represents the exact result.
-/

namespace Sys2Proof.Claim
open Sys2Proof.Machine

variable {f : Fmt} {mode m n p k : Nat} {s t zs : Bool} {e d q : Int} {a b c : FVal} {x y z v : ℚ}

/-! ### Finite values as rational numbers -/

/-- (−1)^s × m × 2^e. -/
def finRat (s : Bool) (m : Nat) (e : Int) : ℚ := (if s then -1 else 1) * (m : ℚ) * 2 ^ e

theorem finRat_zero : finRat s 0 e = 0 := by simp [finRat]

theorem ratOf_fin : ratOf (.fin s m e) = some (finRat s m e) := rfl

theorem fin_of_ratOf (h : ratOf a = some x) : ∃ s m e, a = .fin s m e ∧ finRat s m e = x := by
  cases a with
  | fin s m e => exact ⟨s, m, e, rfl, Option.some.inj h⟩
  | poison | nan | inf => cases h

theorem finRat_neg : finRat (!s) m e = -finRat s m e := by
  cases s <;> simp [finRat]

theorem ratOf_neg (h : ratOf a = some x) : ratOf a.neg = some (-x) := by
  obtain ⟨s, m, e, rfl, rfl⟩ := fin_of_ratOf h
  rw [FVal.neg, ratOf_fin, finRat_neg]

theorem finRat_mul : finRat s m e * finRat t n d = finRat (s != t) (m * n) (e + d) := by
  simp only [finRat, zpow_add₀ (two_ne_zero' ℚ)]
  cases s <;> cases t <;> (push_cast; simp; ring)

theorem finRat_eq_zero : finRat s m e = 0 ↔ m = 0 := by
  cases s <;> simp [finRat, zpow_ne_zero]

theorem finRat_false : finRat false m e = (m : ℚ) * 2 ^ e := by simp [finRat]

theorem finRat_true : finRat true m e = -((m : ℚ) * 2 ^ e) := by simp [finRat]

theorem scaled_nonneg : (0 : ℚ) ≤ (m : ℚ) * 2 ^ e := by positivity

theorem abs_finRat : |finRat s m e| = (m : ℚ) * 2 ^ e := by
  cases s with
  | false => rw [finRat_false, abs_of_nonneg scaled_nonneg]
  | true => rw [finRat_true, abs_neg, abs_of_nonneg scaled_nonneg]

theorem finRat_neg_iff : finRat s m e < 0 ↔ s = true ∧ m ≠ 0 := by
  cases s with
  | false => simp [finRat_false, scaled_nonneg]
  | true => simp [finRat_true, scaled_nonneg.lt_iff_ne', zpow_ne_zero]

/-- Sign and magnitude of a value that is not zero are its own. -/
theorem finRat_inj (h : finRat t n d = finRat s m e) (hm : m ≠ 0) : t = s ∧ n ≠ 0 ∧ (m : ℚ) * 2 ^ e = n * 2 ^ d := by
  have hn : n ≠ 0 := by rwa [Ne, ← finRat_eq_zero (s := t) (e := d), h, finRat_eq_zero]
  refine ⟨?_, hn, ?_⟩
  · have : finRat t n d < 0 ↔ finRat s m e < 0 := by rw [h]
    exact Bool.eq_iff_iff.2 (by simpa [finRat_neg_iff, hm, hn] using this)
  · rw [← abs_finRat (s := s), ← h, abs_finRat]

/-- An integer times a power of two, as sign and magnitude. -/
theorem finRat_natAbs (i : Int) (e : Int) : finRat (decide (i < 0)) i.natAbs e = i * 2 ^ e := by
  obtain neg | nonneg := lt_or_ge i 0
  · rw [decide_eq_true neg, finRat_true, ← neg_mul]
    congr 1
    rw [Nat.cast_natAbs, abs_of_neg neg, Int.cast_neg, neg_neg]
  · rw [decide_eq_false (by omega), finRat_false]
    congr 1
    rw [Nat.cast_natAbs, abs_of_nonneg nonneg]

/-- An exact sum is the sum of its terms. -/
theorem exactAdd_value : ((exactAdd s m e t n d).1 : ℚ) * 2 ^ (exactAdd s m e t n d).2 = finRat s m e + finRat t n d := by
  have shift (k : Nat) (i : Int) (h : min e d ≤ i) : (k : ℚ) * 2 ^ (i - min e d).toNat * 2 ^ min e d = k * 2 ^ i := by
    rw [mul_assoc, ← zpow_natCast, Int.toNat_of_nonneg (by omega), ← zpow_add₀ two_ne_zero, sub_add_cancel]
  have left := shift m e (by omega)
  have right := shift n d (by omega)
  cases s <;> cases t <;> simp only [exactAdd, finRat_false, finRat_true, Bool.false_eq_true, if_true, if_false] <;>
    push_cast <;> linarith

/-! ### Results without a flag -/

/-- A result in a format is `v` exactly, and no flag goes with it. -/
structure Exactly (f : Fmt) (r : Nat × Nat) (v : ℚ) : Prop where
  value : ratIn f r.1 = some v
  flags : r.2 = 0
  fits : r.1 < 2 ^ f.width

theorem exactly_zero (hf : SoundFmt f) : Exactly f (withSign f s 0, 0) 0 where
  value := by rw [ratIn, hf.zero, ratOf_fin, finRat_zero]
  flags := rfl
  fits := by
    rw [Fmt.width, Nat.add_assoc, Nat.add_comm 1, withSign]
    split
    · exact Nat.pow_lt_pow_right (by omega) (by omega)
    · positivity

/-- R42: a value that the format represents is its own rounded result. -/
theorem exactly_roundTo (hf : SoundFmt f) (rep : Represents f (finRat s m e)) :
    Exactly f (roundTo f mode false s m e false) (finRat s m e) := by
  by_cases hm : m = 0
  · subst hm
    rw [finRat_zero]
    exact exactly_zero hf
  · obtain ⟨z, hz, value⟩ := rep
    obtain ⟨t, n, d, dec, eq⟩ := fin_of_ratOf value
    obtain ⟨rfl, hn, hv⟩ := finRat_inj eq hm
    obtain ⟨g, rfl, mag⟩ := magnitude_of_fdec hz dec
    rw [roundTo_of_magnitude hf mag hn hv]
    exact ⟨value, rfl, hz⟩

theorem exactly_roundInt {i : Int} (hf : SoundFmt f) (rep : Represents f (i * 2 ^ e)) :
    Exactly f (roundInt f mode false zs i e) (i * 2 ^ e) := by
  unfold roundInt
  split
  · next zero =>
    rw [zero, Int.cast_zero, zero_mul]
    exact exactly_zero hf
  · rw [← finRat_natAbs] at rep ⊢
    exact exactly_roundTo hf rep

/-! ### Operations (R118, R126) -/

theorem exactly_faddV (hf : SoundFmt f) (ha : ratOf a = some x) (hb : ratOf b = some y) (rep : Represents f (x + y)) :
    Exactly f (faddV f mode false a b) (x + y) := by
  obtain ⟨s, m, e, rfl, rfl⟩ := fin_of_ratOf ha
  obtain ⟨t, n, d, rfl, rfl⟩ := fin_of_ratOf hb
  rw [← exactAdd_value] at rep ⊢
  exact exactly_roundInt hf rep

theorem exactly_faddV_neg (hf : SoundFmt f) (ha : ratOf a = some x) (hb : ratOf b = some y) (rep : Represents f (x - y)) :
    Exactly f (faddV f mode false a b.neg) (x - y) := by
  rw [sub_eq_add_neg] at rep ⊢
  exact exactly_faddV hf ha (ratOf_neg hb) rep

theorem exactly_fmulV (hf : SoundFmt f) (ha : ratOf a = some x) (hb : ratOf b = some y) (rep : Represents f (x * y)) :
    Exactly f (fmulV f mode false a b) (x * y) := by
  obtain ⟨s, m, e, rfl, rfl⟩ := fin_of_ratOf ha
  obtain ⟨t, n, d, rfl, rfl⟩ := fin_of_ratOf hb
  rw [finRat_mul] at rep ⊢
  exact exactly_roundTo hf rep

theorem fmaV_fin : fmaV f mode false (.fin s m e) (.fin t n d) (.fin zs p q) =
    roundInt f mode false (if m * n = 0 ∧ p = 0 ∧ (s != t) = zs then s != t else decide (mode = 4))
      (exactAdd (s != t) (m * n) (e + d) zs p q).1 (exactAdd (s != t) (m * n) (e + d) zs p q).2 := by
  simp [fmaV, arith, FVal.isPoison, FVal.isNan, FVal.isInf, FVal.sign]

theorem exactly_fmaV (hf : SoundFmt f) (ha : ratOf a = some x) (hb : ratOf b = some y) (hc : ratOf c = some z)
    (rep : Represents f (x * y + z)) : Exactly f (fmaV f mode false a b c) (x * y + z) := by
  obtain ⟨s, m, e, rfl, rfl⟩ := fin_of_ratOf ha
  obtain ⟨t, n, d, rfl, rfl⟩ := fin_of_ratOf hb
  obtain ⟨u, p, q, rfl, rfl⟩ := fin_of_ratOf hc
  rw [finRat_mul, ← exactAdd_value] at rep ⊢
  rw [fmaV_fin]
  exact exactly_roundInt hf rep

theorem exactly_fmaV_neg (hf : SoundFmt f) (ha : ratOf a = some x) (hb : ratOf b = some y) (hc : ratOf c = some z)
    (rep : Represents f (x * y - z)) : Exactly f (fmaV f mode false a b c.neg) (x * y - z) := by
  rw [sub_eq_add_neg] at rep ⊢
  exact exactly_fmaV hf ha hb (ratOf_neg hc) rep

/-- R44: an integer that the format represents converts to it. -/
theorem exactly_cvtIF {i : Int} (hf : SoundFmt f) (rep : Represents f i) : Exactly f (cvtIF f mode false i) i := by
  have whole : (i : ℚ) * 2 ^ (0 : Int) = i := by simp
  rw [← whole] at rep ⊢
  exact exactly_roundInt hf rep

/-! ### Division -/

/-- A divisor whose quotient is a natural number times a power of two divides once its own powers of two are supplied. -/
theorem dvd_of_scaled_eq (h : (m : ℚ) * 2 ^ e = (p * n : Nat) * 2 ^ d) (hn : n ≠ 0) : n ∣ m * 2 ^ Nat.log2 n := by
  obtain ⟨i, dvd⟩ : ∃ i, n ∣ m * 2 ^ i := by
    obtain le | le := le_total d e
    · exact ⟨_, mul_two_pow_of_scaled_eq h le ▸ Dvd.intro_left p rfl⟩
    · exact ⟨0, by rw [pow_zero, mul_one, ← mul_two_pow_of_scaled_eq h.symm le]; exact Dvd.dvd.mul_right (Dvd.intro_left p rfl) _⟩
  obtain ⟨j, o, odd, rfl⟩ := Nat.exists_eq_two_pow_mul_odd hn
  have oddPart : o ∣ m := (odd.coprime_two_right.pow_right i).dvd_of_dvd_mul_right (dvd_of_mul_left_dvd dvd)
  have pos : 0 < o := Nat.pos_of_ne_zero (right_ne_zero_of_mul hn)
  rw [mul_comm m]
  exact mul_dvd_mul (pow_dvd_pow 2 ((Nat.le_log2 hn).2 (Nat.le_mul_of_pos_right _ pos))) oddPart

theorem finRat_div (dvd : n ∣ m * 2 ^ k) (hn : n ≠ 0) :
    finRat s m e / finRat t n d = finRat (s != t) (m * 2 ^ k / n) (e - d - k) := by
  have hy : finRat t n d ≠ 0 := mt finRat_eq_zero.1 hn
  rw [div_eq_iff hy, finRat_mul, Nat.div_mul_cancel dvd]
  have sign : ((s != t) != t) = s := by cases s <;> cases t <;> rfl
  rw [sign, show e - d - k + d = e - k by omega]
  simp only [finRat, zpow_sub₀ (two_ne_zero' ℚ), zpow_natCast]
  push_cast
  field_simp

theorem fdivV_fin (hn : n ≠ 0) : fdivV f mode (.fin s m e) (.fin t n d) =
    roundTo f mode false (s != t) (m * 2 ^ (2 * f.fw + 8 + Nat.log2 n) / n) (e - d - (2 * f.fw + 8 + Nat.log2 n : Nat))
      (decide (m * 2 ^ (2 * f.fw + 8 + Nat.log2 n) % n ≠ 0)) :=
  if_neg hn

/-- R118: a quotient that the format represents. -/
theorem exactly_fdivV (hf : SoundFmt f) (ha : ratOf a = some x) (hb : ratOf b = some y) (hy : y ≠ 0) (rep : Represents f (x / y)) :
    Exactly f (fdivV f mode a b) (x / y) := by
  obtain ⟨s, m, e, rfl, rfl⟩ := fin_of_ratOf ha
  obtain ⟨t, n, d, rfl, rfl⟩ := fin_of_ratOf hb
  have hn : n ≠ 0 := mt finRat_eq_zero.2 hy
  have dvd : n ∣ m * 2 ^ (2 * f.fw + 8 + Nat.log2 n) := by
    obtain ⟨z, -, value⟩ := rep
    obtain ⟨u, p, i, -, eq⟩ := fin_of_ratOf value
    rw [eq_div_iff hy, finRat_mul] at eq
    have scaled := congrArg abs eq
    rw [abs_finRat, abs_finRat] at scaled
    exact (dvd_of_scaled_eq scaled.symm hn).trans (mul_dvd_mul_left m (pow_dvd_pow 2 (by omega)))
  rw [finRat_div dvd hn] at rep ⊢
  rw [fdivV_fin hn, decide_eq_false (not_not_intro (Nat.mod_eq_zero_of_dvd dvd))]
  exact exactly_roundTo hf rep

/-! ### Square roots -/

/-- The root found bit by bit is the integer square root. -/
theorem isqrt_eq_sqrt {i r : Nat} (lo : r * r ≤ n) (hi : n < (r + 2 ^ i) * (r + 2 ^ i)) : isqrt i n r = Nat.sqrt n := by
  induction i generalizing r with
  | zero => exact Nat.eq_sqrt.2 ⟨lo, hi⟩
  | succ i ih =>
    rw [isqrt]
    split
    · next le => exact ih le (by rwa [add_assoc, ← two_mul, ← pow_succ'])
    · next gt => exact ih lo (Nat.lt_of_not_le gt)

theorem isqrt_log2 : isqrt (Nat.log2 n / 2 + 1) n 0 = Nat.sqrt n := by
  refine isqrt_eq_sqrt (Nat.zero_le n) ?_
  rw [Nat.zero_add, ← pow_add]
  exact Nat.lt_log2_self.trans_le (Nat.pow_le_pow_right (by omega) (by omega))

/-- The power of two that the model supplies to a radicand, which makes its exponent even. -/
def rootScale (f : Fmt) (e : Int) : Nat := 2 * f.fw + 8 + (if e % 2 = 0 then 0 else 1)

theorem rootScale_even (f : Fmt) (e : Int) : e - rootScale f e = 2 * ((e - rootScale f e) / 2) := by
  unfold rootScale
  split <;> omega

theorem fsqrtV_fin (hm : m ≠ 0) : fsqrtV f mode (.fin false m e) =
    roundTo f mode false false (Nat.sqrt (m * 2 ^ rootScale f e)) ((e - rootScale f e) / 2)
      (decide (Nat.sqrt (m * 2 ^ rootScale f e) * Nat.sqrt (m * 2 ^ rootScale f e) ≠ m * 2 ^ rootScale f e)) := by
  rw [← isqrt_log2]
  exact if_neg hm

/-- A radicand with a rational root is a square once its exponent is even. -/
theorem root_of_scaled_eq {r : ℚ} {j : Int} (hr : 0 ≤ r) (square : r * r = m * 2 ^ e) (even : e - k = 2 * j) :
    ∃ y, m * 2 ^ k = y * y ∧ finRat false y j = r := by
  have root : ((m * 2 ^ k : Nat) : ℚ) = r * 2 ^ (-j) * (r * 2 ^ (-j)) := by
    rw [mul_mul_mul_comm, square, mul_assoc, ← zpow_add₀ two_ne_zero, ← zpow_add₀ two_ne_zero, show e + (-j + -j) = k by omega]
    push_cast
    rfl
  obtain ⟨y, whole⟩ : IsSquare (m * 2 ^ k) := Rat.isSquare_natCast_iff.1 ⟨_, root⟩
  refine ⟨y, whole, ?_⟩
  rw [whole, Nat.cast_mul, mul_self_inj (by positivity) (by positivity)] at root
  rw [finRat_false, root, mul_assoc, ← zpow_add₀ two_ne_zero, neg_add_cancel, zpow_zero, mul_one]

/-- R118: a square root that the format represents. -/
theorem exactly_fsqrtV {r : ℚ} (hf : SoundFmt f) (ha : ratOf a = some x) (hr : 0 ≤ r) (square : r * r = x) (rep : Represents f r) :
    Exactly f (fsqrtV f mode a) r := by
  obtain ⟨s, m, e, rfl, rfl⟩ := fin_of_ratOf ha
  by_cases hm : m = 0
  · subst hm
    rw [finRat_zero, mul_self_eq_zero] at square
    subst square
    exact exactly_zero hf
  · have plus : s = false := by
      have : ¬finRat s m e < 0 := by rw [← square]; exact (mul_self_nonneg r).not_gt
      simpa [finRat_neg_iff, hm] using this
    subst plus
    rw [finRat_false] at square
    obtain ⟨y, whole, value⟩ := root_of_scaled_eq hr square (rootScale_even f e)
    rw [fsqrtV_fin hm, whole, Nat.sqrt_eq, decide_eq_false (not_not_intro rfl), ← value]
    exact exactly_roundTo hf (value ▸ rep)

/-! ### Comparison (R121) -/

/-- The order of two numbers, as `fcmp` codes it. -/
def orderCode (x y : ℚ) : Nat := if x < y then 0 else if x = y then 1 else 2

theorem orderCode_eq_zero : orderCode x y = 0 ↔ x < y := by
  unfold orderCode
  split
  · next less => simp [less]
  · next notLess => split <;> simp [notLess]

theorem orderCode_eq_one : orderCode x y = 1 ↔ x = y := by
  unfold orderCode
  split
  · next less => simp [less.ne]
  · split <;> simp [*]

theorem orderCode_le_one : orderCode x y ≤ 1 ↔ x ≤ y := by
  rw [Nat.le_one_iff_eq_zero_or_eq_one, orderCode_eq_zero, orderCode_eq_one, le_iff_lt_or_eq]

theorem fcmp_eq (ha : ratOf a = some x) (hb : ratOf b = some y) : fcmp a b = orderCode x y := by
  obtain ⟨s, m, e, rfl, rfl⟩ := fin_of_ratOf ha
  obtain ⟨t, n, d, rfl, rfl⟩ := fin_of_ratOf hb
  have diff := exactAdd_value (s := s) (m := m) (e := e) (t := !t) (n := n) (d := d)
  rw [finRat_neg, ← sub_eq_add_neg] at diff
  have unit : (0 : ℚ) < 2 ^ (exactAdd s m e (!t) n d).2 := by positivity
  have less : (exactAdd s m e (!t) n d).1 < 0 ↔ finRat s m e < finRat t n d := by
    rw [← sub_neg (a := finRat s m e), ← diff, mul_neg_iff]
    simp [unit, unit.not_gt]
  have equal : (exactAdd s m e (!t) n d).1 = 0 ↔ finRat s m e = finRat t n d := by
    rw [← sub_eq_zero (a := finRat s m e), ← diff, mul_eq_zero_iff_right unit.ne', Int.cast_eq_zero]
  simp only [fcmp, orderCode, less, equal]

/-- R121: finite values are compared as numbers, with no flag. -/
theorem fcompare_eq {ord : Nat → Bool} {quiet kx ky : Bool} {i j : Nat} (ha : ratOf (fdec f i) = some x) (hb : ratOf (fdec f j) = some y) :
    fcompare f ord quiet kx ky i j = (bit (ord (orderCode x y)), 0) := by
  have cmp := fcmp_eq ha hb
  obtain ⟨s, m, e, left, -⟩ := fin_of_ratOf ha
  obtain ⟨t, n, d, right, -⟩ := fin_of_ratOf hb
  rw [left, right] at cmp
  simp [fcompare, left, right, cmp, FVal.sig, FVal.isNan, FVal.isPoison]

/-! ### Conversion to an integer (R44) -/

/-- R44: a number that is an integer of the range converts to it, with no flag. -/
theorem cvtFI_eq {dst : Nat} {i : Int} (ha : ratOf a = some (i : ℚ)) (lo : intMin dst ≤ i) (hi : i ≤ intMax dst) :
    cvtFI dst mode a = (wrapTo (fmtWidth dst) i, 0) := by
  obtain ⟨s, m, e, rfl, eq⟩ := fin_of_ratOf ha
  have scaled : (m : ℚ) * 2 ^ e = i.natAbs * 2 ^ (0 : Int) := by
    rw [← abs_finRat (s := s), eq, zpow_zero, mul_one, Nat.cast_natAbs, Int.cast_abs]
  have signed : (if s = true then -(i.natAbs : Int) else i.natAbs) = i := by
    cases s with
    | false =>
      rw [finRat_false] at eq
      have : (0 : ℚ) ≤ i := eq ▸ scaled_nonneg
      have : 0 ≤ i := by exact_mod_cast this
      simp [this]
    | true =>
      rw [finRat_true] at eq
      have : (i : ℚ) ≤ 0 := eq ▸ neg_nonpos.2 scaled_nonneg
      have : i ≤ 0 := by exact_mod_cast this
      simp [abs_of_nonpos this]
  have clamped : clampTo dst i = i := by
    rw [clampTo, min_eq_right hi, max_eq_right lo]
  simp only [cvtFI, roundQ_of_scaled_eq scaled, signed, clamped, bit, ne_eq, not_true, Bool.false_eq_true, if_false]

end Sys2Proof.Claim
end

section
/-! SUPPORT. Scalar floating-point forms as they run (R40, R41, R43, R116, R117). -/

namespace Sys2Proof.Claim
open Sys2Proof.Machine

variable {s : State} {c : Nat} {i : Instr} {m : BitVec 3} {f : Nat → Regs × Nat} {q : Nat}

/-! ### Operands -/

theorem scalarFmt_eq (t : BitVec 1) : scalarFmt t = ft t := by
  unfold scalarFmt ft
  split <;> rfl

theorem readF_eq (t : BitVec 1) (r : Regs) (a : R5) : readF t (getF r a) = source t r a := by
  unfold readF source
  dsimp only
  cases (getF r a).k <;> rfl

theorem fval_eq (t : BitVec 1) (r : Regs) (a : R5) : fval t r a = value t r a := by
  rw [fval, scalarFmt_eq, readF_eq, ft, value]

theorem compareF_eq (t : BitVec 1) (ord : Nat → Bool) (quiet : Bool) (r : Regs) (a b : R5) :
    compareF t ord quiet (getF r a) (getF r b) =
      fcompare (ft t) ord quiet (isOf t r a) (isOf t r b) (source t r a) (source t r b) := by
  rw [compareF, scalarFmt_eq, readF_eq, readF_eq]
  rfl

theorem cvtReg_eq (dst mode : Nat) (t : BitVec 1) (r : Regs) (a : R5) :
    cvtReg dst mode t (getF r a) = ((cvtFI dst mode (value t r a)).1, if isOf t r a then (cvtFI dst mode (value t r a)).2 else 0) := by
  rw [cvtReg, ← fval, fval_eq]
  rfl

/-- R39: a pattern of w bits in two's complement. -/
theorem intVal_signed {code w : Nat} (signed : isSigned code = true) (width : fmtWidth code = w) (hw : 0 < w) (x : W64) :
    intVal code x.toNat = (x.truncate w).toInt := by
  have double : 2 ^ w = 2 * 2 ^ (w - 1) := by rw [← pow_succ', Nat.sub_add_cancel hw]
  simp only [intVal, signed, width, true_and, BitVec.toInt, BitVec.truncate_eq_setWidth, BitVec.toNat_setWidth, Nat.cast_pow,
    Nat.cast_ofNat]
  split <;> split <;> omega

theorem intVal_word (x : W64) : intVal 0x2 x.toNat = (x.truncate 32).toInt := intVal_signed rfl rfl (by decide) x

theorem intVal_double (x : W64) : intVal 0x3 x.toNat = x.toInt := by
  rw [intVal_signed (w := 64) rfl rfl (by decide), BitVec.truncate_eq_setWidth, BitVec.setWidth_eq]

theorem intVal_unsigned (x : W64) : intVal 0x6 x.toNat = ((x.truncate 32).toNat : Int) := by
  simp [intVal, isSigned, fmtWidth]

/-! ### Forms -/

/-- R43: a form's registers with its flags set. -/
def withFlags (r : Regs) (x : Regs × Nat) : Regs := { x.1 with fstat := r.fstat ||| BitVec.ofNat 64 x.2 }

theorem setFlags_toF (r : Regs) (d : R5) (t : BitVec 1) (x : Nat × Nat) :
    setFlags (setF r d (resF t x.1)) x.2 = withFlags r (toF r d t x) := rfl

theorem setFlags_toG (r : Regs) (d : R5) (v : W64) (fl : Nat) : setFlags (setG r d v) fl = withFlags r (toG r d v fl) := by
  simp [setFlags, withFlags, toG, w64]

/-- A form runs `fpOp` of its mode code and result. -/
def RunsForm (s : State) (i : Instr) (r : Regs) (m : BitVec 3) (f : Nat → Regs × Nat) : Prop :=
  ∃ g : Nat → Regs → Regs, exec i s = .next (fpOp i m g s) ∧ ∀ q, g q r = withFlags r (f q)

theorem runsForm_toF {r : Regs} {t : BitVec 1} {d : R5} {x : Nat → Regs → Nat × Nat} {y : Nat → Nat × Nat}
    (run : exec i s = .next (fpF i m t d x s)) (eq : ∀ q, x q r = y q) : RunsForm s i r m fun q => toF r d t (y q) :=
  ⟨_, run, fun q => by dsimp only; rw [eq]; exact setFlags_toF ..⟩

theorem runsForm_toG {r : Regs} {d : R5} {x : Nat → Regs → W64 × Nat} {v : Nat → W64} {fl : Nat → Nat}
    (run : exec i s = .next (fpG i m d x s)) (eq : ∀ q, x q r = (v q, fl q)) : RunsForm s i r m fun q => toG r d (v q) (fl q) :=
  ⟨_, run, fun q => by dsimp only; rw [eq]; exact setFlags_toG ..⟩

/-- R116 to R126: each form runs with the result that the rules give it. -/
theorem runsForm {r : Regs} (form : fpResult r i = some (m, f)) : RunsForm s i r m f := by
  cases i with
  | fadd | fsub | fmul | fdiv | fsqrt | fmadd | fmsub | fnmadd | fnmsub =>
    cases form
    exact runsForm_toF rfl fun q => by simp only [scalarFmt_eq, fval_eq]
  | fmin | fmax | fsgnj | fsgnjn | fsgnjx =>
    cases form
    exact runsForm_toF rfl fun q => by rw [scalarFmt_eq, readF_eq, readF_eq]
  | feq | flt | fle =>
    cases form
    exact runsForm_toG rfl fun q => by rw [compareF_eq]; rfl
  | fclass =>
    cases form
    exact runsForm_toG rfl fun q => by rw [scalarFmt_eq, readF_eq]; rfl
  | fcvtI64Fmt | fcvtN32Fmt =>
    cases form
    exact runsForm_toG rfl fun q => by rw [cvtReg_eq]; rfl
  | fcvtI32Fmt =>
    cases form
    exact runsForm_toG rfl fun q => by rw [cvtReg_eq]
  | fcvtFmtI64 =>
    cases form
    exact runsForm_toF rfl fun q => by rw [scalarFmt_eq, intVal_double]
  | fcvtFmtI32 =>
    cases form
    exact runsForm_toF rfl fun q => by rw [scalarFmt_eq, intVal_word]
  | fcvtFmtN32 =>
    cases form
    exact runsForm_toF rfl fun q => by rw [scalarFmt_eq, intVal_unsigned]
  | fcvtF32F64 | fcvtF64F32 =>
    cases form
    exact runsForm_toF rfl fun q => by rw [fval_eq]
  | fmvfg =>
    cases form
    exact runsForm_toG rfl fun q => rfl
  | fmvgf =>
    cases form
    exact runsForm_toF rfl fun q => rfl
  | _ => cases form

/-! ### Modes (R41) -/

theorem modeOf_of_mode {r : Regs} (h : Mode r m q) : modeOf r m = some q := by
  obtain ⟨lo, hi, eq⟩ := h
  unfold modeOf frm
  by_cases dyn : m = 0
  · rw [if_pos (by rw [dyn]; rfl)] at eq
    rw [if_pos dyn, ← eq, if_pos ⟨lo, hi⟩]
  · have pos : m.toNat ≠ 0 := fun zero => dyn (BitVec.eq_of_toNat_eq zero)
    rw [if_neg pos] at eq
    rw [if_neg dyn, ← eq, if_pos hi]

theorem modeOf_of_not_mode {r : Regs} (h : ∀ q, ¬Mode r m q) : modeOf r m = none := by
  unfold modeOf frm
  by_cases dyn : m = 0
  · rw [if_pos dyn, if_neg fun range => h _ ⟨range.1, range.2, (if_pos (by rw [dyn]; rfl)).symm⟩]
  · have pos : m.toNat ≠ 0 := fun zero => dyn (BitVec.eq_of_toNat_eq zero)
    rw [if_neg dyn, if_neg fun le => h _ ⟨Nat.pos_of_ne_zero pos, le, (if_neg pos).symm⟩]

/-- R199: an instruction of majors 0x00 to 0x21 that does not transfer control has run in the hart's chunk. -/
theorem inChunk_scalar (hi : HartIssues s c) (g : Regs → Regs) :
    InChunk c s (scalar c g s) (nextPc (s.ctx c).regs (g (s.ctx c).regs)) (heldStores (s.ctx c)) := by
  rw [scalar_eq hi.notLast hi.notArmed hi.notSolo]
  exact {
    only := ⟨rfl, fun x hx => by simp [hx], fun _ => rfl⟩
    regs := by simp [inChunk, nextPc]
    rest := by simp [inChunk]
    chunk := by
      rw [modCtx_ctx, if_pos rfl]
      exact ⟨_, rfl, rfl, rfl, rfl⟩ }

end Sys2Proof.Claim
end

section
open Sys2Proof Sys2Proof.Machine Sys2Proof.Claim

theorem Sys2Proof.Claim.floatResults : Claim.FloatResults := by
  unfold Claim.FloatResults
  intro s c i m f q hi form mode
  obtain ⟨g, run, result⟩ := runsForm (s := s) form
  refine ⟨_, run, ?_⟩
  rw [fpOp, coreOnly_hart hi.cur, modeOf_of_mode mode, ← withFlags, ← result]
  exact inChunk_scalar hi (g q)

theorem Sys2Proof.Claim.floatIllegalModes : Claim.FloatIllegalModes := by
  unfold Claim.FloatIllegalModes
  intro s c i m f w cur form enc noMode
  obtain ⟨g, run, -⟩ := runsForm (s := s) form
  rw [run, fpOp, coreOnly_hart cur, modeOf_of_not_mode noMode]
  dsimp only
  rw [illegal, enc]
  rfl
end

section
/-! SUPPORT. Scalar forms on finite sources, in rational numbers (R42, R44, R118, R121, R126). -/

namespace Sys2Proof.Claim
open Sys2Proof.Machine

variable {s : State} {c q : Nat} {i : Instr} {m : BitVec 3} {f : Nat → Regs × Nat} {d a b : R5} {ty : BitVec 1} {x y : ℚ}

theorem ft_sound (ty : BitVec 1) : SoundFmt (ft ty) := by
  unfold ft
  split <;> exact fmtOf_sound (by decide) (by decide)

/-- A form whose result goes to f[d], where that result is exact. -/
theorem leavesF_of_exactly {r : Nat → Nat × Nat} (hi : HartIssues s c) (mode : Mode (s.ctx c).regs m q)
    (form : fpResult (s.ctx c).regs i = some (m, fun q => toF (s.ctx c).regs d ty (r q))) (result : Exactly (ft ty) (r q) x) :
    ∃ t, exec i s = .next t ∧ LeavesF s t c d ty x := by
  obtain ⟨t, run, after⟩ := Claim.floatResults s c i m _ q hi form mode
  obtain ⟨value, flags, fits⟩ := result
  have word : (BitVec.ofNat 64 (r q).1).toNat = (r q).1 :=
    Nat.mod_eq_of_lt (fits.trans_le (Nat.pow_le_pow_right two_pos (ft_sound ty).width))
  have reg : getF (t.ctx c).regs d = { bits := BitVec.ofNat 64 (r q).1, k := decide (ty = 1) } := by
    rw [after.regs]
    exact (getF_setF _ d d _).trans (if_pos rfl)
  refine ⟨t, run, ?_⟩
  unfold LeavesF
  dsimp only
  rw [reg, word, after.regs]
  exact ⟨value, rfl, by simp only [nextPc, toF, flags, BitVec.ofNat_eq_ofNat, BitVec.or_zero], rfl⟩

theorem withFlags_toG_zero (r : Regs) (d : R5) (v : W64) : withFlags r (toG r d v 0) = setG r d v := by
  simp only [withFlags, toG, BitVec.or_zero]
  rw [← setG_fstat r d v]

/-- A form whose result goes to g[d], where it sets no flag. -/
theorem leavesG_of_toG {v : W64} (hi : HartIssues s c) (mode : Mode (s.ctx c).regs m q)
    (form : fpResult (s.ctx c).regs i = some (m, f)) (result : f q = toG (s.ctx c).regs d v 0) :
    ∃ t, exec i s = .next t ∧ LeavesG s t c d v := by
  obtain ⟨t, run, after⟩ := Claim.floatResults s c i m f q hi form mode
  refine ⟨t, run, ?_⟩
  rw [LeavesG, after.regs, ← withFlags, result, withFlags_toG_zero]

/-- R121: a comparison of finite sources. -/
theorem toG_compare {r : Regs} {ord : Nat → Bool} {quiet kx ky : Bool} {p : Prop} [Decidable p]
    (ha : ratOf (value ty r a) = some x) (hb : ratOf (value ty r b) = some y)
    (order : ord (orderCode x y) = true ↔ p) :
    toG r d (BitVec.ofNat 64 (fcompare (ft ty) ord quiet kx ky (source ty r a) (source ty r b)).1)
      (fcompare (ft ty) ord quiet kx ky (source ty r a) (source ty r b)).2 = toG r d (if p then 1 else 0) 0 := by
  have code : ord (orderCode x y) = decide p := Bool.eq_iff_iff.2 (order.trans decide_eq_true_iff.symm)
  rw [fcompare_eq (f := ft ty) ha hb, code]
  by_cases h : p <;> simp [h, bit]

/-- R44: a source that is an integer of the range of `dst`. -/
theorem toG_convert {r : Regs} {dst : Nat} {n : Int} {g : Nat → W64} (ha : ratOf (value ty r a) = some x) (hn : x = n)
    (lo : intMin dst ≤ n) (hi : n ≤ intMax dst) (pattern : g (wrapTo (fmtWidth dst) n) = pat 64 n) :
    toG r d (g (cvtFI dst q (value ty r a)).1) (if isOf ty r a then (cvtFI dst q (value ty r a)).2 else 0) =
      toG r d (pat 64 n) 0 := by
  subst hn
  rw [cvtFI_eq ha lo hi, ite_self, pattern]

/-- R39: the pattern of an integer. -/
theorem ofNat_wrapTo (w : Nat) (n : Int) : BitVec.ofNat w (wrapTo w n) = BitVec.ofInt w n := by
  apply BitVec.eq_of_toNat_eq
  rw [BitVec.toNat_ofInt, BitVec.toNat_ofNat, wrapTo]
  refine Nat.mod_eq_of_lt ?_
  have := Int.emod_lt_of_pos n (by positivity : (0 : Int) < 2 ^ w)
  have := Int.emod_nonneg n (by positivity : (2 : Int) ^ w ≠ 0)
  zify
  omega

theorem signExtend_wrapTo {n : Int} (lo : -(2 ^ 31) ≤ n) (hi : n < 2 ^ 31) :
    (BitVec.ofNat 32 (wrapTo 32 n)).signExtend 64 = BitVec.ofInt 64 n := by
  rw [ofNat_wrapTo, BitVec.signExtend, BitVec.toInt_ofInt_eq_self (by decide) lo hi]

theorem ofNat_wrapTo_unsigned {n : Int} (lo : 0 ≤ n) (hi : n < 2 ^ 32) : BitVec.ofNat 64 (wrapTo 32 n) = BitVec.ofInt 64 n := by
  rw [wrapTo, Int.emod_eq_of_lt lo hi, ← BitVec.ofInt_natCast, Int.toNat_of_nonneg lo]

end Sys2Proof.Claim
end

section
open Sys2Proof Sys2Proof.Machine Sys2Proof.Claim

theorem Sys2Proof.Claim.floatArithmetic : Claim.FloatArithmetic := by
  unfold Claim.FloatArithmetic
  intro s c d a b e m q ty x y z hi mode ha hb hc
  have hf := ft_sound ty
  refine ⟨fun rep => leavesF_of_exactly hi mode rfl (exactly_faddV hf ha hb rep),
    fun rep => leavesF_of_exactly hi mode rfl (exactly_faddV_neg hf ha hb rep),
    fun rep => leavesF_of_exactly hi mode rfl (exactly_fmulV hf ha hb rep),
    fun nonzero rep => leavesF_of_exactly hi mode rfl (exactly_fdivV hf ha hb nonzero rep),
    fun r nonneg square rep => leavesF_of_exactly hi mode rfl (exactly_fsqrtV hf ha nonneg square rep),
    fun rep => leavesF_of_exactly hi mode rfl (exactly_fmaV hf ha hb hc rep),
    fun rep => leavesF_of_exactly hi mode rfl (exactly_fmaV_neg hf ha hb hc rep),
    fun rep => leavesF_of_exactly hi mode rfl ?fnmadd,
    fun rep => leavesF_of_exactly hi mode rfl ?fnmsub,
    leavesG_of_toG hi mode rfl (toG_compare ha hb (by rw [beq_iff_eq, orderCode_eq_one])),
    leavesG_of_toG hi mode rfl (toG_compare ha hb (by rw [beq_iff_eq, orderCode_eq_zero])),
    leavesG_of_toG hi mode rfl (toG_compare ha hb (by rw [decide_eq_true_eq, orderCode_le_one])),
    fun n hn low high => leavesG_of_toG hi mode rfl (toG_convert (dst := 3) ha hn low (Int.le_sub_one_of_lt high) (ofNat_wrapTo 64 n)),
    fun n hn low high => leavesG_of_toG hi mode rfl
      (toG_convert (dst := 2) (g := fun k => (BitVec.ofNat 32 k).signExtend 64) ha hn low (Int.le_sub_one_of_lt high) (signExtend_wrapTo low high)),
    fun n hn low high => leavesG_of_toG hi mode rfl
      (toG_convert (dst := 6) ha hn low (Int.le_sub_one_of_lt high) (ofNat_wrapTo_unsigned low high)),
    fun rep => leavesF_of_exactly hi mode rfl (exactly_cvtIF hf rep)⟩
  case fnmadd =>
    rw [← neg_mul] at rep ⊢
    exact exactly_fmaV_neg hf (ratOf_neg ha) hb hc rep
  case fnmsub =>
    rw [← neg_mul] at rep ⊢
    exact exactly_fmaV hf (ratOf_neg ha) hb hc rep

/-- Settles O29: each form runs with its result; exact results, and comparisons, in rational arithmetic; illegal modes. -/
theorem floatForms : Obligations.FloatForms := by
  unfold Obligations.FloatForms
  exact ⟨Claim.floatResults, Claim.floatArithmetic, Claim.floatIllegalModes⟩
end

section
/-! SUPPORT. Columns without damage as they are read (R65, R68, R286), and instruction fetch (R55, R107, R346). -/

namespace Sys2Proof.Claim
open Sys2Proof.Machine

variable {s t : State} {c p g col : Nat}

/-! ### Columns without damage (R68, R286) -/

/-- R330: with no hot row a requester is served at once. -/
theorem gate_cool (calm : cool s = true) (who : Requester) (f : State → State) : gate who f s = f s := if_pos calm

theorem checkCol_undamaged (gr g col : Nat) : checkCol gr g col [] = .clean := by
  unfold checkCol
  split
  · rfl
  · split
    · rfl
    · rfl

theorem deliveredWrong_undamaged (gr g col : Nat) : deliveredWrong gr g col [] = [] := by
  unfold deliveredWrong
  split
  · rfl
  · split
    · rfl
    · rfl

theorem blockBits_undamaged (i : Nat) : blockBits [] i = [] := List.filterMap_eq_nil_iff.2 fun _ _ => rfl

/-- R65: a block written under the present key, or not written, reads as it is stored. -/
theorem decrypted_sound (sound : Sound s g col) (i : Nat) : decrypted s g col i [] = readBytes s.mem (colKey g col + 16 * i) 16 :=
  if_pos ⟨sound.2, rfl⟩

theorem readBytes_add (m : Memory) (k a b : Nat) : readBytes m k a ++ readBytes m (k + a) b = readBytes m k (a + b) := by
  simp only [readBytes, List.range_add, List.map_append, List.map_map, Function.comp_def, Nat.add_assoc]

/-- R286: a sound column delivers the bytes of memory. -/
theorem peekCol_sound (sound : Sound s g col) : peekCol s g col = { bytes := readBytes s.mem (colKey g col) 32, unc := false } := by
  unfold peekCol
  simp only [sound.1, checkCol_undamaged, deliveredWrong_undamaged, blockBits_undamaged, decrypted_sound sound]
  rw [if_neg (by decide), Nat.mul_zero, Nat.add_zero, Nat.mul_one, readBytes_add]

/-- R286, R330: a read of a sound column changes nothing but the count of requests. -/
theorem readCol_sound (sound : Sound s g col) (src : Nat) :
    readCol g col src s = ({ bytes := readBytes s.mem (colKey g col) 32, unc := false }, modBank g (countReq col) s) := by
  unfold readCol
  simp only [sound.1, checkCol_undamaged, peekCol_sound sound]

theorem modBank_self (g : Nat) (f : Bank → Bank) (s : State) : (modBank g f s).bank g = f (s.bank g) := (modBank_bank ..).trans (if_pos rfl)

theorem modBank_other {x : Nat} (hx : x ≠ g) (f : Bank → Bank) (s : State) : (modBank g f s).bank x = s.bank x :=
  (modBank_bank ..).trans (if_neg hx)

/-- R63: the column that holds a physical address. -/
theorem colKey_of_aligned {k : Nat} (aligned : k % 32 = 0) : colKey (k / 0x800000) (k % 0x800000 / 32) = k := by
  unfold colKey
  omega

/-! ### What the DMA engine of a cluster meets (R196) -/

theorem find?_tput {α : Type} (l : Tbl α) (k : Nat) (v : α) : (tput l k v).find? (fun x => x.1 = k) = some (k, v) := by
  unfold tput
  have none : ∀ x ∈ tdel l k, x.1 ≠ k := fun x hx => by simpa using (List.mem_filter.1 hx).2
  generalize tdel l k = l at none
  induction l with
  | nil => simp [tins]
  | cons p r ih =>
    have hp : p.1 ≠ k := none p (by simp)
    by_cases h : p.1 < k
    · simp [tins, h, hp, ih fun x hx => none x (by simp [hx])]
    · simp [tins, h]

theorem OnlyBanks.meet (q g col : Nat) (s : State) : OnlyBanks s (meet q g col s) := by
  unfold Machine.meet
  split
  · exact .refl s
  · split
    · exact .refl s
    · exact ⟨_, rfl⟩

theorem OnlyBanks.countReq_meet (q g col : Nat) (s : State) : OnlyBanks s (Machine.meet q g col (modBank g (countReq col) s)) :=
  .trans ⟨_, rfl⟩ (.meet ..)

/-- R196: of a column that has been written the cluster has met what it holds now. -/
theorem met_meet {q : Nat} {x : Nat × Before} (kept : ((meet q g col s).bank g).before.find? (fun x => x.1 = col) = some x) :
    q ∈ x.2.met := by
  unfold Machine.meet at kept
  split at kept
  · next unwritten =>
    rw [beforeOf, kept] at unwritten
    cases unwritten
  · next b written =>
    split at kept
    · next met =>
      rw [beforeOf, kept] at written
      cases written
      exact List.contains_iff_mem.1 met
    · rw [modBank_self, find?_tput] at kept
      cases kept
      exact List.mem_cons_self

theorem OnlyBanks.ctx (b : OnlyBanks s t) (x : Nat) : t.ctx x = s.ctx x := by
  obtain ⟨_, rfl⟩ := b
  rfl

theorem OnlyBanks.mem (b : OnlyBanks s t) : t.mem = s.mem := by
  obtain ⟨_, rfl⟩ := b
  rfl

/-! ### Lines of the instruction cache (R55, R107) -/

/-- R55: the cache takes a line where it has room. -/
theorem fillLine_room (l : Line) (room : (s.ctx c).icache.length < 512) : fillLine c l s =
    modCtx c (fun h => { h with icache := l :: (s.ctx c).icache.filter fun x => ¬(x.asid = l.asid ∧ x.va = l.va) }) s := by
  unfold fillLine
  exact if_pos ((List.length_filter_le ..).trans_lt room)

theorem wordsLe_getElem? (n : Nat) (l : List Byte) {i : Nat} (hi : i < n) :
    (wordsLe n l)[i]? = some (BitVec.ofNat 32 (leNat ((l.drop (4 * i)).take 4))) := by
  induction n generalizing l i with
  | zero => cases hi
  | succ n ih =>
    cases i with
    | zero => rfl
    | succ i =>
      rw [wordsLe, List.getElem?_cons_succ, ih _ (Nat.lt_of_succ_lt_succ hi), List.drop_drop]
      congr 5
      omega

theorem drop_take_readBytes (m : Memory) (k : Nat) {n i j : Nat} (h : i + j ≤ n) : ((readBytes m k n).drop i).take j = readBytes m (k + i) j := by
  obtain ⟨d, rfl⟩ := Nat.exists_eq_add_of_le h
  rw [← readBytes_add, ← readBytes_add]
  rw [List.append_assoc, List.drop_append_of_le_length (by simp [readBytes]), List.drop_of_length_le (by simp [readBytes]), List.nil_append,
    List.take_append_of_le_length (by simp [readBytes]), List.take_of_length_le (by simp [readBytes])]

/-- R55: the words of a cached column are those of memory. -/
theorem line_word (m : Memory) (k : Nat) {va : Nat} (aligned : va % 4 = 0) :
    (wordsLe 8 (readBytes m k 32))[va % 32 / 4]? = some (BitVec.ofNat 32 (leNat (readBytes m (k + va % 32) 4))) := by
  rw [wordsLe_getElem? 8 _ (by omega), drop_take_readBytes m k (by omega)]
  congr 5
  omega

/-! ### A fetch (R55, R107, R131, R346) -/

/-- R55, R107: what a fetch makes of the translation of the hart's PC. -/
def fetchThrough (c : Nat) (h : Ctx) : Trans × State → State
  | (.bad _ _, s) => fetchFault c s
  | (.ok e, s) =>
    let o := (h.regs.pc.toNat - pteVa e) / 32 * 32
    if spanRetired s e o 32 then fetchFault c s
    else
      let k := if e.getLsbD 47 then pteBase e + o else pageToPhys o (pteBase e) (pteIl e)
      let line (b : List Byte) : Line :=
        { asid := h.csr.asid.toNat, va := h.regs.pc.toNat / 32, words := wordsLe 8 b, page := pteVa e, pageSize := pteSize e }
      if isDram k then
        let (r, s) := readCol (k / 0x800000) (k % 0x800000 / 32) 1 s
        let s := meet (pcnOf h.gcn) (k / 0x800000) (k % 0x800000 / 32) s
        if r.unc then fetchFault c s else fillLine c (line r.bytes) s
      else fillLine c (line (readBytes s.mem k 32)) s

theorem exec_instructionFetchFill (f : Fetches s c) : exec (.instructionFetchFill c) s = .next (fetchThrough c (s.ctx c)
    (Machine.translate (pcnOf (s.ctx c).gcn) (s.ctx c).part (s.ctx c).csr.asid.toNat (s.ctx c).regs.pc.toNat 56 s)) := by
  have moves := canMove_of_live f.live
  have noAsync : pendingAsync (s.ctx c) = false := by simp [pendingAsync, f.posted, f.stores]
  refine congrArg Host.Outcome.next ((if_neg ?_).trans ((gate_cool f.cool ..).trans ?_))
  · simp [moves, f.waits, f.missing, f.recorded, noAsync, f.interrupt]
  · dsimp only
    generalize Machine.translate _ _ _ _ _ s = r
    obtain ⟨_ | _, _⟩ := r <;> rfl

/-- R346: a cached entry that permits the access translates the address. -/
theorem translate_hit {q asid va need : Nat} {x : TlbEntry}
    (hit : (s.cluster q).tlb.find? (fun x => x.asid = asid ∧ x.va ≤ va ∧ va < x.va + x.size) = some x) (permitted : x.pte.getLsbD need = true) :
    Machine.translate q p asid va need s = (.ok x.pte, s) := by
  unfold Machine.translate
  rw [hit]
  exact if_pos permitted

/-- R342: a partition with no table in force. -/
theorem walkBy_untabled (untabled : (s.part p).ptcfg.getLsbD 63 = false) (by_ : Option Nat) (asid va : Nat) :
    walkBy by_ p asid va s = (.none, s) :=
  if_pos (by rw [untabled]; rfl)

/-- R342, R346: with no entry cached and no table in force there is no translation. -/
theorem translate_untabled {q asid va need : Nat}
    (hit : (s.cluster q).tlb.find? (fun x => x.asid = asid ∧ x.va ≤ va ∧ va < x.va + x.size) = none)
    (untabled : (s.part p).ptcfg.getLsbD 63 = false) : Machine.translate q p asid va need s = (.bad 1 false, s) := by
  unfold Machine.translate
  rw [hit]
  unfold freshWalk
  rw [walkBy_untabled untabled]

/-- R55: a fetch through a translation to a sound column of DRAM. -/
theorem fetchThrough_sound {h : Ctx} {e : BitVec 128} {k : Nat} (device : e.getLsbD 47 = false)
    (hk : k = pageToPhys ((h.regs.pc.toNat - pteVa e) / 32 * 32) (pteBase e) (pteIl e))
    (inUse : spanRetired s e ((h.regs.pc.toNat - pteVa e) / 32 * 32) 32 = false) (dram : k < 0x10000000000) (aligned : k % 32 = 0)
    (sound : Sound s (k / 0x800000) (k % 0x800000 / 32)) : fetchThrough c h (.ok e, s) =
      fillLine c { asid := h.csr.asid.toNat, va := h.regs.pc.toNat / 32, words := wordsLe 8 (readBytes s.mem k 32), page := pteVa e, pageSize := pteSize e }
        (meet (pcnOf h.gcn) (k / 0x800000) (k % 0x800000 / 32) (modBank (k / 0x800000) (countReq (k % 0x800000 / 32)) s)) := by
  unfold fetchThrough
  simp only [inUse, device, Bool.false_eq_true, if_false, ← hk, isDram, dram, decide_true, if_true, readCol_sound sound,
    colKey_of_aligned aligned]

end Sys2Proof.Claim
end

section
open Sys2Proof Sys2Proof.Machine Sys2Proof.Claim

/-- Settles O6: a fetch through a cached translation fills the line with the column, and one without a table traps. -/
theorem instructionFetch : Obligations.InstructionFetch := by
  unfold Obligations.InstructionFetch
  intro s c f
  refine ⟨fun x hit permitted device low page aligned inUse dram column sound room => ?_, fun hit untabled => ?_⟩
  · have banks := OnlyBanks.countReq_meet (pcnOf (s.ctx c).gcn)
    rw [exec_instructionFetchFill f, translate_hit (q := pcnOf _) hit permitted,
      fetchThrough_sound device rfl inUse dram column sound, fillLine_room _ (by rw [(banks ..).ctx]; exact room)]
    refine ⟨_, rfl, (banks ..).mem, fun y hy => (modCtx_ctx ..).trans ((if_neg hy).trans ((banks ..).ctx y)), ?_, fun y kept => met_meet kept, ?_⟩
    · rw [modCtx_self, (banks ..).ctx]
    · rw [modCtx_self, (banks ..).ctx]
      unfold fetchWord
      rw [List.find?_cons_of_pos (by simp)]
      exact line_word s.mem _ aligned
  · rw [exec_instructionFetchFill f, translate_untabled (q := pcnOf _) hit untabled]
    rfl

end

section
/-! SUPPORT. Loads and stores as they are issued, and their traps (R52, R58, R109 to R115). -/

namespace Sys2Proof.Claim
open Sys2Proof.Machine

variable {s : State} {c n : Nat} {i : Instr} {ea : W64}

/-! ### Integer and typed forms (R108, R111, R114, R115) -/

theorem loadI_hart (cur : s.cur = .hart c) (n : Nat) (sg : Bool) (d a : R5) (imm : BitVec 16) :
    loadI n sg d a imm s = load c (getG (s.ctx c).regs a + imm.signExtend 64) n (.g d n sg) s := by
  unfold loadI
  rw [cur]

theorem storeI_hart (cur : s.cur = .hart c) (n : Nat) (d a : R5) (imm : BitVec 16) :
    storeI n d a imm s = store c (getG (s.ctx c).regs a + imm.signExtend 64) n (getG (s.ctx c).regs d).toNat id s := by
  unfold storeI
  rw [cur]

/-- R108: what a load runs at a hart. -/
theorem exec_loadForm {sg : Bool} {d a : R5} {imm : BitVec 16} (cur : s.cur = .hart c) (form : loadForm i = some (n, sg, d, a, imm)) :
    exec i s = .next (load c (getG (s.ctx c).regs a + imm.signExtend 64) n (.g d n sg) s) := by
  cases i with
  | ldb | ldbu | ldh | ldhu | ldw =>
    cases form
    exact congrArg Host.Outcome.next (loadI_hart cur ..)
  | ldwu | ldd =>
    cases form
    exact congrArg Host.Outcome.next ((coreOnly_hart cur _).trans (loadI_hart cur ..))
  | _ => cases form

/-- R111: what a store runs at a hart. -/
theorem exec_storeForm {d a : R5} {imm : BitVec 16} (cur : s.cur = .hart c) (form : storeForm i = some (n, d, a, imm)) :
    exec i s = .next (store c (getG (s.ctx c).regs a + imm.signExtend 64) n (getG (s.ctx c).regs d).toNat id s) := by
  cases i with
  | stb | sth | stw =>
    cases form
    exact congrArg Host.Outcome.next (storeI_hart cur ..)
  | std =>
    cases form
    exact congrArg Host.Outcome.next ((coreOnly_hart cur _).trans (storeI_hart cur ..))
  | _ => cases form

/-- R82: an illegal instruction traps with its word. -/
theorem illegal_encoded {w : W32} (word : encode i = some w) : illegal c i s = trapHere c 1 (w.zeroExtend 64) s := by
  unfold illegal illegalWord
  rw [word]
  rfl

theorem exec_ldf_illegal {d a : R5} {t : BitVec 4} {o : BitVec 12} (cur : s.cur = .hart c) (bad : t.toNat = 0x3 ∨ t.toNat = 0x7 ∨ 0xE ≤ t.toNat) :
    exec (.ldf d a t o) s = .next (illegal c (.ldf d a t o) s) :=
  congrArg Host.Outcome.next ((coreOnly_hart cur _).trans (if_pos bad))

theorem exec_ldf {d a : R5} {t : BitVec 4} {o : BitVec 12} (cur : s.cur = .hart c) (good : ¬(t.toNat = 0x3 ∨ t.toNat = 0x7 ∨ 0xE ≤ t.toNat)) :
    exec (.ldf d a t o) s = .next (load c (getG (s.ctx c).regs a + o.signExtend 64) (fmtWidth t.toNat / 8) (.f d t.toNat) s) :=
  congrArg Host.Outcome.next ((coreOnly_hart cur _).trans (if_neg good))

theorem exec_stf_illegal {d a : R5} {t : BitVec 4} {o : BitVec 12} (cur : s.cur = .hart c)
    (bad : frm (s.ctx c).regs = 0 ∨ 6 ≤ frm (s.ctx c).regs ∨ t.toNat = 0x7 ∨ 0xE ≤ t.toNat) :
    exec (.stf d a t o) s = .next (illegal c (.stf d a t o) s) :=
  congrArg Host.Outcome.next ((coreOnly_hart cur _).trans (if_pos bad))

theorem exec_stf {d a : R5} {t : BitVec 4} {o : BitVec 12} (cur : s.cur = .hart c)
    (good : ¬(frm (s.ctx c).regs = 0 ∨ 6 ≤ frm (s.ctx c).regs ∨ t.toNat = 0x7 ∨ 0xE ≤ t.toNat)) :
    ∃ v f, exec (.stf d a t o) s = .next (store c (getG (s.ctx c).regs a + o.signExtend 64) (fmtWidth t.toNat / 8) v f s) :=
  ⟨_, _, congrArg Host.Outcome.next ((coreOnly_hart cur _).trans (if_neg good))⟩

/-- R59, R113: the packet of an access of hart `c` to a global address. -/
def requestTo (s : State) (c : Nat) (ea : W64) (q : Nat) (dev : Option Nat) (body : Body) : Packet :=
  { id := s.nextId, cid := c, part := (s.ctx c).part, addr := ea, pcn := q, ofs := bits ea 0 21, dev := dev, body := body }

/-! ### The checks of a load and a store, in order (R52, R58, R109, R111) -/

section
variable {dst : Dest} {v : Nat} {f : Regs → Regs}
variable (notLast : (s.ctx c).regs.pc ≠ 0x01FFFFFFFFFFFFFC)
include notLast

theorem load_misaligned (misaligned : ea.toNat % n ≠ 0) : load c ea n dst s = trapHere c 4 ea s :=
  (if_neg notLast).trans (if_pos misaligned)

theorem store_misaligned (misaligned : ea.toNat % n ≠ 0) : store c ea n v f s = trapHere c 4 ea s :=
  (if_neg notLast).trans (if_pos misaligned)

variable (aligned : ea.toNat % n = 0)
include aligned

theorem load_unpermitted (isLocal : ea.getLsbD 63 = false) (unpermitted : localOk s (s.ctx c) ea.toNat n { rd := true } = false) :
    load c ea n dst s = trapHere c 5 ea s :=
  (if_neg notLast).trans ((if_neg (not_not.2 aligned)).trans ((if_pos (by rw [isLocal]; rfl)).trans (if_pos (by rw [unpermitted]; rfl))))

theorem store_unpermitted (isLocal : ea.getLsbD 63 = false) (unpermitted : localOk s (s.ctx c) ea.toNat n { w := true } = false) :
    store c ea n v f s = trapHere c 5 ea s :=
  (if_neg notLast).trans ((if_neg (not_not.2 aligned)).trans ((if_pos (by rw [isLocal]; rfl)).trans (if_pos (by rw [unpermitted]; rfl))))

/-- R111: a store into a published slot. -/
theorem store_locked (isLocal : ea.getLsbD 63 = false) (permitted : localOk s (s.ctx c) ea.toNat n { w := true } = true)
    (locked : lockedByte (s.ctx c) ea.toNat n ≠ none) : store c ea n v f s = trapHere c 0x10 ea s :=
  (if_neg notLast).trans ((if_neg (not_not.2 aligned)).trans ((if_pos (by rw [isLocal]; rfl)).trans
    ((if_neg (by rw [permitted]; decide)).trans (if_pos (Option.isSome_iff_ne_none.2 locked)))))

variable (isGlobal : ea.getLsbD 63 = true) (noChunk : (s.ctx c).chunk = none)
include isGlobal noChunk

theorem load_unsent (unsent : senderCheck s (s.ctx c) ea false false = .fail) : load c ea n dst s = trapHere c 6 ea s := by
  refine (if_neg notLast).trans ((if_neg (not_not.2 aligned)).trans ((if_neg (by rw [isGlobal]; decide)).trans ?_))
  rw [commitChunk_none noChunk]
  dsimp only
  rw [unsent]

/-- R110: the hart waits for the reply to the packet of its load. -/
theorem load_sent {q : Nat} {dev : Option Nat} (sent : senderCheck s (s.ctx c) ea false false = .ok q dev) :
    load c ea n dst s = setWait c (.remoteLoad s.nextId dst) (send (requestTo s c ea q dev (.load n)) s) := by
  refine (if_neg notLast).trans ((if_neg (not_not.2 aligned)).trans ((if_neg (by rw [isGlobal]; decide)).trans ?_))
  rw [commitChunk_none noChunk]
  dsimp only
  rw [sent]
  rfl

theorem store_unsent (unsent : senderCheck s (s.ctx c) ea true false = .fail) : store c ea n v f s = trapHere c 6 ea s := by
  refine (if_neg notLast).trans ((if_neg (not_not.2 aligned)).trans ((if_neg (by rw [isGlobal]; decide)).trans ?_))
  rw [commitChunk_none noChunk]
  dsimp only
  rw [unsent]

/-- R112: a remote store is posted, and the hart goes on. -/
theorem store_sent {q : Nat} {dev : Option Nat} (sent : senderCheck s (s.ctx c) ea true false = .ok q dev) : store c ea n v f s =
    retire c (modCtx c (fun h => { h with regs := f h.regs }) (postStore c (s.ctx c) ea (leBytes n v) q dev s)) := by
  refine (if_neg notLast).trans ((if_neg (not_not.2 aligned)).trans ((if_neg (by rw [isGlobal]; decide)).trans ?_))
  rw [commitChunk_none noChunk]
  dsimp only
  rw [sent]

end

end Sys2Proof.Claim
end

section
open Sys2Proof Sys2Proof.Machine Sys2Proof.Claim

/-- R52, R58, R109, R111: the traps of a load or store of n bytes, whatever it loads or stores. -/
def Sys2Proof.Claim.AccessTrapsOf (s : State) (c : Nat) (i : Instr) (n : Nat) (ea : W64) (store : Bool) : Prop :=
  let need : Need := if store then { w := true } else { rd := true }
  (ea.toNat % n ≠ 0 → exec i s = .next (exception c 4 ea s)) ∧
  (ea.toNat % n = 0 → ea.getLsbD 63 = false → localOk s (s.ctx c) ea.toNat n need = false → exec i s = .next (exception c 5 ea s)) ∧
  (ea.toNat % n = 0 → ea.getLsbD 63 = false → store = true → localOk s (s.ctx c) ea.toNat n need = true →
    lockedByte (s.ctx c) ea.toNat n ≠ none → exec i s = .next (exception c 0x10 ea s)) ∧
  (ea.toNat % n = 0 → ea.getLsbD 63 = true → (s.ctx c).chunk = none →
    senderCheck s (s.ctx c) ea store false = .fail → exec i s = .next (exception c 6 ea s))

namespace Sys2Proof.Claim

theorem accessTrapsOf_load {s : State} {c n : Nat} {i : Instr} {ea : W64} {dst : Dest} (notLast : (s.ctx c).regs.pc ≠ 0x01FFFFFFFFFFFFFC)
    (run : exec i s = .next (load c ea n dst s)) : AccessTrapsOf s c i n ea false := by
  unfold AccessTrapsOf
  rw [run]
  refine ⟨fun misaligned => ?_, fun aligned isLocal unpermitted => ?_, fun _ _ store => Bool.noConfusion store, fun aligned isGlobal noChunk unsent => ?_⟩
  · rw [load_misaligned notLast misaligned]
    rfl
  · rw [load_unpermitted notLast aligned isLocal unpermitted]
    rfl
  · rw [load_unsent notLast aligned isGlobal noChunk unsent]
    rfl

theorem accessTrapsOf_store {s : State} {c n : Nat} {i : Instr} {ea : W64} {v : Nat} {f : Regs → Regs}
    (notLast : (s.ctx c).regs.pc ≠ 0x01FFFFFFFFFFFFFC) (run : exec i s = .next (store c ea n v f s)) : AccessTrapsOf s c i n ea true := by
  unfold AccessTrapsOf
  rw [run]
  refine ⟨fun misaligned => ?_, fun aligned isLocal unpermitted => ?_, fun aligned isLocal _ permitted locked => ?_,
    fun aligned isGlobal noChunk unsent => ?_⟩
  · rw [store_misaligned notLast misaligned]
    rfl
  · rw [store_unpermitted notLast aligned isLocal unpermitted]
    rfl
  · rw [store_locked notLast aligned isLocal permitted locked]
    rfl
  · rw [store_unsent notLast aligned isGlobal noChunk unsent]
    rfl

end Sys2Proof.Claim

theorem Sys2Proof.Claim.loadStoreTraps : Claim.LoadStoreTraps := by
  unfold Claim.LoadStoreTraps
  rintro s c i n a imm store cur notLast (⟨rfl, sg, d, form⟩ | ⟨rfl, d, form⟩)
  · exact accessTrapsOf_load notLast (exec_loadForm cur form)
  · exact accessTrapsOf_store notLast (exec_storeForm cur form)

theorem Sys2Proof.Claim.typedAccessTraps : Claim.TypedAccessTraps := by
  unfold Claim.TypedAccessTraps
  rintro s c d a t o i store cur notLast (⟨rfl, rfl⟩ | ⟨rfl, rfl⟩)
  · refine ⟨fun bad w word => ?_, fun good => accessTrapsOf_load notLast (exec_ldf cur ?_)⟩
    · have bad' : t.toNat = 0x3 ∨ t.toNat = 0x7 ∨ 0xE ≤ t.toNat := by
        obtain h | h | ⟨-, h⟩ | ⟨h, -⟩ := bad
        · exact .inr (.inl h)
        · exact .inr (.inr h)
        · exact .inl h
        · cases h
      rw [exec_ldf_illegal cur bad', illegal_encoded word]
      rfl
    · rintro (h | h | h)
      · exact good (.inr (.inr (.inl ⟨rfl, h⟩)))
      · exact good (.inl h)
      · exact good (.inr (.inl h))
  · refine ⟨fun bad w word => ?_, fun good => ?_⟩
    · have bad' : frm (s.ctx c).regs = 0 ∨ 6 ≤ frm (s.ctx c).regs ∨ t.toNat = 0x7 ∨ 0xE ≤ t.toNat := by
        obtain h | h | ⟨h, -⟩ | ⟨-, h | h⟩ := bad
        · exact .inr (.inr (.inl h))
        · exact .inr (.inr (.inr h))
        · cases h
        · exact .inl h
        · exact .inr (.inl h)
      rw [exec_stf_illegal cur bad', illegal_encoded word]
      rfl
    · have good' : ¬(frm (s.ctx c).regs = 0 ∨ 6 ≤ frm (s.ctx c).regs ∨ t.toNat = 0x7 ∨ 0xE ≤ t.toNat) := by
        rintro (h | h | h | h)
        · exact good (.inr (.inr (.inr ⟨rfl, .inl h⟩)))
        · exact good (.inr (.inr (.inr ⟨rfl, .inr h⟩)))
        · exact good (.inl h)
        · exact good (.inr (.inl h))
      obtain ⟨v, f, run⟩ := exec_stf (d := d) (a := a) (o := o) cur good'
      exact accessTrapsOf_store notLast run

end

section
/-! SUPPORT. Full/empty forms, acquiring and releasing accesses and atomics as they are issued, and their traps (R111, R159, R161 to R165). -/

namespace Sys2Proof.Claim
open Sys2Proof.Machine

variable {s : State} {c n : Nat} {i : Instr} {ea : W64} {need : Need} {lock : Bool} {act : Ctx → Nat → State → State}

/-! ### Full/empty forms (R159) -/

/-- R158: each full/empty form runs the checks of R159 for its span. -/
theorem exec_wordForm {a : R5} (cur : s.cur = .hart c) (form : wordForm (s.ctx c).regs i = some (a, n, need, lock)) :
    ∃ act, exec i s = .next (fullEmpty c (getG (s.ctx c).regs a) n need lock act s) := by
  cases i with
  | lds | ldse | stfl | fefill | feempty | fest =>
    cases form
    exact ⟨_, congrArg Host.Outcome.next (coreOnly_hart cur _)⟩
  | _ => cases form

section
variable (alone : HartAlone s c)
include alone

theorem fullEmpty_global (isGlobal : ea.getLsbD 63 = true) : fullEmpty c ea n need lock act s = trapHere c 6 ea s :=
  (outside_alone alone _).trans (if_pos isGlobal)

variable (isLocal : ea.getLsbD 63 = false)
include isLocal

theorem fullEmpty_misaligned (misaligned : ea.toNat % 8 ≠ 0) : fullEmpty c ea n need lock act s = trapHere c 4 ea s :=
  (outside_alone alone _).trans ((if_neg (by rw [isLocal]; decide)).trans (if_pos misaligned))

variable (aligned : ea.toNat % 8 = 0)
include aligned

theorem fullEmpty_ragged (ragged : n % 8 ≠ 0) : fullEmpty c ea n need lock act s = trapHere c 4 (ea + w64 n) s :=
  (outside_alone alone _).trans ((if_neg (by rw [isLocal]; decide)).trans ((if_neg (not_not.2 aligned)).trans (if_pos ragged)))

variable (whole : n % 8 = 0)
include whole

theorem fullEmpty_unpermitted (some_ : n ≠ 0) (unpermitted : localOk s (s.ctx c) ea.toNat n need = false) :
    fullEmpty c ea n need lock act s = trapHere c 5 ea s :=
  (outside_alone alone _).trans ((if_neg (by rw [isLocal]; decide)).trans ((if_neg (not_not.2 aligned)).trans
    ((if_neg (not_not.2 whole)).trans (if_pos ⟨some_, by rw [unpermitted]; rfl⟩))))

variable (permitted : n ≠ 0 → localOk s (s.ctx c) ea.toNat n need = true)
include permitted

theorem fullEmpty_busy (busy : localBusy s c ea.toNat n = true) : fullEmpty c ea n need lock act s = s := by
  refine (outside_alone alone _).trans ((if_neg (by rw [isLocal]; decide)).trans ((if_neg (not_not.2 aligned)).trans
    ((if_neg (not_not.2 whole)).trans ((if_neg ?_).trans (if_pos busy)))))
  rintro ⟨some_, unpermitted⟩
  rw [permitted some_] at unpermitted
  cases unpermitted

/-- R159: past the other checks, what the ring lock says. -/
theorem fullEmpty_free (free : localBusy s c ea.toNat n = false) : fullEmpty c ea n need lock act s =
    match if lock then lockedByte (s.ctx c) ea.toNat n else none with
    | some a => trapHere c 0x10 (w64 a) s
    | none => act (s.ctx c) (localKey (s.ctx c).gcn ea.toNat) s := by
  refine (outside_alone alone _).trans ((if_neg (by rw [isLocal]; decide)).trans ((if_neg (not_not.2 aligned)).trans
    ((if_neg (not_not.2 whole)).trans ((if_neg ?_).trans ((if_neg (by rw [free]; decide)).trans ?_)))))
  · rintro ⟨some_, unpermitted⟩
    rw [permitted some_] at unpermitted
    cases unpermitted
  · rfl

theorem fullEmpty_locked {x : Nat} (free : localBusy s c ea.toNat n = false) (locks : lock = true)
    (locked : lockedByte (s.ctx c) ea.toNat n = some x) : fullEmpty c ea n need lock act s = trapHere c 0x10 (w64 x) s := by
  rw [fullEmpty_free alone isLocal aligned whole permitted free, if_pos locks, locked]

theorem fullEmpty_acts (free : localBusy s c ea.toNat n = false) (unlocked : lock = true → lockedByte (s.ctx c) ea.toNat n = none) :
    fullEmpty c ea n need lock act s = act (s.ctx c) (localKey (s.ctx c).gcn ea.toNat) s := by
  rw [fullEmpty_free alone isLocal aligned whole permitted free]
  cases lock with
  | false => rfl
  | true => rw [if_pos rfl, unlocked rfl]

end

/-! ### LDA and STL (R159, R161) -/

section
variable {a b d z : R5} (alone : HartAlone s c) (scope : z.toNat ≤ 4)
include alone scope

theorem exec_lda_misaligned (misaligned : (getG (s.ctx c).regs a).toNat % 8 ≠ 0) :
    exec (.lda d a z) s = .next (trapHere c 4 (getG (s.ctx c).regs a) s) :=
  congrArg Host.Outcome.next ((coreOnly_hart alone.cur _).trans ((if_neg (Nat.not_lt.2 scope)).trans
    ((outside_alone alone _).trans (if_pos misaligned))))

theorem exec_stl_misaligned (misaligned : (getG (s.ctx c).regs a).toNat % 8 ≠ 0) :
    exec (.stl a b z) s = .next (trapHere c 4 (getG (s.ctx c).regs a) s) :=
  congrArg Host.Outcome.next ((coreOnly_hart alone.cur _).trans ((if_neg (Nat.not_lt.2 scope)).trans
    ((outside_alone alone _).trans (if_pos misaligned))))

variable (aligned : (getG (s.ctx c).regs a).toNat % 8 = 0)
include aligned

theorem exec_lda_unpermitted (isLocal : (getG (s.ctx c).regs a).getLsbD 63 = false)
    (unpermitted : localOk s (s.ctx c) (getG (s.ctx c).regs a).toNat 8 { rd := true } = false) :
    exec (.lda d a z) s = .next (trapHere c 5 (getG (s.ctx c).regs a) s) :=
  congrArg Host.Outcome.next ((coreOnly_hart alone.cur _).trans ((if_neg (Nat.not_lt.2 scope)).trans ((outside_alone alone _).trans
    ((if_neg (not_not.2 aligned)).trans ((if_pos (by rw [isLocal]; rfl)).trans (if_pos (by rw [unpermitted]; rfl)))))))

theorem exec_lda_busy (isLocal : (getG (s.ctx c).regs a).getLsbD 63 = false)
    (permitted : localOk s (s.ctx c) (getG (s.ctx c).regs a).toNat 8 { rd := true } = true)
    (busy : localBusy s c (getG (s.ctx c).regs a).toNat 8 = true) : exec (.lda d a z) s = .next s :=
  congrArg Host.Outcome.next ((coreOnly_hart alone.cur _).trans ((if_neg (Nat.not_lt.2 scope)).trans ((outside_alone alone _).trans
    ((if_neg (not_not.2 aligned)).trans ((if_pos (by rw [isLocal]; rfl)).trans ((if_neg (by rw [permitted]; decide)).trans (if_pos busy)))))))

theorem exec_lda_unsent (isGlobal : (getG (s.ctx c).regs a).getLsbD 63 = true)
    (unsent : senderCheck s (s.ctx c) (getG (s.ctx c).regs a) false false = .fail) :
    exec (.lda d a z) s = .next (trapHere c 6 (getG (s.ctx c).regs a) s) := by
  refine congrArg Host.Outcome.next ((coreOnly_hart alone.cur _).trans ((if_neg (Nat.not_lt.2 scope)).trans ((outside_alone alone _).trans
    ((if_neg (not_not.2 aligned)).trans ((if_neg (by rw [isGlobal]; decide)).trans ?_)))))
  rw [unsent]

theorem exec_stl_unpermitted (isLocal : (getG (s.ctx c).regs a).getLsbD 63 = false)
    (unpermitted : localOk s (s.ctx c) (getG (s.ctx c).regs a).toNat 8 { w := true } = false) :
    exec (.stl a b z) s = .next (trapHere c 5 (getG (s.ctx c).regs a) s) :=
  congrArg Host.Outcome.next ((coreOnly_hart alone.cur _).trans ((if_neg (Nat.not_lt.2 scope)).trans ((outside_alone alone _).trans
    ((if_neg (not_not.2 aligned)).trans (if_pos (by rw [isLocal, unpermitted]; rfl))))))

theorem exec_stl_unsent (isGlobal : (getG (s.ctx c).regs a).getLsbD 63 = true)
    (unsent : senderCheck s (s.ctx c) (getG (s.ctx c).regs a) true false = .fail) :
    exec (.stl a b z) s = .next (trapHere c 6 (getG (s.ctx c).regs a) s) :=
  congrArg Host.Outcome.next ((coreOnly_hart alone.cur _).trans ((if_neg (Nat.not_lt.2 scope)).trans ((outside_alone alone _).trans
    ((if_neg (not_not.2 aligned)).trans ((if_neg (by rw [isGlobal]; exact Bool.false_ne_true)).trans (if_pos (by rw [isGlobal, unsent]; rfl)))))))

variable (isLocal : (getG (s.ctx c).regs a).getLsbD 63 = false)
variable (permitted : localOk s (s.ctx c) (getG (s.ctx c).regs a).toNat 8 { w := true } = true)
include isLocal permitted

theorem exec_stl_busy (busy : localBusy s c (getG (s.ctx c).regs a).toNat 8 = true) : exec (.stl a b z) s = .next s :=
  congrArg Host.Outcome.next ((coreOnly_hart alone.cur _).trans ((if_neg (Nat.not_lt.2 scope)).trans ((outside_alone alone _).trans
    ((if_neg (not_not.2 aligned)).trans ((if_neg (by rw [isLocal, permitted]; decide)).trans ((if_neg (by rw [isLocal]; exact Bool.false_ne_true)).trans
      (if_pos (by rw [isLocal, busy]; rfl))))))))

theorem exec_stl_locked {x : Nat} (free : localBusy s c (getG (s.ctx c).regs a).toNat 8 = false)
    (locked : lockedByte (s.ctx c) (getG (s.ctx c).regs a).toNat 8 = some x) : exec (.stl a b z) s = .next (trapHere c 0x10 (w64 x) s) := by
  refine congrArg Host.Outcome.next ((coreOnly_hart alone.cur _).trans ((if_neg (Nat.not_lt.2 scope)).trans ((outside_alone alone _).trans
    ((if_neg (not_not.2 aligned)).trans ((if_neg (by rw [isLocal, permitted]; decide)).trans ((if_neg (by rw [isLocal]; exact Bool.false_ne_true)).trans
      ((if_neg (by rw [free, Bool.and_false]; decide)).trans ?_)))))))
  rw [isLocal, if_neg (by decide), locked]

end

/-! ### Atomics (R163, R165) -/

/-- R163: each atomic runs as one access of its size. -/
theorem exec_atomicForm {d a b : R5} {q : BitVec 1} {z : BitVec 2} (form : atomicForm i = some (n, d, a, b, q, z)) :
    ∃ op, amoSize op = n ∧ exec i s = .next (amo op d a b q z s) := by
  cases i with
  | amoAdd | amoAnd | amoOr | amoXor | amoMin | amoMax | amoMinu | amoMaxu | amoSwap | amoCas | amoFaddF64 | amoFaddF32 =>
    cases form
    exact ⟨_, rfl, rfl⟩
  | _ => cases form

section
variable {op : Nat} {d a b : R5} {q : BitVec 1} {z : BitVec 2} (alone : HartAlone s c)
include alone

theorem amo_misaligned (misaligned : (getG (s.ctx c).regs a).toNat % amoSize op ≠ 0) :
    amo op d a b q z s = trapHere c 4 (getG (s.ctx c).regs a) s :=
  (coreOnly_hart alone.cur _).trans ((outside_alone alone _).trans (if_pos misaligned))

variable (aligned : (getG (s.ctx c).regs a).toNat % amoSize op = 0)
include aligned

theorem amo_unpermitted (isLocal : (getG (s.ctx c).regs a).getLsbD 63 = false)
    (unpermitted : localOk s (s.ctx c) (getG (s.ctx c).regs a).toNat (amoSize op) { rd := true, w := true } = false) :
    amo op d a b q z s = trapHere c 5 (getG (s.ctx c).regs a) s :=
  (coreOnly_hart alone.cur _).trans ((outside_alone alone _).trans ((if_neg (not_not.2 aligned)).trans
    ((if_pos (by rw [isLocal]; rfl)).trans (if_pos (by rw [unpermitted]; rfl)))))

theorem amo_locked (isLocal : (getG (s.ctx c).regs a).getLsbD 63 = false)
    (permitted : localOk s (s.ctx c) (getG (s.ctx c).regs a).toNat (amoSize op) { rd := true, w := true } = true)
    (locked : lockedByte (s.ctx c) (getG (s.ctx c).regs a).toNat (amoSize op) ≠ none) :
    amo op d a b q z s = trapHere c 0x10 (getG (s.ctx c).regs a) s :=
  (coreOnly_hart alone.cur _).trans ((outside_alone alone _).trans ((if_neg (not_not.2 aligned)).trans
    ((if_pos (by rw [isLocal]; rfl)).trans ((if_neg (by rw [permitted]; decide)).trans (if_pos (Option.isSome_iff_ne_none.2 locked))))))

theorem amo_unsent (isGlobal : (getG (s.ctx c).regs a).getLsbD 63 = true)
    (unsent : senderCheck s (s.ctx c) (getG (s.ctx c).regs a) true false = .fail) :
    amo op d a b q z s = trapHere c 6 (getG (s.ctx c).regs a) s := by
  refine (coreOnly_hart alone.cur _).trans ((outside_alone alone _).trans ((if_neg (not_not.2 aligned)).trans
    ((if_neg (by rw [isGlobal]; decide)).trans ?_)))
  dsimp only
  rw [unsent]

end

end Sys2Proof.Claim
end

section
open Sys2Proof Sys2Proof.Machine Sys2Proof.Claim

theorem Sys2Proof.Claim.syncTraps : Claim.SyncTraps := by
  unfold Claim.SyncTraps
  intro s c alone
  refine ⟨fun i a n need lock form => ?_, ?_, fun i n d a b q z form => ?_⟩
  · obtain ⟨act, run⟩ := exec_wordForm alone.cur form
    dsimp only
    rw [run]
    refine ⟨fun isGlobal => ?_, fun isLocal misaligned => ?_, fun isLocal aligned ragged => ?_, fun isLocal aligned whole some_ unpermitted => ?_,
      fun isLocal aligned whole permitted => ⟨fun busy => ?_, fun free locks x locked => ?_⟩⟩
    · rw [fullEmpty_global alone isGlobal]
      rfl
    · rw [fullEmpty_misaligned alone isLocal misaligned]
      rfl
    · rw [fullEmpty_ragged alone isLocal aligned ragged]
      rfl
    · rw [fullEmpty_unpermitted alone isLocal aligned whole some_ unpermitted]
      rfl
    · rw [fullEmpty_busy alone isLocal aligned whole permitted busy]
    · rw [fullEmpty_locked alone isLocal aligned whole permitted free locks locked]
      rfl
  · rintro i a z store (⟨rfl, d, rfl⟩ | ⟨rfl, b, rfl⟩) scope
    · exact ⟨exec_lda_misaligned alone scope, exec_lda_unpermitted alone scope, exec_lda_unsent alone scope, fun aligned isLocal permitted =>
        ⟨exec_lda_busy alone scope aligned isLocal permitted, fun _ store => Bool.noConfusion store⟩⟩
    · exact ⟨exec_stl_misaligned alone scope, exec_stl_unpermitted alone scope, exec_stl_unsent alone scope, fun aligned isLocal permitted =>
        ⟨exec_stl_busy alone scope aligned isLocal permitted, fun free _ x locked => exec_stl_locked alone scope aligned isLocal permitted free locked⟩⟩
  · obtain ⟨op, rfl, run⟩ := exec_atomicForm (s := s) form
    dsimp only
    rw [run]
    refine ⟨fun misaligned => ?_, fun aligned isLocal unpermitted => ?_, fun aligned isLocal permitted locked => ?_, fun aligned isGlobal unsent => ?_⟩
    · rw [amo_misaligned alone misaligned]
      rfl
    · rw [amo_unpermitted alone aligned isLocal unpermitted]
      rfl
    · rw [amo_locked alone aligned isLocal permitted locked]
      rfl
    · rw [amo_unsent alone aligned isGlobal unsent]
      rfl

end

section
/-! SUPPORT. Transfers as they are issued, and their traps (R174 to R178, R181, R183, R307, R308). -/

namespace Sys2Proof.Claim
open Sys2Proof.Machine

variable {s : State} {c n : Nat} {a b k : R5}

/-! ### Geometry and far ends (R70, R176) -/

theorem gMode_eq (g : W64) : gMode g = mode g := bits_eq ..

theorem gLen_eq (g : W64) : gLen g = len g := (bits_eq ..).trans (by rw [pow_zero, Nat.div_one]; rfl)

/-- R3: bits 63:57 of an address are zero. -/
theorem bits_high_eq_zero (x : W64) : bits x 57 7 = 0 ↔ x.toNat < 2 ^ 57 := by
  have := x.isLt
  rw [bits_eq]
  omega

theorem farOk_iff {far : W64} {store : Bool} : farOk s (s.ctx c) far n store = true ↔ FarOk s c far n store := by
  unfold farOk FarOk
  cases far.getLsbD 63 with
  | true =>
    rw [if_pos rfl, if_pos rfl]
    cases senderCheck s (s.ctx c) far store false <;> simp
  | false =>
    rw [if_neg (by decide), if_neg (by decide), Bool.and_eq_true, decide_eq_true_eq, decide_eq_true_eq, bits_high_eq_zero]

theorem farOk_eq_false_iff {far : W64} {store : Bool} : farOk s (s.ctx c) far n store = false ↔ ¬FarOk s c far n store := by
  rw [← farOk_iff, Bool.not_eq_true]

/-! ### PUT and GET (R174 to R178) -/

/-- R175: bytes of the local end. -/
def localSpan (g : W64) : Nat := if mode g = 1 then len g / 8 else len g

/-- R177: what PUT or GET asks of its local end. -/
def endNeed (get : Bool) : Need := { rd := !get, w := get }

/-- R177: what PUT or GET asks of its far end. -/
def farBad (s : State) (c : Nat) (get : Bool) (far g : W64) : Prop :=
  (len g ≠ 0 ∧ ((mode g = 1 ∧ far.getLsbD 63 = true) ∨ ¬FarOk s c far (len g) (!get))) ∨
    (len g = 0 ∧ g.getLsbD 47 = true ∧ far.getLsbD 63 = true ∧ (mode g = 1 ∨ ¬FarOk s c far 0 true))

theorem farBad_iff {get : Bool} {far g : W64} :
    (if gLen g ≠ 0 then (decide (gMode g = 1) && far.getLsbD 63) || !farOk s (s.ctx c) far (gLen g) (!get)
      else g.getLsbD 47 && far.getLsbD 63 && (decide (gMode g = 1) || !farOk s (s.ctx c) far 0 true)) = true ↔ farBad s c get far g := by
  rw [gMode_eq, gLen_eq]
  unfold farBad
  by_cases some_ : len g = 0
  · simp [some_, farOk_eq_false_iff, and_assoc]
  · simp [some_, farOk_eq_false_iff]

theorem putGet_illegal {i : Instr} {get : Bool} (cur : s.cur = .hart c) (bad : 2 ≤ mode (getG (s.ctx c).regs k)) :
    putGet i get a b k s = illegal c i s := by
  rw [← gMode_eq] at bad
  exact (coreOnly_hart cur _).trans (if_pos bad)

section
variable {i : Instr} {get : Bool} (alone : HartAlone s c) (legal : mode (getG (s.ctx c).regs k) < 2)
include alone legal

theorem putGet_unpermitted (some_ : len (getG (s.ctx c).regs k) ≠ 0)
    (unpermitted : localOk s (s.ctx c) (getG (s.ctx c).regs a).toNat (localSpan (getG (s.ctx c).regs k)) (endNeed get) = false) :
    putGet i get a b k s = trapHere c 5 (getG (s.ctx c).regs a) s := by
  unfold localSpan at unpermitted
  rw [← gMode_eq] at legal unpermitted
  rw [← gLen_eq] at some_ unpermitted
  exact (coreOnly_hart alone.cur _).trans ((if_neg (Nat.not_le.2 legal)).trans ((outside_alone alone _).trans
    (if_pos ⟨some_, congrArg not unpermitted⟩)))

variable (permitted : len (getG (s.ctx c).regs k) ≠ 0 →
  localOk s (s.ctx c) (getG (s.ctx c).regs a).toNat (localSpan (getG (s.ctx c).regs k)) (endNeed get) = true)
include permitted

/-- R177: a get into a published slot. -/
theorem putGet_locked {x : Nat} (some_ : len (getG (s.ctx c).regs k) ≠ 0) (gets : get = true)
    (locked : lockedByte (s.ctx c) (getG (s.ctx c).regs a).toNat (localSpan (getG (s.ctx c).regs k)) = some x) :
    putGet i get a b k s = trapHere c 0x10 (w64 x) s := by
  unfold localSpan at permitted locked
  simp only [← gMode_eq, ← gLen_eq] at legal some_ permitted locked
  refine (coreOnly_hart alone.cur _).trans ((if_neg (Nat.not_le.2 legal)).trans ((outside_alone alone _).trans ((if_neg ?_).trans ?_)))
  · exact fun h => Bool.false_ne_true ((congrArg not (permitted some_)).symm.trans h.2)
  · rw [if_pos (by rw [gets, decide_eq_true some_]; rfl), locked]

variable (unlocked : get = true → len (getG (s.ctx c).regs k) ≠ 0 →
  lockedByte (s.ctx c) (getG (s.ctx c).regs a).toNat (localSpan (getG (s.ctx c).regs k)) = none)
include unlocked

/-- R177, R178: past the checks of the local end, the far end's, then the queue's. -/
theorem putGet_far : ∃ bad : Bool, (bad = true ↔ farBad s c get (getG (s.ctx c).regs b) (getG (s.ctx c).regs k)) ∧
    putGet i get a b k s = if bad then trapHere c 6 (getG (s.ctx c).regs b) s else if queueFull (s.ctx c) then s else
      enqueueEntry c (if mode (getG (s.ctx c).regs k) = 1
        then wholeColumns (entryOf s (s.ctx c) (if get then .metaGet else .metaPut) (getG (s.ctx c).regs a) (getG (s.ctx c).regs b) (getG (s.ctx c).regs k))
        else entryOf s (s.ctx c) (if get then .get else .put) (getG (s.ctx c).regs a) (getG (s.ctx c).regs b) (getG (s.ctx c).regs k)) s := by
  refine ⟨_, farBad_iff, ?_⟩
  unfold localSpan at permitted unlocked
  simp only [← gMode_eq, ← gLen_eq] at legal permitted unlocked ⊢
  refine (coreOnly_hart alone.cur _).trans ((if_neg (Nat.not_le.2 legal)).trans ((outside_alone alone _).trans ((if_neg ?_).trans ?_)))
  · exact fun h => Bool.false_ne_true ((congrArg not (permitted h.1)).symm.trans h.2)
  · have none_ : (if (get && decide (gLen (getG (s.ctx c).regs k) ≠ 0)) = true
        then lockedByte (s.ctx c) (getG (s.ctx c).regs a).toNat (if gMode (getG (s.ctx c).regs k) = 1 then gLen (getG (s.ctx c).regs k) / 8
          else gLen (getG (s.ctx c).regs k)) else none) = none := by
      split
      · next h =>
        rw [Bool.and_eq_true, decide_eq_true_eq] at h
        exact unlocked h.1 h.2
      · rfl
    simp only [none_]
    by_cases isMeta : gMode (getG (s.ctx c).regs k) = 1
    · simp only [isMeta, if_true]
    · simp only [isMeta, if_false]

theorem putGet_unreachable (bad : farBad s c get (getG (s.ctx c).regs b) (getG (s.ctx c).regs k)) :
    putGet i get a b k s = trapHere c 6 (getG (s.ctx c).regs b) s := by
  obtain ⟨p, hp, run⟩ := putGet_far (i := i) (b := b) alone legal permitted unlocked
  rw [run, if_pos (hp.2 bad)]

end

/-! ### PUTM (R177, R181, R182) -/

theorem exec_putm_illegal (cur : s.cur = .hart c) (bad : 1 ≤ mode (getG (s.ctx c).regs k)) :
    exec (.putm a b k) s = .next (illegal c (.putm a b k) s) := by
  rw [← gMode_eq] at bad
  exact congrArg Host.Outcome.next ((coreOnly_hart cur _).trans (if_pos (Nat.ne_of_gt bad)))

section
variable (alone : HartAlone s c) (legal : mode (getG (s.ctx c).regs k) = 0)
include alone legal

theorem exec_putm_unpermitted (some_ : len (getG (s.ctx c).regs k) ≠ 0)
    (unpermitted : localOk s (s.ctx c) (getG (s.ctx c).regs a).toNat (len (getG (s.ctx c).regs k)) { rd := true } = false) :
    exec (.putm a b k) s = .next (trapHere c 5 (getG (s.ctx c).regs a) s) := by
  rw [← gMode_eq] at legal
  rw [← gLen_eq] at some_ unpermitted
  exact congrArg Host.Outcome.next ((coreOnly_hart alone.cur _).trans ((if_neg (not_not.2 legal)).trans ((outside_alone alone _).trans
    (if_pos ⟨some_, congrArg not unpermitted⟩))))

/-- R181, R182: past the check of the local end, those of the list and of the queue. -/
theorem exec_putm (permitted : len (getG (s.ctx c).regs k) ≠ 0 →
      localOk s (s.ctx c) (getG (s.ctx c).regs a).toNat (len (getG (s.ctx c).regs k)) { rd := true } = true) :
    exec (.putm a b k) s = .next (if putmBad s c (getG (s.ctx c).regs b) then trapHere c 0x13 (s.ctx c).csr.dpat s
      else if queueFull (s.ctx c) then s
      else enqueueEntry c { entryOf s (s.ctx c) .putm (getG (s.ctx c).regs a) (getG (s.ctx c).regs b) (getG (s.ctx c).regs k) with
        dests := putmDests (getG (s.ctx c).regs b) } s) := by
  rw [← gMode_eq] at legal
  simp only [← gLen_eq] at permitted
  exact congrArg Host.Outcome.next ((coreOnly_hart alone.cur _).trans ((if_neg (not_not.2 legal)).trans ((outside_alone alone _).trans
    (if_neg fun h => Bool.false_ne_true ((congrArg not (permitted h.1)).symm.trans h.2)))))

end

/-! ### GETD (R71, R177, R183) -/

theorem exec_getd_illegal (cur : s.cur = .hart c) (bad : 1 ≤ mode (getG (s.ctx c).regs k)) :
    exec (.getd b k) s = .next (illegal c (.getd b k) s) := by
  rw [← gMode_eq] at bad
  exact congrArg Host.Outcome.next ((coreOnly_hart cur _).trans (if_pos (Nat.ne_of_gt bad)))

/-- R177: a far end of GETD that passes. -/
theorem not_farBad_getd {far g : W64} (legal : mode g = 0) (reaches : len g ≠ 0 → FarOk s c far (len g) false)
    (counts : len g = 0 → g.getLsbD 47 = true → far.getLsbD 63 = true → FarOk s c far 0 true) : ¬farBad s c true far g := by
  rintro (⟨some_, isMeta | bad⟩ | ⟨none_, rce, global, isMeta | bad⟩)
  · omega
  · exact bad (reaches some_)
  · omega
  · exact bad (counts none_ rce global)

/-- R71, R177, R183: the checks of GETD: its far end, the pattern, the queue. -/
theorem exec_getd (alone : HartAlone s c) (legal : mode (getG (s.ctx c).regs k) = 0) :
    ∃ bad : Bool, (bad = true ↔ farBad s c true (getG (s.ctx c).regs b) (getG (s.ctx c).regs k)) ∧
      exec (.getd b k) s = .next (if bad then trapHere c 6 (getG (s.ctx c).regs b) s
        else if (decide (len (getG (s.ctx c).regs k) ≠ 0) || (getG (s.ctx c).regs k).getLsbD 47) &&
          dpatBad s c (s.ctx c).csr.dpat (len (getG (s.ctx c).regs k)) then trapHere c 0x13 (s.ctx c).csr.dpat s
        else if queueFull (s.ctx c) then s
        else enqueueEntry c { entryOf s (s.ctx c) .getd 0 (getG (s.ctx c).regs b) (getG (s.ctx c).regs k) with dpat := (s.ctx c).csr.dpat } s) := by
  refine ⟨_, farBad_iff, ?_⟩
  simp only [← gMode_eq, ← gLen_eq] at legal ⊢
  refine congrArg Host.Outcome.next ((coreOnly_hart alone.cur _).trans ((if_neg (not_not.2 legal)).trans ((outside_alone alone _).trans ?_)))
  simp [legal]

/-! ### Memory-side adds (R307, R308) -/

section
variable {vals : List W32} {int : Bool} (alone : HartAlone s c)
include alone

theorem madd_misaligned (misaligned : (getG (s.ctx c).regs a).toNat % n ≠ 0) :
    madd n int vals a s = trapHere c 4 (getG (s.ctx c).regs a) s :=
  (coreOnly_hart alone.cur _).trans ((outside_alone alone _).trans (if_pos misaligned))

variable (aligned : (getG (s.ctx c).regs a).toNat % n = 0)
include aligned

theorem madd_high (high : 2 ^ 57 ≤ (getG (s.ctx c).regs a).toNat) : madd n int vals a s = trapHere c 6 (getG (s.ctx c).regs a) s :=
  (coreOnly_hart alone.cur _).trans ((outside_alone alone _).trans ((if_neg (not_not.2 aligned)).trans
    (if_pos (mt (bits_high_eq_zero _).1 (Nat.not_lt.2 high)))))

theorem madd_queued (low : (getG (s.ctx c).regs a).toNat < 2 ^ 57) : madd n int vals a s =
    if queueFull (s.ctx c) then s else enqueueEntry c
      { eid := s.nextId, kind := .madd, far := getG (s.ctx c).regs a, len := n, asid := (s.ctx c).csr.asid, vals := vals, int := int
        core := (s.ctx c).gcn } s :=
  (coreOnly_hart alone.cur _).trans ((outside_alone alone _).trans ((if_neg (not_not.2 aligned)).trans
    (if_neg (not_not.2 ((bits_high_eq_zero _).2 low)))))

end

end Sys2Proof.Claim
end

section
open Sys2Proof Sys2Proof.Machine Sys2Proof.Claim

/-- A word that a form traps with where its mode is illegal (R82, R177). -/
theorem Sys2Proof.Claim.transferMode_illegal {s : State} {c : Nat} {a b k : R5} {i : Instr} {w : W32} (cur : s.cur = .hart c)
    (form : (2 ≤ mode (getG (s.ctx c).regs k) ∧ (i = .put a b k ∨ i = .get a b k)) ∨
      (1 ≤ mode (getG (s.ctx c).regs k) ∧ (i = .putm a b k ∨ i = .getd b k))) (word : encode i = some w) :
    exec i s = .next (exception c 1 (w.zeroExtend 64) s) := by
  suffices h : exec i s = .next (illegal c i s) from h.trans (congrArg Host.Outcome.next (illegal_encoded word))
  obtain ⟨bad, rfl | rfl⟩ | ⟨bad, rfl | rfl⟩ := form
  · exact congrArg Host.Outcome.next (putGet_illegal cur bad)
  · exact congrArg Host.Outcome.next (putGet_illegal cur bad)
  · exact exec_putm_illegal cur bad
  · exact exec_getd_illegal cur bad

theorem Sys2Proof.Claim.transferIssueTraps : Claim.TransferIssueTraps := by
  unfold Claim.TransferIssueTraps
  intro s c a b k alone
  dsimp only
  refine ⟨fun i w => transferMode_illegal alone.cur, ?_, ?_, ?_, ?_, ?_, ?_, ?_, ?_, ?_, ?_, ?_, ?_, ?_⟩
  · exact fun legal some_ bad => congrArg Host.Outcome.next (putGet_unpermitted alone legal some_ bad)
  · exact fun legal some_ bad => congrArg Host.Outcome.next (putGet_unpermitted alone legal some_ bad)
  · exact fun legal some_ bad => exec_putm_unpermitted alone legal some_ bad
  · exact fun legal some_ permitted y locked => congrArg Host.Outcome.next (putGet_locked alone legal (fun _ => permitted) some_ rfl locked)
  · exact fun legal some_ permitted bad => congrArg Host.Outcome.next
      (putGet_unreachable alone legal (fun _ => permitted) (fun h => absurd h Bool.false_ne_true) (.inl ⟨some_, bad⟩))
  · exact fun legal some_ permitted unlocked bad =>
      congrArg Host.Outcome.next (putGet_unreachable alone legal (fun _ => permitted) (fun _ _ => unlocked) (.inl ⟨some_, bad⟩))
  · intro legal some_ bad
    obtain ⟨p, hp, run⟩ := exec_getd (b := b) alone legal
    rw [run, if_pos (hp.2 (.inl ⟨some_, .inr bad⟩))]
    rfl
  · intro legal none_ rce far bad
    have bad' (get : Bool) : farBad s c get (getG (s.ctx c).regs b) (getG (s.ctx c).regs k) := .inr ⟨none_, rce, far, .inr bad⟩
    refine ⟨congrArg Host.Outcome.next ?_, congrArg Host.Outcome.next ?_, ?_⟩
    · exact putGet_unreachable alone (by omega) (absurd none_) (fun _ => absurd none_) (bad' _)
    · exact putGet_unreachable alone (by omega) (absurd none_) (fun _ => absurd none_) (bad' _)
    · obtain ⟨p, hp, run⟩ := exec_getd (b := b) alone legal
      rw [run, if_pos (hp.2 (bad' _))]
      rfl
  · intro legal permitted bad
    rw [exec_putm alone legal permitted, if_pos bad]
    rfl
  · intro legal far far0 some_ bad
    obtain ⟨p, hp, run⟩ := exec_getd (b := b) alone legal
    rw [run, if_neg, if_pos]
    · rfl
    · rw [bad, Bool.and_true, Bool.or_eq_true, decide_eq_true_eq]
      exact some_
    · rw [hp]
      exact not_farBad_getd legal far far0
  · exact fun bad => ⟨congrArg Host.Outcome.next (madd_misaligned alone bad), congrArg Host.Outcome.next (madd_misaligned alone bad)⟩
  · exact fun bad => congrArg Host.Outcome.next (madd_misaligned alone bad)
  · exact fun high => ⟨fun ok => ⟨congrArg Host.Outcome.next (madd_high alone ok high), congrArg Host.Outcome.next (madd_high alone ok high)⟩,
      fun ok => congrArg Host.Outcome.next (madd_high alone ok high)⟩

end


section
/-! SUPPORT. Rings as their forms are issued, and RING_HANDLE (R185 to R188, R256). -/

namespace Sys2Proof.Claim
open Sys2Proof.Machine

variable {s : State} {c k : Nat} {a b d : R5}

theorem toNat_ringNumber (small : k < 8) : (BitVec.ofNat 5 k).toNat = k := by
  rw [BitVec.toNat_ofNat]
  omega

/-- R188: TVALUE of RING_HANDLE: the ring number above the low half of g[b]. -/
theorem ringValue_eq (small : k < 8) (g : W64) : ringValue k g = BitVec.ofNat 64 (k * 2 ^ 32 + g.toNat % 2 ^ 32) := by
  have high : k * 2 ^ 32 < 2 ^ 64 := by omega
  have whole : k * 2 ^ 32 + g.toNat % 2 ^ 32 < 2 ^ 64 :=
    Nat.lt_of_lt_of_le (Nat.add_lt_add_left (Nat.mod_lt _ (Nat.two_pow_pos 32)) _) (by omega)
  have low : g.toNat &&& (0xFFFFFFFF : W64).toNat = g.toNat % 2 ^ 32 := Nat.and_two_pow_sub_one_eq_mod _ 32
  apply BitVec.eq_of_toNat_eq
  unfold ringValue w64
  rw [BitVec.toNat_or, BitVec.toNat_and, low, BitVec.toNat_ofNat, BitVec.toNat_ofNat, Nat.mod_eq_of_lt high, Nat.mod_eq_of_lt whole,
    Nat.mul_comm, Nat.two_pow_add_eq_or_of_lt (Nat.mod_lt _ (Nat.two_pow_pos 32))]

theorem filled_eq (r : Ring) : filled r = filledOf r := rfl
theorem freeSlots_eq (r : Ring) : freeSlots r = freeOf r := rfl

/-- R253, R256: the field of a shape record that names ring `k`, its A ring or its C ring. -/
theorem heldRing_iff {h : Ctx} {x : Bool} : heldRing h k x = true ↔ HoldsRing h k (if x then 0 else 4) := by
  unfold heldRing HoldsRing
  rw [List.any_eq_true]
  refine exists_congr fun e => and_congr_right fun _ => ?_
  constructor
  · intro names
    split at names
    case h_3 => cases names
    all_goals
      next n f p form =>
      rw [decide_eq_true_eq] at names
      refine ⟨n, f, p, by simp [form], ?_⟩
      rw [← names]
      cases x
      · rfl
      · rfl
  · rintro ⟨n, f, p, form | form, names⟩
    all_goals
      rw [form]
      dsimp only
      rw [decide_eq_true_eq, ← names]
      cases x
      · rfl
      · rfl

section
variable {i : Instr} {top : Ring → Nat} {fed held : Bool → Bool} {act : Nat → Ring → Nat → State → State} (alone : HartAlone s c) (small : k < 8)
include alone small

/-- R188: RWF, RWE, RPUB and RCON on a ring that is not valid, with a count above what the form allows, on a feed ring or one that is held. -/
theorem ringOp_handle (wrong : (ring s c k).valid = false ∨ top (ring s c k) < (getG (s.ctx c).regs b).toNat ∨ fed (ring s c k).feed = true ∨
      (held true = true ∧ HoldsRing (s.ctx c) k 0) ∨ (held false = true ∧ HoldsRing (s.ctx c) k 4)) :
    ringOp i (.ofNat 5 k) b top fed held act s =
      trapHere c 0x11 (BitVec.ofNat 64 (k * 2 ^ 32 + (getG (s.ctx c).regs b).toNat % 2 ^ 32)) s := by
  unfold ringOp
  rw [coreOnly_hart alone.cur]
  dsimp only
  rw [toNat_ringNumber small, if_neg (Nat.not_le.2 small), outside_alone alone, if_pos, ringValue_eq small]
  simp only [Bool.not_eq_true', Bool.and_eq_true, heldRing_iff]
  exact wrong

end

/-! ### RINIT (R187, R188) -/

/-- R188: the geometry of a ring that RINIT may make, its base and that it lies apart from the other rings of the hart. -/
def ringWrong (h : Ctx) (k base slotb nslot : Nat) : Prop :=
  slotb % 8 ≠ 0 ∨ slotb < 8 ∨ 8192 < slotb ∨ nslot < 1 ∨ 1024 < nslot ∨ base % 8 ≠ 0 ∨
    ∃ p ∈ h.eng.rings, p.1 ≠ k ∧ p.2.valid = true ∧ base < p.2.base + p.2.slotb * p.2.nslot ∧ p.2.base < base + slotb * nslot

/-- R188: the ring of RINIT lies in scratchpad that its hart may read and write. -/
def ringPermitted (h : Ctx) (base n : Nat) : Prop := base + n ≤ 0x8000 ∧ protOk h.csr.pw h.priv base n { rd := true, w := true } = true

theorem bits_slotb (g : W64) : bits g 0 16 = g.toNat % 65536 := (bits_eq ..).trans (by rw [pow_zero, Nat.div_one]; rfl)
theorem bits_nslot (g : W64) : bits g 16 16 = g.toNat / 65536 % 65536 := bits_eq ..

section
variable (alone : HartAlone s c) (small : k < 8)
include alone small

theorem rinit_wrong (wrong : ringWrong (s.ctx c) k (getG (s.ctx c).regs a).toNat ((getG (s.ctx c).regs b).toNat % 65536)
      ((getG (s.ctx c).regs b).toNat / 65536 % 65536)) :
    exec (.rinit (.ofNat 5 k) a b) s =
      .next (trapHere c 0x11 (BitVec.ofNat 64 (k * 2 ^ 32 + (getG (s.ctx c).regs b).toNat % 2 ^ 32)) s) := by
  refine (congrArg Host.Outcome.next ((coreOnly_hart alone.cur _).trans ((if_neg ?_).trans ((outside_alone alone _).trans
    (if_pos ?_))))).trans ?_
  · rw [toNat_ringNumber small]
    exact Nat.not_le.2 small
  · simpa [toNat_ringNumber small, ringWrong, bits_slotb, bits_nslot, and_assoc] using wrong
  · rw [toNat_ringNumber small, ringValue_eq small]

variable (right : ¬ringWrong (s.ctx c) k (getG (s.ctx c).regs a).toNat ((getG (s.ctx c).regs b).toNat % 65536)
  ((getG (s.ctx c).regs b).toNat / 65536 % 65536))
include right

theorem rinit_unpermitted (unpermitted : ¬ringPermitted (s.ctx c) (getG (s.ctx c).regs a).toNat
      ((getG (s.ctx c).regs b).toNat % 65536 * ((getG (s.ctx c).regs b).toNat / 65536 % 65536))) :
    exec (.rinit (.ofNat 5 k) a b) s = .next (trapHere c 5 (getG (s.ctx c).regs a) s) := by
  refine congrArg Host.Outcome.next ((coreOnly_hart alone.cur _).trans ((if_neg ?_).trans ((outside_alone alone _).trans
    ((if_neg ?_).trans (if_pos ?_)))))
  · rw [toNat_ringNumber small]
    exact Nat.not_le.2 small
  · simpa [toNat_ringNumber small, ringWrong, bits_slotb, bits_nslot, and_assoc] using right
  · rw [Bool.not_eq_true', ← Bool.not_eq_true, Bool.and_eq_true, inPad, decide_eq_true_eq, bits_slotb, bits_nslot]
    exact unpermitted

/-- R256. -/
theorem rinit_held (permitted : ringPermitted (s.ctx c) (getG (s.ctx c).regs a).toNat
      ((getG (s.ctx c).regs b).toNat % 65536 * ((getG (s.ctx c).regs b).toNat / 65536 % 65536)))
    (held : HoldsRing (s.ctx c) k 0 ∨ HoldsRing (s.ctx c) k 4) :
    exec (.rinit (.ofNat 5 k) a b) s =
      .next (trapHere c 0x11 (BitVec.ofNat 64 (k * 2 ^ 32 + (getG (s.ctx c).regs b).toNat % 2 ^ 32)) s) := by
  refine (congrArg Host.Outcome.next ((coreOnly_hart alone.cur _).trans ((if_neg ?_).trans ((outside_alone alone _).trans
    ((if_neg ?_).trans ((if_neg ?_).trans (if_pos ?_))))))).trans ?_
  · rw [toNat_ringNumber small]
    exact Nat.not_le.2 small
  · simpa [toNat_ringNumber small, ringWrong, bits_slotb, bits_nslot, and_assoc] using right
  · simpa [ringPermitted, bits_slotb, bits_nslot, inPad, Config.padBytes] using permitted
  · rw [toNat_ringNumber small, Bool.or_eq_true, heldRing_iff, heldRing_iff]
    exact held
  · rw [toNat_ringNumber small, ringValue_eq small]

end

end Sys2Proof.Claim
end

section
open Sys2Proof Sys2Proof.Machine Sys2Proof.Claim

theorem Sys2Proof.Claim.ringHandleTraps : Claim.RingHandleTraps := by
  unfold Claim.RingHandleTraps
  intro s c k d b alone small
  dsimp only
  have handle {i : Instr} {top : Ring → Nat} {fed held : Bool → Bool} {act} wrong :
      Host.Outcome.next (φ := Fault) (ρ := Refusal) (ringOp i (.ofNat 5 k) b top fed held act s) = _ :=
    congrArg Host.Outcome.next (ringOp_handle (i := i) (act := act) alone small wrong)
  refine ⟨fun wrong => handle ?_, fun wrong => handle ?_, fun wrong => handle ?_, fun wrong => handle ?_,
    fun a => ⟨rinit_wrong alone small, rinit_unpermitted alone small, rinit_held alone small⟩⟩
  · simpa using wrong
  · simpa using wrong
  · simpa [freeSlots_eq] using wrong
  · simpa [filled_eq] using wrong

/-- Settles O31: each form's checks, taken one after the other in the order the model makes them. -/
theorem accessTraps : Obligations.AccessTraps := by
  unfold Obligations.AccessTraps
  exact ⟨loadStoreTraps, typedAccessTraps, syncTraps, transferIssueTraps, ringHandleTraps⟩

end

section
/-! SUPPORT. The row isolation that O60 does not describe: an entry with bytes left to write, and no translated piece. -/

namespace Sys2Proof.Claim
open Sys2Proof.Machine

/-- A lasting fault of row 0 of bank 0, and a PUT entry that has moved its byte but not yet written it at address 0 of DRAM. The entry
holds no translated piece, so that `NoParts` holds. -/
def unwrittenPut : State :=
  { ctxs := [(0, { eng := { q := [{ eid := 0, kind := .put, len := 1, pos := 1, late := [{ ctx := none, addr := 0, bytes := [1] }] }] } })]
    mod := { lasting := [.row 0 0] } }

/-- How many words each queue entry of each hart has left to write. -/
def wordsLeft (s : State) : List (List Nat) := s.ctxs.map fun x => x.2.eng.q.map fun e => e.late.length

theorem wordsLeft_unwrittenPut : wordsLeft unwrittenPut = [[1]] := rfl

theorem unwrittenPut_noParts : NoParts unwrittenPut := by
  intro x hx e he
  obtain rfl := List.mem_singleton.1 hx
  obtain rfl := List.mem_singleton.1 he
  rfl

/-- R356: retiring the row's frame lands what is left to write there, whatever pieces the entry holds. -/
theorem wordsLeft_isolated : ∃ t, exec (.isolateFault (.row 0 0)) unwrittenPut = .next t ∧ wordsLeft t = [[0]] := ⟨_, rfl, by decide⟩

end Sys2Proof.Claim
end

section
open Sys2Proof Sys2Proof.Machine Sys2Proof.Claim

theorem Sys2Proof.Claim.not_isolation : ¬Claim.Isolation := by
  unfold Claim.Isolation
  intro claim
  obtain ⟨-, row, -⟩ := claim unwrittenPut
  obtain ⟨t, run, frame, -⟩ := row 0 0 (List.mem_singleton.2 rfl) (by decide) rfl unwrittenPut_noParts
  obtain ⟨u, run', landed⟩ := wordsLeft_isolated
  obtain rfl : t = u := Host.Outcome.next.inj (run.symm.trans run')
  have kept : t.ctxs = unwrittenPut.ctxs := (congrArg State.ctxs frame :)
  have same : wordsLeft t = wordsLeft unwrittenPut := by rw [wordsLeft, kept, wordsLeft]
  rw [landed, wordsLeft_unwrittenPut] at same
  exact absurd same (by decide)

/-- Refutes O60: the clause about a row's isolation keeps everything but banks and module where no entry holds a translated piece
(`NoParts`), but `landRetired` writes what an entry's segments have left to write in the retired frame, and looks at the entry's `late`
words only, not at its pieces: the entry of `unwrittenPut` changes. -/
theorem not_reliability : ¬Obligations.Reliability := by
  unfold Obligations.Reliability
  rintro ⟨-, isolation, -⟩
  exact not_isolation isolation

end

section
/-! SUPPORT. Writes to SRAM, full/empty bits and the retirement of accesses outside chunks (R56, R94, R149, R202). -/

namespace Sys2Proof.Claim
open Sys2Proof.Machine

variable {s t u : State} {c k : Nat}

/-! ### Bytes (R3) -/

/-- Memory after a list of bytes is written at a key. -/
theorem readByte_writeBytes_all (m : Memory) (k a : Nat) (b : List Byte) :
    readByte (writeBytes m k b) a = if k ≤ a ∧ a < k + b.length then b.getD (a - k) 0 else readByte m a := by
  by_cases inside : k ≤ a ∧ a < k + b.length
  · have hi : a - k < b.length := by omega
    have written := readByte_writeBytes m k (a - k) b hi
    rw [Nat.add_sub_cancel' inside.1] at written
    rw [if_pos inside, written, List.getD_eq_getElem _ _ hi]
  · rw [if_neg inside, readByte_writeBytes_other _ _ _ _ (by omega)]

theorem bytesOf_succ (n v : Nat) : bytesOf (n + 1) v = BitVec.ofNat 8 v :: bytesOf n (v / 256) := by
  unfold bytesOf
  rw [List.range_succ_eq_map, List.map_cons, List.map_map, pow_zero, Nat.div_one]
  refine congrArg _ (List.map_congr_left fun i _ => ?_)
  rw [Function.comp_apply, Nat.pow_succ, Nat.mul_comm, Nat.div_div_eq_div_mul]

theorem leBytes_eq (n v : Nat) : leBytes n v = bytesOf n v := by
  induction n generalizing v with
  | zero => rfl
  | succ n ih => rw [bytesOf_succ, ← ih]; rfl

/-! ### Words and bytes of SRAM (R56, R200, R202) -/

theorem bits_setFe (l : List Nat) (v : Bool) (same : u.fe = s.fe) : Bits s (setFe l v u) l v := by
  intro w
  rw [← same]
  exact tget_setWords ..

theorem bits_nil (v : Bool) (same : u.fe = s.fe) : Bits s u [] v := fun w => by rw [same]; rfl

theorem SquashedIf.or {p : Prop} {n : Nat} {h h' : Ctx} (k : SquashedIf p n h h') : h' = h ∨ h' = squash n h := by
  by_cases hp : p
  · exact .inr (k.1 hp)
  · exact .inl (k.2 hp)

theorem sramWrite_self (b : List Byte) : (sramWrite k b (some c) s).ctx c = s.ctx c := squashReaders_self ..

theorem sramWrite_ctx (b : List Byte) (me : Option Nat) (x : Nat) :
    (sramWrite k b me s).ctx x = s.ctx x ∨ (sramWrite k b me s).ctx x = squash s.gtime (s.ctx x) := by
  exact (squashReaders_ctx (keyCluster k) (wordsOf k b.length) me { s with mem := writeBytes s.mem k b } x).or

theorem sramWrite_memory (b : List Byte) (me : Option Nat) (a : Nat) :
    readByte (sramWrite k b me s).mem a = if k ≤ a ∧ a < k + b.length then b.getD (a - k) 0 else readByte s.mem a := by
  rw [sramWrite_mem]
  exact readByte_writeBytes_all ..

/-! ### Retirement (R94, R149) -/

theorem retire_unarmed (armed : (u.ctx c).armed = none) : retire c u = modCtx c (fun h => { h with
    regs := { h.regs with pc := (u.ctx c).regs.pc + 4 }, wait := .none, csr := { h.csr with retired := h.csr.retired + 1 } }) u :=
  retireAt_eq armed _

/-- R94, R202: an access that has changed only registers of hart `c`, and memory and bits, retires. -/
theorem wrote_retire {q : Regs} {b : List Byte} (armed : (s.ctx c).armed = none) (own : u.ctx c = { s.ctx c with regs := q })
    (pc : q.pc = (s.ctx c).regs.pc) (device : { u with ctxs := s.ctxs, mem := s.mem, fe := s.fe } = s)
    (harts : ∀ x, x ≠ c → u.ctx x = s.ctx x ∨ u.ctx x = squash s.gtime (s.ctx x))
    (memory : ∀ a, readByte u.mem a = if k ≤ a ∧ a < k + b.length then b.getD (a - k) 0 else readByte s.mem a) :
    Wrote c s (retire c u) (nextPc (s.ctx c).regs q) k b := by
  rw [retire_unarmed (by rw [own]; exact armed)]
  refine ⟨device, ?_, fun x hx => ?_, memory⟩
  · rw [modCtx_self, own, pc]
    rfl
  · rw [modCtx_ctx, if_neg hx]
    exact harts x hx

theorem retire_fe (armed : (u.ctx c).armed = none) : (retire c u).fe = u.fe := by
  rw [retire_unarmed armed]
  rfl

theorem Bits.retire {l : List Nat} {v : Bool} (h : Bits s u l v) (armed : (u.ctx c).armed = none) : Bits s (retire c u) l v := by
  intro w
  rw [retire_fe armed]
  exact h w

/-- R94: a value goes to g[d] as the instruction retires. -/
theorem retired_finishG (armed : (s.ctx c).armed = none) (d : R5) (v : W64) :
    Retired c s (finishG c d v s) (nextPc (s.ctx c).regs (setG (s.ctx c).regs d v)) := by
  unfold finishG
  rw [retire_unarmed (by rw [putG_eq, modCtx_self]; exact armed), putG_eq, modCtx_comp]
  refine ⟨onlyHart_modCtx .., ?_⟩
  rw [modCtx_self, modCtx_self, setG_pc]
  rfl

end Sys2Proof.Claim
end

section
/-! SUPPORT. Full/empty forms (R158). -/

namespace Sys2Proof.Claim
open Sys2Proof.Machine

variable {s : State} {c k : Nat} {a b d : R5}

theorem memWord_eq (s : State) (k n : Nat) : memWord s k n = leNat (readBytes s.mem k n) := rfl

/-- R158: a full word goes to g[d]; LDSE leaves it empty. -/
theorem wrote_ldsDone (armed : (s.ctx c).armed = none) (d : R5) (k : Nat) (empties : Bool) :
    Wrote c s (ldsDone c d k empties s) (nextPc (s.ctx c).regs (setG (s.ctx c).regs d (BitVec.ofNat 64 (memWord s k 8)))) 0 [] ∧
      Bits s (ldsDone c d k empties s) (if empties then [k / 8] else []) false := by
  have emptied : Bits s (if empties then setFe [k / 8] false s else s) (if empties then [k / 8] else []) false := by
    cases empties with
    | false => exact bits_nil _ rfl
    | true => exact bits_setFe _ _ rfl
  have device : ∃ fe, (if empties then setFe [k / 8] false s else s) = { s with fe := fe } := by
    cases empties with
    | false => exact ⟨_, rfl⟩
    | true => exact ⟨_, rfl⟩
  unfold ldsDone finishG
  obtain ⟨fe, same⟩ := device
  rw [same] at emptied ⊢
  refine ⟨wrote_retire armed ?_ (setG_pc ..) rfl (fun x hx => .inl ?_) fun a => ?_, Bits.retire emptied ?_⟩
  · rw [putG_eq, modCtx_self]
    rfl
  · exact (modCtx_ctx ..).trans (if_neg hx)
  · rw [if_neg (by simp)]
    rfl
  · rw [putG_eq, modCtx_self]
    exact armed

/-- R158, R159: a form whose checks pass acts on its span. -/
theorem fullEmpty_reaches {n : Nat} {need : Need} {lock : Bool} {act : Ctx → Nat → State → State} {ea : W64} (alone : HartAlone s c)
    (reaches : Reaches s c ea n need) (eight : n = 8) (unlocked : lock = true → lockedByte (s.ctx c) ea.toNat n = none) :
    fullEmpty c ea n need lock act s = act (s.ctx c) (keyOf s c ea) s :=
  fullEmpty_acts alone reaches.isLocal (eight ▸ reaches.aligned) (by rw [eight]) (fun _ => reaches.permitted) reaches.free unlocked

/-- The table of harts lists each once. -/
theorem ctx_of_mem (canonical : Canonical s) {p : Nat × Ctx} (hp : p ∈ s.ctxs) : s.ctx p.1 = p.2 := by
  obtain ⟨-, rising⟩ := canonical
  show tget s.ctxs p.1 {} = p.2
  generalize s.ctxs = l at hp rising
  induction rising with
  | nil => cases hp
  | @cons q l below _ ih =>
    rw [tget]
    obtain rfl | later := List.mem_cons.1 hp
    · exact if_pos rfl
    · exact (if_neg (below p later).ne).trans (ih later)

/-- R129, R158: no other hart that could take the word waits for it. -/
theorem ldseWaits_eq_false {before : Nat → Nat → Bool}
    (alone : ∀ p ∈ s.ctxs, ∀ e x t, p.1 ≠ c → canWake p.2 = true → p.2.wait = .lds e x true t →
    localKey p.2.gcn x = k → before t p.2.gcn = false) : ldseWaits s c k before = false := by
  refine List.any_eq_false.2 fun p hp waits => ?_
  split at waits
  case h_2 => cases waits
  next e x t wait =>
    simp only [Bool.and_eq_true, decide_eq_true_eq] at waits
    obtain ⟨⟨⟨other, wakes⟩, key⟩, first⟩ := waits
    rw [alone p hp e x t other wakes wait key] at first
    cases first

section
variable (alone : HartAlone s c)
include alone

theorem exec_lds (reaches : Reaches s c (getG (s.ctx c).regs a) 8 { rd := true }) : exec (.lds d a) s =
    .next (if isFull s (keyOf s c (getG (s.ctx c).regs a)) && !(false && ldseWaits s c (keyOf s c (getG (s.ctx c).regs a)) fun _ _ => true)
      then ldsDone c d (keyOf s c (getG (s.ctx c).regs a)) false s
      else setWait c (.lds d (getG (s.ctx c).regs a).toNat false s.gtime) s) :=
  congrArg Host.Outcome.next ((coreOnly_hart alone.cur _).trans (fullEmpty_reaches alone reaches rfl fun h => absurd h Bool.false_ne_true))

theorem exec_ldse (reaches : Reaches s c (getG (s.ctx c).regs a) 8 { rd := true }) : exec (.ldse d a) s =
    .next (if isFull s (keyOf s c (getG (s.ctx c).regs a)) && !(true && ldseWaits s c (keyOf s c (getG (s.ctx c).regs a)) fun _ _ => true)
      then ldsDone c d (keyOf s c (getG (s.ctx c).regs a)) true s
      else setWait c (.lds d (getG (s.ctx c).regs a).toNat true s.gtime) s) :=
  congrArg Host.Outcome.next ((coreOnly_hart alone.cur _).trans (fullEmpty_reaches alone reaches rfl fun h => absurd h Bool.false_ne_true))

theorem exec_stfl (reaches : Reaches s c (getG (s.ctx c).regs a) 8 { w := true }) (unlocked : lockedByte (s.ctx c) (getG (s.ctx c).regs a).toNat 8 = none) :
    exec (.stfl a b) s = .next (retire c (setFe [keyOf s c (getG (s.ctx c).regs a) / 8] true
      (sramWrite (keyOf s c (getG (s.ctx c).regs a)) (leBytes 8 (getG (s.ctx c).regs b).toNat) (some c) s))) :=
  congrArg Host.Outcome.next ((coreOnly_hart alone.cur _).trans (fullEmpty_reaches alone reaches rfl fun _ => unlocked))

theorem wrote_stfl (v : Nat) :
    Wrote c s (retire c (setFe [k / 8] true (sramWrite k (leBytes 8 v) (some c) s))) (nextPc (s.ctx c).regs (s.ctx c).regs) k (bytesOf 8 v) ∧
      Bits s (retire c (setFe [k / 8] true (sramWrite k (leBytes 8 v) (some c) s))) [k / 8] true := by
  have own : (setFe [k / 8] true (sramWrite k (leBytes 8 v) (some c) s)).ctx c = s.ctx c := sramWrite_self _
  rw [← leBytes_eq]
  exact ⟨wrote_retire alone.notArmed own rfl rfl (fun x _ => sramWrite_ctx _ _ x) (sramWrite_memory _ (some c)),
    Bits.retire (bits_setFe _ _ rfl) (by rw [own]; exact alone.notArmed)⟩

theorem wrote_feSpan (l : List Nat) (full : Bool) :
    Wrote c s (retire c (setFe l full s)) (nextPc (s.ctx c).regs (s.ctx c).regs) 0 [] ∧ Bits s (retire c (setFe l full s)) l full :=
  ⟨wrote_retire alone.notArmed rfl rfl rfl (fun _ _ => .inl rfl) fun _ => (if_neg (by simp)).symm, Bits.retire (bits_setFe _ _ rfl) alone.notArmed⟩

end

/-- R158: bit i of FEST. -/
theorem getLsbD_festBits (s : State) (k : Nat) {i : Nat} (hi : i < 64) :
    (BitVec.ofBoolListLE ((List.range 64).map fun i => isFull s (k + 8 * i)) |>.setWidth 64).getLsbD i = tget s.fe ((k + 8 * i) / 8) false := by
  rw [BitVec.getLsbD_setWidth, BitVec.getLsbD_ofBoolListLE]
  simp [hi, isFull]

end Sys2Proof.Claim
end

section
open Sys2Proof Sys2Proof.Machine Sys2Proof.Claim

theorem Sys2Proof.Claim.fullEmptyForms : Claim.FullEmptyForms := by
  unfold Claim.FullEmptyForms
  intro s c alone
  dsimp only
  refine ⟨fun d a reaches full => ?_, fun d a reaches empty => ⟨?_, ?_⟩, fun d a reaches full none_ => ?_, fun a b reaches unlocked => ?_,
    fun a b aligned whole permitted isLocal free unlocked => ⟨?_, ?_⟩, fun d a isLocal aligned permitted free => ?_⟩
  · rw [exec_lds alone reaches, if_pos (by rw [isFull, full]; rfl)]
    exact ⟨_, rfl, retired_finishG alone.notArmed ..⟩
  · rw [exec_lds alone reaches, if_neg (by rw [isFull, empty]; exact Bool.false_ne_true)]
  · rw [exec_ldse alone reaches, if_neg (by rw [isFull, empty]; exact Bool.false_ne_true)]
  · have first : ldseWaits s c (keyOf s c (getG (s.ctx c).regs a)) (fun _ _ => true) = false :=
      ldseWaits_eq_false fun p hp e x t other wakes wait key => by
        simp only [canWake, Bool.and_eq_true, Bool.not_eq_true'] at wakes
        obtain ⟨⟨resident, running⟩, -⟩ := wakes
        exact absurd key (none_ p hp e x t other resident running wait)
    rw [exec_ldse alone reaches, first, if_pos (by rw [isFull, full]; rfl)]
    exact ⟨_, rfl, wrote_ldsDone alone.notArmed ..⟩
  · exact ⟨_, exec_stfl alone reaches unlocked, wrote_stfl alone _⟩
  · exact ⟨_, congrArg Host.Outcome.next ((coreOnly_hart alone.cur _).trans
      (fullEmpty_acts alone isLocal aligned whole permitted free fun _ => unlocked)), wrote_feSpan alone _ true⟩
  · exact ⟨_, congrArg Host.Outcome.next ((coreOnly_hart alone.cur _).trans
      (fullEmpty_acts alone isLocal aligned whole permitted free fun _ => unlocked)), wrote_feSpan alone _ false⟩
  · exact ⟨_, _, congrArg Host.Outcome.next ((coreOnly_hart alone.cur _).trans
      (fullEmpty_acts alone isLocal aligned rfl (fun _ => permitted) free fun h => absurd h Bool.false_ne_true)),
      retired_finishG alone.notArmed .., fun i hi => getLsbD_festBits s _ hi⟩

theorem Sys2Proof.Claim.ldsWaitEnds : Claim.LdsWaitEnds := by
  unfold Claim.LdsWaitEnds
  intro s c d ea empties since canonical wait live armed
  dsimp only
  intro full free earliest
  have ⟨_, _, _, unposted, _⟩ := live
  have first : (empties && ldseWaits s c (localKey (s.ctx c).gcn ea)
      fun t g => decide (t < since) || (decide (t = since) && decide (g < (s.ctx c).gcn))) = false := by
    cases empties with
    | false => rfl
    | true =>
      refine (Bool.true_and _).trans (ldseWaits_eq_false fun p hp e x t other wakes waits key => ?_)
      simp only [canWake, Bool.and_eq_true, Bool.not_eq_true'] at wakes
      obtain ⟨⟨resident, running⟩, -⟩ := wakes
      rw [← ctx_of_mem canonical hp] at resident running waits key ⊢
      have later := earliest rfl p.1 e x t other resident running waits key
      simp only [Bool.or_eq_false_iff, Bool.and_eq_false_iff, decide_eq_false_iff_not]
      omega
  have wakes : mayWake s (s.ctx c) = true := by rw [mayWake, canMove_of_live live, unposted]; rfl
  refine ⟨ldsDone c d (localKey (s.ctx c).gcn ea) empties s, congrArg Host.Outcome.next ?_, wrote_ldsDone armed ..⟩
  dsimp only
  rw [wait]
  dsimp only
  rw [first, wakes, isFull, full, free]
  rfl

/-- Settles O32: each form whose checks pass, and the wake of a wait, is one access (`ldsDone`, `sramWrite` or `setFe`) before the hart
retires. -/
theorem fullEmptyAccesses : Obligations.FullEmptyAccesses := by
  unfold Obligations.FullEmptyAccesses
  exact ⟨fullEmptyForms, ldsWaitEnds⟩

end

section
/-! SUPPORT. Queue entries of transfers as they are issued (R70, R175 to R178, R307, R308). -/

namespace Sys2Proof.Claim
open Sys2Proof.Machine

variable {s : State} {c : Nat} {a b k : R5}

theorem entryOf_eq (kind : XKind) (loc far g : W64) : entryOf s (s.ctx c) kind loc far g = entryFor s c kind loc far g := by
  unfold entryOf entryFor
  rw [gLen_eq, bits_eq, bits_eq]
  rfl

/-- The column that holds an address. -/
theorem and_not_columnMask (x : W64) : x &&& ~~~0x1F#64 = BitVec.ofNat 64 (x.toNat / 32 * 32) := by
  have mask (i : Nat) : (~~~0x1F#64).getLsbD i = (decide (i < 64) && !decide (i < 5)) := by
    rw [BitVec.getLsbD_not, show (0x1F#64) = BitVec.ofNat 64 (2 ^ 5 - 1) from rfl, BitVec.getLsbD_ofNat, Nat.testBit_two_pow_sub_one]
    by_cases small : i < 64
    · simp [small]
    · simp [small]
  have aligned : x &&& ~~~0x1F#64 = x >>> 5 <<< 5 := by
    refine BitVec.eq_of_getLsbD_eq fun i hi => ?_
    rw [BitVec.getLsbD_and, mask, BitVec.getLsbD_shiftLeft, BitVec.getLsbD_ushiftRight]
    by_cases small : i < 5
    · simp [small]
    · simp [small, hi, show 5 + (i - 5) = i by omega]
  apply BitVec.eq_of_toNat_eq
  rw [aligned, BitVec.toNat_shiftLeft, BitVec.toNat_ushiftRight, BitVec.toNat_ofNat, Nat.shiftRight_eq_div_pow, Nat.shiftLeft_eq]

theorem wholeColumns_eq (e : Entry) : wholeColumns e = columnsOf e := by
  unfold wholeColumns columnsOf
  split
  · next none_ =>
    have nothing : e.len / 32 * 32 = e.len := by rw [none_]
    rw [nothing]
  · rw [and_not_columnMask]

theorem hiWord_eq (x : W64) : hiWord x = x.extractLsb' 32 32 := by
  apply BitVec.eq_of_toNat_eq
  rw [BitVec.extractLsb'_toNat]
  exact (BitVec.toNat_setWidth ..).trans (by rw [BitVec.toNat_ushiftRight])

theorem queueFull_iff {h : Ctx} : queueFull h = true ↔ 16 ≤ h.eng.q.length := decide_eq_true_iff

/-- R178: an entry is queued, and the hart goes on. -/
theorem queued_enqueueEntry (alone : HartAlone s c) (e : Entry) : Queued c s (enqueueEntry c e s) e := by
  unfold enqueueEntry
  rw [modEng_eq, retire_unarmed, modCtx_comp]
  · refine ⟨rfl, rfl, fun x hx => (modCtx_ctx ..).trans (if_neg hx), ?_⟩
    rw [modCtx_self, modCtx_self]
    rfl
  · rw [modCtx_self]
    exact alone.notArmed

/-- R178: with the checks passed an entry is queued, or the hart waits at a full queue. -/
theorem queued_or_waits (alone : HartAlone s c) {i : Instr} {e : Entry}
    (run : exec i s = .next (if queueFull (s.ctx c) then s else enqueueEntry c e s)) :
    ((s.ctx c).eng.q.length < 16 → ∃ t, exec i s = .next t ∧ Queued c s t e) ∧ (16 ≤ (s.ctx c).eng.q.length → exec i s = .next s) := by
  refine ⟨fun room => ⟨_, run.trans (congrArg _ (if_neg ?_)), queued_enqueueEntry alone e⟩,
    fun full => run.trans (congrArg _ (if_pos (queueFull_iff.2 full)))⟩
  rw [queueFull_iff]
  omega

/-- R177, R178: PUT or GET whose operands pass. -/
theorem putGet_queues {get : Bool} {i : Instr} (alone : HartAlone s c) (legal : mode (getG (s.ctx c).regs k) < 2)
    (columns : len (getG (s.ctx c).regs k) ≠ 0 → mode (getG (s.ctx c).regs k) = 1 → (getG (s.ctx c).regs b).getLsbD 63 = false)
    (counts : len (getG (s.ctx c).regs k) = 0 → (getG (s.ctx c).regs k).getLsbD 47 = true → (getG (s.ctx c).regs b).getLsbD 63 = true →
      mode (getG (s.ctx c).regs k) = 0 ∧ FarOk s c (getG (s.ctx c).regs b) 0 true)
    (permitted : len (getG (s.ctx c).regs k) ≠ 0 →
      localOk s (s.ctx c) (getG (s.ctx c).regs a).toNat (localSpan (getG (s.ctx c).regs k)) (endNeed get) = true)
    (unlocked : get = true → len (getG (s.ctx c).regs k) ≠ 0 →
      lockedByte (s.ctx c) (getG (s.ctx c).regs a).toNat (localSpan (getG (s.ctx c).regs k)) = none)
    (far : len (getG (s.ctx c).regs k) ≠ 0 → FarOk s c (getG (s.ctx c).regs b) (len (getG (s.ctx c).regs k)) (!get)) :
    putGet i get a b k s = if queueFull (s.ctx c) then s else enqueueEntry c
      (if mode (getG (s.ctx c).regs k) = 1
        then columnsOf (entryFor s c (if get then .metaGet else .metaPut) (getG (s.ctx c).regs a) (getG (s.ctx c).regs b) (getG (s.ctx c).regs k))
        else entryFor s c (if get then .get else .put) (getG (s.ctx c).regs a) (getG (s.ctx c).regs b) (getG (s.ctx c).regs k)) s := by
  obtain ⟨bad, hbad, run⟩ := putGet_far (i := i) (b := b) alone legal permitted unlocked
  rw [run, if_neg, entryOf_eq, entryOf_eq, wholeColumns_eq]
  rw [hbad]
  rintro (⟨some_, ⟨isMeta, global⟩ | bad⟩ | ⟨none_, rce, global, isMeta | bad⟩)
  · rw [columns some_ isMeta] at global
    cases global
  · exact bad (far some_)
  · have := (counts none_ rce global).1
    omega
  · exact bad (counts none_ rce global).2

end Sys2Proof.Claim
end

section
open Sys2Proof Sys2Proof.Machine Sys2Proof.Claim

theorem Sys2Proof.Claim.putGetIssue : Claim.PutGetIssue := by
  unfold Claim.PutGetIssue
  intro s c a b k alone
  dsimp only
  intro legal columns counts
  refine ⟨fun pass => queued_or_waits alone ?_, fun pass => queued_or_waits alone ?_⟩
  · exact congrArg Host.Outcome.next (putGet_queues (get := false) alone legal columns counts (fun some_ => (pass some_).1)
      (fun h => absurd h Bool.false_ne_true) fun some_ => (pass some_).2)
  · exact congrArg Host.Outcome.next (putGet_queues (get := true) alone legal columns counts (fun some_ => (pass some_).1)
      (fun _ some_ => (pass some_).2.1) fun some_ => (pass some_).2.2)

theorem Sys2Proof.Claim.putmGetdIssue : Claim.PutmGetdIssue := by
  unfold Claim.PutmGetdIssue
  intro s c a b k alone
  dsimp only
  intro legal
  refine ⟨fun permitted good => queued_or_waits alone ?_, fun far far0 good => queued_or_waits alone ?_⟩
  · rw [exec_putm alone legal permitted, if_neg (by rw [good]; decide), entryOf_eq]
  · obtain ⟨bad, hbad, run⟩ := exec_getd (b := b) alone legal
    rw [run, if_neg, if_neg, entryOf_eq]
    · rw [Bool.and_eq_true, Bool.or_eq_true, decide_eq_true_eq]
      rintro ⟨some_, bad⟩
      rw [good some_] at bad
      cases bad
    · rw [hbad]
      exact not_farBad_getd legal far far0

theorem Sys2Proof.Claim.memorySideAddIssue : Claim.MemorySideAddIssue := by
  unfold Claim.MemorySideAddIssue
  intro s c a b k alone
  dsimp only
  intro low
  have queues {n : Nat} {int : Bool} {vals : List W32} {i : Instr} (run : exec i s = .next (madd n int vals a s))
      (aligned : (getG (s.ctx c).regs a).toNat % n = 0) := queued_or_waits alone (run.trans (congrArg _ (madd_queued alone aligned low)))
  have mine (r : R5) : curG s r = getG (s.ctx c).regs r := by unfold curG; rw [alone.cur]
  have f32 : exec (.maddF32 a b) s = .next (madd 4 false [(getG (s.ctx c).regs b).truncate 32] a s) := by rw [← mine]; rfl
  have i32 : exec (.maddI32 a b) s = .next (madd 4 true [(getG (s.ctx c).regs b).truncate 32] a s) := by rw [← mine]; rfl
  have v4 : exec (.maddV4 a b k) s = .next (madd 16 false [(getG (s.ctx c).regs b).truncate 32, (getG (s.ctx c).regs b).extractLsb' 32 32,
      (getG (s.ctx c).regs k).truncate 32, (getG (s.ctx c).regs k).extractLsb' 32 32] a s) := by
    rw [← mine, ← mine, ← hiWord_eq, ← hiWord_eq]; rfl
  refine ⟨fun aligned room => ⟨(queues f32 aligned).1 room, (queues i32 aligned).1 room⟩, fun aligned room => (queues v4 aligned).1 room,
    fun full => ⟨fun aligned => ⟨(queues f32 aligned).2 full, (queues i32 aligned).2 full⟩, fun aligned => (queues v4 aligned).2 full⟩⟩

end

section
/-! SUPPORT. Translation of a part (R72, R321, R346, R350, R351). -/

namespace Sys2Proof.Claim
open Sys2Proof.Machine

variable {s : State} {c : Nat} {e : Entry} {r : List Entry}

/-! ### Fault identifiers (R351) -/

/-- A search that ends at an identifier of the list has met `n` more of it. -/
theorem freshFid_met (n : Nat) {f : Nat} (small : f < 65536) (l : List Nat) (met : freshFid n f l ∈ l) : ∀ k ≤ n, (f + k) % 65536 ∈ l := by
  induction n generalizing f with
  | zero =>
    intro k hk
    obtain rfl := Nat.le_zero.1 hk
    rwa [Nat.add_zero, Nat.mod_eq_of_lt small]
  | succ n ih =>
    unfold freshFid at met
    split at met
    · next taken =>
      rw [List.contains_iff_mem] at taken
      intro k hk
      cases k with
      | zero => rwa [Nat.add_zero, Nat.mod_eq_of_lt small]
      | succ k =>
        have next := ih (Nat.mod_lt _ (by decide)) met k (Nat.le_of_succ_le_succ hk)
        rwa [Nat.mod_add_mod, Nat.add_assoc, Nat.add_comm 1 k] at next
    · next free => exact absurd (List.contains_iff_mem.2 met) free

/-- R351: with fewer identifiers in use than there are, the search finds a free one. -/
theorem freshFid_fresh {f : Nat} (small : f < 65536) (l : List Nat) (room : l.length < 65536) : freshFid l.length f l ∉ l := by
  intro met
  have distinct : ((List.range (l.length + 1)).map fun k => (f + k) % 65536).Nodup := by
    refine List.Nodup.map_on (fun x hx y hy same => ?_) List.nodup_range
    rw [List.mem_range] at hx hy
    omega
  have within : ((List.range (l.length + 1)).map fun k => (f + k) % 65536) ⊆ l := by
    intro x hx
    obtain ⟨k, hk, rfl⟩ := List.mem_map.1 hx
    exact freshFid_met _ small l met k (Nat.le_of_lt_succ (List.mem_range.1 hk))
  have more := (List.subperm_of_subset distinct within).length_le
  rw [List.length_map, List.length_range] at more
  omega

/-! ### The oldest entry of a queue (R178) -/

theorem Oldest.entryAt (oldest : Oldest s c e r) : Machine.entryAt (s.ctx c) e.eid = some e := by
  unfold Machine.entryAt
  rw [oldest.1]
  exact List.find?_cons_of_pos (decide_eq_true rfl)

theorem Oldest.mayStart (oldest : Oldest s c e r) : Machine.mayStart (s.ctx c) e = true := by
  unfold Machine.mayStart earlier
  rw [oldest.1, List.takeWhile_cons_of_neg (by simp)]
  exact Bool.or_true _

/-- The queue after the oldest entry has become `e'`, in a state in which the queue still is what it was. -/
theorem Oldest.setEntry {t : State} {e' : Entry} (oldest : Oldest s c e r) (same : t.ctx c = s.ctx c) (number : e'.eid = e.eid) :
    ((Machine.setEntry c e' t).ctx c).eng.q = e' :: r := by
  obtain ⟨queue, distinct⟩ := oldest
  unfold Machine.setEntry
  rw [modEng_eq, modCtx_self, same]
  show (s.ctx c).eng.q.map _ = _
  rw [queue, List.map_cons, if_pos number.symm]
  refine congrArg _ ((List.map_congr_left fun x hx => if_neg ?_).trans (List.map_id r))
  rw [number]
  exact distinct x hx

/-- R72: the oldest entry's first part is translated as soon as no row is hot. -/
theorem exec_partTranslate (oldest : Oldest s c e r) (going : e.failed = none) (served : e.susp = none) (fresh : e.xlated = 0)
    (some_ : 1 ≤ e.len) (kind : e.kind = .put ∨ e.kind = .get) (virtual : e.far.getLsbD 63 = false) (calm : cool s = true) :
    exec (.partTranslate c e.eid) s = .next (partStep c e s) := by
  have virtual' : isVirtual e = true := by
    unfold isVirtual
    rw [virtual]
    obtain kind | kind := kind
    · rw [kind]; rfl
    · rw [kind]; rfl
  refine congrArg Host.Outcome.next ?_
  rw [oldest.entryAt]
  refine (if_pos ⟨virtual', oldest.mayStart, ?_, ?_, ?_⟩).trans (gate_cool calm _ _)
  · rw [served]; rfl
  · rw [going]; rfl
  · rw [fresh]; exact some_

/-! ### The frame of a page (R321) -/

theorem hasTile_iff {l : List (Nat × Nat)} {tile : Nat} : hasTile l tile = true ↔ ∃ p ∈ l, p.1 ≤ tile ∧ tile < p.1 + p.2 := by
  simp only [hasTile, List.any_eq_true, Bool.and_eq_true, decide_eq_true_eq]

theorem find?_tile_none {l : List (Nat × Nat)} {tile : Nat} (none_ : ∀ p ∈ l, p.1 ≠ tile) : (l.find? fun p => p.1 = tile) = none :=
  List.find?_eq_none.2 fun p hp same => none_ p hp (of_decide_eq_true same)

section
variable {asid va tid v base : Nat} (task : (s.ctx c).task = some tid) (space : (s.task tid).asid.toNat = asid)
include task space

/-- R321: a task's own version of the tile. -/
theorem versionBase_own (own : (s.task tid).own.find? (fun p => p.1 = va / 65536) = some (va / 65536, v)) :
    versionBase s c asid va base = (s.version v).frame := by
  unfold versionBase
  rw [task]
  exact (if_neg (not_not.2 space)).trans (by rw [own])

/-- R321: of a tile that the task does not write, the version that it reads. -/
theorem versionBase_read (notOwn : ∀ p ∈ (s.task tid).own, p.1 ≠ va / 65536)
    (unwritten : ¬∃ p ∈ (s.task tid).wr, p.1 ≤ va / 65536 ∧ va / 65536 < p.1 + p.2)
    (read : (s.task tid).reads.find? (fun p => p.1 = va / 65536) = some (va / 65536, v)) : versionBase s c asid va base = (s.version v).frame := by
  unfold versionBase
  rw [task]
  refine (if_neg (not_not.2 space)).trans ?_
  rw [find?_tile_none notOwn]
  exact (if_neg (mt hasTile_iff.1 unwritten)).trans (by rw [read])

/-- R321: of a tile that was not renamed, the mapped frame. -/
theorem versionBase_mapped (notOwn : ∀ p ∈ (s.task tid).own, p.1 ≠ va / 65536)
    (mapped : (∃ p ∈ (s.task tid).wr, p.1 ≤ va / 65536 ∧ va / 65536 < p.1 + p.2) ∨ ∀ p ∈ (s.task tid).reads, p.1 ≠ va / 65536) :
    versionBase s c asid va base = base := by
  unfold versionBase
  rw [task]
  refine (if_neg (not_not.2 space)).trans ?_
  rw [find?_tile_none notOwn]
  by_cases written : hasTile (s.task tid).wr (va / 65536) = true
  · exact if_pos written
  · refine (if_neg written).trans ?_
    rw [find?_tile_none (mapped.resolve_left (mt hasTile_iff.2 written))]

end

/-- R321: outside the task's address space, and with no task, the mapped frame. -/
theorem versionBase_outside {asid va base : Nat} (outside : ∀ tid, (s.ctx c).task = some tid → (s.task tid).asid.toNat ≠ asid) :
    versionBase s c asid va base = base := by
  unfold versionBase
  cases task : (s.ctx c).task with
  | none => rfl
  | some tid => exact if_pos (outside tid task)

/-- R321: the frame that an access reaches. -/
theorem frameOf_eq {asid va f : Nat} {x : BitVec 128} (frame : FrameOf s c asid va x f) :
    (if pteBig x || x.getLsbD 47 then pteBase x else versionBase s c asid va (pteBase x)) = f := by
  obtain ⟨rfl, mapped⟩ | ⟨⟨small, device⟩, tid, v, task, space, rfl, own | ⟨notOwn, unwritten, read⟩⟩ := frame
  · obtain big | unrenamed := mapped
    · refine if_pos ?_
      rw [Bool.or_eq_true]
      by_cases isBig : pteBig x = true
      · exact .inl isBig
      · exact .inr (Bool.not_eq_false _ ▸ fun device => big ⟨Bool.not_eq_true _ ▸ isBig, device⟩)
    · refine ite_eq_left_iff.2 fun _ => ?_
      by_cases inSpace : ∃ tid, (s.ctx c).task = some tid ∧ (s.task tid).asid.toNat = asid
      · obtain ⟨tid, task, space⟩ := inSpace
        obtain ⟨notOwn, mapped⟩ := unrenamed tid task space
        exact versionBase_mapped task space notOwn mapped
      · exact versionBase_outside fun tid task space => inSpace ⟨tid, task, space⟩
  · rw [small, device]
    exact versionBase_own task space own
  · rw [small, device]
    exact versionBase_read task space notOwn unwritten read

/-! ### One part (R72, R350) -/

/-- The piece of a transfer that one page covers whole, in frame `f` (R72, R345). -/
def wholePiece (e : Entry) (x : BitVec 128) (f : Nat) : Piece :=
  { off := 0, len := e.len, base := f, il := if x.getLsbD 47 then 0 else pteIl x, poff := e.far.toNat - pteVa x
    gr := if x.getLsbD 47 then 3 else pteGr x }

section
variable {x : BitVec 128} {f fuel : Nat} {t : State} (fresh : e.xlated = 0) (some_ : 1 ≤ e.len)
include fresh some_

/-- R350: a part whose first page has no translation is suspended. -/
theorem xlate_untranslated {k : Nat}
    (missing : Machine.translate (pcnOf (s.ctx c).gcn) (s.ctx c).part e.asid.toNat e.far.toNat (needOf e.kind) s = (.bad k false, s)) :
    xlate (fuel + 1) c none e s = suspend c e k s := by
  unfold xlate
  rw [if_neg (by omega), fresh, Nat.add_zero]
  dsimp only
  rw [missing]
  rfl

variable (translated : Machine.translate (pcnOf (s.ctx c).gcn) (s.ctx c).part e.asid.toNat e.far.toNat (needOf e.kind) s = (.ok x, s))
  (covers : e.far.toNat - pteVa x + e.len ≤ pteSize x) (frame : FrameOf s c e.asid.toNat e.far.toNat x f)
include translated covers frame

/-- R350, R356: a part that reaches a retired frame is suspended. -/
theorem xlate_retired (device : x.getLsbD 47 = false) (retired : framesRetired s f (pteIl x) (e.far.toNat - pteVa x) e.len = true) :
    xlate (fuel + 1) c none e s = suspend c e 5 s := by
  have whole : min (e.len - 0) (pteSize x - (e.far.toNat - pteVa x)) = e.len := by omega
  unfold xlate
  rw [if_neg (by omega), fresh, Nat.add_zero]
  dsimp only
  rw [translated]
  dsimp only
  rw [frameOf_eq frame, whole, if_pos (by rw [device, retired]; rfl)]
  rfl

/-- R72: a page that covers the transfer makes its one piece. -/
theorem xlate_whole (nothing : e.part = []) (kind : e.kind = .put ∨ e.kind = .get)
    (inUse : x.getLsbD 47 = true ∨ framesRetired s f (pteIl x) (e.far.toNat - pteVa x) e.len = false) :
    xlate (fuel + 2) c none e s = ({ e with xlated := e.len, part := [wholePiece e x f] }, s) := by
  have whole : min (e.len - 0) (pteSize x - (e.far.toNat - pteVa x)) = e.len := by omega
  have anyMemory : deviceOnly e.kind = false := by
    obtain kind | kind := kind
    · rw [kind]; rfl
    · rw [kind]; rfl
  unfold xlate
  rw [if_neg (by omega), fresh, Nat.add_zero, nothing]
  dsimp only
  rw [translated]
  dsimp only
  rw [frameOf_eq frame, whole, if_neg, if_neg (by rw [anyMemory, Bool.and_false]; decide), if_neg (by exact Bool.false_ne_true)]
  · unfold xlate
    refine (if_pos (Nat.le_of_eq (Nat.zero_add _).symm)).trans ?_
    rw [Nat.zero_add, wholePiece]
    cases x.getLsbD 47 with
    | true => rfl
    | false => rfl
  · obtain host | unretired := inUse
    · rw [host]; exact Bool.false_ne_true
    · rw [unretired, Bool.and_false]; exact Bool.false_ne_true

end

theorem onlyHart_setEntry (e : Entry) : OnlyHart c s (setEntry c e s) := by
  unfold setEntry
  rw [modEng_eq]
  exact onlyHart_modCtx ..

theorem partStep_eq {e' : Entry} {t : State} (part : xlate (e.len / 0x10000 + 2) c none { e with started := true } s = (e', t)) :
    partStep c e s = setEntry c e' t := by
  unfold partStep
  rw [part]

/-- R350 to R352: the entry and the partition once its part is suspended, under a free identifier. -/
theorem suspend_fresh (room : (s.part (s.ctx c).part).susp.length + (s.part (s.ctx c).part).fresume.length < 65535) (k : Nat) : ∃ fid,
    suspend c e k s = ({ e with susp := some fid, lastFid := some fid },
      modPart (s.ctx c).part (fun t => { t with susp := t.susp ++ [{ fid := fid, cid := c, eid := e.eid, kind := k, off := e.xlated, time := s.gtime }] })
        { s with freeNo := s.freeNo + 1 }) ∧
      e.lastFid ≠ some fid ∧ ∀ u ∈ (s.part (s.ctx c).part).susp, u.fid ≠ fid := by
  have last : e.lastFid.toList.length ≤ 1 := by cases e.lastFid <;> simp
  have fresh := freshFid_fresh (Nat.mod_lt (drawNat s).1 (by decide : 65536 > 0))
    (e.lastFid.toList ++ (s.part (s.ctx c).part).susp.map (·.fid) ++ (s.part (s.ctx c).part).fresume.map (·.2))
    (by simp only [List.length_append, List.length_map]; omega)
  simp only [List.mem_append, List.mem_map, not_or, not_exists, not_and, Option.mem_toList] at fresh
  obtain ⟨⟨notLast, notSuspended⟩, -⟩ := fresh
  exact ⟨_, rfl, notLast, notSuspended⟩

/-- What `Claim.PartTranslation` asks of a suspended part. -/
theorem suspended_part (oldest : Oldest s c e r) (fresh : e.xlated = 0)
    (room : (s.part (s.ctx c).part).susp.length + (s.part (s.ctx c).part).fresume.length < 65535) {k : Nat} {t : State}
    (run : t = setEntry c (suspend c { e with started := true } k s).1 (suspend c { e with started := true } k s).2) :
    ∃ fid, t.mem = s.mem ∧ e.lastFid ≠ some fid ∧ (t.ctx c).eng.q = { e with started := true, susp := some fid, lastFid := some fid } :: r ∧
      (t.part (s.ctx c).part).susp = (s.part (s.ctx c).part).susp ++ [{ fid := fid, cid := c, eid := e.eid, kind := k, off := 0, time := s.gtime }] ∧
      ∀ u ∈ (s.part (s.ctx c).part).susp, u.fid ≠ fid := by
  obtain ⟨fid, result, notLast, notSuspended⟩ := suspend_fresh (e := { e with started := true }) room k
  rw [result] at run
  subst run
  refine ⟨fid, rfl, notLast, oldest.setEntry rfl rfl, ?_, notSuspended⟩
  show (tget (tput s.parts _ _) _ _).susp = _
  rw [tget_tput, if_pos rfl, fresh]
  rfl

end Sys2Proof.Claim
end

section
open Sys2Proof Sys2Proof.Machine Sys2Proof.Claim

theorem Sys2Proof.Claim.partTranslation : Claim.PartTranslation := by
  unfold Claim.PartTranslation
  intro s c e r oldest going served fresh nothing some_ short kind virtual calm
  dsimp only
  have need : needOf e.kind = if e.kind = .put then 55 else 54 := by
    obtain kind | kind := kind
    · rw [kind]; rfl
    · rw [kind]; rfl
  have run := exec_partTranslate oldest going served fresh some_ kind virtual calm
  refine ⟨fun x f hit permitted covers frame inUse => ⟨_, run, ?_⟩, fun x f hit permitted covers frame device retired room => ⟨_, run, ?_⟩,
    fun hit untabled room => ⟨_, run, ?_⟩⟩
  · rw [← need] at permitted
    have whole := xlate_whole (fuel := e.len / 0x10000) (c := c) (e := { e with started := true }) fresh some_
      (translate_hit hit permitted) covers frame nothing kind inUse
    rw [partStep_eq whole]
    exact ⟨onlyHart_setEntry _, oldest.setEntry rfl rfl⟩
  · rw [← need] at permitted
    have retires := xlate_retired (fuel := e.len / 0x10000 + 1) (c := c) (e := { e with started := true }) fresh some_
      (translate_hit hit permitted) covers frame device retired
    exact suspended_part oldest fresh room (partStep_eq retires)
  · have missing := xlate_untranslated (fuel := e.len / 0x10000 + 1) (c := c) (e := { e with started := true }) fresh some_
      (translate_untabled hit untabled)
    exact suspended_part oldest fresh room (partStep_eq missing)

/-- Settles O44: at issue by the checks in the model's order; of a part by the translation, the frame and the one page of `xlate`. -/
theorem transfers : Obligations.Transfers := by
  unfold Obligations.Transfers
  exact ⟨putGetIssue, putmGetdIssue, memorySideAddIssue, partTranslation⟩

end

section
/-! SUPPORT. Packets between a hart and a receiving cluster (R58 to R60, R110 to R113). -/

namespace Sys2Proof.Claim
open Sys2Proof.Machine

variable {s t : State} {c n q o : Nat} {p : Packet} {l : List Packet} {body : Body}

/-! ### The newest packet in flight -/

/-- Packet `p` is the last in flight, after packets `l` with other numbers. -/
def Newest (t : State) (l : List Packet) (p : Packet) : Prop := t.net = l ++ [p] ∧ ∀ x ∈ l, x.id ≠ p.id

theorem Newest.packet (newest : Newest t l p) : Machine.packet t p.id = some p := by
  obtain ⟨net, others⟩ := newest
  unfold Machine.packet
  rw [net, List.find?_append, List.find?_eq_none.2 fun x hx same => others x hx (of_decide_eq_true same)]
  simp

theorem Newest.reply (newest : Newest t l p) (body : Body) : Machine.reply p.id body t = { t with net := l ++ [{ p with body := body }] } := by
  obtain ⟨net, others⟩ := newest
  unfold Machine.reply
  rw [net, List.map_append, List.map_cons, if_pos rfl, List.map_nil, List.map_congr_left fun x hx => if_neg (others x hx), List.map_id']

theorem Newest.unsend (newest : Newest t l p) : Machine.unsend p.id t = { t with net := l } := by
  obtain ⟨net, others⟩ := newest
  unfold Machine.unsend
  rw [net, List.filter_append, List.filter_eq_self.2 fun x hx => decide_eq_true (others x hx), List.filter_cons_of_neg (by simp), List.filter_nil,
    List.append_nil]

theorem Newest.answered (newest : Newest t l p) (here : p.dev = none) : Machine.answered p t = { t with net := l } := by
  unfold Machine.answered
  rw [newest.unsend, here]

/-- A reply takes the place of its request. -/
theorem Newest.replied (newest : Newest t l p) (body : Body) : Newest { t with net := l ++ [{ p with body := body }] } l { p with body := body } :=
  ⟨rfl, newest.2⟩

/-! ### Requests that need not wait (R113, R196, R202, R204) -/

theorem comesFirst_eq_false {e : Packet} (other : e.cid ≠ p.cid)
    (apart : e.cover ≠ [] → e.pcn = p.pcn → ∀ x y, landing t e = some x → landing t p = some y → spansMeet x y = false) :
    comesFirst t e p = false := by
  unfold comesFirst
  by_cases target : e.pcn = p.pcn
  · by_cases uncovered : e.cover = []
    · simp [other, uncovered, ordersAfter]
    · have meets := apart uncovered target
      cases he : landing t e with
      | none => simp [other]
      | some x =>
        cases hp : landing t p with
        | none => simp [other]
        | some y => simp [other, meets x y he hp]
  · simp [target]

/-- R113, R202: of the hart's own requests none is on its way, and no write that a release covers reaches the span. -/
theorem mustWait_eq_false (newest : Newest t l p) (others : ∀ e ∈ l ++ (t.part p.part).saved, e.cid ≠ p.cid ∧
    (e.cover ≠ [] → e.pcn = p.pcn → ∀ x y, landing t e = some x → landing t p = some y → spansMeet x y = false)) : mustWait t p = false := by
  unfold mustWait
  rw [newest.1, List.append_assoc]
  refine List.any_eq_false.2 fun e he => Bool.eq_false_iff.1 ?_
  have cases' : e = p ∨ e ∈ l ++ (t.part p.part).saved := by
    simp only [List.mem_append, List.mem_singleton] at he ⊢
    tauto
  obtain rfl | he := cases'
  · unfold comesFirst
    simp
  · obtain ⟨other, apart⟩ := others e he
    exact comesFirst_eq_false other apart

/-! ### Arrival (R59, R60) -/

section
variable (newest : Newest t l p) (here : p.dev = none) (free : mustWait t p = false)
include newest here free

theorem exec_arrival_load (load : p.body = .load n) (accepted : receive (t.cluster p.pcn) p.ofs n 0 = some o) :
    exec (.remoteAccessArrival p.id) t =
      .next { t with net := l ++ [{ p with body := .loadReply (w64 (memWord t (sramKey p.pcn o) n)) }] } := by
  refine congrArg Host.Outcome.next ?_
  rw [newest.packet]
  dsimp only
  rw [if_neg (by rw [here, free]; decide), load]
  dsimp only
  rw [accepted]
  exact newest.reply _

theorem exec_arrival_load_rejected (load : p.body = .load n) (refused : receive (t.cluster p.pcn) p.ofs n 0 = none) :
    exec (.remoteAccessArrival p.id) t = .next { t with net := l ++ [{ p with body := .reject }] } := by
  refine congrArg Host.Outcome.next ?_
  rw [newest.packet]
  dsimp only
  rw [if_neg (by rw [here, free]; decide), load]
  dsimp only
  rw [refused]
  exact newest.reply _

theorem exec_arrival_store {b : List Byte} (store : p.body = .store b) (accepted : receive (t.cluster p.pcn) p.ofs b.length 1 = some o)
    (unlocked : remoteLocked t p.pcn o b.length = false) : exec (.remoteAccessArrival p.id) t =
      .next { sramWrite (sramKey p.pcn o) b none t with net := l ++ [{ p with body := .ack }] } := by
  refine congrArg Host.Outcome.next ?_
  have same : Newest (sramWrite (sramKey p.pcn o) b none t) l p := newest
  rw [newest.packet]
  dsimp only
  rw [if_neg (by rw [here, free]; decide), store]
  dsimp only
  rw [accepted]
  exact (if_neg (by rw [unlocked]; decide)).trans (same.reply _)

theorem exec_arrival_store_rejected {b : List Byte} (store : p.body = .store b) (refused : receive (t.cluster p.pcn) p.ofs b.length 1 = none) :
    exec (.remoteAccessArrival p.id) t = .next { t with net := l ++ [{ p with body := .reject }] } := by
  refine congrArg Host.Outcome.next ?_
  rw [newest.packet]
  dsimp only
  rw [if_neg (by rw [here, free]; decide), store]
  dsimp only
  rw [refused]
  exact newest.reply _

end

/-! ### The answer at the hart (R60, R110, R112, R161) -/

theorem live_congr {w : Wait} (live : Live s c) (same : t.ctx c = { s.ctx c with wait := w }) (parts : t.parts = s.parts) (time : t.gtime = s.gtime) :
    Live t c := by
  unfold Live State.part at live ⊢
  rw [same, parts, time]
  exact live

theorem mayWake_of_live (live : Live s c) : mayWake s (s.ctx c) = true := by
  have ⟨_, _, _, unposted, _⟩ := live
  rw [mayWake, canMove_of_live live, unposted]
  rfl

section
variable (newest : Newest t l p) (here : p.dev = none)
include newest here

theorem exec_loadReply {dst : Dest} {v : W64} (replied : p.body = .loadReply v) (waits : (t.ctx p.cid).wait = .remoteLoad p.id dst)
    (live : Live t p.cid) : exec (.remoteLoadReply p.id) t =
      .next (retire p.cid (modCtx p.cid (fun h => { h with regs := writeDest dst v.toNat h.regs }) { t with net := l })) := by
  have wakes := mayWake_of_live live
  refine congrArg Host.Outcome.next ?_
  rw [newest.packet]
  dsimp only
  rw [replied]
  dsimp only
  unfold loadArrives
  rw [newest.answered here]
  show (match (t.ctx p.cid).wait with | .remoteLoad id dst => _ | _ => _) = _
  rw [waits]
  exact if_pos ⟨rfl, wakes⟩

theorem exec_loadRejection {dst : Dest} (rejected : p.body = .reject) (waits : (t.ctx p.cid).wait = .remoteLoad p.id dst)
    (live : Live t p.cid) : exec (.remoteRejection p.id) t = .next (trapHere p.cid 6 p.addr { t with net := l }) := by
  have wakes := mayWake_of_live live
  refine congrArg Host.Outcome.next ?_
  rw [newest.packet]
  dsimp only
  rw [rejected]
  dsimp only
  unfold Machine.rejected
  dsimp only
  rw [waits, newest.answered here]
  exact (if_pos rfl).trans (if_pos wakes)

/-- R161: a hart's record of its remote stores after an acknowledgement. -/
def acknowledgedCtx (id : Nat) (h : Ctx) : Ctx :=
  { h with
    outst := h.outst.filter fun o => o.id ≠ id
    scAcq := h.scAcq.filter fun i => i ≠ id
    eng := { h.eng with q := h.eng.q.map fun e => { e with inFlight := e.inFlight.filter fun i => i ≠ id } } }

theorem acknowledge_newest : acknowledge p t = modCtx p.cid (acknowledgedCtx p.id) { t with net := l } := by
  unfold acknowledge
  rw [newest.answered here]
  rfl

theorem exec_ack (acked : p.body = .ack) : exec (.remoteAck p.id) t = .next (modCtx p.cid (acknowledgedCtx p.id) { t with net := l }) := by
  refine congrArg Host.Outcome.next ?_
  rw [newest.packet]
  dsimp only
  rw [acked]
  exact acknowledge_newest newest here

theorem exec_storeRejection (rejected : p.body = .reject) (waits : (t.ctx p.cid).wait = .none) (stays : (t.ctx p.cid).exited = none)
    (posted : ∃ x ∈ (t.ctx p.cid).outst, x.id = p.id) : exec (.remoteRejection p.id) t =
      .next (modCtx p.cid (fun h => { h with pendStores := h.pendStores ++ [p.addr] }) (modCtx p.cid (acknowledgedCtx p.id) { t with net := l })) := by
  refine congrArg Host.Outcome.next ?_
  rw [newest.packet]
  dsimp only
  rw [rejected]
  dsimp only
  unfold Machine.rejected
  dsimp only
  rw [waits, acknowledge_newest newest here]
  refine (if_pos ?_).trans (if_neg ?_)
  · obtain ⟨x, hx, same⟩ := posted
    exact List.any_eq_true.2 ⟨x, hx, decide_eq_true same⟩
  · rw [modCtx_self]
    show ¬(t.ctx p.cid).exited.isSome = true
    rw [stays]
    decide

end

/-! ### What the receiver's cluster locks (R112) -/

theorem tins_least {α : Type} {l : Tbl α} {k : Nat} (v : α) (least : ∀ x ∈ l, k < x.1) : tins l k v = (k, v) :: l := by
  cases l with
  | nil => rfl
  | cons x l => exact if_neg (Nat.not_lt.2 (Nat.le_of_lt (least x List.mem_cons_self)))

theorem tdel_unlisted {α : Type} {l : Tbl α} {k : Nat} (unlisted : ∀ x ∈ l, x.1 ≠ k) : tdel l k = l :=
  List.filter_eq_self.2 fun x hx => decide_eq_true (unlisted x hx)

/-- A write in a sorted table that a search does not tell from what stood there keeps the key that the search finds. -/
theorem find?_tput_same {α : Type} {P : Nat × α → Bool} {t : Tbl α} {k : Nat} {v d : α} (rising : t.Pairwise fun a b => a.1 < b.1)
    (same : P (k, v) = P (k, tget t k d)) (unlisted : P (k, d) = false) : ((tput t k v).find? P).map (·.1) = (t.find? P).map (·.1) := by
  induction rising with
  | nil =>
    have no : P (k, v) = false := same.trans unlisted
    simp [tput, tins, tdel, no]
  | @cons x l below rising ih =>
    obtain here | before | after := lt_trichotomy x.1 k
    · have keeps : tput (x :: l) k v = x :: tput l k v := by
        unfold tput tdel
        rw [List.filter_cons_of_pos (by exact decide_eq_true here.ne)]
        exact if_pos here
      have tail : tget (x :: l) k d = tget l k d := if_neg here.ne
      rw [keeps, List.find?_cons, List.find?_cons]
      cases P x with
      | true => rfl
      | false => exact ih (tail ▸ same)
    · subst before
      have replaces : tput (x :: l) x.1 v = (x.1, v) :: l := by
        unfold tput tdel
        rw [List.filter_cons_of_neg (by simp)]
        exact (congrArg (tins · x.1 v) (tdel_unlisted fun y hy => (below y hy).ne')).trans (tins_least v below)
      have same' : P (x.1, v) = P x := same.trans (by rw [show tget (x :: l) x.1 d = x.2 from if_pos rfl])
      rw [replaces, List.find?_cons, List.find?_cons, same']
      cases P x with
      | true => rfl
      | false => rfl
    · have least : ∀ y ∈ x :: l, k < y.1 := List.forall_mem_cons.2 ⟨after, fun y hy => after.trans (below y hy)⟩
      have absent : ∀ y ∈ x :: l, y.1 ≠ k := fun y hy => (least y hy).ne'
      have no : P (k, v) = false := by rw [same, tget_unlisted absent, unlisted]
      unfold tput
      rw [tdel_unlisted absent, tins_least v least, List.find?_cons_of_neg (by rw [no]; decide)]

/-- A change of a hart that leaves it on its core leaves every core its resident hart. -/
theorem residentOn_modCtx (canonical : Canonical s) {f : Ctx → Ctx} (resident : (f (s.ctx c)).resident = (s.ctx c).resident)
    (core : (f (s.ctx c)).gcn = (s.ctx c).gcn) (g : Nat) : (modCtx c f s).residentOn g = s.residentOn g := by
  refine find?_tput_same (d := {}) canonical.2 ?_ rfl
  show (_ && _) = (_ && _)
  rw [show tget s.ctxs c {} = s.ctx c from rfl, resident, core]

/-- R112: what a receiver finds locked, after a change of a hart that leaves its core and its rings. -/
theorem remoteLocked_modCtx (canonical : Canonical s) {f : Ctx → Ctx} (resident : (f (s.ctx c)).resident = (s.ctx c).resident)
    (core : (f (s.ctx c)).gcn = (s.ctx c).gcn) (rings : (f (s.ctx c)).eng.rings = (s.ctx c).eng.rings) :
    remoteLocked (modCtx c f s) q o n = remoteLocked s q o n := by
  unfold remoteLocked
  rw [residentOn_modCtx canonical resident core]
  have locks (m : Nat) : lockedByte ((modCtx c f s).ctx m) (o % 0x8000) n = lockedByte (s.ctx m) (o % 0x8000) n := by
    unfold lockedByte
    rw [modCtx_ctx]
    split
    · next same => rw [rings, same]
    · rfl
  simp only [locks]

/-! ### Values (R108, R111) -/

/-- R108: what a reply of up to 8 bytes leaves in g[d]. -/
theorem writeDest_reply {sg : Bool} {d : R5} (r : Regs) (v : Nat) (short : n ≤ 8) :
    writeDest (.g d n sg) (w64 v).toNat r = loadValue r n sg d v := by
  have cut : v % 2 ^ 64 % 2 ^ (8 * n) = v % 2 ^ (8 * n) := Nat.mod_mod_of_dvd _ (Nat.pow_dvd_pow 2 (by omega))
  have narrow : BitVec.ofNat (8 * n) (w64 v).toNat = BitVec.ofNat (8 * n) v := by
    apply BitVec.eq_of_toNat_eq
    simp only [w64, BitVec.toNat_ofNat]
    exact cut
  unfold writeDest loadValue extended
  cases sg with
  | true => simp only [if_true, narrow]
  | false =>
    have whole : BitVec.ofNat 64 (w64 v).toNat = BitVec.ofNat 64 v := BitVec.ofNat_toNat .. |>.trans (BitVec.setWidth_eq _)
    simp only [Bool.false_eq_true, if_false, ← whole]
    rfl

theorem loadForm_le {i : Instr} {sg : Bool} {d a : R5} {imm : BitVec 16} (form : loadForm i = some (n, sg, d, a, imm)) : n ≤ 8 := by
  cases i with
  | ldb | ldbu | ldh | ldhu | ldw | ldwu | ldd => cases form; decide
  | _ => cases form

theorem getD_leBytes (v : W64) {i : Nat} (hi : i < n) : (leBytes n v.toNat).getD i 0 = v.extractLsb' (8 * i) 8 := by
  rw [leBytes_eq, List.getD_eq_getElem _ _ (by simpa [bytesOf] using hi)]
  apply BitVec.eq_of_toNat_eq
  simp only [bytesOf, List.getElem_map, List.getElem_range, BitVec.extractLsb'_toNat, BitVec.toNat_ofNat, Nat.shiftRight_eq_div_pow, Nat.pow_mul]

/-- A byte of memory after the n bytes of a register are written at key `k`. -/
theorem ite_leBytes (v : W64) (k x : Nat) (old : Byte) : (if k ≤ x ∧ x < k + (leBytes n v.toNat).length then (leBytes n v.toNat).getD (x - k) 0 else old) =
    if k ≤ x ∧ x < k + n then v.extractLsb' (8 * (x - k)) 8 else old := by
  rw [length_leBytes]
  by_cases inside : k ≤ x ∧ x < k + n
  · rw [if_pos inside, if_pos inside, getD_leBytes v (by omega)]
  · rw [if_neg inside, if_neg inside]

/-! ### A hart that has sent a request (R110, R112) -/

/-- R110: hart `c` waits for the reply to its load. -/
def loading (s : State) (c : Nat) (dst : Dest) (p : Packet) : State := setWait c (.remoteLoad s.nextId dst) (send p s)

theorem loading_ctx {ea : W64} (dst : Dest) (body : Body) :
    (loading s c dst (requestTo s c ea q none body)).ctx c = { s.ctx c with wait := .remoteLoad s.nextId dst } := by
  unfold loading
  rw [setWait_eq, modCtx_self]
  rfl

/-- R112: hart `c` has posted a store and retired. -/
def postedCtx (id q : Nat) (h : Ctx) : Ctx := { retiredCtx h (nextPc h.regs h.regs) with outst := h.outst ++ [{ id := id, target := q }] }
def posted (s : State) (c : Nat) (p : Packet) : State := modCtx c (postedCtx s.nextId p.pcn) (send p s)

section
variable {ea : W64} (fresh : Fresh s)
include fresh

theorem newest_loading (dst : Dest) (body : Body) : Newest (loading s c dst (requestTo s c ea q none body)) s.net (requestTo s c ea q none body) :=
  ⟨rfl, fun x hx => (fresh x hx).ne⟩

theorem newest_posted (body : Body) : Newest (posted s c (requestTo s c ea q none body)) s.net (requestTo s c ea q none body) :=
  ⟨rfl, fun x hx => (fresh x hx).ne⟩

end

theorem posted_ctx {ea : W64} (body : Body) : (posted s c (requestTo s c ea q none body)).ctx c = postedCtx s.nextId q (s.ctx c) := by
  unfold posted
  rw [modCtx_self]
  rfl

/-- R161: the acknowledgement of a posted store clears it alone. -/
theorem acknowledged_posted {id : Nat} {h : Ctx} (others : ∀ x ∈ h.outst, x.id ≠ id) :
    (acknowledgedCtx id (postedCtx id q h)).outst = h.outst := by
  show List.filter _ (h.outst ++ [_]) = _
  rw [List.filter_append, List.filter_eq_self.2 fun x hx => decide_eq_true (others x hx), List.filter_cons_of_neg (by simp), List.filter_nil,
    List.append_nil]

theorem modCtx_congr {f g : Ctx → Ctx} (same : f (s.ctx c) = g (s.ctx c)) : modCtx c f s = modCtx c g s := by
  unfold modCtx
  rw [same]

/-- R94, R110: a waiting hart whose registers are written retires. -/
theorem retire_waiting {f : Regs → Regs} (armed : (s.ctx c).armed = none) (pc : (f (s.ctx c).regs).pc = (s.ctx c).regs.pc) (w : Wait) :
    retire c (modCtx c (fun h => { h with regs := f h.regs }) (setWait c w s)) =
      modCtx c (fun h => retiredCtx h (nextPc (s.ctx c).regs (f h.regs))) s := by
  rw [setWait_eq, modCtx_comp, retire_unarmed (by rw [modCtx_self]; exact armed), modCtx_comp, modCtx_self, pc]
  rfl

/-- R112: a hart whose store is outstanding retires. -/
theorem retire_posted (armed : (s.ctx c).armed = none) (id q : Nat) :
    retire c (modCtx c (fun h => { h with regs := h.regs }) (modCtx c (fun h => { h with outst := h.outst ++ [{ id := id, target := q }] }) s)) =
      modCtx c (postedCtx id q) s := by
  rw [modCtx_comp, retire_unarmed (by rw [modCtx_self]; exact armed), modCtx_self, modCtx_comp]
  exact modCtx_congr rfl

theorem store_posts {i : Instr} {d a : R5} {imm : BitVec 16} (alone : HartAlone s c) (form : storeForm i = some (n, d, a, imm))
    (isGlobal : (getG (s.ctx c).regs a + imm.signExtend 64).getLsbD 63 = true) (aligned : (getG (s.ctx c).regs a + imm.signExtend 64).toNat % n = 0)
    (sent : senderCheck s (s.ctx c) (getG (s.ctx c).regs a + imm.signExtend 64) true false = .ok q none) : exec i s =
      .next (posted s c (requestTo s c (getG (s.ctx c).regs a + imm.signExtend 64) q none (.store (leBytes n (getG (s.ctx c).regs d).toNat)))) := by
  rw [exec_storeForm alone.cur form, store_sent alone.notLast aligned isGlobal alone.noChunk sent]
  exact congrArg _ (retire_posted (s := send (requestTo s c _ q none _) s) alone.notArmed _ q)

theorem sramWrite_idle (idle : (s.ctx c).chunk = none) (k : Nat) (b : List Byte) (me : Option Nat) : (sramWrite k b me s).ctx c = s.ctx c := by
  refine (squashReaders_ctx (keyCluster k) (wordsOf k b.length) me { s with mem := writeBytes s.mem k b } c).2 ?_
  rintro ⟨-, -, -, k, open_, -⟩
  cases idle.symm.trans open_

end Sys2Proof.Claim
end

section
open Sys2Proof Sys2Proof.Machine Sys2Proof.Claim

theorem Sys2Proof.Claim.remoteLoads : Claim.RemoteLoads := by
  unfold Claim.RemoteLoads
  intro s c i n sg d a imm q o alone live fresh ⟨quiet, apart⟩ form
  dsimp only
  intro isGlobal aligned sent accepted
  set ea := getG (s.ctx c).regs a + imm.signExtend 64
  have newest := newest_loading (c := c) (ea := ea) (q := q) fresh (.g d n sg) (.load n)
  have free : mustWait (loading s c (.g d n sg) (requestTo s c ea q none (.load n))) (requestTo s c ea q none (.load n)) = false := by
    refine mustWait_eq_false newest fun e he => ⟨quiet e he, fun uncovered target x y hx hy => ?_⟩
    have lands : (receive (s.cluster q) (bits ea 0 21) n 0).map (fun o => (o, n)) = some y := hy
    rw [accepted] at lands
    cases lands
    exact apart e he uncovered target x hx
  have replied := newest.replied (.loadReply (w64 (memWord s (sramKey q o) n)))
  have here : Live { loading s c (.g d n sg) (requestTo s c ea q none (.load n)) with
      net := s.net ++ [{ requestTo s c ea q none (.load n) with body := .loadReply (w64 (memWord s (sramKey q o) n)) }] } c :=
    live_congr live (loading_ctx ..) rfl rfl
  have arrives := exec_arrival_load newest rfl free rfl accepted
  have answers := exec_loadReply replied rfl rfl (congrArg Ctx.wait (loading_ctx ..)) here
  have retires := retire_waiting (s := { s with nextId := s.nextId + 1 }) (c := c)
    (f := fun r => writeDest (.g d n sg) (w64 (memWord s (sramKey q o) n)).toNat r)
    alone.notArmed (setG_pc ..) (.remoteLoad s.nextId (.g d n sg))
  refine ⟨modCtx c (fun h => retiredCtx h (nextPc (s.ctx c).regs (writeDest (.g d n sg) (w64 (memWord s (sramKey q o) n)).toNat h.regs)))
      { s with nextId := s.nextId + 1 },
    ⟨_, (exec_loadForm alone.cur form).trans (congrArg _ (load_sent alone.notLast aligned isGlobal alone.noChunk sent)),
    _, arrives, _, answers.trans (congrArg _ retires), rfl⟩, ?_, fun x hx => (modCtx_ctx ..).trans (if_neg hx), rfl⟩
  rw [modCtx_self, writeDest_reply _ _ (loadForm_le form)]
  rfl

theorem Sys2Proof.Claim.remoteStores : Claim.RemoteStores := by
  unfold Claim.RemoteStores
  intro s c i n d a imm q o canonical alone fresh ⟨quiet, apart⟩ form
  dsimp only
  intro isGlobal aligned sent accepted unlocked others _
  set ea := getG (s.ctx c).regs a + imm.signExtend 64
  set b := leBytes n (getG (s.ctx c).regs d).toNat
  have long : b.length = n := length_leBytes ..
  have newest := newest_posted (c := c) (ea := ea) (q := q) fresh (.store b)
  have free : mustWait (posted s c (requestTo s c ea q none (.store b))) (requestTo s c ea q none (.store b)) = false := by
    refine mustWait_eq_false newest fun e he => ⟨quiet e he, fun uncovered target x y hx hy => ?_⟩
    have lands : (receive (s.cluster q) (bits ea 0 21) b.length 1).map (fun o => (o, b.length)) = some y := hy
    rw [long, accepted] at lands
    cases lands
    exact apart e he uncovered target x hx
  have open_ : remoteLocked (posted s c (requestTo s c ea q none (.store b))) q o b.length = false := by
    rw [long, posted, remoteLocked_modCtx (s := send (requestTo s c ea q none (.store b)) s) canonical rfl rfl rfl]
    exact unlocked
  have mine : (posted s c (requestTo s c ea q none (.store b))).ctx c = postedCtx s.nextId q (s.ctx c) := posted_ctx ..
  have idle : ((posted s c (requestTo s c ea q none (.store b))).ctx c).chunk = none := by rw [mine]; exact alone.noChunk
  have arrives := exec_arrival_store newest rfl free rfl (by rw [long]; exact accepted) open_
  have acks := exec_ack (t := { sramWrite (sramKey q o) b none (posted s c (requestTo s c ea q none (.store b))) with
    net := s.net ++ [{ requestTo s c ea q none (.store b) with body := .ack }] }) ⟨rfl, fun x hx => (fresh x hx).ne⟩ rfl rfl
  refine ⟨_, _, _, store_posts alone form isGlobal aligned sent, mine, arrives,
    fun x => (sramWrite_memory b none x).trans (ite_leBytes ..), rfl, acks, ?_, rfl, rfl⟩
  refine (congrArg Ctx.outst (modCtx_self ..)).trans ?_
  show (acknowledgedCtx s.nextId ((sramWrite (sramKey q o) b none (posted s c (requestTo s c ea q none (.store b)))).ctx c)).outst = _
  rw [sramWrite_idle idle, mine]
  exact acknowledged_posted others

theorem Sys2Proof.Claim.remoteRejections : Claim.RemoteRejections := by
  unfold Claim.RemoteRejections
  intro s c q alone live fresh quiet
  dsimp only
  refine ⟨fun i n sg d a imm form isGlobal aligned sent refused => ?_, fun i n d a imm form isGlobal aligned sent refused others => ?_⟩
  · set ea := getG (s.ctx c).regs a + imm.signExtend 64
    have newest := newest_loading (c := c) (ea := ea) (q := q) fresh (.g d n sg) (.load n)
    have free : mustWait (loading s c (.g d n sg) (requestTo s c ea q none (.load n))) (requestTo s c ea q none (.load n)) = false := by
      refine mustWait_eq_false newest fun e he => ⟨quiet e he, fun _ _ x y _ hy => ?_⟩
      have lands : (receive (s.cluster q) (bits ea 0 21) n 0).map (fun o => (o, n)) = some y := hy
      rw [refused] at lands
      cases lands
    have here : Live { loading s c (.g d n sg) (requestTo s c ea q none (.load n)) with
        net := s.net ++ [{ requestTo s c ea q none (.load n) with body := .reject }] } c := live_congr live (loading_ctx ..) rfl rfl
    exact ⟨_, ⟨_, (exec_loadForm alone.cur form).trans (congrArg _ (load_sent alone.notLast aligned isGlobal alone.noChunk sent)),
      _, exec_arrival_load_rejected newest rfl free rfl refused, rfl⟩,
      exec_loadRejection (newest.replied .reject) rfl rfl (congrArg Ctx.wait (loading_ctx ..)) here⟩
  · set ea := getG (s.ctx c).regs a + imm.signExtend 64
    set b := leBytes n (getG (s.ctx c).regs d).toNat
    have long : b.length = n := length_leBytes ..
    have newest := newest_posted (c := c) (ea := ea) (q := q) fresh (.store b)
    have free : mustWait (posted s c (requestTo s c ea q none (.store b))) (requestTo s c ea q none (.store b)) = false := by
      refine mustWait_eq_false newest fun e he => ⟨quiet e he, fun _ _ x y _ hy => ?_⟩
      have lands : (receive (s.cluster q) (bits ea 0 21) b.length 1).map (fun o => (o, b.length)) = some y := hy
      rw [long, refused] at lands
      cases lands
    have mine : (posted s c (requestTo s c ea q none (.store b))).ctx c = postedCtx s.nextId q (s.ctx c) := posted_ctx ..
    have outstanding : ({ id := s.nextId, target := q } : Out) ∈ ((posted s c (requestTo s c ea q none (.store b))).ctx c).outst := by
      rw [mine]
      exact List.mem_append_right _ (List.mem_singleton.2 rfl)
    have ⟨_, _, stays, _⟩ := live
    have rejects := exec_storeRejection (newest.replied .reject) rfl rfl (congrArg Ctx.wait mine) ((congrArg Ctx.exited mine).trans stays)
      ⟨_, outstanding, rfl⟩
    have end_ : (modCtx c (fun h => { h with pendStores := h.pendStores ++ [ea] }) (modCtx c (acknowledgedCtx s.nextId)
        (posted s c (requestTo s c ea q none (.store b))))).ctx c =
        { acknowledgedCtx s.nextId (postedCtx s.nextId q (s.ctx c)) with pendStores := (s.ctx c).pendStores ++ [ea] } := by
      rw [modCtx_self, modCtx_self, mine]
      rfl
    exact ⟨_, ⟨_, store_posts alone form isGlobal aligned sent, _, exec_arrival_store_rejected newest rfl free rfl (by rw [long]; exact refused),
      _, rejects, rfl⟩, congrArg Ctx.pendStores end_, (congrArg Ctx.outst end_).trans (acknowledged_posted others), fun x => rfl⟩

/-- Settles O35: a request is the newest packet in flight (`Newest`), so that the arrival finds it, and the reply takes its place. -/
theorem remoteAccesses : Obligations.RemoteAccesses := by
  unfold Obligations.RemoteAccesses
  exact ⟨remoteLoads, remoteStores, remoteRejections⟩

end

section
/-! SUPPORT. Spans of device DRAM as they are read and written, column by column (R63, R69, R286). -/

namespace Sys2Proof.Claim
open Sys2Proof.Machine

variable {s t u : State} {g col k n o : Nat} {l : List Byte}

/-! ### Accesses to sound columns (R68, R69) -/

/-- Only memory and banks may differ, and what is sound stays sound: accesses to device DRAM. -/
structure Accessed (s t : State) : Prop where
  device : ∃ m bs, t = { s with mem := m, banks := bs }
  sound : ∀ g col, Sound s g col → Sound t g col

theorem Accessed.refl (s : State) : Accessed s s := ⟨⟨_, _, rfl⟩, fun _ _ h => h⟩

theorem Accessed.trans (a : Accessed s t) (b : Accessed t u) : Accessed s u := by
  obtain ⟨⟨_, _, rfl⟩, sound⟩ := a
  obtain ⟨⟨_, _, rfl⟩, sound'⟩ := b
  exact ⟨⟨_, _, rfl⟩, fun g col h => sound' g col (sound g col h)⟩

/-- R330: a count of requests is no matter of what a column holds. -/
theorem accessed_countReq (g col : Nat) (s : State) : Accessed s (modBank g (countReq col) s) := by
  refine ⟨⟨_, _, rfl⟩, fun x y h => ?_⟩
  unfold Sound at h ⊢
  rw [show bankKey (modBank g (countReq col) s) x = bankKey s x from rfl, modBank_bank]
  split
  · next same =>
    subst same
    exact h
  · exact h

theorem wrote_column (col : Nat) (b : Bank) : (wrote col b).keys = b.keys ∧ (wrote col b).damage = tdel b.damage col := by
  unfold wrote
  dsimp only
  split
  · exact ⟨rfl, rfl⟩
  · split
    · exact ⟨rfl, rfl⟩
    · exact ⟨rfl, rfl⟩

theorem OnlyBanks.settle (g col : Nat) (s : State) : OnlyBanks s (settle g col s) := by
  unfold Machine.settle
  split
  · exact .refl s
  · exact ⟨_, rfl⟩

theorem settle_column (g col x : Nat) (s : State) : ((settle g col s).bank x).keys = (s.bank x).keys ∧ ((settle g col s).bank x).damage = (s.bank x).damage := by
  unfold settle
  split
  · exact ⟨rfl, rfl⟩
  · rw [modBank_bank]
    split
    · next same =>
      subst same
      exact ⟨rfl, rfl⟩
    · exact ⟨rfl, rfl⟩

theorem writeCol_mem (g col : Nat) (l : List Byte) (s : State) : (writeCol g col l s).mem = writeBytes s.mem (colKey g col) l :=
  (OnlyBanks.settle g col { s with mem := writeBytes s.mem (colKey g col) l }).mem

theorem writeCol_self (g col : Nat) (l : List Byte) (s : State) :
    ((writeCol g col l s).bank g).keys = tset 0 (s.bank g).keys col (bankKey s g + 1) ∧ ((writeCol g col l s).bank g).damage = tdel (s.bank g).damage col := by
  obtain ⟨keys, damage⟩ := settle_column g col g { s with mem := writeBytes s.mem (colKey g col) l }
  unfold writeCol
  rw [modBank_self, (wrote_column ..).1, (wrote_column ..).2]
  split
  · exact ⟨congrArg (fun t => tset 0 t col (bankKey s g + 1)) keys, congrArg (fun t => tdel t col) damage⟩
  · exact ⟨congrArg (fun t => tset 0 t col (bankKey s g + 1)) keys, congrArg (fun t => tdel t col) damage⟩

theorem writeCol_other {x : Nat} (hx : x ≠ g) (col : Nat) (l : List Byte) (s : State) :
    ((writeCol g col l s).bank x).keys = (s.bank x).keys ∧ ((writeCol g col l s).bank x).damage = (s.bank x).damage := by
  unfold writeCol
  rw [modBank_other hx]
  exact settle_column ..

theorem accessed_writeCol (g col : Nat) (l : List Byte) (s : State) : Accessed s (writeCol g col l s) := by
  obtain ⟨bs, settled⟩ := OnlyBanks.settle g col { s with mem := writeBytes s.mem (colKey g col) l }
  have device : ∃ m bs, writeCol g col l s = { s with mem := m, banks := bs } := by
    unfold writeCol
    rw [settled]
    exact ⟨_, _, rfl⟩
  refine ⟨device, fun x y h => ?_⟩
  have key : bankKey (writeCol g col l s) x = bankKey s x := by
    obtain ⟨_, _, same⟩ := device
    rw [same]
    rfl
  obtain ⟨damage, keys⟩ := h
  unfold Sound
  by_cases hx : x = g
  · subst hx
    rw [(writeCol_self ..).1, (writeCol_self ..).2, key, tget_tset]
    by_cases hy : y = col
    · subst hy
      exact ⟨tget_tdel_same .., .inr (if_pos rfl)⟩
    · rw [tget_tdel_other _ hy, if_neg hy]
      exact ⟨damage, keys⟩
  · rw [(writeCol_other hx ..).1, (writeCol_other hx ..).2, key]
    exact ⟨damage, keys⟩

/-- Memory after bytes are written at a key, here for the reads of every byte. -/
theorem written_writeBytes (same : t.mem = writeBytes s.mem k l) : Written s t k l := fun a => by
  rw [same]
  exact readByte_writeBytes_all ..

/-! Bytes `l` merged into `b`, from place `o` on. -/

theorem length_merged {b l : List Byte} {n : Nat} (long : b.length = n) (fits : o + l.length ≤ n) :
    (b.take o ++ l ++ b.drop (o + l.length)).length = n := by
  simp only [List.length_append, List.length_take, List.length_drop]
  omega

theorem getD_merged {b l : List Byte} {n j : Nat} (long : b.length = n) (fits : o + l.length ≤ n) :
    (b.take o ++ l ++ b.drop (o + l.length)).getD j 0 = if o ≤ j ∧ j < o + l.length then l.getD (j - o) 0 else b.getD j 0 := by
  have front : (b.take o).length = o := by rw [List.length_take]; omega
  simp only [List.getD_eq_getElem?_getD]
  by_cases before : j < o
  · rw [List.append_assoc, List.getElem?_append_left (by omega), List.getElem?_take_of_lt before, if_neg (by omega)]
  · by_cases after : j < o + l.length
    · rw [List.append_assoc, List.getElem?_append_right (by omega), front, List.getElem?_append_left (by omega), if_pos (by omega)]
    · rw [List.getElem?_append_right (by rw [List.length_append, front]; omega), List.length_append, front, List.getElem?_drop, if_neg (by omega),
        Nat.add_sub_cancel' (by omega)]

theorem getD_readBytes (m : Memory) (k : Nat) {n j : Nat} (hj : j < n) : (readBytes m k n).getD j 0 = readByte m (k + j) := by
  rw [List.getD_eq_getElem _ _ (by simpa [readBytes] using hj)]
  simp [readBytes]

/-- R69: bytes go into a sound column, which is read first where they do not fill it. -/
theorem mergeCol_sound (sound : Sound s g col) (src : Nat) (fits : o + l.length ≤ 32) :
    ∃ t, mergeCol g col o l src s = (true, t) ∧ Accessed s t ∧ Written s t (colKey g col + o) l := by
  unfold mergeCol
  split
  · next whole =>
    obtain rfl : o = 0 := by omega
    rw [Nat.add_zero]
    exact ⟨_, rfl, accessed_writeCol .., written_writeBytes (writeCol_mem ..)⟩
  · rw [readCol_sound sound]
    refine ⟨_, rfl, (accessed_countReq ..).trans (accessed_writeCol ..), fun a => ?_⟩
    refine (written_writeBytes (s := modBank g (countReq col) s) (writeCol_mem ..) a).trans ?_
    rw [modBank_mem]
    generalize colKey g col = key
    rw [length_merged (by simp [readBytes]) fits]
    by_cases inside : key ≤ a ∧ a < key + 32
    · rw [if_pos inside, getD_merged (by simp [readBytes]) fits, Nat.sub_sub]
      by_cases new : key + o ≤ a ∧ a < key + o + l.length
      · rw [if_pos new, if_pos (by omega)]
      · rw [if_neg new, if_neg (by omega), getD_readBytes _ _ (by omega), Nat.add_sub_cancel' inside.1]
    · rw [if_neg inside, if_neg (by omega)]

/-! ### Spans, a column at a time (R63, R69, R286) -/

theorem foldl_range_induction {β : Type} {f : β → Nat → β} {b : β} {P : Nat → β → Prop} (m : Nat) (zero : P 0 b)
    (step : ∀ j, j < m → ∀ x, P j x → P (j + 1) (f x j)) : P m ((List.range m).foldl f b) := by
  induction m with
  | zero => exact zero
  | succ m ih =>
    rw [List.range_succ, List.foldl_append]
    exact step m (Nat.lt_succ_self m) _ (ih fun j hj => step j (Nat.lt_succ_of_lt hj))

/-- How many of the n bytes from address k lie in the first j of their columns. -/
def spanDone (k n j : Nat) : Nat := min n ((k / 32 + j) * 32 - k)

/-- The columns of n bytes from address k. -/
def spanColumns (k n : Nat) : Nat := (k + n - 1) / 32 - k / 32 + 1

theorem spanDone_zero (k n : Nat) : spanDone k n 0 = 0 := by
  unfold spanDone
  omega

theorem spanDone_all (some_ : 0 < n) : spanDone k n (spanColumns k n) = n := by
  unfold spanDone spanColumns
  omega

/-- The bytes of the span in column j: where they begin, from where to where in the column. -/
theorem spanDone_step {j : Nat} (hj : j < spanColumns k n) (some_ : 0 < n) :
    let c := k / 32 + j
    let lo := if c * 32 < k then k - c * 32 else 0
    let hi := min 32 (k + n - c * 32)
    c * 32 + lo - k = spanDone k n j ∧ c * 32 + lo = k + spanDone k n j ∧ spanDone k n (j + 1) = spanDone k n j + (hi - lo) ∧ lo ≤ hi ∧ hi ≤ 32 := by
  unfold spanDone spanColumns at *
  dsimp only
  split
  · omega
  · omega

theorem colKey_of_column (c : Nat) : colKey (c / 0x40000) (c % 0x40000) = c * 32 := by
  unfold colKey
  omega

theorem SoundSpan.column (span : SoundSpan s k n) {j : Nat} (hj : j < spanColumns k n) :
    Sound s ((k / 32 + j) / 0x40000) ((k / 32 + j) % 0x40000) := by
  obtain ⟨some_, -, sound⟩ := span
  unfold spanColumns at hj
  exact sound _ (by omega) (by omega)

theorem SoundSpan.dram (span : SoundSpan s k n) : isDram k = true := by
  obtain ⟨_, low, -⟩ := span
  exact decide_eq_true (by omega)

/-- A read has gone through the first j columns of a span. -/
structure ReadTo (s : State) (k n j : Nat) (x : List Byte × State) : Prop where
  bytes : x.1 = readBytes s.mem k (spanDone k n j)
  accessed : Accessed s x.2
  only : OnlyBanks s x.2

theorem ReadTo.whole {x : List Byte × State} (r : ReadTo s k n (spanColumns k n) x) (some_ : 0 < n) :
    ∃ t, x = (readBytes s.mem k n, t) ∧ OnlyBanks s t := by
  obtain ⟨bytes, -, only⟩ := r
  rw [spanDone_all some_] at bytes
  exact ⟨_, Prod.ext bytes rfl, only⟩

/-- R286: a read of a sound span delivers the bytes of memory. -/
theorem physRead_sound (span : SoundSpan s k n) (src : Nat) :
    ∃ t, physRead k n src s = (readBytes s.mem k n, t) ∧ OnlyBanks s t := by
  have some_ := span.1
  unfold physRead
  rw [if_pos span.dram, if_neg (by omega)]
  refine (foldl_range_induction (P := ReadTo s k n) (spanColumns k n) ?_ ?_).whole some_
  · exact ⟨by rw [spanDone_zero]; rfl, .refl s, .refl s⟩
  · rintro j hj ⟨l, t⟩ ⟨rfl, accessed, only⟩
    obtain ⟨-, key, more, ordered, within⟩ := spanDone_step hj some_
    dsimp only at key more ordered within ⊢
    rw [readCol_sound (accessed.sound _ _ (span.column hj)), colKey_of_column, only.mem]
    refine ⟨?_, accessed.trans (accessed_countReq ..), only.trans ⟨_, rfl⟩⟩
    rw [more, ← readBytes_add, List.drop_take, drop_take_readBytes _ _ (by omega), key]

theorem Written.append {a b : List Byte} (first : Written s t k a) (second : Written t u (k + a.length) b) : Written s u k (a ++ b) := by
  intro x
  rw [second x, first x, List.length_append]
  by_cases inFirst : k ≤ x ∧ x < k + a.length
  · rw [if_neg (by omega), if_pos inFirst, if_pos (by omega), List.getD_append _ _ _ _ (by omega)]
  · by_cases inSecond : k + a.length ≤ x ∧ x < k + a.length + b.length
    · rw [if_pos inSecond, if_pos (by omega), List.getD_append_right _ _ _ _ (by omega), Nat.sub_sub]
    · rw [if_neg inSecond, if_neg inFirst, if_neg (by omega)]

theorem written_nil (same : t.mem = s.mem) : Written s t k [] := fun a => by
  rw [if_neg (by simp), same]

/-- A write has gone through the first j columns of a span. -/
structure WrittenTo (s : State) (k : Nat) (l : List Byte) (j : Nat) (x : Option Nat × State) : Prop where
  going : x.1 = none
  accessed : Accessed s x.2
  written : Written s x.2 k (l.take (spanDone k l.length j))

theorem WrittenTo.whole {x : Option Nat × State} (w : WrittenTo s k l (spanColumns k l.length) x) (some_ : 0 < l.length) :
    ∃ t, x = (none, t) ∧ Accessed s t ∧ Written s t k l := by
  obtain ⟨going, accessed, written⟩ := w
  rw [spanDone_all some_, List.take_length] at written
  exact ⟨_, Prod.ext going rfl, accessed, written⟩

/-- R69: a write of a sound span. -/
theorem physWrite_sound (span : SoundSpan s k l.length) (src : Nat) :
    ∃ t, physWrite k l src s = (none, t) ∧ Accessed s t ∧ Written s t k l := by
  have some_ := span.1
  unfold physWrite
  rw [if_pos span.dram, if_neg (by rw [List.isEmpty_iff_length_eq_zero]; omega)]
  refine (foldl_range_induction (P := WrittenTo s k l) (spanColumns k l.length) ?_ ?_).whole some_
  · exact ⟨rfl, .refl s, by rw [spanDone_zero]; exact written_nil rfl⟩
  · rintro j hj ⟨_, t⟩ ⟨rfl, accessed, written⟩
    obtain ⟨place, key, more, ordered, within⟩ := spanDone_step hj some_
    have bound : spanDone k l.length (j + 1) ≤ l.length := Nat.min_le_left ..
    dsimp only at place key more ordered within ⊢
    rw [place]
    have long : ((l.drop (spanDone k l.length j)).take (min 32 (k + l.length - (k / 32 + j) * 32) -
        if (k / 32 + j) * 32 < k then k - (k / 32 + j) * 32 else 0)).length = spanDone k l.length (j + 1) - spanDone k l.length j := by
      rw [List.length_take, List.length_drop]
      omega
    obtain ⟨u, merged, accessed', written'⟩ := mergeCol_sound (o := if (k / 32 + j) * 32 < k then k - (k / 32 + j) * 32 else 0)
      (accessed.sound _ _ (span.column hj)) src (by rw [long]; omega)
    rw [merged]
    refine ⟨rfl, accessed.trans accessed', ?_⟩
    have front : (l.take (spanDone k l.length j)).length = spanDone k l.length j := by
      rw [List.length_take]
      omega
    rw [colKey_of_column, key] at written'
    rw [more, List.take_add]
    exact written.append (by rw [front]; exact written')

end Sys2Proof.Claim
end

section
/-! SUPPORT. Host accesses and attestation (R361, R374). -/

namespace Sys2Proof.Claim
open Sys2Proof.Machine

variable {s t : State} {hpa k n : Nat} {l : List Byte}

/-! ### CXL.mem decoders (R361) -/

/-- R361: decoder `j` maps n bytes at a host physical address. -/
def Maps (s : State) (hpa n j : Nat) : Prop := Decodes s j ∧ decoderFrom s j ≤ hpa ∧ hpa + n ≤ decoderFrom s j + decoderSize s j

theorem isDram_decoderTo (j : Nat) : isDram (decoderTo s j) = true := by
  have low : decoderTo s j < 2 ^ 40 := by
    unfold decoderTo
    rw [bits_eq]
    exact Nat.mod_lt _ (Nat.two_pow_pos 40)
  exact decide_eq_true low

theorem hostRangeOk_iff (j : Nat) : hostRangeOk s (decoderTo s j) (decoderSize s j) = true ↔
    decoderTo s j % 0x800000 + decoderSize s j ≤ 0x780000 ∧ (s.cluster (decoderTo s j / 0x800000 / 8)).part ≠ none := by
  rw [hostRangeOk, isDram_decoderTo, Bool.true_and, Bool.and_eq_true, decide_eq_true_eq, Option.isSome_iff_ne_none]
  rfl

/-- R361: whether a decoder maps the bytes, as the model has it. -/
theorem decoderHit_iff {j : Nat} : ((tget s.mod.decoderBase j 0).getLsbD 63 && decide (decoderFrom s j ≤ hpa) &&
    decide (hpa + n ≤ decoderFrom s j + decoderSize s j) && hostRangeOk s (decoderTo s j) (decoderSize s j)) = true ↔ Maps s hpa n j := by
  rw [Bool.and_eq_true, Bool.and_eq_true, Bool.and_eq_true, decide_eq_true_eq, decide_eq_true_eq, hostRangeOk_iff]
  unfold Maps Decodes
  tauto

theorem decodeHost_eq (s : State) (hpa n : Nat) : decodeHost s hpa n = ((List.range 16).find? fun j =>
    (tget s.mod.decoderBase j 0).getLsbD 63 && decide (decoderFrom s j ≤ hpa) && decide (hpa + n ≤ decoderFrom s j + decoderSize s j) &&
      hostRangeOk s (decoderTo s j) (decoderSize s j)).map fun j => decoderTo s j + (hpa - decoderFrom s j) := rfl

/-- R361: the first decoder that maps the bytes. -/
theorem decodeHost_mapped {i : Nat} (mapped : HostMapped s hpa n i k) : decodeHost s hpa n = some k := by
  obtain ⟨hi, first, others, rfl⟩ := mapped
  rw [decodeHost_eq, List.find?_range_eq_some.2 ⟨decoderHit_iff.2 first, List.mem_range.2 hi, fun j hj => ?_⟩]
  · rfl
  · rw [Bool.not_eq_true', ← Bool.not_eq_true, decoderHit_iff]
    exact others j hj

theorem decodeHost_unmapped (unmapped : ∀ j, j < 16 → ¬Maps s hpa n j) : decodeHost s hpa n = none := by
  rw [decodeHost_eq, List.find?_eq_none.2 fun j hj => mt decoderHit_iff.1 (unmapped j (List.mem_range.1 hj))]
  rfl

/-! ### Runs of host memory (R63) -/

/-- Runs of memory that lie one after the other, from a key to a key. -/
def Adjoining : Nat → List (Nat × Nat) → Nat → Prop
  | k, [], e => k = e
  | k, r :: l, e => r.1 = k ∧ Adjoining (k + r.2) l e

theorem writeBytes_append (m : Memory) (k : Nat) (a b : List Byte) : writeBytes m k (a ++ b) = writeBytes (writeBytes m k a) (k + a.length) b := by
  induction a generalizing m k with
  | nil => rfl
  | cons x a ih =>
    rw [List.cons_append, writeBytes, ih, writeBytes, List.length_cons, Nat.add_assoc, Nat.add_comm 1]

theorem not_isDram (high : 0x800000000000 ≤ k) : ¬isDram k = true := by
  unfold isDram
  rw [decide_eq_true_eq]
  omega

theorem Adjoining.le {r : List (Nat × Nat)} {e : Nat} (a : Adjoining k r e) : k ≤ e := by
  induction r generalizing k with
  | nil => exact Nat.le_of_eq a
  | cons x r ih => exact (Nat.le_add_right ..).trans (ih a.2)

theorem readRuns_host {r : List (Nat × Nat)} {e : Nat} (adjoining : Adjoining k r e) (high : 0x800000000000 ≤ k) (src : Nat) :
    readRuns src r s = (readBytes s.mem k (e - k), s) := by
  induction r generalizing k with
  | nil =>
    obtain rfl : k = e := adjoining
    rw [Nat.sub_self]
    rfl
  | cons x r ih =>
    obtain ⟨k', n⟩ := x
    obtain ⟨rfl, rest⟩ := adjoining
    have := rest.le
    dsimp only at rest this
    unfold readRuns physRead
    rw [if_neg (not_isDram high)]
    dsimp only
    rw [ih rest (by omega)]
    dsimp only
    rw [readBytes_add, show n + (e - (k' + n)) = e - k' by omega]

theorem writeRuns_host {r : List (Nat × Nat)} {e : Nat} (adjoining : Adjoining k r e) (high : 0x800000000000 ≤ k) (long : l.length = e - k) (src at_ : Nat) :
    writeRuns src r l at_ s = (none, { s with mem := writeBytes s.mem k l }) := by
  induction r generalizing k l at_ s with
  | nil =>
    obtain rfl : k = e := adjoining
    obtain rfl : l = [] := List.eq_nil_of_length_eq_zero (by omega)
    rfl
  | cons x r ih =>
    obtain ⟨k', n⟩ := x
    obtain ⟨rfl, rest⟩ := adjoining
    have := rest.le
    dsimp only at rest this
    have front : (l.take n).length = n := by
      rw [List.length_take]
      omega
    unfold writeRuns physWrite
    rw [if_neg (not_isDram high)]
    dsimp only
    rw [ih rest (by omega) (by rw [List.length_drop]; omega)]
    have whole := writeBytes_append s.mem k' (l.take n) (l.drop n)
    rw [List.take_append_drop, front] at whole
    rw [whole]

theorem adjoining_range {f : Nat → Nat} (b m : Nat) (rising : ∀ i, i < m → f i ≤ f (i + 1)) :
    Adjoining (b + f 0) ((List.range m).map fun i => (b + f i, f (i + 1) - f i)) (b + f m) := by
  induction m generalizing f with
  | zero => rfl
  | succ m ih =>
    have here := rising 0 (Nat.succ_pos m)
    rw [List.range_succ_eq_map, List.map_cons, List.map_map]
    refine ⟨rfl, ?_⟩
    rw [Nat.add_assoc, Nat.add_sub_cancel' here]
    exact ih fun i hi => rising (i + 1) (Nat.succ_lt_succ hi)

/-- Where the 64 KiB blocks of n bytes of host physical address begin and end. -/
def hostCut (hpa n i : Nat) : Nat := max hpa (min (hpa + n) ((hpa / 0x10000 + i) * 0x10000))

/-- How many blocks they are. -/
def hostCount (hpa n : Nat) : Nat := (hpa + n - 1) / 0x10000 - hpa / 0x10000 + 1

theorem hostBlocks_eq (some_ : 0 < n) : hostBlocks hpa n =
    (List.range (hostCount hpa n)).map fun i => (hostCut hpa n i, hostCut hpa n (i + 1) - hostCut hpa n i) := by
  refine List.map_congr_left fun i hi => ?_
  have inside : i < (hpa + n - 1) / 0x10000 - hpa / 0x10000 + 1 := List.mem_range.1 hi
  unfold hostCut
  rw [Prod.mk.injEq]
  omega

theorem hostCut_zero (hpa n : Nat) : hostCut hpa n 0 = hpa := by
  unfold hostCut
  omega

theorem hostCut_count (some_ : 0 < n) : hostCut hpa n (hostCount hpa n) = hpa + n := by
  unfold hostCut hostCount
  omega

/-- A block of the host's bytes is not empty, and one of them. -/
theorem hostCut_step {i : Nat} (hi : i < hostCount hpa n) (some_ : 0 < n) :
    hostCut hpa n i < hostCut hpa n (i + 1) ∧ hpa ≤ hostCut hpa n i ∧ hostCut hpa n (i + 1) ≤ hpa + n := by
  unfold hostCut hostCount at *
  omega

/-- R63, R361: bytes that no decoder maps lie in the host's own memory. -/
theorem hostRuns_own (own : HostOwn s hpa n) : Adjoining (0x800000000000 + hpa) (hostRuns s hpa n) (0x800000000000 + (hpa + n)) := by
  obtain ⟨some_, unmapped⟩ := own
  have apart {a m : Nat} (nonempty : 0 < m) (after : hpa ≤ a) (before : a + m ≤ hpa + n) : decodeHost s a m = none :=
    decodeHost_unmapped fun j hj ⟨decodes, from_, to_⟩ => by
      have := unmapped j hj decodes
      omega
  have runs : hostRuns s hpa n = (List.range (hostCount hpa n)).map fun i => (0x800000000000 + hostCut hpa n i, hostCut hpa n (i + 1) - hostCut hpa n i) := by
    unfold hostRuns
    rw [apart some_ (Nat.le_refl _) (Nat.le_refl _)]
    dsimp only
    rw [hostBlocks_eq some_, List.map_map]
    refine List.map_congr_left fun i hi => ?_
    obtain ⟨nonempty, after, before⟩ := hostCut_step (List.mem_range.1 hi) some_
    rw [Function.comp_apply]
    dsimp only
    rw [apart (by omega) after (by omega)]
    rfl
  have adjoining := adjoining_range (f := hostCut hpa n) 0x800000000000 (hostCount hpa n) fun i hi => (hostCut_step hi some_).1.le
  rw [hostCut_zero, hostCut_count some_] at adjoining
  rw [runs]
  exact adjoining

/-! ### Attestation (R374) -/

theorem length_shaRound {v : List W64} (kw : W64) (eight : v.length = 8) : (shaRound v kw).length = 8 := by
  unfold shaRound
  split
  · rfl
  · exact eight

theorem length_shaBlock {v : List W64} (b : List Byte) (eight : v.length = 8) : (shaBlock v b).length = 8 := by
  unfold shaBlock
  rw [List.length_zipWith, eight, List.foldlRecOn (motive := fun v => v.length = 8) _ shaRound eight fun v h x _ => length_shaRound x h]
  rfl

theorem length_shaBlocks (n : Nat) {v : List W64} (m : List Byte) (eight : v.length = 8) : (shaBlocks n v m).length = 8 := by
  induction n generalizing v m with
  | zero => exact eight
  | succ n ih => exact ih _ (length_shaBlock _ eight)

theorem length_shaInit : shaInit.length = 8 := by decide

/-- FIPS 180-4: a digest has 64 bytes. -/
theorem length_sha512 (l : List Byte) : (sha512 l).length = 64 := by
  unfold sha512
  rw [List.length_flatMap]
  simp only [List.length_reverse, length_leBytes, List.map_const', List.sum_replicate, length_shaBlocks _ _ length_shaInit]
  rfl

theorem length_signed (tag n : Nat) (l : List Byte) : (signed tag n l).length = n := by
  simp [signed]

/-- What the measurements of every function hold in common. -/
def measuredFirmware (w : Firmware) : List Byte :=
  sha512 w.image0 ++ sha512 w.image1 ++ leBytes 1 w.active ++ leBytes 8 (if w.active = 0 then w.version0 else w.version1)

theorem measurements_eq (s : State) (fn : Nat) : ∃ part : List Byte, part.length = (if fn = 0 then 0 else 64) ∧
    measurements s fn = measuredFirmware s.mod.fw ++ part ++ signed 3 132 (measuredFirmware s.mod.fw ++ part) := by
  refine ⟨_, ?_, rfl⟩
  split
  · rfl
  · exact length_sha512 _

/-- R374: the fields of a response, by their places. -/
theorem measuredFirmware_fields (w : Firmware) (r : List Byte) :
    (measuredFirmware w ++ r).take 64 = sha512 w.image0 ∧ ((measuredFirmware w ++ r).drop 64).take 64 = sha512 w.image1 ∧
      (measuredFirmware w ++ r)[128]? = some (BitVec.ofNat 8 w.active) ∧
      ((measuredFirmware w ++ r).drop 129).take 8 = bytesOf 8 (if w.active = 0 then w.version0 else w.version1) := by
  have a := length_sha512 w.image0
  have b := length_sha512 w.image1
  unfold measuredFirmware
  simp only [List.append_assoc]
  generalize sha512 w.image0 = x at a
  generalize sha512 w.image1 = y at b
  have second {z : List Byte} : (x ++ (y ++ z)).drop 64 = y ++ z := List.drop_left' a
  have third {z : List Byte} : (x ++ (y ++ z)).drop 128 = z := by
    rw [show 128 = 64 + 64 from rfl, ← List.drop_drop, second, List.drop_left' b]
  refine ⟨List.take_left' a, ?_, ?_, ?_⟩
  · rw [second, List.take_left' b]
  · rw [← Nat.add_zero 128, ← List.getElem?_drop, third]
    rfl
  · rw [show 129 = 128 + 1 from rfl, ← List.drop_drop, third, ← leBytes_eq]
    exact List.take_left' (length_leBytes ..)

theorem length_measurements (s : State) (fn : Nat) : (measurements s fn).length = if fn = 0 then 269 else 333 := by
  obtain ⟨part, long, eq⟩ := measurements_eq s fn
  rw [eq]
  simp only [measuredFirmware, List.length_append, length_sha512, length_leBytes, length_signed, long]
  split
  · rfl
  · rfl

/-! ### Host accesses (R361) -/

section
variable (calm : cool s = true) (low : hpa + l.length ≤ 2 ^ 47)
include calm low

theorem exec_hostWrite : exec (.hostMemAccess true hpa l) s = .next (writeRuns 5 (hostRuns s hpa l.length) l 0 s).2 :=
  (if_neg (Nat.not_lt.2 low)).trans (congrArg Host.Outcome.next (gate_cool calm _ _))

theorem exec_hostRead : exec (.hostMemAccess false hpa l) s =
    .next (modMod (fun m => { m with hostRead := (readRuns 5 (hostRuns s hpa l.length) s).1 }) (readRuns 5 (hostRuns s hpa l.length) s).2) :=
  (if_neg (Nat.not_lt.2 low)).trans (congrArg Host.Outcome.next (gate_cool calm _ _))

end

theorem hostRuns_mapped {i : Nat} (mapped : HostMapped s hpa n i k) : hostRuns s hpa n = [(k, n)] := by
  unfold hostRuns
  rw [decodeHost_mapped mapped]

/-- R361: a write through a decoder. -/
theorem writeRuns_mapped (span : SoundSpan s k l.length) (src : Nat) :
    ∃ t, (writeRuns src [(k, l.length)] l 0 s).2 = t ∧ { t with mem := s.mem, banks := s.banks } = s ∧ Written s t k l := by
  obtain ⟨t, wrote, ⟨⟨_, _, rfl⟩, -⟩, written⟩ := physWrite_sound span src
  unfold writeRuns
  rw [List.take_length, wrote]
  exact ⟨_, rfl, rfl, written⟩

/-- R361: a read through a decoder. -/
theorem readRuns_mapped (span : SoundSpan s k n) (src : Nat) :
    ∃ t, readRuns src [(k, n)] s = (readBytes s.mem k n, t) ∧ OnlyBanks s t := by
  obtain ⟨t, read, only⟩ := physRead_sound span src
  unfold readRuns
  rw [read]
  exact ⟨t, Prod.ext (List.append_nil _) rfl, only⟩

end Sys2Proof.Claim
end

section
open Sys2Proof Sys2Proof.Machine Sys2Proof.Claim

/-- Settles O13: a span that a decoder maps is read and written column by column (`physRead_sound`, `physWrite_sound`); bytes that none maps
lie in adjoining runs of host memory; a response is digests and fields of fixed length. -/
theorem hostAccesses : Obligations.HostAccesses := by
  unfold Obligations.HostAccesses
  refine ⟨fun s hpa l => ⟨fun i k calm low mapped span => ⟨?_, ?_⟩, fun calm low own => ⟨?_, ?_⟩, fun high w => if_pos high⟩,
    fun s fn high => congrArg Host.Outcome.next (if_pos high), fun s fn low => ?_⟩
  · obtain ⟨t, wrote, device, written⟩ := writeRuns_mapped span 5
    rw [exec_hostWrite calm low, hostRuns_mapped mapped, wrote]
    exact ⟨_, rfl, device, written⟩
  · obtain ⟨t, read, _, rfl⟩ := readRuns_mapped span 5
    rw [exec_hostRead calm low, hostRuns_mapped mapped, read]
    exact ⟨_, rfl, rfl, rfl⟩
  · rw [exec_hostWrite calm low, writeRuns_host (hostRuns_own own) (by omega) (by omega)]
    exact ⟨_, rfl, rfl, written_writeBytes rfl⟩
  · rw [exec_hostRead calm low, readRuns_host (hostRuns_own own) (by omega), show 0x800000000000 + (hpa + l.length) - (0x800000000000 + hpa) = l.length by omega]
    rfl
  · obtain ⟨part, -, same⟩ := measurements_eq s fn
    obtain ⟨image0, image1, active, version⟩ := measuredFirmware_fields s.mod.fw (part ++ signed 3 132 (measuredFirmware s.mod.fw ++ part))
    rw [← List.append_assoc, ← same] at image0 image1 active version
    exact ⟨_, _, congrArg Host.Outcome.next (if_neg (Nat.not_lt.2 low)), rfl, image0, image1, length_measurements s fn, active, version⟩

end

section
namespace Sys2Proof
open BitVec (extractLsb'_append_extractLsb'_eq_extractLsb' toNat_inj)

/-! ### Words by their fields (R76, R77) -/

/-- Two adjoining fields, the first as a number. -/
theorem eq_append_iff {n m : Nat} {hi : BitVec n} {lo : BitVec m} {x : BitVec (n + m)} :
    x = hi ++ lo ↔ (x.extractLsb' m n).toNat = hi.toNat ∧ x.extractLsb' 0 m = lo := by
  rw [toNat_inj]
  constructor
  · rintro rfl
    exact ⟨(extract_high hi lo 0 n).trans (extract_all hi), extract_low hi lo⟩
  · rintro ⟨rfl, rfl⟩
    exact ((extractLsb'_append_extractLsb'_eq_extractLsb' (Nat.zero_add m).symm).trans (extract_all x)).symm

theorem extractLsb'_extractLsb' {n s l k : Nat} (x : BitVec n) (t : Nat) (inside : s + l ≤ k) :
    (x.extractLsb' t k).extractLsb' s l = x.extractLsb' (t + s) l := by
  ext i hi
  have within : s + i < k := by omega
  simp [within, Nat.add_assoc]

/-- Three adjoining fields, the first two as numbers. -/
theorem eq_append_append_iff {n m k : Nat} {hi : BitVec n} {mid : BitVec m} {lo : BitVec k} {x : BitVec (n + m + k)} :
    x = hi ++ mid ++ lo ↔
      (x.extractLsb' (k + m) n).toNat = hi.toNat ∧ (x.extractLsb' k m).toNat = mid.toNat ∧ x.extractLsb' 0 k = lo := by
  rw [eq_append_iff, toNat_inj, eq_append_iff, extractLsb'_extractLsb' x k (Nat.add_comm m n).le,
    extractLsb'_extractLsb' x k (by omega), toNat_inj (y := mid), and_assoc, Nat.add_zero]

section
variable {m : BitVec 6} {d a b c : R5} {fn : BitVec 6} {imm : BitVec 16} {j : BitVec 21} {t : BitVec 4} {o : BitVec 12} {w : W32}

theorem packX_fields (w : W32) : packX (fMaj w) (fD w) (fA w) (fB w) (fC w) (fFn w) = w :=
  calc
    _ = w.extractLsb' 21 11 ++ fA w ++ fB w ++ fC w ++ fFn w :=
      congrArg (· ++ fA w ++ fB w ++ fC w ++ fFn w) (extractLsb'_append_extractLsb'_eq_extractLsb' rfl)
    _ = w.extractLsb' 16 16 ++ fB w ++ fC w ++ fFn w :=
      congrArg (· ++ fB w ++ fC w ++ fFn w) (extractLsb'_append_extractLsb'_eq_extractLsb' rfl)
    _ = w.extractLsb' 11 21 ++ fC w ++ fFn w :=
      congrArg (· ++ fC w ++ fFn w) (extractLsb'_append_extractLsb'_eq_extractLsb' rfl)
    _ = w.extractLsb' 6 26 ++ fFn w := congrArg (· ++ fFn w) (extractLsb'_append_extractLsb'_eq_extractLsb' rfl)
    _ = w := (extractLsb'_append_extractLsb'_eq_extractLsb' rfl).trans (extract_all w)

theorem packI_fields (w : W32) : packI (fMaj w) (fD w) (fA w) (fImm w) = w :=
  calc
    _ = w.extractLsb' 21 11 ++ fA w ++ fImm w :=
      congrArg (· ++ fA w ++ fImm w) (extractLsb'_append_extractLsb'_eq_extractLsb' rfl)
    _ = w.extractLsb' 16 16 ++ fImm w := congrArg (· ++ fImm w) (extractLsb'_append_extractLsb'_eq_extractLsb' rfl)
    _ = w := (extractLsb'_append_extractLsb'_eq_extractLsb' rfl).trans (extract_all w)

theorem packJ_fields (w : W32) : packJ (fMaj w) (fD w) (fImm21 w) = w :=
  calc
    _ = w.extractLsb' 21 11 ++ fImm21 w := congrArg (· ++ fImm21 w) (extractLsb'_append_extractLsb'_eq_extractLsb' rfl)
    _ = w := (extractLsb'_append_extractLsb'_eq_extractLsb' rfl).trans (extract_all w)

theorem packT_fields (w : W32) : packT (fMaj w) (fD w) (fA w) (fTy w) (fOff w) = w :=
  calc
    _ = w.extractLsb' 21 11 ++ fA w ++ fTy w ++ fOff w :=
      congrArg (· ++ fA w ++ fTy w ++ fOff w) (extractLsb'_append_extractLsb'_eq_extractLsb' rfl)
    _ = w.extractLsb' 16 16 ++ fTy w ++ fOff w :=
      congrArg (· ++ fTy w ++ fOff w) (extractLsb'_append_extractLsb'_eq_extractLsb' rfl)
    _ = w.extractLsb' 12 20 ++ fOff w := congrArg (· ++ fOff w) (extractLsb'_append_extractLsb'_eq_extractLsb' rfl)
    _ = w := (extractLsb'_append_extractLsb'_eq_extractLsb' rfl).trans (extract_all w)

theorem packX_eq_iff : packX m d a b c fn = w ↔
    (fMaj w).toNat = m.toNat ∧ fD w = d ∧ fA w = a ∧ fB w = b ∧ fC w = c ∧ fFn w = fn := by
  rw [toNat_inj]
  constructor
  · rintro rfl
    exact ⟨fMaj_packX .., fD_packX .., fA_packX .., fB_packX .., fC_packX .., fFn_packX ..⟩
  · rintro ⟨rfl, rfl, rfl, rfl, rfl, rfl⟩
    exact packX_fields w

theorem packI_eq_iff : packI m d a imm = w ↔ (fMaj w).toNat = m.toNat ∧ fD w = d ∧ fA w = a ∧ fImm w = imm := by
  rw [toNat_inj]
  constructor
  · rintro rfl
    exact ⟨fMaj_packI .., fD_packI .., fA_packI .., fImm_packI ..⟩
  · rintro ⟨rfl, rfl, rfl, rfl⟩
    exact packI_fields w

theorem packJ_eq_iff : packJ m d j = w ↔ (fMaj w).toNat = m.toNat ∧ fD w = d ∧ fImm21 w = j := by
  rw [toNat_inj]
  constructor
  · rintro rfl
    exact ⟨fMaj_packJ .., fD_packJ .., fImm21_packJ ..⟩
  · rintro ⟨rfl, rfl, rfl⟩
    exact packJ_fields w

theorem packT_eq_iff : packT m d a t o = w ↔
    (fMaj w).toNat = m.toNat ∧ fD w = d ∧ fA w = a ∧ fTy w = t ∧ fOff w = o := by
  rw [toNat_inj]
  constructor
  · rintro rfl
    exact ⟨fMaj_packT .., fD_packT .., fA_packT .., fTy_packT .., fOff_packT ..⟩
  · rintro ⟨rfl, rfl, rfl, rfl, rfl⟩
    exact packT_fields w
end

/-! ### The decoder's arms read no word but the instruction's own (R80, R81) -/

/-- Where the result of a decoder's arm for the word `w` is an instruction, the encoding of the instruction is `w`. -/
def Spells (w : W32) (r : Except DecodeError Instr) : Prop := ∀ i, r = .ok i → encode i = some w

section
variable {w v : W32} {i : Instr} {e : DecodeError} {l : List Nat}

theorem Spells.error : Spells w (.error e) := nofun

theorem Spells.ok (word : encode i = some v) (same : v = w) : Spells w (.ok i) := by
  rintro _ ⟨⟩
  rw [word, same]

/-- R81: the fields that the form does not use are zero. -/
theorem Spells.unused (word : encode i = some v) (same : (∀ x ∈ l, x = 0) → v = w) : Spells w (unused l i) := by
  unfold Sys2Proof.unused
  split
  · next zero => exact .ok word (same fun x mem => of_decide_eq_true (List.all_eq_true.1 zero x mem))
  · exact .error

/-- R77: an arm of the R and X forms that uses every field. -/
theorem Spells.okX {m fn : BitVec 6} (word : encode i = some (packX m (fD w) (fA w) (fB w) (fC w) fn)) (maj : (fMaj w).toNat = m.toNat)
    (operation : (fFn w).toNat = fn.toNat) : Spells w (.ok i) :=
  .ok word (packX_eq_iff.2 ⟨maj, rfl, rfl, rfl, rfl, BitVec.eq_of_toNat_eq operation⟩)

/-- R77, R81: an arm of the R and X forms. -/
theorem Spells.unusedX {m fn : BitVec 6} {d a b c : R5} (word : encode i = some (packX m d a b c fn)) (maj : (fMaj w).toNat = m.toNat)
    (operation : (fFn w).toNat = fn.toNat) (fields : (∀ x ∈ l, x = 0) → fD w = d ∧ fA w = a ∧ fB w = b ∧ fC w = c) :
    Spells w (Sys2Proof.unused l i) := by
  refine .unused word fun zero => ?_
  obtain ⟨fd, fa, fb, fc⟩ := fields zero
  exact packX_eq_iff.2 ⟨maj, fd, fa, fb, fc, BitVec.eq_of_toNat_eq operation⟩

theorem spells_decodeMaj00 (maj : (fMaj w).toNat = 0x00) : Spells w (decodeMaj00 w) := by
  unfold decodeMaj00
  split
  case h_30 => exact .error
  all_goals exact .unusedX rfl maj ‹_› (by simp +contextual [← toNat_inj])

theorem spells_decodeMaj0A (maj : (fMaj w).toNat = 0x0A) : Spells w (decodeMaj0A w) := by
  unfold decodeMaj0A
  split
  case h_14 => exact .error
  all_goals exact .unusedX rfl maj ‹_› (by simp +contextual [← toNat_inj])

theorem spells_decodeMaj22 (maj : (fMaj w).toNat = 0x22) : Spells w (decodeMaj22 w) := by
  unfold decodeMaj22
  split
  case h_9 => exact .error
  all_goals exact .unusedX rfl maj ‹_› (by simp +contextual [← toNat_inj])

theorem spells_decodeMaj24 (maj : (fMaj w).toNat = 0x24) : Spells w (decodeMaj24 w) := by
  unfold decodeMaj24
  split
  case h_4 => exact .error
  all_goals exact .okX rfl maj ‹_›

theorem spells_decodeMaj25 (maj : (fMaj w).toNat = 0x25) : Spells w (decodeMaj25 w) := by
  unfold decodeMaj25
  split
  case h_7 => exact .error
  all_goals exact .unusedX rfl maj ‹_› (by simp +contextual [← toNat_inj])

theorem spells_decodeMaj26 (maj : (fMaj w).toNat = 0x26) : Spells w (decodeMaj26 w) := by
  unfold decodeMaj26
  split
  case h_8 => exact .error
  all_goals exact .unusedX rfl maj ‹_› (by simp +contextual [← toNat_inj])

theorem spells_decodeMaj27 (maj : (fMaj w).toNat = 0x27) : Spells w (decodeMaj27 w) := by
  unfold decodeMaj27
  split
  case h_6 => exact .error
  all_goals exact .unusedX rfl maj ‹_› (by simp +contextual [← toNat_inj])

theorem spells_decodeMaj28 (maj : (fMaj w).toNat = 0x28) : Spells w (decodeMaj28 w) := by
  unfold decodeMaj28
  split
  case h_9 => exact .error
  all_goals exact .unusedX rfl maj ‹_› (by simp +contextual [← toNat_inj])

theorem spells_decodeMaj29 (maj : (fMaj w).toNat = 0x29) : Spells w (decodeMaj29 w) := by
  unfold decodeMaj29
  split
  case h_5 => exact .error
  all_goals exact .unusedX rfl maj ‹_› (by simp +contextual [← toNat_inj])

theorem spells_decodeMaj2A (maj : (fMaj w).toNat = 0x2A) : Spells w (decodeMaj2A w) := by
  unfold decodeMaj2A
  split
  case h_21 => exact .error
  case h_8 operation =>
    split
    · next f32 => exact .ok rfl (packX_eq_iff.2 ⟨maj, rfl, rfl, rfl, f32, BitVec.eq_of_toNat_eq operation⟩)
    · exact .error
  case h_1 | h_2 | h_3 | h_4 | h_5 | h_6 | h_7 | h_9 | h_10 => exact .okX rfl maj ‹_›
  all_goals exact .unusedX rfl maj ‹_› (by simp +contextual [← toNat_inj])

theorem spells_decodeMaj2C (maj : (fMaj w).toNat = 0x2C) : Spells w (decodeMaj2C w) := by
  unfold decodeMaj2C
  split
  case h_8 => exact .error
  case h_1 | h_4 | h_5 | h_6 => exact .okX rfl maj ‹_›
  all_goals exact .unusedX rfl maj ‹_› (by simp +contextual [← toNat_inj])

theorem spells_decodeMaj2D (maj : (fMaj w).toNat = 0x2D) : Spells w (decodeMaj2D w) := by
  unfold decodeMaj2D
  split
  case h_8 => exact .error
  case h_2 | h_3 => exact .okX rfl maj ‹_›
  all_goals exact .unusedX rfl maj ‹_› (by simp +contextual [← toNat_inj])

theorem spells_decodeMaj2E (maj : (fMaj w).toNat = 0x2E) : Spells w (decodeMaj2E w) := by
  unfold decodeMaj2E
  split
  case h_7 => exact .error
  case h_6 => exact .okX rfl maj ‹_›
  all_goals exact .unusedX rfl maj ‹_› (by simp +contextual [← toNat_inj])

theorem spells_decodeMaj2F (maj : (fMaj w).toNat = 0x2F) : Spells w (decodeMaj2F w) := by
  unfold decodeMaj2F
  split
  case h_5 => exact .error
  all_goals exact .unusedX rfl maj ‹_› (by simp +contextual [← toNat_inj])

theorem spells_decodeMaj30 (maj : (fMaj w).toNat = 0x30) : Spells w (decodeMaj30 w) := by
  unfold decodeMaj30
  split
  case h_5 => exact .error
  all_goals exact .unusedX rfl maj ‹_› (by simp +contextual [← toNat_inj])

theorem spells_decodeMaj31 (maj : (fMaj w).toNat = 0x31) : Spells w (decodeMaj31 w) := by
  unfold decodeMaj31
  split
  case h_6 => exact .error
  case h_1 | h_2 => exact .okX rfl maj ‹_›
  all_goals exact .unusedX rfl maj ‹_› (by simp +contextual [← toNat_inj])

theorem spells_decodeMaj33 (maj : (fMaj w).toNat = 0x33) : Spells w (decodeMaj33 w) := by
  unfold decodeMaj33
  split
  case h_5 => exact .error
  all_goals exact .unusedX rfl maj ‹_› (by simp +contextual [← toNat_inj])

theorem spells_decodeMaj38 (maj : (fMaj w).toNat = 0x38) : Spells w (decodeMaj38 w) := by
  unfold decodeMaj38
  split
  case h_5 => exact .error
  case h_4 => exact .okX rfl maj ‹_›
  all_goals exact .unusedX rfl maj ‹_› (by simp +contextual [← toNat_inj])

theorem spells_decodeMaj39 (maj : (fMaj w).toNat = 0x39) : Spells w (decodeMaj39 w) := by
  unfold decodeMaj39
  split
  case h_17 => exact .error
  case h_1 | h_2 | h_3 | h_4 | h_5 | h_6 => exact .okX rfl maj ‹_›
  all_goals exact .unusedX rfl maj ‹_› (by simp +contextual [← toNat_inj])

theorem spells_decodeMaj3A (maj : (fMaj w).toNat = 0x3A) : Spells w (decodeMaj3A w) := by
  unfold decodeMaj3A
  split
  case h_3 => exact .error
  all_goals exact .unusedX rfl maj ‹_› (by simp +contextual [← toNat_inj])

/-- A field of two bits that is none of 0, 1 and 2. -/
theorem toNat_eq_three {x : BitVec 2} (not0 : x.toNat ≠ 0) (not1 : x.toNat ≠ 1) (not2 : x.toNat ≠ 2) : x.toNat = 3 := by
  have := x.isLt
  omega

theorem toNat_eq_one {x : BitVec 1} (not0 : x.toNat ≠ 0) : x.toNat = 1 := by
  have := x.isLt
  omega

/-! The forms whose c, fn or imm holds more than one field. -/

/-- R100. -/
theorem spells_decodeMaj07 (maj : (fMaj w).toNat = 0x07) : Spells w (decodeMaj07 w) := by
  unfold decodeMaj07
  split
  case h_4 other0 other1 other2 =>
    have kind := toNat_eq_three other0 other1 other2
    exact .unused rfl (by simp +contextual [packI_eq_iff, eq_append_append_iff (n := 8) (m := 2) (k := 6), kind, maj,
      -BitVec.extractLsb'_toNat, -BitVec.reduceAppend])
  all_goals exact .unused rfl (by simp +contextual [packI_eq_iff, eq_append_append_iff (n := 8) (m := 2) (k := 6), *,
    -BitVec.extractLsb'_toNat, -BitVec.reduceAppend])

/-- R117, R125. -/
theorem spells_decodeMaj20 (maj : (fMaj w).toNat = 0x20) : Spells w (decodeMaj20 w) := by
  unfold decodeMaj20
  split
  case h_24 => exact .error
  case h_21 =>
    split
    · exact .unused rfl (by simp +contextual [packX_eq_iff, eq_append_iff (n := 2) (m := 3), eq_append_iff (n := 5) (m := 1),
        ← toNat_inj (n := 5), *, -BitVec.extractLsb'_toNat, -BitVec.reduceAppend])
    · next odd =>
      have narrow := ((fFn w).extractLsb' 0 1).eq_zero_or_eq_one.resolve_left odd
      exact .unused rfl (by simp +contextual [packX_eq_iff, eq_append_iff (n := 2) (m := 3), eq_append_iff (n := 5) (m := 1),
        ← toNat_inj (n := 5), *, -BitVec.extractLsb'_toNat, -BitVec.reduceAppend])
  all_goals exact .unused rfl (by simp +contextual [packX_eq_iff, eq_append_iff (n := 2) (m := 3), eq_append_iff (n := 5) (m := 1),
    ← toNat_inj (n := 5), *, -BitVec.extractLsb'_toNat])

/-- R126. -/
theorem spells_decodeMaj21 (maj : (fMaj w).toNat = 0x21) : Spells w (decodeMaj21 w) := by
  unfold decodeMaj21
  split
  case h_4 other0 other1 other2 =>
    have operation := toNat_eq_three other0 other1 other2
    exact .ok rfl (by simp [packX_eq_iff, eq_append_append_iff (n := 1) (m := 2) (k := 3), operation, maj, -BitVec.extractLsb'_toNat])
  all_goals exact .ok rfl (by simp [packX_eq_iff, eq_append_append_iff (n := 1) (m := 2) (k := 3), *, -BitVec.extractLsb'_toNat])

/-- R162. -/
theorem spells_decodeMaj23 (maj : (fMaj w).toNat = 0x23) : Spells w (decodeMaj23 w) := by
  unfold decodeMaj23
  split
  case h_13 => exact .error
  all_goals exact .unused rfl (by simp +contextual [packX_eq_iff, eq_append_iff (n := 4) (m := 1), eq_append_iff (n := 4) (m := 2), *,
    -BitVec.extractLsb'_toNat])

/-- R254, R268. -/
theorem spells_decodeMaj2B (maj : (fMaj w).toNat = 0x2B) : Spells w (decodeMaj2B w) := by
  unfold decodeMaj2B
  split
  case h_1 =>
    exact .unused rfl (by simp +contextual [packX_eq_iff, eq_append_iff (n := 1) (m := 5), ← toNat_inj (n := 5), *,
      -BitVec.extractLsb'_toNat])
  case h_2 other =>
    have gang := toNat_eq_one other
    exact .unused rfl (by simp +contextual [packX_eq_iff, eq_append_iff (n := 1) (m := 5), ← toNat_inj (n := 5), gang, maj,
      -BitVec.extractLsb'_toNat])

/-- R78, R141. -/
theorem spells_decodeMaj32 (maj : (fMaj w).toNat = 0x32) : Spells w (decodeMaj32 w) := by
  unfold decodeMaj32
  split
  case h_4 other0 other1 other2 =>
    have operation := toNat_eq_three other0 other1 other2
    exact .unused rfl (by simp +contextual [packI_eq_iff, eq_append_append_iff (n := 2) (m := 2) (k := 12), ← toNat_inj (n := 5),
      operation, maj, -BitVec.extractLsb'_toNat, -BitVec.reduceAppend])
  all_goals exact .unused rfl (by simp +contextual [packI_eq_iff, eq_append_append_iff (n := 2) (m := 2) (k := 12),
    ← toNat_inj (n := 5), *, -BitVec.extractLsb'_toNat, -BitVec.reduceAppend])


/-- R80, R81: an arm for each major opcode. -/
theorem spells_decodeRaw : Spells w (decodeRaw w) := by
  unfold decodeRaw
  split
  case h_1 maj => exact spells_decodeMaj00 maj
  case h_8 maj => exact spells_decodeMaj07 maj
  case h_11 maj => exact spells_decodeMaj0A maj
  case h_33 maj => exact spells_decodeMaj20 maj
  case h_34 maj => exact spells_decodeMaj21 maj
  case h_35 maj => exact spells_decodeMaj22 maj
  case h_36 maj => exact spells_decodeMaj23 maj
  case h_37 maj => exact spells_decodeMaj24 maj
  case h_38 maj => exact spells_decodeMaj25 maj
  case h_39 maj => exact spells_decodeMaj26 maj
  case h_40 maj => exact spells_decodeMaj27 maj
  case h_41 maj => exact spells_decodeMaj28 maj
  case h_42 maj => exact spells_decodeMaj29 maj
  case h_43 maj => exact spells_decodeMaj2A maj
  case h_44 maj => exact spells_decodeMaj2B maj
  case h_45 maj => exact spells_decodeMaj2C maj
  case h_46 maj => exact spells_decodeMaj2D maj
  case h_47 maj => exact spells_decodeMaj2E maj
  case h_48 maj => exact spells_decodeMaj2F maj
  case h_49 maj => exact spells_decodeMaj30 maj
  case h_50 maj => exact spells_decodeMaj31 maj
  case h_51 maj => exact spells_decodeMaj32 maj
  case h_52 maj => exact spells_decodeMaj33 maj
  case h_53 maj => exact spells_decodeMaj38 maj
  case h_54 maj => exact spells_decodeMaj39 maj
  case h_55 maj => exact spells_decodeMaj3A maj
  case h_9 | h_10 | h_18 => exact .ok rfl (by simp [packJ_eq_iff, *])
  case h_31 | h_32 => exact .ok rfl (by simp [packT_eq_iff, *])
  case h_56 => exact .error
  all_goals exact .ok rfl (by simp [packI_eq_iff, *])

end

/-! ### Decoding (R81) -/

theorem decode_eq_ok_iff {w : W32} {i : Instr} : decode w = .ok i ↔ decodeRaw w = .ok i ∧ i.WellFormed := by
  unfold decode Instr.WellFormed
  cases decodeRaw w with
  | error e => simp
  | ok j =>
    simp only [Except.ok.injEq]
    split
    · next sound => exact ⟨fun h => by cases h; exact ⟨rfl, sound⟩, fun h => congrArg _ h.1⟩
    · next e unsound =>
      refine ⟨nofun, fun h => ?_⟩
      obtain ⟨rfl, sound⟩ := h
      rw [sound] at unsound
      cases unsound

/-- R3: the bytes of a word, put together again. -/
theorem wordOfBytes_extract (w : W32) :
    wordOfBytes (w.extractLsb' 0 8) (w.extractLsb' 8 8) (w.extractLsb' 16 8) (w.extractLsb' 24 8) = w :=
  calc
    _ = w.extractLsb' 16 16 ++ w.extractLsb' 8 8 ++ w.extractLsb' 0 8 :=
      congrArg (· ++ w.extractLsb' 8 8 ++ w.extractLsb' 0 8) (extractLsb'_append_extractLsb'_eq_extractLsb' rfl)
    _ = w.extractLsb' 8 24 ++ w.extractLsb' 0 8 :=
      congrArg (· ++ w.extractLsb' 0 8) (extractLsb'_append_extractLsb'_eq_extractLsb' rfl)
    _ = w := (extractLsb'_append_extractLsb'_eq_extractLsb' rfl).trans (extract_all w)

theorem decodeBytes_bytesOfWord (w : W32) : decodeBytes (bytesOfWord w) = some (decode w, []) :=
  congrArg (fun v => some (decode v, [])) (wordOfBytes_extract w)

theorem decodeTableWord_toNat {w : W32} {i : Instr} (decoded : decode w = .ok i) : decodeTableWord 32 w.toNat = some i := by
  unfold decodeTableWord
  rw [if_pos rfl, BitVec.ofNat_toNat, BitVec.setWidth_eq, decodeBytes_bytesOfWord, decoded]

end Sys2Proof

namespace Sys2Proof.Laws.FieldsReadBack

/-- Every field of every instruction is read where the encoding puts it. -/
theorem all : ∀ i, Statement i :=
  @Instr.rec Statement
    add sub and or xor andn sll srl sra ror slt sltu min max minu maxu addw subw clz ctz popc sextb sexth sextw bswap addSat subSat adduSat
    subuSat addi andi ori xori slti sltiu slli srli srai rori lui aupc mul mulh mulhu mulhsu div divu rem remu mulw divw divuw remw remuw beq bne
    blt bge bltu bgeu jal jalr ldb ldbu ldh ldhu ldw ldwu ldd stb sth stw std ldf stf fadd fsub fmul fdiv fsqrt fmin fmax fsgnj fsgnjn fsgnjx feq
    flt fle fclass fcvtI64Fmt fcvtI32Fmt fcvtN32Fmt fcvtFmtI64 fcvtFmtI32 fcvtFmtN32 fcvtF32F64 fcvtF64F32 fmvfg fmvgf fmadd fmsub fnmadd fnmsub
    lds ldse stfl fefill feempty fest lda stl amoAdd amoAnd amoOr amoXor amoMin amoMax amoMinu amoMaxu amoSwap amoCas amoFaddF32 amoFaddF64 fence
    fenceAcq fenceRel barrive bwait barw gbar bmake bfree put get putm getd cwait cread cadd rinit rwf rwe rpub rcon dep depx sns4 sns8 snsl mrd
    tknum tkwait axsetv axsets axget axtt axeAdd axeSub axeAddSat axeSubSat axeMin axeMax axeMul axeFma axeCmpeq axeCmplt axeCvt axeAnd axeOr
    axeXor axeNot axeMov axeSel axeShl axeShr axeSra axmm axgang axmatch axfirst axcount axmin axmax axsum axtag axld axldf axldg axst axlive
    axwait axpass bkload bkrun bkcopy bkfence bkerr bkmeta maddF32 maddI32 maddV4 mfence tspawn texit targ tyield ecall ebreak tret wfi icinv csrr
    csrs csrc csrw tlbinv asidset protset stopat cld cst cstM cldm laneAdd laneSub laneMul laneFma laneMin laneMax rsum splat laneAnd laneOr
    laneXor laneMov lget lput lld lst bdone bsig takeInterrupt takeAsyncException timerMatch instructionFetchFill chunkCommit soloGrant
    remoteAccessArrival syncEngineAtomic syncEngineBarrier remoteLoadReply remoteAtomicReply syncReply remoteAck remoteRejection bwaitWake
    gbarComplete ldsWake cwaitWake rwfWake rweWake tkwaitWake fenceWaitEnd bkfenceWaitEnd mfenceWaitEnd tlbinvAck stopAnnounced tspawnAck
    tyieldEnd wfiWake axwaitEnd arrayInstrExecute arrayResultWrite axmmRow gangOpJoin axgangRow putgetSegment partTranslate faultRecordWrite
    putgetComplete putgetFail putmSlotClaim bkloadComplete overlayStart overlayEnd bkcopyColumn bkcopyComplete bkmetaComplete streamSlotGrant
    streamSlotIdleRelease maddAccept maddApply hotRowWindow hotRowAdmit markOpArrival markOpApply tick markConfigEffect msizeWrite fresumeRetry
    fresumeFail fresumeExhaust registerWrite qtailWrite qcfgWrite evcfgWrite ptcfgWrite launchRead taskEnqueue versionFill taskEligible
    dispatchOpportunity evictGang taskComplete eventRecordWrite eventInterruptTimeout versionInstall hangExpiry zugzwangStop flushToken
    routerFlush stopComplete partitionResume recallLentClusters lendCluster assignCluster withdrawPartition migrateOwner field ticks snapshot cap
    mailboxUnknown hostMemAccess spdmRequest firmwareImage firmwareHealthy firmwareHealthTimeout linkOpReceive linkPortDown linkRouteTimeout
    governorEval operatingPointStep voltageSettled voltageFloorChange powerThrottle thermalReset moduleReset lastingFault isolateFault gradeChange
    illegalInstruction eventAcknowledgement softError markReply linkPortUp powerLimitCleared

end Sys2Proof.Laws.FieldsReadBack

open Sys2Proof

/-- Settles O17: every field is read back from its place, and the checks of the fields' values are those of a well-formed instruction. -/
theorem encodeThenDecode : Obligations.EncodeThenDecode := by
  unfold Obligations.EncodeThenDecode
  intro i w sound word
  have decoded : decode w = .ok i := decode_eq_ok_iff.2 ⟨Laws.FieldsReadBack.all i w word, sound⟩
  exact ⟨decoded, decodeTableWord_toNat decoded⟩

/-- Settles O18: each arm of the decoder reads the word of one instruction, with every field that the instruction lacks zero. -/
theorem decodeThenEncode : Obligations.DecodeThenEncode := by
  unfold Obligations.DecodeThenEncode
  intro w i decoded
  exact spells_decodeRaw i (decode_eq_ok_iff.1 decoded).1

/-- Settles O21: each word is the encoding of its instruction. -/
theorem knownWords : Obligations.KnownWords := by
  have words : ∀ p ∈ Claim.knownWords, p.2.illFormed = none ∧ encode p.2 = some p.1 := by decide
  unfold Obligations.KnownWords
  intro p known
  obtain ⟨sound, word⟩ := words p known
  exact (encodeThenDecode p.2 p.1 sound word).1

end

section
/-! SUPPORT. Integer results (R97 to R106): each operation of the model is the function that its rule states, at every width. -/

namespace Sys2Proof.Claim
open Sys2Proof.Machine

variable {w : Nat} (x y : BitVec w)

/-! ### Sums, products and comparisons -/

theorem add_eq_pat : x + y = pat w (x.toInt + y.toInt) := by
  simp [pat, BitVec.ofInt_add]

theorem sub_eq_pat : x - y = pat w (x.toInt - y.toInt) := by
  unfold pat
  rw [Int.sub_eq_add_neg, BitVec.ofInt_add, BitVec.ofInt_neg]
  simp [BitVec.sub_eq_add_neg]

theorem mul_eq_pat : x * y = pat w (x.toInt * y.toInt) := by
  simp [pat, BitVec.ofInt_mul]

theorem flag_eq_truth (b : Bool) : flag w b = truth w b := by
  cases b <;> rfl

theorem ite_eq_min : (if x.toInt < y.toInt then x else y) = pat w (min x.toInt y.toInt) := by
  unfold pat
  split
  · next less => rw [min_eq_left less.le, BitVec.ofInt_toInt]
  · next less => rw [min_eq_right (not_lt.1 less), BitVec.ofInt_toInt]

theorem ite_eq_max : (if x.toInt < y.toInt then y else x) = pat w (max x.toInt y.toInt) := by
  unfold pat
  split
  · next less => rw [max_eq_right less.le, BitVec.ofInt_toInt]
  · next less => rw [max_eq_left (not_lt.1 less), BitVec.ofInt_toInt]

theorem ite_eq_minu : (if x.toNat < y.toNat then x else y) = BitVec.ofNat w (min x.toNat y.toNat) := by
  split
  · next less => rw [min_eq_left less.le, BitVec.ofNat_toNat, BitVec.setWidth_eq]
  · next less => rw [min_eq_right (not_lt.1 less), BitVec.ofNat_toNat, BitVec.setWidth_eq]

theorem ite_eq_maxu : (if x.toNat < y.toNat then y else x) = BitVec.ofNat w (max x.toNat y.toNat) := by
  split
  · next less => rw [max_eq_right less.le, BitVec.ofNat_toNat, BitVec.setWidth_eq]
  · next less => rw [max_eq_left (not_lt.1 less), BitVec.ofNat_toNat, BitVec.setWidth_eq]

/-! ### Shifts -/

theorem shiftLeft_eq_ofNat (n : Nat) : x <<< n = BitVec.ofNat w (x.toNat * 2 ^ n) := by
  apply BitVec.eq_of_toNat_eq
  rw [BitVec.toNat_shiftLeft, BitVec.toNat_ofNat, Nat.shiftLeft_eq]

theorem ushiftRight_eq_ofNat (n : Nat) : x >>> n = BitVec.ofNat w (x.toNat / 2 ^ n) := by
  apply BitVec.eq_of_toNat_eq
  rw [BitVec.toNat_ushiftRight, BitVec.toNat_ofNat, Nat.shiftRight_eq_div_pow,
    Nat.mod_eq_of_lt (lt_of_le_of_lt (Nat.div_le_self ..) x.isLt)]

theorem sshiftRight_eq_pat (n : Nat) : x.sshiftRight n = pat w (x.toInt / 2 ^ n) := by
  unfold pat BitVec.sshiftRight
  rw [Int.shiftRight_eq_div_pow]
  rfl

theorem ror_eq_rotateRight {n : Nat} (within : n < w) : ror x n = x.rotateRight n := by
  unfold ror BitVec.rotateRight BitVec.rotateRightAux
  rw [Nat.mod_eq_of_lt within]

/-! ### Bits and bytes -/

theorem popc_eq_ones : popc x = BitVec.ofNat w (ones x) := by
  unfold popc ones
  rw [List.countP_eq_length_filter]

theorem sextLow_eq_signExtend (n : Nat) : sextLow x n = (x.truncate n).signExtend w := by
  unfold sextLow
  congr 1
  ext i hi
  simp

theorem length_takeWhile_range_of_stop {p : Nat → Bool} {k n : Nat} (below : ∀ i < k, p i = true) (stop : p k = false) (inside : k < n) :
    ((List.range n).takeWhile p).length = k := by
  have first : (List.range n).findIdx (fun i => !p i) = k := by
    rw [List.findIdx_eq (by simpa using inside)]
    exact ⟨by simp [stop], fun i hi => by simp [below i hi]⟩
  rw [List.takeWhile_eq_take_findIdx_not, first, List.length_take, List.length_range, min_eq_left inside.le]

theorem length_takeWhile_range_of_all {p : Nat → Bool} {n : Nat} (all : ∀ i < n, p i = true) : ((List.range n).takeWhile p).length = n := by
  rw [List.takeWhile_eq_self_iff.2 (by simpa using all), List.length_range]

theorem ctz_eq_trailingZeros : ctz x = BitVec.ofNat w (trailingZeros x) := by
  unfold ctz trailingZeros
  cases found : (List.range w).find? fun i => x.getLsbD i with
  | none =>
    rw [List.find?_range_eq_none] at found
    rw [length_takeWhile_range_of_all found]
    rfl
  | some k =>
    rw [List.find?_range_eq_some] at found
    obtain ⟨one, inside, zeros⟩ := found
    rw [length_takeWhile_range_of_stop zeros (by simp [one]) (List.mem_range.1 inside)]
    rfl

theorem clz_eq_leadingZeros : clz x = BitVec.ofNat w (leadingZeros x) := by
  unfold clz leadingZeros
  by_cases zero : x = 0
  · rw [if_pos zero, length_takeWhile_range_of_all (by simp [zero])]
  · have nonzero : x.toNat ≠ 0 := fun h => zero (BitVec.eq_of_toNat_eq h)
    have inside : x.toNat.log2 < w := (Nat.log2_lt nonzero).2 x.isLt
    rw [if_neg zero, length_takeWhile_range_of_stop (k := w - 1 - x.toNat.log2)]
    · intro i hi
      have above : x.toNat < 2 ^ (w - 1 - i) := (Nat.log2_lt nonzero).1 (by omega)
      simp [BitVec.getLsbD, Nat.testBit_lt_two_pow above]
    · have place : w - 1 - (w - 1 - x.toNat.log2) = x.toNat.log2 := by omega
      simp [BitVec.getLsbD, place, Nat.testBit_log2 nonzero]
    · omega

/-- R3: the number of bytes in the opposite order. -/
theorem leNat_reverse_map (f : Nat → Byte) (n : Nat) :
    leNat ((List.range n).map f).reverse = ((List.range n).map fun k => (f k).toNat * 256 ^ (n - 1 - k)).sum := by
  induction n with
  | zero => rfl
  | succ n ih =>
    have scaled : (List.range n).map (fun k => (f k).toNat * 256 ^ (n - k)) =
        (List.range n).map fun k => 256 * ((f k).toNat * 256 ^ (n - 1 - k)) := by
      refine List.map_congr_left fun k hk => ?_
      have exponent : n - k = n - 1 - k + 1 := by
        have := List.mem_range.1 hk
        omega
      rw [exponent, Nat.pow_succ]
      ring
    rw [List.range_succ, List.map_append, List.map_append, List.reverse_append, List.sum_append, Nat.add_sub_cancel, scaled,
      List.sum_map_mul_left, ← ih]
    simp [leNat, Nat.add_comm]

theorem bswap_eq_swapped : bswap x = swapped (w / 8) x := by
  have bytes : bytesOf (w / 8) x.toNat = (List.range (w / 8)).map fun k => x.extractLsb' (8 * k) 8 := by
    refine List.map_congr_left fun k _ => BitVec.eq_of_toNat_eq ?_
    rw [BitVec.extractLsb'_toNat, BitVec.toNat_ofNat, Nat.shiftRight_eq_div_pow, Nat.pow_mul]
  unfold bswap swapped
  rw [leBytes_eq, bytes, leNat_reverse_map]

/-! ### Saturation -/

theorem max_min_eq_clamp {lo hi : Int} (ordered : lo ≤ hi) (z : Int) : max lo (min hi z) = clamp lo hi z := by
  unfold clamp
  omega

theorem satS_eq_pat (z : Int) : satS w z = pat w (clamp (-(2 ^ (w - 1))) (2 ^ (w - 1) - 1) z) := by
  have positive : (0 : Int) < 2 ^ (w - 1) := by positivity
  exact congrArg _ (max_min_eq_clamp (by omega) z)

theorem satU_eq_pat (z : Int) : satU w z = pat w (clamp 0 (2 ^ w - 1) z) := by
  have positive : (0 : Int) < 2 ^ w := by positivity
  exact congrArg _ (max_min_eq_clamp (by omega) z)

/-! ### Immediates -/

theorem zeroExtend_eq_ofNat {n : Nat} (i : BitVec n) : i.zeroExtend w = BitVec.ofNat w i.toNat :=
  (BitVec.ofNat_toNat ..).symm

theorem signExtend_eq_pat {n : Nat} (i : BitVec n) : i.signExtend w = pat w i.toInt := rfl

theorem add_pat (z : Int) : x + pat w z = pat w (x.toInt + z) := by
  simp [pat, BitVec.ofInt_add]

theorem pat_shiftLeft (z : Int) (n : Nat) : pat w z <<< n = pat w (z * 2 ^ n) := by
  unfold pat
  have power : BitVec.twoPow w n = BitVec.ofInt w (2 ^ n) := by
    rw [← Nat.cast_two, ← Nat.cast_pow, BitVec.ofInt_natCast]
    exact BitVec.eq_of_toNat_eq (by rw [BitVec.toNat_twoPow, BitVec.toNat_ofNat])
  rw [BitVec.shiftLeft_eq_mul_twoPow, BitVec.ofInt_mul, power]

/-! ### Products and quotients -/

theorem mulHigh_natCast (m n : Nat) : mulHigh w m n = BitVec.ofNat w (m * n / 2 ^ w) := by
  unfold mulHigh
  rw [← BitVec.ofInt_natCast]
  push_cast
  rfl

theorem toNat_eq_zero_iff : y.toNat = 0 ↔ y = 0 :=
  BitVec.toNat_inj (y := 0#w)

theorem toInt_eq_zero_iff : y.toInt = 0 ↔ y = 0 := by
  rw [← BitVec.toInt_inj, show (0 : BitVec w) = 0#w from rfl, BitVec.toInt_zero]

theorem divU_eq_ofNat : divU x y = BitVec.ofNat w (quotientU w x.toNat y.toNat) := by
  unfold divU quotientU
  simp only [toNat_eq_zero_iff]
  split
  · exact BitVec.eq_of_toNat_eq (by rw [BitVec.toNat_allOnes, BitVec.toNat_ofNat, Nat.mod_eq_of_lt (by have := Nat.two_pow_pos w; omega)])
  · rw [← BitVec.toNat_udiv, BitVec.ofNat_toNat, BitVec.setWidth_eq]

theorem remU_eq_ofNat : remU x y = BitVec.ofNat w (remainderU x.toNat y.toNat) := by
  unfold remU remainderU
  simp only [toNat_eq_zero_iff]
  split
  · rw [BitVec.ofNat_toNat, BitVec.setWidth_eq]
  · rw [← Nat.mod_eq_sub_mul_div, ← BitVec.toNat_umod, BitVec.ofNat_toNat, BitVec.setWidth_eq]

theorem remS_eq_pat : remS x y = pat w (remainder x.toInt y.toInt) := by
  unfold remS remainder pat
  simp only [toInt_eq_zero_iff]
  split
  · rw [BitVec.ofInt_toInt]
  · rw [Int.tmod_def]

theorem satS_of_mem {z : Int} (low : -(2 ^ (w - 1)) ≤ z) (high : z ≤ 2 ^ (w - 1) - 1) : satS w z = pat w z := by
  rw [satS_eq_pat, clamp, if_neg (by omega), if_neg (by omega)]

theorem satS_of_lt {z : Int} (below : z < -(2 ^ (w - 1))) : satS w z = pat w (-(2 ^ (w - 1))) := by
  rw [satS_eq_pat, clamp, if_pos below]

theorem satS_of_gt {z : Int} (above : 2 ^ (w - 1) - 1 < z) : satS w z = pat w (2 ^ (w - 1) - 1) := by
  have positive : (0 : Int) < 2 ^ (w - 1) := by positivity
  rw [satS_eq_pat, clamp, if_neg (by omega), if_pos above]

/-- R103: the one quotient that the format does not hold is that of the least value by -1. -/
theorem tdiv_le_of_not_overflow {p a b : Int} (low : -p ≤ a) (high : a < p) (nonzero : b ≠ 0) (fits : ¬(a = -p ∧ b = -1)) :
    -p ≤ a.tdiv b ∧ a.tdiv b ≤ p - 1 := by
  have size : (a.tdiv b).natAbs = a.natAbs / b.natAbs := Int.natAbs_tdiv ..
  have shrink : a.natAbs / b.natAbs ≤ a.natAbs := Nat.div_le_self ..
  by_cases one : b = -1
  · subst one
    rw [Int.tdiv_neg, Int.tdiv_one]
    omega
  · by_cases least : a = -p
    · by_cases unit : b = 1
      · subst unit
        rw [Int.tdiv_one]
        omega
      · have halved : a.natAbs / b.natAbs ≤ a.natAbs / 2 := Nat.div_le_div_left (by omega) (by omega)
        omega
    · omega

theorem divS_eq_pat (wide : 0 < w) : divS x y = pat w (quotient w x.toInt y.toInt) := by
  have positive : (0 : Int) < 2 ^ (w - 1) := by positivity
  have double : (2 : Int) ^ w = 2 * 2 ^ (w - 1) := by rw [← pow_succ', Nat.sub_add_cancel wide]
  have low : -(2 ^ (w - 1)) ≤ x.toInt := BitVec.le_toInt ..
  have high : x.toInt < 2 ^ (w - 1) := BitVec.toInt_lt
  unfold divS quotient
  simp only [toInt_eq_zero_iff]
  split
  · split
    · exact satS_of_lt (by omega)
    · exact satS_of_gt (by omega)
  · next nonzero =>
    split
    · next overflow =>
      rw [overflow.1, overflow.2, Int.tdiv_neg, Int.tdiv_one]
      exact satS_of_gt (by omega)
    · next fits =>
      obtain ⟨least, most⟩ := tdiv_le_of_not_overflow low high (mt (toInt_eq_zero_iff y).1 nonzero) fits
      exact satS_of_mem least most

end Sys2Proof.Claim
end

section
/-! SUPPORT. What a bank arithmetic unit does with a form that it shares with a core, or lacks, and what a core does with a form that it lacks
(R81 to R83, R283). -/

namespace Sys2Proof.Claim
open Sys2Proof.Machine

variable {s : State} {c g : Nat} {i : Instr} {w : W32} {d a b : R5}

theorem runEnds_endRun (g code status : Nat) (s : State) : RunEnds g code status s (endRun g code status s) where
  only := ⟨rfl, fun _ other => (modBank_bank ..).trans (if_neg other), fun _ => rfl⟩
  bank := (modBank_bank ..).trans (if_pos rfl)

/-! ### Shared forms (R83, R104 to R106, R283) -/

/-- R83: a register above g15. -/
theorem bauOp_foreign {rs : List R5} (foreign : (rs.any fun r => decide (16 ≤ r.toNat)) = true) (f : Bank → Bank) :
    bauOp g rs f s = endRun g 1 0 s := if_pos foreign

theorem bauJump_foreign {rs : List R5} (foreign : (rs.any fun r => decide (16 ≤ r.toNat)) = true) (target : W32) (f : Bank → Bank) :
    bauJump g rs target f s = endRun g 1 0 s := if_pos foreign

theorem bauMem_foreign {rs : List R5} (foreign : (rs.any fun r => decide (16 ≤ r.toNat)) = true) (k n : Nat) (f : Bank → Bank) :
    bauMem g rs k n f s = endRun g 1 0 s := if_pos foreign

section
variable (cur : s.cur = .bau g)
include cur

theorem alu2_bau (f : W64 → W64 → W64) (f32 : W32 → W32 → W32) :
    alu2 f f32 d a b s = bauOp g [d, a, b] (fun k => setBG d (f32 (getBG k a) (getBG k b)) k) s := by
  unfold alu2
  rw [cur]

theorem alu1_bau (f : W64 → W64) (f32 : W32 → W32) : alu1 f f32 d a s = bauOp g [d, a] (fun k => setBG d (f32 (getBG k a)) k) s := by
  unfold alu1
  rw [cur]

theorem shiftImm_bau {n : BitVec 6} (amount : n.toNat < 32) (f : W64 → Nat → W64) (f32 : W32 → Nat → W32) :
    shiftImm f f32 d a n s = bauOp g [d, a] (fun k => setBG d (f32 (getBG k a) n.toNat) k) s := by
  unfold shiftImm
  rw [cur]
  exact (if_neg (Nat.not_le.2 amount)).trans (alu1_bau cur _ _)

/-- R283: an amount of 32 or more. -/
theorem shiftImm_beyond {n : BitVec 6} (amount : ¬n.toNat < 32) (f : W64 → Nat → W64) (f32 : W32 → Nat → W32) :
    shiftImm f f32 d a n s = endRun g 1 0 s := by
  unfold shiftImm
  rw [cur]
  exact if_pos (Nat.not_lt.1 amount)

theorem shiftImm_foreign {n : BitVec 6} (foreign : ([d, a].any fun r => decide (16 ≤ r.toNat)) = true) (f : W64 → Nat → W64)
    (f32 : W32 → Nat → W32) : shiftImm f f32 d a n s = endRun g 1 0 s := by
  by_cases amount : n.toNat < 32
  · exact (shiftImm_bau cur amount f f32).trans (bauOp_foreign foreign _)
  · exact shiftImm_beyond cur amount f f32

theorem branch_taken_bau {t : W64 → W64 → Bool} {t32 : W32 → W32 → Bool} {o : BitVec 16}
    (taken : t32 (getBG (s.bank g) a) (getBG (s.bank g) b) = true) :
    branch t t32 a b o s = bauJump g [a, b] (BitVec.ofNat 32 (s.bank g).pc + (o.signExtend 32 <<< 2)) id s := by
  unfold branch
  rw [cur]
  exact if_pos taken

theorem branch_untaken_bau {t : W64 → W64 → Bool} {t32 : W32 → W32 → Bool} {o : BitVec 16}
    (untaken : t32 (getBG (s.bank g) a) (getBG (s.bank g) b) = false) : branch t t32 a b o s = bauOp g [a, b] id s := by
  unfold branch
  rw [cur]
  exact if_neg (Bool.not_eq_true _ ▸ untaken)

theorem branch_foreign {o : BitVec 16} (foreign : ([a, b].any fun r => decide (16 ≤ r.toNat)) = true) (t : W64 → W64 → Bool)
    (t32 : W32 → W32 → Bool) : branch t t32 a b o s = endRun g 1 0 s := by
  cases taken : t32 (getBG (s.bank g) a) (getBG (s.bank g) b) with
  | true => exact (branch_taken_bau cur taken).trans (bauJump_foreign foreign ..)
  | false => exact (branch_untaken_bau cur taken).trans (bauOp_foreign foreign _)

theorem exec_aupc_bau (imm : BitVec 21) : exec (.aupc d imm) s =
    .next (bauOp g [d] (fun k => setBG d (BitVec.ofNat 32 k.pc + (imm.signExtend 32 <<< 16)) k) s) := by
  show execAupc d imm s = _
  unfold execAupc
  rw [cur]

theorem exec_jal_bau (o : BitVec 21) : exec (.jal d o) s = .next (bauJump g [d] (BitVec.ofNat 32 (s.bank g).pc + (o.signExtend 32 <<< 2))
    (setBG d (BitVec.ofNat 32 (s.bank g).pc + 4)) s) := by
  show execJal d o s = _
  unfold execJal
  rw [cur]

theorem exec_jalr_bau (imm : BitVec 16) : exec (.jalr d a imm) s = .next (bauJump g [d, a] (getBG (s.bank g) a + imm.signExtend 32)
    (setBG d (BitVec.ofNat 32 (s.bank g).pc + 4)) s) := by
  show execJalr d a imm s = _
  unfold execJalr
  rw [cur]

theorem loadI_foreign {imm : BitVec 16} (foreign : ([d, a].any fun r => decide (16 ≤ r.toNat)) = true) (n : Nat) (sg : Bool) :
    loadI n sg d a imm s = endRun g 1 0 s := by
  unfold loadI
  rw [cur]
  exact bauMem_foreign foreign ..

theorem storeI_foreign {imm : BitVec 16} (foreign : ([d, a].any fun r => decide (16 ≤ r.toNat)) = true) (n : Nat) :
    storeI n d a imm s = endRun g 1 0 s := by
  unfold storeI
  rw [cur]
  exact bauMem_foreign foreign ..

/-- R83: a shared form that names a register above g15. -/
theorem exec_foreign (foreign : ((bauFields i).any fun r => decide (16 ≤ r.toNat)) = true) : exec i s = .next (endRun g 1 0 s) := by
  cases i with
  | add | sub | and | or | xor | andn | sll | srl | sra | ror | slt | sltu | min | max | minu | maxu | addSat | subSat | adduSat | subuSat
    | mul | mulh | mulhu | mulhsu | div | divu | rem | remu =>
    exact congrArg Host.Outcome.next ((alu2_bau cur ..).trans (bauOp_foreign foreign _))
  | clz | ctz | popc | sextb | sexth | bswap | addi | andi | ori | xori | slti | sltiu =>
    exact congrArg Host.Outcome.next ((alu1_bau cur ..).trans (bauOp_foreign foreign _))
  | slli | srli | srai | rori => exact congrArg Host.Outcome.next (shiftImm_foreign cur foreign ..)
  | lui d =>
    have named : ([d, 0].any fun r => decide (16 ≤ r.toNat)) = true := foreign
    exact congrArg Host.Outcome.next ((alu1_bau cur ..).trans (bauOp_foreign named _))
  | aupc => exact (exec_aupc_bau cur _).trans (congrArg _ (bauOp_foreign foreign _))
  | beq | bne | blt | bge | bltu | bgeu => exact congrArg Host.Outcome.next (branch_foreign cur foreign ..)
  | jal => exact (exec_jal_bau cur _).trans (congrArg _ (bauJump_foreign foreign ..))
  | jalr => exact (exec_jalr_bau cur _).trans (congrArg _ (bauJump_foreign foreign ..))
  | ldb | ldbu | ldh | ldhu | ldw => exact congrArg Host.Outcome.next (loadI_foreign cur foreign ..)
  | stb | sth | stw => exact congrArg Host.Outcome.next (storeI_foreign cur foreign _)
  | _ => cases foreign

/-- R283: a shift by an amount that a register of 32 bits does not have. -/
theorem exec_amountBeyond (beyond : bauAmount i = false) : exec i s = .next (endRun g 1 0 s) := by
  cases i with
  | slli | srli | srai | rori => exact congrArg Host.Outcome.next (shiftImm_beyond cur (of_decide_eq_false beyond) ..)
  | _ => cases beyond

/-! ### Core forms on a bank arithmetic unit (R83) -/

theorem fpOp_bau (m : BitVec 3) (f : Nat → Regs → Regs) : fpOp i m f s = endRun g 1 0 s := coreOnly_bau cur _

theorem axIssue_bau (x y f : R5) (chk : State → Ctx → Option (Nat × W64)) (upd : State → Ctx → ArrayRegs → ArrayRegs) :
    axIssue i x y f chk upd s = endRun g 1 0 s := coreOnly_bau cur _

theorem axPlain_bau (x y : R5) : axPlain i x y s = endRun g 1 0 s := axIssue_bau cur ..

theorem axeFmt_bau (x y z f : R5) : axeFmt i x y z f s = endRun g 1 0 s := by
  unfold axeFmt
  exact axIssue_bau cur ..

theorem axeCmp_bau (x y f : R5) : axeCmp i x y f s = endRun g 1 0 s := by
  unfold axeCmp
  exact axIssue_bau cur ..

theorem axeWidth_bau (x : R5) (src : List R5) : axeWidth i x src s = endRun g 1 0 s := axIssue_bau cur ..

/-- R283: a form of majors 0x00 to 0x1D that a bank arithmetic unit lacks. -/
theorem exec_coreForm (form : coreForm i = true) : exec i s = .next (endRun g 1 0 s) := by
  cases i with
  | addw | subw | sextw | mulw | divw | divuw | remw | remuw | ldwu | ldd | std =>
    exact congrArg Host.Outcome.next (coreOnly_bau cur _)
  | _ => cases form

end

/-! ### Majors (R80) -/

/-- R80 to R83: the unit that lacks an instruction, by its major. -/
inductive LackedBy (i : Instr) (major : Nat) : Prop
  | shared (low : major < 0x1E)
  | bau (low : major < 0x38) (ends : ∀ s g, s.cur = .bau g → exec i s = .next (endRun g 1 0 s))
  | core (high : 0x38 ≤ major) (traps : ∀ s c, s.cur = .hart c → exec i s = .next (illegal c i s))

section
variable {m : BitVec 6} {d a b k : R5} {fn : BitVec 6} {imm : BitVec 16} {j : BitVec 21} {t : BitVec 4} {o : BitVec 12}

theorem major_of_packX (word : some (packX m d a b k fn) = some w) : (fMaj w).toNat = m.toNat := (packX_eq_iff.1 (Option.some.inj word)).1
theorem major_of_packI (word : some (packI m d a imm) = some w) : (fMaj w).toNat = m.toNat := (packI_eq_iff.1 (Option.some.inj word)).1
theorem major_of_packJ (word : some (packJ m d j) = some w) : (fMaj w).toNat = m.toNat := (packJ_eq_iff.1 (Option.some.inj word)).1
theorem major_of_packT (word : some (packT m d a t o) = some w) : (fMaj w).toNat = m.toNat := (packT_eq_iff.1 (Option.some.inj word)).1
end

theorem lackedBy_of_encode (word : encode i = some w) : LackedBy i (fMaj w).toNat := by
  cases i with
  | add | sub | and | or | xor | andn | sll | srl | sra | ror | slt | sltu | min | max | minu | maxu | addw | subw | clz | ctz | popc | sextb
    | sexth | sextw | bswap | addSat | subSat | adduSat | subuSat | mul | mulh | mulhu | mulhsu | div | divu | rem | remu | mulw | divw
    | divuw | remw | remuw =>
    rw [major_of_packX word]
    exact .shared (by decide)
  | addi | andi | ori | xori | slti | sltiu | slli | srli | srai | rori | beq | bne | blt | bge | bltu | bgeu | jalr | ldb | ldbu | ldh | ldhu
    | ldw | ldwu | ldd | stb | sth | stw | std =>
    rw [major_of_packI word]
    exact .shared (by decide)
  | lui | aupc | jal =>
    rw [major_of_packJ word]
    exact .shared (by decide)
  | ldf | stf =>
    rw [major_of_packT word]
    exact .bau (by decide) fun s g cur => congrArg Host.Outcome.next (coreOnly_bau cur _)
  | csrr | csrs | csrc | csrw =>
    rw [major_of_packI word]
    exact .bau (by decide) fun s g cur => congrArg Host.Outcome.next (coreOnly_bau cur _)
  | lds | ldse | stfl | fefill | feempty | fest | lda | stl | amoAdd | amoAnd | amoOr | amoXor | amoMin | amoMax | amoMinu | amoMaxu
    | amoSwap | amoCas | amoFaddF32 | amoFaddF64 | fence | fenceAcq | fenceRel | barrive | bwait | barw | gbar | bmake | bfree | put | get
    | putm | getd | cwait | cread | cadd | rinit | rwf | rwe | rpub | rcon | dep | depx | sns4 | sns8 | snsl | mrd | tknum | tkwait
    | axsetv | axsets | axtt | axlive | axwait | bkload | bkrun | bkcopy | bkfence | bkerr | bkmeta | maddF32 | maddI32 | maddV4 | mfence
    | tspawn | texit | targ | tyield | ecall | ebreak | tret | wfi | icinv | tlbinv | asidset | protset | stopat =>
    rw [major_of_packX word]
    exact .bau (by decide) fun s g cur => congrArg Host.Outcome.next (coreOnly_bau cur _)
  | fadd | fsub | fmul | fdiv | fsqrt | fmin | fmax | fsgnj | fsgnjn | fsgnjx | feq | flt | fle | fclass | fcvtI64Fmt | fcvtI32Fmt
    | fcvtN32Fmt | fcvtFmtI64 | fcvtFmtI32 | fcvtFmtN32 | fcvtF32F64 | fcvtF64F32 | fmvfg | fmvgf | fmadd | fmsub | fnmadd | fnmsub =>
    rw [major_of_packX word]
    exact .bau (by decide) fun s g cur => congrArg Host.Outcome.next (fpOp_bau cur ..)
  | axget | axpass | axmatch | axfirst | axcount =>
    rw [major_of_packX word]
    exact .bau (by decide) fun s g cur => congrArg Host.Outcome.next (axPlain_bau cur ..)
  | axeAdd | axeSub | axeAddSat | axeSubSat | axeMin | axeMax | axeMul | axeFma =>
    rw [major_of_packX word]
    exact .bau (by decide) fun s g cur => congrArg Host.Outcome.next (axeFmt_bau cur ..)
  | axeCmpeq | axeCmplt =>
    rw [major_of_packX word]
    exact .bau (by decide) fun s g cur => congrArg Host.Outcome.next (axeCmp_bau cur ..)
  | axeAnd | axeOr | axeXor | axeNot | axeMov | axeSel | axeShl | axeShr | axeSra =>
    rw [major_of_packX word]
    exact .bau (by decide) fun s g cur => congrArg Host.Outcome.next (axeWidth_bau cur ..)
  | axeCvt | axmm | axgang | axmin | axmax | axsum | axtag | axld | axldf | axldg | axst =>
    rw [major_of_packX word]
    exact .bau (by decide) fun s g cur => congrArg Host.Outcome.next (axIssue_bau cur ..)
  | cld | cst | cstM | cldm | laneAdd | laneSub | laneMul | laneFma | laneMin | laneMax | rsum | splat | laneAnd | laneOr | laneXor | laneMov
    | lget | lput | lld | lst | bdone | bsig =>
    rw [major_of_packX word]
    exact .core (by decide) fun s c cur => congrArg Host.Outcome.next (bauOnly_hart cur ..)
  | _ => cases word

/-! ### Words that are no instruction (R81, R82) -/

theorem exec_undecoded_hart (cur : s.cur = .hart c) {e : DecodeError} (undecoded : decode w = .error e) :
    exec (.illegalInstruction w) s = .next (illegalWord c w s) := by
  show execIllegalInstruction w s = _
  unfold execIllegalInstruction
  rw [undecoded, cur]

theorem exec_undecoded_bau (cur : s.cur = .bau g) {e : DecodeError} (undecoded : decode w = .error e) :
    exec (.illegalInstruction w) s = .next (endRun g 1 0 s) := by
  show execIllegalInstruction w s = _
  unfold execIllegalInstruction
  rw [undecoded, cur]

/-! ### Privilege (R80, R142, R151, R153) -/

theorem csrIllegal_iff (h : Ctx) (n : Nat) (writes : Bool) : csrIllegal h n writes = true ↔ ¬csrLegal h.priv n writes := by
  unfold csrIllegal csrLegal csrPriv
  cases csrReadOnly n with
  | none => simp
  | some ro =>
    have refused : (∃ ro', some ro = some ro' ∧ n / 0x400 ≤ h.priv.code ∧ (writes = true → ro' = false)) ↔
        n / 0x400 ≤ h.priv.code ∧ (writes = true → ro = false) := by simp
    rw [refused, not_and_or, Bool.or_eq_true, decide_eq_true_iff, not_le]
    cases writes <;> cases ro <;> simp

/-- R142: a CSR instruction that is not legal. -/
theorem exec_csr_illegal {d : R5} {n : Nat} {f : W64 → Option W64} (cur : s.cur = .hart c) (form : csrForm (s.ctx c).regs i = some (d, n, f))
    (unlawful : ¬csrLegal (s.ctx c).priv n (f (csrRead s (s.ctx c) n)).isSome) : exec i s = .next (illegal c i s) := by
  have refused {x y : R5} {reads : Bool} {new : Option (W64 → W64 → W64 → W64)} (writes : (f (csrRead s (s.ctx c) n)).isSome = new.isSome) :
      csrOp i x y n reads new s = illegal c i s :=
    (coreOnly_hart cur _).trans (if_pos ((csrIllegal_iff ..).2 (writes ▸ unlawful)))
  cases i with
  | csrr | csrs | csrc | csrw =>
    cases form
    exact congrArg Host.Outcome.next (refused rfl)
  | _ => cases form

/-- R80: a privileged instruction in U. -/
theorem exec_needsS (cur : s.cur = .hart c) (form : needsS i = true) (user : (s.ctx c).priv = .u) : exec i s = .next (illegal c i s) := by
  cases i with
  | bmake | bfree | wfi | asidset => exact congrArg Host.Outcome.next ((coreOnly_hart cur _).trans (if_pos user))
  | tlbinv | protset => exact congrArg Host.Outcome.next ((coreOnly_hart cur _).trans (if_pos (.inl user)))
  | stopat => exact congrArg Host.Outcome.next ((coreOnly_hart cur _).trans (if_pos (by rw [user]; decide)))
  | tret => exact congrArg Host.Outcome.next ((coreOnly_hart cur _).trans (if_pos (by rw [user]; rfl)))
  | _ => cases form

end Sys2Proof.Claim

open Sys2Proof Sys2Proof.Machine Sys2Proof.Claim

theorem Sys2Proof.Claim.privilegeChecks : Claim.PrivilegeChecks := by
  unfold Claim.PrivilegeChecks
  intro s c i w cur word unlawful
  have refused : exec i s = .next (illegal c i s) := by
    obtain ⟨d, n, f, form, unlawful⟩ | ⟨form, user⟩ | ⟨⟨d, a, b, rfl⟩, below⟩ | ⟨a, b, m, rfl, mode⟩ | ⟨a, n, rfl, region⟩ := unlawful
    · exact exec_csr_illegal cur form unlawful
    · exact exec_needsS cur form user
    · exact congrArg Host.Outcome.next ((coreOnly_hart cur _).trans (if_pos below))
    · exact congrArg Host.Outcome.next ((coreOnly_hart cur _).trans (if_pos (.inr mode)))
    · exact congrArg Host.Outcome.next ((coreOnly_hart cur _).trans (if_pos (.inr region)))
  rw [refused, illegal_encoded word]
  rfl

theorem Sys2Proof.Claim.illegalByUnit : Claim.IllegalByUnit := by
  unfold Claim.IllegalByUnit
  refine ⟨fun s g i w cur word lacked => ?_, fun s c i w cur word high => ?_, fun s c w e cur undecoded => exec_undecoded_hart cur undecoded,
    fun s g w e cur undecoded => ⟨_, exec_undecoded_bau cur undecoded, runEnds_endRun g 1 0 s⟩⟩
  · refine ⟨_, ?_, runEnds_endRun g 1 0 s⟩
    obtain ⟨low, high⟩ | form | beyond | foreign := lacked
    · cases lackedBy_of_encode word with
      | shared below => omega
      | bau _ ends => exact ends s g cur
      | core above => omega
    · exact exec_coreForm cur form
    · exact exec_amountBeyond cur beyond
    · exact exec_foreign cur foreign
  · cases lackedBy_of_encode word with
    | shared below => omega
    | bau below => omega
    | core _ traps =>
      rw [traps s c cur, illegal_encoded word]
      rfl

/-- Settles O40: each instruction by the unit that lacks it, and each privilege check as the first test of its instruction. -/
theorem illegalInstructions : Obligations.IllegalInstructions := by
  unfold Obligations.IllegalInstructions
  exact ⟨Claim.privilegeChecks, Claim.illegalByUnit⟩

end

section
/-! SUPPORT. Integer forms and transfers of control on a bank arithmetic unit (R83, R104 to R106, R283). -/

namespace Sys2Proof.Claim
open Sys2Proof.Machine

variable {s : State} {g : Nat} {i : Instr} {d a b : R5} {v : W32}

/-! ### The PC after a form (R283) -/

@[simp] theorem setBG_pc (n : R5) (v : W32) (k : Bank) : (setBG n v k).pc = k.pc := by
  unfold setBG
  split <;> rfl

@[simp] theorem setBG_run (n : R5) (v : W32) (k : Bank) : (setBG n v k).run = k.run := by
  unfold setBG
  split <;> rfl

theorem bauRan_modBank (f : Bank → Bank) : BauRan g s (modBank g f s) (f (s.bank g)) where
  only := ⟨rfl, fun _ other => (modBank_bank ..).trans (if_neg other), fun _ => rfl⟩
  bank := (modBank_bank ..).trans (if_pos rfl)

theorem BauRan.trans {t u : State} {k k' : Bank} (first : BauRan g s t k) (second : BauRan g t u k') : BauRan g s u k' where
  only :=
    { device := by
        have device := second.only.device
        rw [← first.only.device, ← device]
      banks := fun x other => (second.only.banks x other).trans (first.only.banks x other)
      memory := fun x => (second.only.memory x).trans (first.only.memory x) }
  bank := second.bank

/-- R283: an instruction of a bank arithmetic unit comes down to `bauOp` with registers below 16, and writes `v` to g[d]. -/
def Computes (i : Instr) (s : State) (g : Nat) (d : R5) (v : W32) : Prop :=
  ∃ rs f, exec i s = .next (bauOp g rs f s) ∧ (rs.all fun r => decide (r.toNat < 16)) = true ∧ f (s.bank g) = setBG d v (s.bank g)

theorem bauOp_own {rs : List R5} (own : (rs.all fun r => decide (r.toNat < 16)) = true) (f : Bank → Bank) :
    bauOp g rs f s = bauNext g (modBank g f s) := by
  refine if_neg ?_
  simpa using own

/-- R283: sequential flow. -/
theorem Computes.next (computes : Computes i s g d v) (notLast : (s.bank g).pc ≠ 0xFFC) :
    ∃ t, exec i s = .next t ∧ BauRan g s t { setBG d v (s.bank g) with pc := (s.bank g).pc + 4 } := by
  obtain ⟨rs, f, run, own, written⟩ := computes
  have bank : (modBank g f s).bank g = setBG d v (s.bank g) := (bauRan_modBank f).bank.trans written
  refine ⟨_, run, ?_⟩
  rw [bauOp_own own, bauNext, bank, setBG_pc, if_neg notLast]
  have ran := (bauRan_modBank f).trans (bauRan_modBank (s := modBank g f s) fun b => { b with pc := b.pc + 4 })
  rwa [bank, setBG_pc] at ran

/-- R283: the last word of code memory. -/
theorem Computes.last (computes : Computes i s g d v) (last : (s.bank g).pc = 0xFFC) :
    ∃ t, exec i s = .next t ∧ BauRan g s t { setBG d v (s.bank g) with
      run := (s.bank g).run.map fun r => { r with ended := some (2, 0, 0xFFC) } } := by
  obtain ⟨rs, f, run, own, written⟩ := computes
  have bank : (modBank g f s).bank g = setBG d v (s.bank g) := (bauRan_modBank f).bank.trans written
  refine ⟨_, run, ?_⟩
  rw [bauOp_own own, bauNext, bank, setBG_pc, if_pos last, endRun]
  have ran := (bauRan_modBank f).trans (bauRan_modBank (s := modBank g f s) fun b =>
    { b with run := b.run.map fun r => { r with ended := some (2, 0, b.pc) } })
  simpa only [bank, setBG_pc, setBG_run, last] using ran

/-- R83: a target in code memory is the next PC; any other ends the run. -/
theorem bauJump_own {rs : List R5} (own : (rs.all fun r => decide (r.toNat < 16)) = true) {target : W32} {f : Bank → Bank} {k : Bank}
    (written : f (s.bank g) = k) : if target.toNat ≤ 0xFFC ∧ target.toNat % 4 = 0 then
      BauRan g s (bauJump g rs target f s) { k with pc := target.toNat } else RunEnds g 2 0 s (bauJump g rs target f s) := by
  have kept : ¬(rs.any fun r => decide (16 ≤ r.toNat)) = true := by simpa using own
  unfold bauJump
  rw [if_neg kept]
  split
  · next inside =>
    rw [if_neg (by omega), ← written]
    exact bauRan_modBank _
  · next outside =>
    rw [if_pos (by omega)]
    exact runEnds_endRun ..

/-! ### Results (R97 to R103) -/

section
variable (cur : s.cur = .bau g)
include cur

theorem computes_alu2 {f : W64 → W64 → W64} {f32 : W32 → W32 → W32} (run : exec i s = .next (alu2 f f32 d a b s))
    (own : ([d, a, b].all fun r => decide (r.toNat < 16)) = true) (value : f32 (getBG (s.bank g) a) (getBG (s.bank g) b) = v) :
    Computes i s g d v :=
  ⟨_, _, run.trans (congrArg _ (alu2_bau cur f f32)), own, congrArg (setBG d · (s.bank g)) value⟩

theorem computes_alu1 {f : W64 → W64} {f32 : W32 → W32} (run : exec i s = .next (alu1 f f32 d a s))
    (own : ([d, a].all fun r => decide (r.toNat < 16)) = true) (value : f32 (getBG (s.bank g) a) = v) : Computes i s g d v :=
  ⟨_, _, run.trans (congrArg _ (alu1_bau cur f f32)), own, congrArg (setBG d · (s.bank g)) value⟩

theorem computes_shiftImm {f : W64 → Nat → W64} {f32 : W32 → Nat → W32} {n : BitVec 6} (run : exec i s = .next (shiftImm f f32 d a n s))
    (own : ([d, a].all fun r => decide (r.toNat < 16)) = true) (amount : decide (n.toNat < 32) = true)
    (value : f32 (getBG (s.bank g) a) n.toNat = v) : Computes i s g d v :=
  ⟨_, _, run.trans (congrArg _ (shiftImm_bau cur (of_decide_eq_true amount) f f32)), own, congrArg (setBG d · (s.bank g)) value⟩

theorem computes_aluResult (own : ((bauFields i).all fun r => decide (r.toNat < 16)) = true)
    (result : aluResult 32 (getBG (s.bank g)) (getBG (s.bank g)) i = some (d, v)) : Computes i s g d v := by
  cases i with
  | add => cases result; exact computes_alu2 cur rfl own (add_eq_pat ..)
  | sub => cases result; exact computes_alu2 cur rfl own (sub_eq_pat ..)
  | and | or | xor | andn => cases result; exact computes_alu2 cur rfl own rfl
  | sll => cases result; exact computes_alu2 cur rfl own (shiftLeft_eq_ofNat ..)
  | srl => cases result; exact computes_alu2 cur rfl own (ushiftRight_eq_ofNat ..)
  | sra => cases result; exact computes_alu2 cur rfl own (sshiftRight_eq_pat ..)
  | ror => cases result; exact computes_alu2 cur rfl own (ror_eq_rotateRight _ (Nat.mod_lt _ (by decide)))
  | slt | sltu => cases result; exact computes_alu2 cur rfl own (flag_eq_truth _)
  | min => cases result; exact computes_alu2 cur rfl own (ite_eq_min ..)
  | max => cases result; exact computes_alu2 cur rfl own (ite_eq_max ..)
  | minu => cases result; exact computes_alu2 cur rfl own (ite_eq_minu ..)
  | maxu => cases result; exact computes_alu2 cur rfl own (ite_eq_maxu ..)
  | addSat | subSat => cases result; exact computes_alu2 cur rfl own (satS_eq_pat _)
  | adduSat | subuSat => cases result; exact computes_alu2 cur rfl own (satU_eq_pat _)
  | clz => cases result; exact computes_alu1 cur rfl own (clz_eq_leadingZeros _)
  | ctz => cases result; exact computes_alu1 cur rfl own (ctz_eq_trailingZeros _)
  | popc => cases result; exact computes_alu1 cur rfl own (popc_eq_ones _)
  | sextb | sexth => cases result; exact computes_alu1 cur rfl own (sextLow_eq_signExtend ..)
  | bswap => cases result; exact computes_alu1 cur rfl own (bswap_eq_swapped _)
  | _ => cases result

theorem computes_immResult (own : ((bauFields i).all fun r => decide (r.toNat < 16)) = true) (amount : bauAmount i = true)
    (result : immResult 32 (BitVec.ofNat 32 (s.bank g).pc) (getBG (s.bank g)) i = some (d, v)) : Computes i s g d v := by
  cases i with
  | addi => cases result; exact computes_alu1 cur rfl own (add_pat ..)
  | andi => cases result; exact computes_alu1 cur rfl own (congrArg _ (zeroExtend_eq_ofNat _))
  | ori => cases result; exact computes_alu1 cur rfl own (congrArg _ (zeroExtend_eq_ofNat _))
  | xori => cases result; exact computes_alu1 cur rfl own (congrArg _ (zeroExtend_eq_ofNat _))
  | slti d a imm =>
    cases result
    refine computes_alu1 cur rfl own ?_
    rw [BitVec.toInt_signExtend_of_le (by decide)]
    exact flag_eq_truth _
  | sltiu => cases result; exact computes_alu1 cur rfl own (flag_eq_truth _)
  | slli => cases result; exact computes_shiftImm cur rfl own amount (shiftLeft_eq_ofNat ..)
  | srli => cases result; exact computes_shiftImm cur rfl own amount (ushiftRight_eq_ofNat ..)
  | srai => cases result; exact computes_shiftImm cur rfl own amount (sshiftRight_eq_pat ..)
  | rori => cases result; exact computes_shiftImm cur rfl own amount (ror_eq_rotateRight _ (of_decide_eq_true amount))
  | lui d imm =>
    cases result
    have named : ([d, 0].all fun r => decide (r.toNat < 16)) = true := by simpa [bauFields] using own
    exact computes_alu1 cur rfl named (pat_shiftLeft ..)
  | aupc d imm =>
    cases result
    refine ⟨_, _, exec_aupc_bau cur imm, own, congrArg (setBG d · (s.bank g)) ?_⟩
    rw [signExtend_eq_pat, pat_shiftLeft, add_pat]
  | _ => cases result

theorem computes_mulResult (own : ((bauFields i).all fun r => decide (r.toNat < 16)) = true)
    (result : mulResult 32 (getBG (s.bank g)) i = some (d, v)) : Computes i s g d v := by
  cases i with
  | mul => cases result; exact computes_alu2 cur rfl own (mul_eq_pat ..)
  | mulh | mulhsu => cases result; exact computes_alu2 cur rfl own rfl
  | mulhu => cases result; exact computes_alu2 cur rfl own (mulHigh_natCast ..)
  | div => cases result; exact computes_alu2 cur rfl own (divS_eq_pat _ _ (by decide))
  | divu => cases result; exact computes_alu2 cur rfl own (divU_eq_ofNat ..)
  | rem => cases result; exact computes_alu2 cur rfl own (remS_eq_pat ..)
  | remu => cases result; exact computes_alu2 cur rfl own (remU_eq_ofNat ..)
  | _ => cases result

theorem computes_integer (own : ((bauFields i).all fun r => decide (r.toNat < 16)) = true) (amount : bauAmount i = true)
    (result : (aluResult 32 (getBG (s.bank g)) (getBG (s.bank g)) i <|>
      immResult 32 (BitVec.ofNat 32 (s.bank g).pc) (getBG (s.bank g)) i <|> mulResult 32 (getBG (s.bank g)) i) = some (d, v)) :
    Computes i s g d v := by
  simp only [Option.orElse_eq_orElse, Option.orElse_eq_or, Option.or_eq_some_iff] at result
  obtain result | ⟨-, result | ⟨-, result⟩⟩ := result
  · exact computes_aluResult cur own result
  · exact computes_immResult cur own amount result
  · exact computes_mulResult cur own result

end

/-! ### Transfers of control (R104 to R106) -/

section
variable {taken : Bool} {o : BitVec 16}

/-- R104: the branch of an instruction, on a bank arithmetic unit. -/
theorem exec_branchOf (form : branchOf 32 (getBG (s.bank g)) i = some (taken, o)) : ∃ t t32 a b,
    exec i s = .next (branch t t32 a b o s) ∧ bauFields i = [a, b] ∧ t32 (getBG (s.bank g) a) (getBG (s.bank g) b) = taken := by
  cases i with
  | beq | blt | bge | bltu | bgeu =>
    cases form
    exact ⟨_, _, _, _, rfl, rfl, rfl⟩
  | bne =>
    cases form
    exact ⟨_, _, _, _, rfl, rfl, by simp [bne, beq_eq_decide]⟩
  | _ => cases form

end

/-- The target of a branch or of JAL. -/
theorem add_offset_eq_pat {w n : Nat} (x : BitVec w) (o : BitVec n) : x + (o.signExtend w <<< 2) = pat w (x.toInt + 4 * o.toInt) := by
  rw [signExtend_eq_pat, pat_shiftLeft, add_pat, Int.mul_comm]
  rfl

/-- R104 to R106: a transfer is JAL, JALR or a taken branch. -/
theorem transferOf_cases {w : Nat} {pc target : BitVec w} {x : R5 → BitVec w} (transfer : transferOf w pc x i = some (d, target)) :
    (∃ o, i = .jal d o ∧ target = pat w (pc.toInt + 4 * o.toInt)) ∨
    (∃ a imm, i = .jalr d a imm ∧ target = pat w ((x a).toInt + imm.toInt)) ∨
    ∃ o, branchOf w x i = some (true, o) ∧ d = 0 ∧ target = pat w (pc.toInt + 4 * o.toInt) := by
  unfold transferOf at transfer
  split at transfer
  · cases transfer
    exact .inl ⟨_, rfl, rfl⟩
  · cases transfer
    exact .inr (.inl ⟨_, _, rfl, rfl⟩)
  · split at transfer
    · next o taken =>
      cases transfer
      exact .inr (.inr ⟨o, taken, rfl, rfl⟩)
    · cases transfer

/-- R104 to R106, R283: a transfer comes down to `bauJump` with registers below 16. -/
theorem exec_transferOf {target : W32} (cur : s.cur = .bau g) (own : ((bauFields i).all fun r => decide (r.toNat < 16)) = true)
    (transfer : transferOf 32 (BitVec.ofNat 32 (s.bank g).pc) (getBG (s.bank g)) i = some (d, target)) : ∃ rs f,
    exec i s = .next (bauJump g rs target f s) ∧ (rs.all fun r => decide (r.toNat < 16)) = true ∧
      f (s.bank g) = setBG d (BitVec.ofNat 32 (s.bank g).pc + 4) (s.bank g) := by
  obtain ⟨o, rfl, rfl⟩ | ⟨a, imm, rfl, rfl⟩ | ⟨o, form, rfl, rfl⟩ := transferOf_cases transfer
  · rw [← add_offset_eq_pat]
    exact ⟨_, _, exec_jal_bau cur o, own, rfl⟩
  · rw [← add_pat]
    exact ⟨_, _, exec_jalr_bau cur imm, own, rfl⟩
  · obtain ⟨t, t32, a, b, run, fields, taken⟩ := exec_branchOf form
    rw [← add_offset_eq_pat]
    exact ⟨_, _, run.trans (congrArg _ (branch_taken_bau cur taken)), fields ▸ own, rfl⟩

end Sys2Proof.Claim

open Sys2Proof Sys2Proof.Machine Sys2Proof.Claim

theorem Sys2Proof.Claim.bauIntegerResults : Claim.BauIntegerResults := by
  unfold Claim.BauIntegerResults
  intro s g i d v issues own amount result
  exact (computes_integer issues.cur own amount result).next issues.notLast

theorem Sys2Proof.Claim.bauLastAddressEnds : Claim.BauLastAddressEnds := by
  unfold Claim.BauLastAddressEnds
  intro s g i d v cur last own amount result
  exact (computes_integer cur own amount result).last last

theorem Sys2Proof.Claim.bauControlTransfers : Claim.BauControlTransfers := by
  unfold Claim.BauControlTransfers
  refine ⟨fun s g i d target cur own transfer => ?_, fun s g i o issues own form => ?_⟩
  · obtain ⟨rs, f, run, below, written⟩ := exec_transferOf cur own transfer
    exact ⟨_, run, bauJump_own below written⟩
  · obtain ⟨t, t32, a, b, run, fields, untaken⟩ := exec_branchOf form
    have nothing : Computes i s g 0 0 := ⟨_, _, run.trans (congrArg _ (branch_untaken_bau issues.cur untaken)), fields ▸ own, rfl⟩
    exact nothing.next issues.notLast

/-- Settles O28: each form comes down to `bauOp` or `bauJump`, and its value to the rule's function of the same operands. -/
theorem bauIntegerForms : Obligations.BauIntegerForms := by
  unfold Obligations.BauIntegerForms
  exact ⟨Claim.bauIntegerResults, Claim.bauLastAddressEnds, Claim.bauControlTransfers⟩

end

section
/-! SUPPORT. Integer forms and transfers of control at a hart (R96 to R107). -/

namespace Sys2Proof.Claim
open Sys2Proof.Machine

variable {s : State} {c : Nat} {i : Instr} {d a b : R5} {v : W64}

/-! ### Forms that come down to `scalar` (R96, R107) -/

/-- R96: an instruction comes down to `scalar` at hart `c` and writes `v` to g[d]. -/
def ScalarWrites (i : Instr) (s : State) (c : Nat) (d : R5) (v : W64) : Prop :=
  ∃ f, exec i s = .next (scalar c f s) ∧ f (s.ctx c).regs = setG (s.ctx c).regs d v

/-- R96: it goes on in its chunk, and changes nothing else. -/
theorem ScalarWrites.inChunk (writes : ScalarWrites i s c d v) (issues : HartIssues s c) : ∃ t, exec i s = .next t ∧
    InChunk c s t (nextPc (s.ctx c).regs (setG (s.ctx c).regs d v)) (heldStores (s.ctx c)) := by
  obtain ⟨f, run, written⟩ := writes
  exact ⟨_, run, written ▸ inChunk_scalar issues f⟩

/-- R107: at the last instruction address it traps before any effect. -/
theorem ScalarWrites.last (writes : ScalarWrites i s c d v) (last : (s.ctx c).regs.pc = 0x01FFFFFFFFFFFFFC) :
    exec i s = .next (exception c 2 0x0200000000000000 s) := by
  obtain ⟨f, run, -⟩ := writes
  exact run.trans (congrArg _ (if_pos last))

section
variable (cur : s.cur = .hart c)
include cur

theorem alu2_hart (f : W64 → W64 → W64) (f32 : W32 → W32 → W32) :
    alu2 f f32 d a b s = scalar c (fun r => setG r d (f (getG r a) (getG r b))) s := by
  unfold alu2
  rw [cur]

theorem alu1_hart (f : W64 → W64) (f32 : W32 → W32) : alu1 f f32 d a s = scalar c (fun r => setG r d (f (getG r a))) s := by
  unfold alu1
  rw [cur]

theorem shiftImm_hart {n : BitVec 6} (f : W64 → Nat → W64) (f32 : W32 → Nat → W32) :
    shiftImm f f32 d a n s = scalar c (fun r => setG r d (f (getG r a) n.toNat)) s := by
  unfold shiftImm
  rw [cur]
  exact alu1_hart cur _ _

theorem scalarWrites_alu2 {f : W64 → W64 → W64} {f32 : W32 → W32 → W32} (run : exec i s = .next (alu2 f f32 d a b s))
    (value : f (getG (s.ctx c).regs a) (getG (s.ctx c).regs b) = v) : ScalarWrites i s c d v :=
  ⟨_, run.trans (congrArg _ (alu2_hart cur f f32)), congrArg (setG _ d) value⟩

theorem scalarWrites_alu1 {f : W64 → W64} {f32 : W32 → W32} (run : exec i s = .next (alu1 f f32 d a s))
    (value : f (getG (s.ctx c).regs a) = v) : ScalarWrites i s c d v :=
  ⟨_, run.trans (congrArg _ (alu1_hart cur f f32)), congrArg (setG _ d) value⟩

theorem scalarWrites_aluCore {f : W64 → W64 → W64} (run : exec i s = .next (aluCore f d a b s))
    (value : f (getG (s.ctx c).regs a) (getG (s.ctx c).regs b) = v) : ScalarWrites i s c d v :=
  ⟨_, run.trans (congrArg _ (coreOnly_hart cur _)), congrArg (setG _ d) value⟩

theorem scalarWrites_shiftImm {f : W64 → Nat → W64} {f32 : W32 → Nat → W32} {n : BitVec 6}
    (run : exec i s = .next (shiftImm f f32 d a n s)) (value : f (getG (s.ctx c).regs a) n.toNat = v) : ScalarWrites i s c d v :=
  ⟨_, run.trans (congrArg _ (shiftImm_hart cur f f32)), congrArg (setG _ d) value⟩

/-! ### Results (R97 to R103) -/

/-- R97. -/
theorem scalarWrites_aluResult (result : aluResult 64 (getG (s.ctx c).regs) (getG (s.ctx c).regs) i = some (d, v)) :
    ScalarWrites i s c d v := by
  cases i with
  | add => cases result; exact scalarWrites_alu2 cur rfl (add_eq_pat ..)
  | sub => cases result; exact scalarWrites_alu2 cur rfl (sub_eq_pat ..)
  | and | or | xor | andn => cases result; exact scalarWrites_alu2 cur rfl rfl
  | sll => cases result; exact scalarWrites_alu2 cur rfl (shiftLeft_eq_ofNat ..)
  | srl => cases result; exact scalarWrites_alu2 cur rfl (ushiftRight_eq_ofNat ..)
  | sra => cases result; exact scalarWrites_alu2 cur rfl (sshiftRight_eq_pat ..)
  | ror => cases result; exact scalarWrites_alu2 cur rfl (ror_eq_rotateRight _ (Nat.mod_lt _ (by decide)))
  | slt | sltu => cases result; exact scalarWrites_alu2 cur rfl (flag_eq_truth _)
  | min => cases result; exact scalarWrites_alu2 cur rfl (ite_eq_min ..)
  | max => cases result; exact scalarWrites_alu2 cur rfl (ite_eq_max ..)
  | minu => cases result; exact scalarWrites_alu2 cur rfl (ite_eq_minu ..)
  | maxu => cases result; exact scalarWrites_alu2 cur rfl (ite_eq_maxu ..)
  | addSat | subSat => cases result; exact scalarWrites_alu2 cur rfl (satS_eq_pat _)
  | adduSat | subuSat => cases result; exact scalarWrites_alu2 cur rfl (satU_eq_pat _)
  | clz => cases result; exact scalarWrites_alu1 cur rfl (clz_eq_leadingZeros _)
  | ctz => cases result; exact scalarWrites_alu1 cur rfl (ctz_eq_trailingZeros _)
  | popc => cases result; exact scalarWrites_alu1 cur rfl (popc_eq_ones _)
  | sextb | sexth => cases result; exact scalarWrites_alu1 cur rfl (sextLow_eq_signExtend ..)
  | bswap => cases result; exact scalarWrites_alu1 cur rfl (bswap_eq_swapped _)
  | _ => cases result

omit cur in
theorem truncate_sub (x y : W64) : (x - y).truncate 32 = x.truncate 32 - y.truncate 32 := by
  bv_omega

/-- R97: the forms that only a core has work on the low halves. -/
theorem scalarWrites_wordResult (result : wordResult (getG (s.ctx c).regs) i = some (d, v)) : ScalarWrites i s c d v := by
  cases i with
  | addw =>
    cases result
    exact scalarWrites_aluCore cur rfl (congrArg (BitVec.signExtend 64) (BitVec.setWidth_add _ _ (by decide)).symm)
  | subw =>
    cases result
    exact scalarWrites_aluCore cur rfl (congrArg (BitVec.signExtend 64) (truncate_sub ..).symm)
  | sextw => cases result; exact scalarWrites_aluCore cur rfl (sextLow_eq_signExtend ..)
  | _ => cases result

/-- R99 to R101. -/
theorem scalarWrites_immResult (result : immResult 64 (s.ctx c).regs.pc (getG (s.ctx c).regs) i = some (d, v)) :
    ScalarWrites i s c d v := by
  cases i with
  | addi => cases result; exact scalarWrites_alu1 cur rfl (add_pat ..)
  | andi => cases result; exact scalarWrites_alu1 cur rfl (congrArg _ (zeroExtend_eq_ofNat _))
  | ori => cases result; exact scalarWrites_alu1 cur rfl (congrArg _ (zeroExtend_eq_ofNat _))
  | xori => cases result; exact scalarWrites_alu1 cur rfl (congrArg _ (zeroExtend_eq_ofNat _))
  | slti =>
    cases result
    refine scalarWrites_alu1 cur rfl ?_
    rw [BitVec.toInt_signExtend_of_le (by decide)]
    exact flag_eq_truth _
  | sltiu => cases result; exact scalarWrites_alu1 cur rfl (flag_eq_truth _)
  | slli => cases result; exact scalarWrites_shiftImm cur rfl (shiftLeft_eq_ofNat ..)
  | srli => cases result; exact scalarWrites_shiftImm cur rfl (ushiftRight_eq_ofNat ..)
  | srai => cases result; exact scalarWrites_shiftImm cur rfl (sshiftRight_eq_pat ..)
  | rori d a n => cases result; exact scalarWrites_shiftImm cur rfl (ror_eq_rotateRight _ n.isLt)
  | lui => cases result; exact scalarWrites_alu1 cur rfl (pat_shiftLeft ..)
  | aupc d imm =>
    cases result
    refine ⟨fun r => setG r d (r.pc + (imm.signExtend 64 <<< 16)), ?_, congrArg (setG _ d) ?_⟩
    · show execAupc d imm s = _
      unfold execAupc
      rw [cur]
    · rw [signExtend_eq_pat, pat_shiftLeft, add_pat]
  | _ => cases result

/-- R102, R103. -/
theorem scalarWrites_mulResult (result : mulResult 64 (getG (s.ctx c).regs) i = some (d, v)) : ScalarWrites i s c d v := by
  cases i with
  | mul => cases result; exact scalarWrites_alu2 cur rfl (mul_eq_pat ..)
  | mulh | mulhsu => cases result; exact scalarWrites_alu2 cur rfl rfl
  | mulhu => cases result; exact scalarWrites_alu2 cur rfl (mulHigh_natCast ..)
  | div => cases result; exact scalarWrites_alu2 cur rfl (divS_eq_pat _ _ (by decide))
  | divu => cases result; exact scalarWrites_alu2 cur rfl (divU_eq_ofNat ..)
  | rem => cases result; exact scalarWrites_alu2 cur rfl (remS_eq_pat ..)
  | remu => cases result; exact scalarWrites_alu2 cur rfl (remU_eq_ofNat ..)
  | _ => cases result

/-- R102, R103: the W forms. -/
theorem scalarWrites_mulWordResult (result : mulWordResult (getG (s.ctx c).regs) i = some (d, v)) : ScalarWrites i s c d v := by
  cases i with
  | mulw => cases result; exact scalarWrites_aluCore cur rfl (congrArg (BitVec.signExtend 64) (mul_eq_pat ..))
  | divw => cases result; exact scalarWrites_aluCore cur rfl (congrArg (BitVec.signExtend 64) (divS_eq_pat _ _ (by decide)))
  | divuw => cases result; exact scalarWrites_aluCore cur rfl (congrArg (BitVec.signExtend 64) (divU_eq_ofNat ..))
  | remw => cases result; exact scalarWrites_aluCore cur rfl (congrArg (BitVec.signExtend 64) (remS_eq_pat ..))
  | remuw => cases result; exact scalarWrites_aluCore cur rfl (congrArg (BitVec.signExtend 64) (remU_eq_ofNat ..))
  | _ => cases result

/-- R96 to R103: every integer form that has a result writes it. -/
theorem scalarWrites_integer (result : (aluResult 64 (getG (s.ctx c).regs) (getG (s.ctx c).regs) i <|> wordResult (getG (s.ctx c).regs) i <|>
    immResult 64 (s.ctx c).regs.pc (getG (s.ctx c).regs) i <|> mulResult 64 (getG (s.ctx c).regs) i <|>
    mulWordResult (getG (s.ctx c).regs) i) = some (d, v)) : ScalarWrites i s c d v := by
  simp only [Option.orElse_eq_orElse, Option.orElse_eq_or, Option.or_eq_some_iff] at result
  obtain result | ⟨-, result | ⟨-, result | ⟨-, result | ⟨-, result⟩⟩⟩⟩ := result
  · exact scalarWrites_aluResult cur result
  · exact scalarWrites_wordResult cur result
  · exact scalarWrites_immResult cur result
  · exact scalarWrites_mulResult cur result
  · exact scalarWrites_mulWordResult cur result

end

/-! ### Transfers of control (R104 to R106) -/

/-- R104: the branch of an instruction, at a hart. -/
theorem exec_branchOf_hart {taken : Bool} {o : BitVec 16} (form : branchOf 64 (getG (s.ctx c).regs) i = some (taken, o)) :
    ∃ t t32 a b, exec i s = .next (branch t t32 a b o s) ∧ t (getG (s.ctx c).regs a) (getG (s.ctx c).regs b) = taken := by
  cases i with
  | beq | blt | bge | bltu | bgeu =>
    cases form
    exact ⟨_, _, _, _, rfl, rfl⟩
  | bne =>
    cases form
    exact ⟨_, _, _, _, rfl, by simp [bne, beq_eq_decide]⟩
  | _ => cases form

section
variable (cur : s.cur = .hart c)
include cur

/-- R104: an untaken branch. -/
theorem scalarWrites_untaken {o : BitVec 16} (form : branchOf 64 (getG (s.ctx c).regs) i = some (false, o)) : ScalarWrites i s c 0 0 := by
  obtain ⟨t, t32, a, b, run, untaken⟩ := exec_branchOf_hart form
  refine ⟨id, run.trans (congrArg _ ?_), rfl⟩
  unfold branch
  rw [cur]
  exact if_neg (by rw [untaken]; decide)

/-- R104 to R106: which targets a transfer does not go to. -/
def badTarget (i : Instr) (target : W64) : Bool :=
  decide (bits target 57 7 ≠ 0) || (match i with | .jalr .. => decide (bits target 0 2 ≠ 0) | _ => false)

/-- R104 to R106: a transfer comes down to `jump`. -/
theorem exec_transferOf_hart {target : W64} (transfer : transferOf 64 (s.ctx c).regs.pc (getG (s.ctx c).regs) i = some (d, target)) :
    ∃ f, exec i s = .next (jump c target (badTarget i target) f s) ∧
      f (s.ctx c).regs = setG (s.ctx c).regs d ((s.ctx c).regs.pc + 4) := by
  obtain ⟨o, rfl, rfl⟩ | ⟨a, imm, rfl, rfl⟩ | ⟨o, form, rfl, rfl⟩ := transferOf_cases transfer
  · rw [← add_offset_eq_pat]
    refine ⟨fun r => setG r d ((s.ctx c).regs.pc + 4), ?_, rfl⟩
    show execJal d o s = _
    unfold execJal
    rw [cur]
    simp [badTarget]
  · rw [← add_pat]
    refine ⟨fun r => setG r d ((s.ctx c).regs.pc + 4), ?_, rfl⟩
    show execJalr d a imm s = _
    unfold execJalr
    rw [cur]
    rfl
  · obtain ⟨t, t32, a, b, run, taken⟩ := exec_branchOf_hart form
    rw [← add_offset_eq_pat]
    refine ⟨id, run.trans (congrArg _ ?_), rfl⟩
    unfold branch
    rw [cur]
    refine (if_pos taken).trans ?_
    cases i with
    | jalr => cases form
    | _ => simp [badTarget]

end

theorem bits_low_eq_mod (x : W64) : bits x 0 2 = x.toNat % 4 := by
  rw [bits, BitVec.extractLsb'_toNat, Nat.shiftRight_zero]

theorem badTarget_eq_false_iff {target : W64} : badTarget i target = false ↔
    virtual target = true ∧ ((∃ x y z, i = .jalr x y z) → target.toNat % 4 = 0) := by
  unfold badTarget virtual
  rw [Bool.or_eq_false_iff, decide_eq_false_iff_not, not_not, bits_high_eq_zero, decide_eq_true_iff]
  refine and_congr_right fun _ => ?_
  cases i with
  | jalr => simp [bits_low_eq_mod]
  | _ => simp

/-- R104 to R106: a transfer to a legal target runs in the hart's chunk. -/
theorem inChunk_jump (armed : (s.ctx c).armed = none) (solo : (s.ctx c).solo = false) (target : W64) {f : Regs → Regs}
    (written : f (s.ctx c).regs = setG (s.ctx c).regs d ((s.ctx c).regs.pc + 4)) :
    InChunk c s (jump c target false f s) { setG (s.ctx c).regs d ((s.ctx c).regs.pc + 4) with pc := target } (heldStores (s.ctx c)) := by
  rw [jump_eq armed solo, ← written]
  exact {
    only := onlyHart_modCtx ..
    regs := by rw [modCtx_self]; rfl
    rest := by rw [modCtx_self]; rfl
    chunk := by
      rw [modCtx_self]
      exact ⟨_, rfl, rfl, rfl, rfl⟩ }

end Sys2Proof.Claim
end

section
open Sys2Proof Sys2Proof.Machine Sys2Proof.Claim

theorem Sys2Proof.Claim.integerAluResults : Claim.IntegerAluResults := by
  unfold Claim.IntegerAluResults
  intro s c i d v issues result
  simp only [Option.orElse_eq_orElse, Option.orElse_eq_or, Option.or_eq_some_iff] at result
  obtain result | ⟨-, result⟩ := result
  · exact (scalarWrites_aluResult issues.cur result).inChunk issues
  · exact (scalarWrites_wordResult issues.cur result).inChunk issues

theorem Sys2Proof.Claim.integerImmediateResults : Claim.IntegerImmediateResults := by
  unfold Claim.IntegerImmediateResults
  intro s c i d v issues result
  exact (scalarWrites_immResult issues.cur result).inChunk issues

theorem Sys2Proof.Claim.multiplyDivideResults : Claim.MultiplyDivideResults := by
  unfold Claim.MultiplyDivideResults
  intro s c i d v issues result
  simp only [Option.orElse_eq_orElse, Option.orElse_eq_or, Option.or_eq_some_iff] at result
  obtain result | ⟨-, result⟩ := result
  · exact (scalarWrites_mulResult issues.cur result).inChunk issues
  · exact (scalarWrites_mulWordResult issues.cur result).inChunk issues

/-- Settles O26: each form comes down to `scalar`, and its value to the rule's function of the same operands. -/
theorem integerResults : Obligations.IntegerResults := by
  unfold Obligations.IntegerResults
  exact ⟨Claim.integerAluResults, Claim.integerImmediateResults, Claim.multiplyDivideResults⟩

/-- Settles O23: LUI and AUPC are two of the immediate forms, their value a shift by 16. -/
theorem luiAndAupc : Obligations.LuiAndAupc := by
  unfold Obligations.LuiAndAupc
  have scaled (imm : BitVec 21) : pat 64 (imm.toInt * 2 ^ 16) = imm.signExtend 64 * 0x10000 := by
    rw [← pat_shiftLeft, ← signExtend_eq_pat, BitVec.shiftLeft_eq_mul_twoPow]
    rfl
  refine ⟨fun d imm => ⟨rfl, rfl⟩, fun s c d imm issues => ⟨?_, ?_⟩, rfl, rfl⟩
  · rw [← scaled]
    exact (scalarWrites_immResult issues.cur rfl).inChunk issues
  · rw [← scaled, add_pat]
    exact (scalarWrites_immResult issues.cur rfl).inChunk issues

theorem Sys2Proof.Claim.controlTransfers : Claim.ControlTransfers := by
  unfold Claim.ControlTransfers
  refine ⟨fun s c i d target cur armed solo transfer inside aligned => ?_, fun s c i o issues form => ?_⟩
  · obtain ⟨f, run, written⟩ := exec_transferOf_hart cur transfer
    rw [badTarget_eq_false_iff.2 ⟨inside, aligned⟩] at run
    exact ⟨_, run, inChunk_jump armed solo target written⟩
  · exact (scalarWrites_untaken issues.cur form).inChunk issues

theorem Sys2Proof.Claim.controlTargetTraps : Claim.ControlTargetTraps := by
  unfold Claim.ControlTargetTraps
  intro s c i d target cur transfer bad
  obtain ⟨f, run, -⟩ := exec_transferOf_hart cur transfer
  have refused : badTarget i target = true := by
    rw [← Bool.not_eq_false, badTarget_eq_false_iff]
    rintro ⟨inside, aligned⟩
    obtain outside | ⟨misaligned, jalr⟩ := bad
    · rw [inside] at outside
      cases outside
    · exact misaligned (aligned jalr)
  exact run.trans (congrArg _ (if_pos refused))

theorem Sys2Proof.Claim.lastAddressTraps : Claim.LastAddressTraps := by
  unfold Claim.LastAddressTraps
  rintro s c i cur last (result | ⟨o, form⟩ | load | store)
  · obtain ⟨⟨d, v⟩, result⟩ := Option.isSome_iff_exists.1 result
    exact (scalarWrites_integer cur result).last last
  · exact (scalarWrites_untaken cur form).last last
  · obtain ⟨⟨n, sg, d, a, imm⟩, form⟩ := Option.isSome_iff_exists.1 load
    exact (exec_loadForm cur form).trans (congrArg _ (if_pos last))
  · obtain ⟨⟨n, d, a, imm⟩, form⟩ := Option.isSome_iff_exists.1 store
    exact (exec_storeForm cur form).trans (congrArg _ (if_pos last))

/-- Settles O27: a transfer comes down to `jump`, whose check refuses just the targets of the rules; what does not transfer control
comes down to `scalar`, `load` or `store`, which look for the last address first. -/
theorem controlFlow : Obligations.ControlFlow := by
  unfold Obligations.ControlFlow
  exact ⟨Claim.controlTransfers, Claim.controlTargetTraps, Claim.lastAddressTraps⟩

end

section
/-! SUPPORT. Traps as they are taken, returns from them, and steps (R127 to R130, R134 to R138). -/

namespace Sys2Proof.Claim
open Sys2Proof.Machine

variable {s : State} {h : Ctx} {c code : Nat} {int : Bool} {v p : W64} {l : Priv}

/-! ### The words of a trap (R145, R146) -/

theorem getLsbD_eq_div (x : W64) (i : Nat) : x.getLsbD i = decide (x.toNat / 2 ^ i % 2 = 1) := by
  rw [BitVec.getLsbD, Nat.testBit_eq_decide_div_mod_eq]

theorem bit_lt (b : Bool) : bit b < 2 := by
  cases b <;> decide

theorem bit_eq_one (b : Bool) : decide (bit b = 1) = b := by
  cases b <;> rfl

/-- R145: bits 63:6 of a status. -/
theorem toNat_and_statusMask (x : W64) : (x &&& (0xFFFFFFFFFFFFFFC0 : W64)).toNat = 2 ^ 6 * (x.toNat / 2 ^ 6) := by
  have mask : (0xFFFFFFFFFFFFFFC0 : W64) = BitVec.allOnes 64 >>> 6 <<< 6 := by decide
  have shifted : x &&& (0xFFFFFFFFFFFFFFC0 : W64) = x >>> 6 <<< 6 := by
    refine BitVec.eq_of_getLsbD_eq fun i hi => ?_
    simp only [mask, BitVec.getLsbD_and, BitVec.getLsbD_shiftLeft, BitVec.getLsbD_ushiftRight, BitVec.getLsbD_allOnes]
    by_cases low : i < 6
    · simp [low]
    · have back : 6 + (i - 6) = i := by omega
      simp [low, back, hi]
  rw [shifted, BitVec.toNat_shiftLeft, BitVec.toNat_ushiftRight, Nat.shiftLeft_eq, Nat.shiftRight_eq_div_pow]
  have := x.isLt
  omega

/-- R145: the fields of a status below bit 6. -/
def statusFields (ie pie : Bool) (ppriv : Nat) (trap step : Bool) : Nat :=
  bit ie + 2 * bit pie + 4 * ppriv + 16 * bit trap + 32 * bit step

/-- R145: a new status keeps what stood above bit 5. -/
theorem toNat_tstatWord (old : W64) (ie pie trap step : Bool) {ppriv : Nat} (small : ppriv < 4) :
    (tstatWord old ie pie ppriv trap step).toNat = 2 ^ 6 * (old.toNat / 2 ^ 6) + statusFields ie pie ppriv trap step := by
  have low : statusFields ie pie ppriv trap step < 2 ^ 6 := by
    have := bit_lt ie; have := bit_lt pie; have := bit_lt trap; have := bit_lt step
    unfold statusFields
    omega
  unfold tstatWord
  rw [BitVec.toNat_or, toNat_and_statusMask, w64, BitVec.toNat_ofNat]
  change _ ||| statusFields ie pie ppriv trap step % 2 ^ 64 = _
  rw [Nat.mod_eq_of_lt (by omega), ← Nat.two_pow_add_eq_or_of_lt low]

/-- R145: every field of a status reads back. -/
structure StatusReads (old st : W64) (ie pie : Bool) (ppriv : Nat) (trap step : Bool) : Prop where
  ie : st.getLsbD 0 = ie
  pie : st.getLsbD 1 = pie
  ppriv : bits st 2 2 = ppriv
  trap : st.getLsbD 4 = trap
  step : st.getLsbD 5 = step
  upper : bits st 6 58 = bits old 6 58

theorem tstatWord_reads (old : W64) (ie pie trap step : Bool) {ppriv : Nat} (small : ppriv < 4) :
    StatusReads old (tstatWord old ie pie ppriv trap step) ie pie ppriv trap step := by
  have word := toNat_tstatWord old ie pie trap step small
  have := bit_lt ie; have := bit_lt pie; have := bit_lt trap; have := bit_lt step
  unfold statusFields at word
  have flag_ {b : Bool} {i : Nat} (value : (tstatWord old ie pie ppriv trap step).toNat / 2 ^ i % 2 = bit b) :
      (tstatWord old ie pie ppriv trap step).getLsbD i = b := by
    rw [getLsbD_eq_div, value, bit_eq_one]
  exact {
    ie := flag_ (by omega), pie := flag_ (by omega), trap := flag_ (by omega), step := flag_ (by omega)
    ppriv := by
      rw [bits_eq, word]
      omega
    upper := by
      rw [bits_eq, bits_eq, word]
      omega }

/-- R146. -/
theorem causeWord_eq_cause (small : code < 64) : causeWord int code = cause int code := by
  unfold causeWord cause
  cases int with
  | false => simp [w64]
  | true =>
    apply BitVec.eq_of_toNat_eq
    have word : (0x8000000000000000 : W64).toNat = 2 ^ 63 * 1 := by decide
    rw [if_pos rfl, BitVec.toNat_or, word, w64, BitVec.toNat_ofNat, BitVec.toNat_ofNat, Nat.mod_eq_of_lt (by omega),
      ← Nat.two_pow_add_eq_or_of_lt (by omega), Bool.toNat_true, Nat.mod_eq_of_lt (by omega), Nat.mul_comm]

theorem code_lt (p : Priv) : p.code < 4 := by
  cases p <;> decide

theorem privOf_code {n : Nat} (small : n < 4) (assigned : n ≠ 2) : (privOf n).code = n := by
  unfold privOf
  split
  · next e => rw [e]; rfl
  · split
    · next e => rw [e]; rfl
    · change 3 = n
      omega

/-! ### Taking a trap (R127 to R130) -/

/-- R128: PIE of a trap to a level. -/
def pieOf (h : Ctx) (l : Priv) : Bool := if h.priv.code < l.code then true else (trapRegs h l).tstat.getLsbD 0

/-- R128: the registers of the level that a trap leaves. -/
def trapped (h : Ctx) (l : Priv) (int : Bool) (code : Nat) (v p : W64) : TrapRegs :=
  { trapRegs h l with
    tstat := tstatWord (trapRegs h l).tstat false (pieOf h l) h.priv.code true false
    tpc := instrAddr p, tcause := causeWord int code, tvalue := v }

theorem trapRegs_enterTrap : trapRegs (enterTrap l int code v p h) l = trapped h l int code v p := by
  cases l <;> rfl

theorem trapped_enterTrap (small : code < 64) : Trapped h (enterTrap l int code v p h) l int code v p := by
  have status := tstatWord_reads (trapRegs h l).tstat false (pieOf h l) true false (code_lt h.priv)
  have regs : trapRegs (enterTrap l int code v p h) l = trapped h l int code v p := trapRegs_enterTrap
  exact {
    priv := by cases l <;> rfl
    pc := by cases l <;> rfl
    ie := by rw [regs]; exact status.ie
    pie := by rw [regs]; exact status.pie
    ppriv := by rw [regs]; exact status.ppriv
    trapBit := by rw [regs]; exact status.trap
    step := by rw [regs]; exact status.step
    upper := by rw [regs]; exact status.upper
    tpc := by rw [regs]; rfl
    tcause := by rw [regs]; exact causeWord_eq_cause small
    tvalue := by rw [regs]; rfl
    tvec := by rw [regs]; rfl
    tscratch := by rw [regs]; rfl
    rest := by cases l <;> rfl
    otherS := fun other => by
      cases l with
      | s => exact absurd rfl other
      | u | m => rfl
    otherM := fun e => by
      rw [e]
      rfl
    idle := by cases l <;> exact ⟨rfl, rfl, rfl⟩ }

theorem haltCore_self (c : Nat) (c1 c2 : W64) (s : State) : (haltCore c c1 c2 s).ctx c = { s.ctx c with halted := true, armed := none } := by
  change (modCtx c (fun h => { h with halted := true, armed := none }) s).ctx c = _
  rw [modCtx_self]

theorem haltCore_other {x : Nat} (other : x ≠ c) (c1 c2 : W64) (s : State) : (haltCore c c1 c2 s).ctx x = s.ctx x := by
  change (modCtx c (fun h => { h with halted := true, armed := none }) s).ctx x = _
  rw [modCtx_ctx, if_neg other]

theorem trapLevel_eq_levelOf : trapLevel h int code = levelOf h int code := rfl

section
variable (noChunk : (s.ctx c).chunk = none)
include noChunk

/-- R128: a trap to a level that is in no trap. -/
theorem takeTrap_enters (idle : (trapRegs (s.ctx c) (levelOf (s.ctx c) int code)).tstat.getLsbD 4 = false) :
    takeTrap c int code v p s = modCtx c (enterTrap (levelOf (s.ctx c) int code) int code v p) s := by
  unfold takeTrap
  rw [commitChunk_none noChunk]
  dsimp only
  rw [trapLevel_eq_levelOf]
  by_cases supervisor : levelOf (s.ctx c) int code = .s
  · have clear : inTrap (s.ctx c).ts = false := by rwa [supervisor] at idle
    rw [if_neg (by rw [clear]; simp), if_neg fun both => both.1 supervisor]
  · have clear : inTrap (s.ctx c).tm = false := by rwa [trapRegs, if_neg supervisor] at idle
    rw [if_neg fun both => supervisor both.1, if_neg (by rw [clear]; simp)]

/-- R128: a trap into S during one of S. -/
theorem takeTrap_doubles (supervisor : levelOf (s.ctx c) int code = .s) (busy : (s.ctx c).ts.tstat.getLsbD 4 = true)
    (idle : (s.ctx c).tm.tstat.getLsbD 4 = false) :
    takeTrap c int code v p s = modCtx c (enterTrap .m false 13 (causeWord int code) p) s := by
  unfold takeTrap
  rw [commitChunk_none noChunk]
  dsimp only
  rw [trapLevel_eq_levelOf, if_pos ⟨supervisor, busy⟩, if_neg (by rw [inTrap, idle]; decide)]

/-- R129: a trap into M during one of M. -/
theorem takeTrap_halts (busy : (s.ctx c).tm.tstat.getLsbD 4 = true)
    (double : levelOf (s.ctx c) int code = .s → (s.ctx c).ts.tstat.getLsbD 4 = true) :
    takeTrap c int code v p s = haltCore c (s.ctx c).tm.tcause (causeWord int code) s := by
  unfold takeTrap
  rw [commitChunk_none noChunk]
  dsimp only
  rw [trapLevel_eq_levelOf]
  by_cases supervisor : levelOf (s.ctx c) int code = .s
  · rw [if_pos ⟨supervisor, double supervisor⟩]
    exact if_pos busy
  · rw [if_neg fun both => supervisor both.1, if_pos ⟨supervisor, busy⟩]

end

/-! ### Calls and breakpoints (R134, R135) -/

/-- R134: the cause of a call at a level. -/
def callCode : Priv → Nat
  | .u => 8
  | .s => 9
  | .m => 10

theorem outside_issues (issues : HartIssues s c) (f : Ctx → State → State) :
    outside c f s = f ((commitChunk c s).ctx c) (commitChunk c s) := by
  refine if_neg ?_
  rw [commitChunk_regs]
  exact issues.notLast

theorem exec_ecall (issues : HartIssues s c) (d a b k : R5) : exec (.ecall d a b k) s =
    .next (takeTrap c false (callCode ((commitChunk c s).ctx c).priv) 0 (((commitChunk c s).ctx c).regs.pc + 4) (commitChunk c s)) := by
  refine congrArg Host.Outcome.next ((coreOnly_hart issues.cur _).trans ((outside_issues issues _).trans ?_))
  cases ((commitChunk c s).ctx c).priv <;> rfl

theorem exec_ebreak (issues : HartIssues s c) (d a b k : R5) : exec (.ebreak d a b k) s =
    .next (takeTrap c false 11 0 ((commitChunk c s).ctx c).regs.pc (commitChunk c s)) :=
  congrArg Host.Outcome.next ((coreOnly_hart issues.cur _).trans (outside_issues issues _))

/-! ### Returns (R136) -/

theorem tretOk_iff {priv : Priv} {st : W64} : tretOk priv st = true ↔
    priv ≠ .u ∧ st.getLsbD 4 = true ∧ bits st 6 58 = 0 ∧ bits st 2 2 ≠ 2 ∧ bits st 2 2 ≤ priv.code := by
  simp only [tretOk, Bool.and_eq_true, decide_eq_true_eq, and_assoc]

/-- R136: the hart after a TRET that is not itself stepped. -/
def returned (h : Ctx) : Ctx :=
  { returnFrom h with
    csr := { h.csr with retired := h.csr.retired + 1 }
    armed := if (trapRegs h h.priv).tstat.getLsbD 5 then some h.priv else none }

theorem exec_tret (alone : HartAlone s c) (ok : tretOk (s.ctx c).priv (trapRegs (s.ctx c) (s.ctx c).priv).tstat = true) :
    exec .tret s = .next (modCtx c returned s) := by
  refine congrArg Host.Outcome.next ((coreOnly_hart alone.cur _).trans ((if_neg (by simpa [trapRegs] using ok)).trans ?_))
  rw [commitChunk_none alone.noChunk, if_neg (by rw [alone.notArmed]; decide), modCtx_comp]
  exact modCtx_congr rfl

theorem exec_tret_illegal (cur : s.cur = .hart c) (bad : tretOk (s.ctx c).priv (trapRegs (s.ctx c) (s.ctx c).priv).tstat = false) :
    exec .tret s = .next (exception c 1 0xC4000003 s) :=
  congrArg Host.Outcome.next ((coreOnly_hart cur _).trans ((if_pos (by simpa [trapRegs] using bad)).trans (illegal_encoded (w := 0xC4000003) rfl)))

/-- R136: the level's status after a return. -/
theorem returned_tstat {st : W64} (here : (trapRegs h h.priv).tstat = st) (clear : bits st 6 58 = 0) :
    (trapRegs (returned h) h.priv).tstat = BitVec.ofNat 64 (2 + (st.getLsbD 1).toNat) := by
  have word : (trapRegs (returned h) h.priv).tstat = tstatWord st (st.getLsbD 1) true 0 false false := by
    rw [← here]
    unfold returned returnFrom trapRegs
    cases h.priv <;> rfl
  have low : st.toNat / 2 ^ 6 = 0 := by
    rw [bits_eq] at clear
    have := st.isLt
    omega
  apply BitVec.eq_of_toNat_eq
  rw [word, toNat_tstatWord _ _ _ _ _ (by decide), low, BitVec.toNat_ofNat, statusFields]
  cases st.getLsbD 1 <;> rfl

theorem returned_eng (h : Ctx) : (returned h).eng = h.eng := by
  unfold returned returnFrom
  cases h.priv <;> rfl

/-- R136: a return leaves the other level's registers. -/
theorem returned_tm (level : h.priv = .s) : (returned h).tm = h.tm := by
  simp only [returned, returnFrom, level, if_true]

theorem returned_ts (level : h.priv = .m) : (returned h).ts = h.ts := by
  unfold returned returnFrom
  rw [level]
  rfl

/-! ### Steps (R138) -/

/-- R138: what a chunk instruction comes to, whether or not a step is armed. -/
theorem scalar_eq_stepTrap (notLast : (s.ctx c).regs.pc ≠ lastPc) (solo : (s.ctx c).solo = false) (f : Regs → Regs) :
    scalar c f s = stepTrap c (f (s.ctx c).regs).pc
      (modCtx c (inChunk (nextPc (s.ctx c).regs (f (s.ctx c).regs))) s) := by
  refine (if_neg notLast).trans ?_
  unfold retireChunk openChunk
  simp only [modCtx_comp, modCtx_self, solo, Bool.false_eq_true, if_false]
  exact congrArg (stepTrap c _) (modCtx_congr rfl)

theorem commitChunk_armed (c : Nat) (s : State) : ((commitChunk c s).ctx c).armed = (s.ctx c).armed := by
  cases e : (s.ctx c).chunk with
  | none => rw [commitChunk_none e]
  | some k => rw [commitChunk_self e, committed]

/-- R138: a step whose level is in no trap. -/
theorem stepTrap_enters (armed : (s.ctx c).armed = some l) (idle : (trapRegs ((commitChunk c s).ctx c) l).tstat.getLsbD 4 = false) :
    stepTrap c v s = modCtx c (enterTrap l false 12 v ((commitChunk c s).ctx c).regs.pc) (commitChunk c s) := by
  unfold stepTrap
  rw [armed]
  dsimp only
  rw [commitChunk_armed, armed]
  generalize commitChunk c s = u at *
  have level : (if l = .s ∧ inTrap (u.ctx c).ts = true then Priv.m else l) = l := by
    refine if_neg fun ⟨supervisor, busy⟩ => ?_
    rw [supervisor] at idle
    exact Bool.noConfusion (busy.symm.trans idle)
  rw [level]
  exact (if_neg (by rw [← Bool.not_eq_false]; exact not_not.2 idle)).trans (if_neg (not_not.2 rfl))

/-- R138: the hart with its chunk of one instruction committed. -/
theorem committed_alone {q : Regs} (noChunk : (s.ctx c).chunk = none) (solo : (s.ctx c).solo = false) :
    (commitChunk c (modCtx c (inChunk q) s)).ctx c = { s.ctx c with
      regs := q, csr := { (s.ctx c).csr with retired := (s.ctx c).csr.retired + 1 }, squashes := 0 } := by
  have opened : ((modCtx c (inChunk q) s).ctx c) = inChunk q (s.ctx c) := modCtx_self ..
  rw [commitChunk_self (k := { openedChunk (s.ctx c) with count := (openedChunk (s.ctx c)).count + 1, closed := _ }) (by rw [opened]; rfl),
    opened]
  simp only [committed, inChunk, openedChunk, noChunk, Option.getD_none, ← solo]
  rfl

/-- R138: a chunk instruction with a step armed is followed by its STEP trap. -/
theorem trapped_scalar {f : Regs → Regs} (notLast : (s.ctx c).regs.pc ≠ lastPc) (armed : (s.ctx c).armed = some l)
    (solo : (s.ctx c).solo = false) (noChunk : (s.ctx c).chunk = none) (idle : (trapRegs (s.ctx c) l).tstat.getLsbD 4 = false)
    (kept : (f (s.ctx c).regs).pc = (s.ctx c).regs.pc) :
    Trapped { s.ctx c with
        regs := nextPc (s.ctx c).regs (f (s.ctx c).regs)
        csr := { (s.ctx c).csr with retired := (s.ctx c).csr.retired + 1 }, squashes := 0 }
      ((scalar c f s).ctx c) l false 12 (s.ctx c).regs.pc ((s.ctx c).regs.pc + 4) := by
  have base := committed_alone (q := nextPc (s.ctx c).regs (f (s.ctx c).regs)) noChunk solo
  rw [scalar_eq_stepTrap notLast solo, kept, stepTrap_enters (by rw [modCtx_self]; exact armed) (by rw [base]; exact idle), modCtx_self, base]
  exact trapped_enterTrap (by decide)

end Sys2Proof.Claim
end

section
open Sys2Proof Sys2Proof.Machine Sys2Proof.Claim

theorem Sys2Proof.Claim.trapEntry : Claim.TrapEntry := by
  unfold Claim.TrapEntry
  intro s c int code v p noChunk small
  dsimp only
  intro idle
  rw [takeTrap_enters noChunk idle, modCtx_self]
  exact ⟨onlyHart_modCtx .., trapped_enterTrap small⟩

theorem Sys2Proof.Claim.doubleTrapAndHalt : Claim.DoubleTrapAndHalt := by
  unfold Claim.DoubleTrapAndHalt
  intro s c int code v p noChunk small
  refine ⟨fun supervisor busy idle => ?_, fun busy double => ?_⟩
  · rw [takeTrap_doubles noChunk supervisor busy idle, modCtx_self, causeWord_eq_cause small]
    exact ⟨onlyHart_modCtx .., trapped_enterTrap (by decide)⟩
  · rw [takeTrap_halts noChunk busy double, causeWord_eq_cause small]
    exact ⟨haltCore_self .., fun x other => haltCore_other other .., rfl, _, rfl⟩

theorem Sys2Proof.Claim.callsAndBreakpoints : Claim.CallsAndBreakpoints := by
  unfold Claim.CallsAndBreakpoints
  intro s c d a b k alone
  rw [exec_ecall alone.toHartIssues, exec_ebreak alone.toHartIssues, commitChunk_none alone.noChunk]
  exact ⟨rfl, rfl⟩

/-- Settles O39: where the level is in no trap its registers are entered; a second trap goes to M, and one that M cannot take halts the core. -/
theorem trapTaking : Obligations.TrapTaking := by
  unfold Obligations.TrapTaking
  exact ⟨Claim.trapEntry, Claim.doubleTrapAndHalt, Claim.callsAndBreakpoints⟩

/-- Settles O24: the chunk commits, and what is left is a trap with no chunk open. -/
theorem ecall : Obligations.Ecall := by
  unfold Obligations.Ecall
  refine ⟨rfl, fun s c d a b k issues => ?_⟩
  dsimp only
  intro idle
  have noChunk := commitChunk_chunk c s
  have small : callCode ((commitChunk c s).ctx c).priv < 64 := by
    cases ((commitChunk c s).ctx c).priv <;> decide
  obtain ⟨only, trapped⟩ := Claim.trapEntry _ c false _ 0 (((commitChunk c s).ctx c).regs.pc + 4) noChunk small idle
  exact ⟨_, exec_ecall issues d a b k, only, noChunk, trapped⟩

/-- Settles O25: as for ECALL, at the instruction's own address. -/
theorem ebreak : Obligations.Ebreak := by
  unfold Obligations.Ebreak
  refine ⟨rfl, fun s c d a b k issues => ?_⟩
  dsimp only
  intro idle
  have noChunk := commitChunk_chunk c s
  obtain ⟨only, trapped⟩ := Claim.trapEntry _ c false 11 0 ((commitChunk c s).ctx c).regs.pc noChunk (by decide) idle
  exact ⟨_, exec_ebreak issues d a b k, only, noChunk, trapped⟩

theorem Sys2Proof.Claim.trapReturn : Claim.TrapReturn := by
  unfold Claim.TrapReturn
  intro s c alone
  refine ⟨fun ok => ?_, fun bad => ?_⟩
  · refine ⟨_, exec_tret alone (tretOk_iff.2 ok), onlyHart_modCtx .., ?_⟩
    obtain ⟨-, -, clear, assigned, -⟩ := ok
    rw [modCtx_self]
    exact ⟨rfl, privOf_code (by rw [bits_eq]; omega) assigned, returned_tstat rfl clear, rfl, rfl, returned_eng _, returned_tm, returned_ts⟩
  · exact exec_tret_illegal alone.cur (by rw [← Bool.not_eq_true, tretOk_iff]; exact bad)

theorem Sys2Proof.Claim.singleStep : Claim.SingleStep := by
  unfold Claim.SingleStep
  intro s c d a i l cur notLast armed user solo noChunk idle
  exact ⟨_, congrArg Host.Outcome.next (alu1_hart cur _ _),
    trapped_scalar (f := fun r => setG r d (getG r a + i.signExtend 64)) notLast armed solo noChunk idle (setG_pc ..)⟩

/-- Settles O41: a return changes the level's status to IE and PIE and goes to TPC; the instruction after it, with a step armed, commits
its chunk and traps. -/
theorem trapReturnAndStep : Obligations.TrapReturnAndStep := by
  unfold Obligations.TrapReturnAndStep
  exact ⟨Claim.trapReturn, Claim.singleStep⟩

end

section
/-!
SUPPORT. A write of MSIZE where the table of harts lists a key twice (R61). O2 does not assume the canonical form of the table, and
asks for the harts that the table lists; the model asks for those that are left when CSRS has written its destination register, which
takes the second entry of the key away.
-/

namespace Sys2Proof.Claim
open Sys2Proof.Machine

/-- Context 0 twice: a hart in M mode, and, behind it, a core of the same cluster that is resident in a task. -/
def listedTwice : State :=
  { cur := .hart 0, ctxs := [(0, { priv := .m }), (0, { resident := true, gcn := 1, task := some 0 })] }

theorem listedTwice_alone : HartAlone listedTwice 0 where
  cur := rfl
  notLast := by decide
  notArmed := rfl
  notSolo := rfl
  noChunk := rfl

/-- R61: the listed core keeps MSIZE from being written. -/
theorem listedTwice_occupied : ¬∀ x ∈ listedTwice.ctxs, x.2.resident = true → x.2.gcn / 8 = (listedTwice.ctx 0).gcn / 8 →
    x.2.gcn ≠ (listedTwice.ctx 0).gcn → x.2.task = none := by
  intro free
  have none_ := free (0, { resident := true, gcn := 1, task := some 0 }) (List.mem_cons_of_mem _ (List.mem_singleton.2 rfl)) rfl rfl
    (by decide)
  cases none_

/-- The model writes MSIZE, and logs nothing. -/
theorem log_listedTwice : ∃ t, exec (.csrs 0 0 0xC07) listedTwice = .next t ∧ t.mod.log = [] := ⟨_, rfl, by decide⟩

end Sys2Proof.Claim
end

section
open Sys2Proof Sys2Proof.Machine Sys2Proof.Claim

/-- Refutes O2: in `listedTwice` a core of the cluster is listed as resident in a task, so that the write of MSIZE has to be ignored
and logged; but the key of its entry is listed twice, and the model no longer finds it when it looks. -/
theorem not_csrInstructions : ¬Obligations.CsrInstructions := by
  unfold Obligations.CsrInstructions
  rintro ⟨claim, -⟩
  obtain ⟨msize, -⟩ := claim listedTwice 0 (.csrs 0 0 0xC07) 0 _ 0 listedTwice_alone rfl
  obtain ⟨t, run, -, -, refused⟩ := msize rfl rfl
  obtain ⟨-, logged⟩ := refused listedTwice_occupied
  obtain ⟨u, run', empty⟩ := log_listedTwice
  obtain rfl : t = u := Host.Outcome.next.inj (run.symm.trans run')
  rw [logged] at empty
  cases empty

end

section
/-! SUPPORT. ASIDSET, PROTSET, TLBINV and STOPAT (R151 to R154). -/

namespace Sys2Proof.Claim
open Sys2Proof.Machine

variable {s : State} {c : Nat}

/-- R149: what an instruction does to the hart alone, before it retires. -/
theorem retire_modCtx {f : Ctx → Ctx} (armed : (f (s.ctx c)).armed = none) :
    (retire c (modCtx c f s)).ctx c = retiredCtx (f (s.ctx c)) (nextPc (f (s.ctx c)).regs (f (s.ctx c)).regs) ∧
      OnlyHart c s (retire c (modCtx c f s)) := by
  rw [retire_unarmed (by rw [modCtx_self]; exact armed), modCtx_comp, modCtx_self, modCtx_self]
  exact ⟨rfl, onlyHart_modCtx ..⟩

/-! ### ASIDSET and PROTSET (R152, R153) -/

theorem exec_asidset (alone : HartAlone s c) (priv : (s.ctx c).priv ≠ .u) (d a : R5) : exec (.asidset d a) s =
    .next (retire c (modCtx c (fun h => { h with
      regs := setG h.regs d ((s.ctx c).csr.asid.zeroExtend 64)
      csr := { h.csr with asid := (getG (setG h.regs d ((s.ctx c).csr.asid.zeroExtend 64)) a).truncate 16 } }) s)) := by
  refine congrArg Host.Outcome.next ((coreOnly_hart alone.cur _).trans ((if_neg priv).trans ((outside_alone alone _).trans ?_)))
  rw [putG_eq, modCtx_comp]

/-- R153: the write goes to PW register `n`. -/
theorem csrWrite_pw {n : Nat} (small : n < 8) (v : W64) : csrWrite c (0x410 + n) v s =
    modCtx c (fun h => { h with csr := { h.csr with pw := tset 0 h.csr.pw n (v &&& pwMask) } }) s := by
  obtain ⟨k, rfl⟩ : ∃ k : Fin 8, n = k := ⟨⟨n, small⟩, rfl⟩
  fin_cases k <;> rfl

theorem exec_protset (alone : HartAlone s c) (priv : (s.ctx c).priv ≠ .u) (a : R5) {n : R5} (small : n.toNat < 8) :
    exec (.protset a n) s = .next (retire c (modCtx c (fun h => { h with
      csr := { h.csr with pw := tset 0 h.csr.pw n.toNat (getG (s.ctx c).regs a &&& pwMask) } }) s)) := by
  refine congrArg Host.Outcome.next ((coreOnly_hart alone.cur _).trans ((if_neg (not_or.2 ⟨priv, by omega⟩)).trans
    ((outside_alone alone _).trans ?_)))
  rw [csrWrite_pw small]

/-! ### TLBINV (R151) -/

theorem dropped_eq_false_iff {m va asid pageAsid page size : Nat} :
    (!dropped m va asid pageAsid page size) = true ↔ ¬covered m va asid pageAsid page size := by
  simp only [dropped, covered, Bool.not_eq_true', ← Bool.not_eq_true, Bool.or_eq_true, Bool.and_eq_true, decide_eq_true_eq]

/-- R151: what the invalidation leaves of a cluster. -/
def clusterLeft (p m va asid : Nat) (cl : Cluster) : Cluster :=
  if serves cl = some p then { cl with tlb := cl.tlb.filter fun e => !dropped m va asid e.asid e.va e.size } else cl

/-- R151: what the invalidation leaves of a hart. -/
def hartLeft (p m va asid : Nat) (h : Ctx) : Ctx :=
  { h with icache := if h.part = p then h.icache.filter fun l => !dropped m va asid l.asid l.page l.pageSize else h.icache }

variable {p m va asid : Nat}

theorem invalidate_cluster (q : Nat) : (invalidate p m va asid s).cluster q = clusterLeft p m va asid (s.cluster q) := by
  refine tget_map (f := fun _ => clusterLeft p m va asid) (fun x => ?_) s.clusters rfl
  unfold clusterLeft
  split <;> rfl

theorem hartLeft_default : hartLeft p m va asid {} = {} := by
  unfold hartLeft
  split <;> rfl

/-- R151: TLBINV with its acknowledgements. -/
def invalidated (c m va asid : Nat) (s : State) : State := retire c (invalidate (s.ctx c).part m va asid (setWait c (.tlbinv m va asid) s))

theorem invalidate_ctx (x : Nat) : (invalidate p m va asid s).ctx x = hartLeft p m va asid (s.ctx x) := by
  refine tget_map (f := fun _ => hartLeft p m va asid) (fun x => ?_) s.ctxs hartLeft_default
  unfold hartLeft
  split <;> rfl

theorem mem_clusterLeft {cl : Cluster} (served : serves cl = some p) (e : TlbEntry) :
    e ∈ (clusterLeft p m va asid cl).tlb ↔ e ∈ cl.tlb ∧ ¬covered m va asid e.asid e.va e.size := by
  rw [clusterLeft, if_pos served, List.mem_filter, dropped_eq_false_iff]

theorem mem_hartLeft {h : Ctx} (part : h.part = p) (l : Line) :
    l ∈ (hartLeft p m va asid h).icache ↔ l ∈ h.icache ∧ ¬covered m va asid l.asid l.page l.pageSize := by
  unfold hartLeft
  rw [if_pos part, List.mem_filter, dropped_eq_false_iff]

theorem exec_tlbinv (alone : HartAlone s c) (priv : (s.ctx c).priv ≠ .u) (a b : R5) {m : R5} (mode : m.toNat < 3) :
    exec (.tlbinv a b m) s = .next (setWait c (.tlbinv m.toNat (getG (s.ctx c).regs a).toNat (bits (getG (s.ctx c).regs b) 0 16)) s) :=
  congrArg Host.Outcome.next ((coreOnly_hart alone.cur _).trans ((if_neg (not_or.2 ⟨priv, by omega⟩)).trans (outside_alone alone _)))

/-- R151: the acknowledgements have come in. -/
theorem exec_tlbinvAck (going : (s.ctx c).halted = false) :
    exec (.tlbinvAck c) (setWait c (.tlbinv m va asid) s) = .next (invalidated c m va asid s) := by
  refine congrArg Host.Outcome.next ?_
  unfold tlbinvDone
  rw [setWait_eq, modCtx_self, going]
  rfl

theorem invalidated_ctx (armed : (s.ctx c).armed = none) (x : Nat) : (invalidated c m va asid s).ctx x =
    if x = c then retiredCtx (hartLeft (s.ctx c).part m va asid (s.ctx c)) (nextPc (s.ctx c).regs (s.ctx c).regs)
    else hartLeft (s.ctx c).part m va asid (s.ctx x) := by
  have before : ((invalidate (s.ctx c).part m va asid (setWait c (.tlbinv m va asid) s)).ctx c) =
      hartLeft (s.ctx c).part m va asid { s.ctx c with wait := .tlbinv m va asid } := by
    rw [invalidate_ctx, setWait_eq, modCtx_self]
  unfold invalidated
  rw [retire_unarmed (by rw [before]; exact armed), modCtx_ctx, before, invalidate_ctx, setWait_eq, modCtx_ctx]
  by_cases self : x = c
  · rw [if_pos self, if_pos self]
    rfl
  · rw [if_neg self, if_neg self, if_neg self]

theorem invalidated_cluster (armed : (s.ctx c).armed = none) (q : Nat) :
    (invalidated c m va asid s).cluster q = clusterLeft (s.ctx c).part m va asid (s.cluster q) := by
  unfold invalidated
  rw [retire_unarmed (by rw [invalidate_ctx, setWait_eq, modCtx_self]; exact armed)]
  exact invalidate_cluster q

theorem invalidated_mem (armed : (s.ctx c).armed = none) : (invalidated c m va asid s).mem = s.mem := by
  unfold invalidated
  rw [retire_unarmed (by rw [invalidate_ctx, setWait_eq, modCtx_self]; exact armed)]
  rfl

/-! ### STOPAT (R154) -/

/-- R154: a stop of partition `p` at cycle `t` is accepted or not. -/
def announced (p t : Nat) (s : State) : State := if stopStatus s p t = 0 then modPart p (fun k => { k with stop := some t }) s else s

theorem announced_ctx (p t x : Nat) : (announced p t s).ctx x = s.ctx x := by
  unfold announced
  split <;> rfl

theorem announced_mem (p t : Nat) : (announced p t s).mem = s.mem := by
  unfold announced
  split <;> rfl

theorem announced_part (p t x : Nat) :
    (announced p t s).part x = if x = p ∧ stopStatus s p t = 0 then { s.part p with stop := some t } else s.part x := by
  unfold announced
  split
  · next accepted => simp only [modPart_part, accepted, and_true]
  · next refused => rw [if_neg fun both => refused both.2]

theorem exec_stopat (alone : HartAlone s c) (priv : (s.ctx c).priv = .m) (d a b : R5) : exec (.stopat d a b) s =
    .next (setWait c (.stopat d (w64 (stopStatus s (bits (getG (s.ctx c).regs b) 0 8) (getG (s.ctx c).regs a).toNat)) s.gtime)
      (announced (bits (getG (s.ctx c).regs b) 0 8) (getG (s.ctx c).regs a).toNat s)) :=
  congrArg Host.Outcome.next ((coreOnly_hart alone.cur _).trans ((if_neg (not_not.2 priv)).trans (outside_alone alone _)))

theorem stopStatus_eq (s : State) (p t : Nat) : stopStatus s p t =
    if (s.part p).live = false then 3 else if t < s.gtime + 2048 then 1 else if (s.part p).stop.isSome then 2 else 0 := by
  unfold stopStatus
  simp only [Bool.not_eq_true']

/-- R154: the announcement has reached every die. -/
theorem exec_stopAnnounced {d : R5} {v : W64} {n : Nat} (going : (s.ctx c).halted = false) (armed : (s.ctx c).armed = none) :
    exec (.stopAnnounced c) (setWait c (.stopat d v n) s) = .next (modCtx c (fun h => retiredCtx h (nextPc h.regs (setG h.regs d v))) s) := by
  refine congrArg Host.Outcome.next ?_
  unfold stopatDone
  rw [setWait_eq, modCtx_self, going]
  change retire c (modCtx c _ (modCtx c _ s)) = _
  rw [retire_unarmed (by rw [modCtx_self, modCtx_self]; exact armed), modCtx_self, modCtx_self, modCtx_comp, modCtx_comp, setG_pc]
  exact modCtx_congr rfl

end Sys2Proof.Claim
end

section
open Sys2Proof Sys2Proof.Machine Sys2Proof.Claim

/-- Settles O3: each instruction changes the hart alone, and at most one thing more of the device, before it retires: TLBINV filters the
lists of translations and of lines by the complement of what it covers, STOPAT puts the stop into its partition. -/
theorem privilegedEffects : Obligations.PrivilegedEffects := by
  unfold Obligations.PrivilegedEffects
  refine ⟨fun s c d a alone priv => ?_, fun s c a n alone priv small => ?_, fun s c a b m alone live priv mode => ?_,
    fun s c d a b alone live priv => ?_⟩
  · obtain ⟨hart, only⟩ := retire_modCtx (s := s) (c := c) (f := fun h => { h with
      regs := setG h.regs d ((s.ctx c).csr.asid.zeroExtend 64)
      csr := { h.csr with asid := (getG (setG h.regs d ((s.ctx c).csr.asid.zeroExtend 64)) a).truncate 16 } }) alone.notArmed
    refine ⟨_, exec_asidset alone priv d a, only, hart.trans ?_⟩
    simp only [retiredCtx, nextPc, setG_pc]
  · obtain ⟨hart, only⟩ := retire_modCtx (s := s) (c := c) (f := fun h => { h with
      csr := { h.csr with pw := tset 0 h.csr.pw n.toNat (getG (s.ctx c).regs a &&& pwMask) } }) alone.notArmed
    refine ⟨_, exec_protset alone priv a small, only, congrArg Ctx.regs hart, fun j => ?_⟩
    rw [hart]
    exact tget_tset ..
  · dsimp only
    rw [← bits_slotb]
    obtain ⟨-, going, -⟩ := live
    refine ⟨_, ⟨_, exec_tlbinv alone priv a b mode, _, exec_tlbinvAck going, rfl⟩, ?_, ?_, ?_, fun q served e => ?_, fun x part l => ?_⟩
    · exact invalidated_mem alone.notArmed
    · rw [invalidated_ctx alone.notArmed, if_pos rfl]
      rfl
    · rw [invalidated_ctx alone.notArmed, if_pos rfl]
      rfl
    · rw [invalidated_cluster alone.notArmed]
      exact mem_clusterLeft served e
    · rw [invalidated_ctx alone.notArmed]
      by_cases self : x = c
      · rw [if_pos self, self]
        exact mem_hartLeft rfl l
      · rw [if_neg self]
        exact mem_hartLeft part l
  · dsimp only
    rw [← stopStatus_eq]
    obtain ⟨-, going, -⟩ := live
    have kept := announced_ctx (s := s) (bits (getG (s.ctx c).regs b) 0 8) (getG (s.ctx c).regs a).toNat
    refine ⟨_, ⟨_, exec_stopat alone priv d a b, _, exec_stopAnnounced (by rw [kept, going]) (by rw [kept]; exact alone.notArmed), rfl⟩,
      fun x other => ?_, announced_mem .., ?_, fun x => announced_part _ _ x⟩
    · rw [modCtx_ctx, if_neg other, kept]
    · rw [modCtx_self, kept]
      rfl

end

section
/-! SUPPORT. Local loads and stores in the hart's chunk (R108, R109, R111, R114, R199). -/

namespace Sys2Proof.Claim
open Sys2Proof.Machine

variable {s : State} {c n : Nat} {ea : W64}

/-! ### What the hart sees (R111, R200) -/

theorem heldStores_of_chunk {h : Ctx} {k : Chunk} (open_ : h.chunk = some k) : heldStores h = k.stores := by
  unfold heldStores openedChunk
  rw [open_]
  rfl

theorem sees_eq (s : State) (c k : Nat) :
    sees s c k = (((heldStores (s.ctx c)).find? fun p => p.1 = k).map (·.2)).getD (readByte s.mem k) := by
  unfold sees
  cases (heldStores (s.ctx c)).find? fun p => p.1 = k <;> rfl

/-- R200: a local load reads what the hart sees. -/
theorem leNat_chunkRead (s : State) (c k n : Nat) : leNat (chunkRead s (s.ctx c) k n) = seesWord s c k n := by
  refine congrArg leNat (List.map_congr_left fun i _ => ?_)
  rw [sees_eq]
  unfold heldStores openedChunk
  cases (s.ctx c).chunk <;> rfl

theorem leNat_lt (l : List Byte) : leNat l < 256 ^ l.length := by
  induction l with
  | nil => exact Nat.one_pos
  | cons b l ih =>
    rw [leNat, List.length_cons, Nat.pow_succ]
    have := b.isLt
    omega

theorem seesWord_lt (s : State) (c k n : Nat) : seesWord s c k n < 256 ^ n := by
  have bound := leNat_lt ((List.range n).map fun i => sees s c (k + i))
  rwa [List.length_map, List.length_range] at bound

/-- R111: the newest stores, byte `i` of `b` at key `k + i`, newest first, and those held before. -/
def storesOn (k : Nat) (b : List Byte) (l : List (Nat × Byte)) : List (Nat × Byte) :=
  ((List.range b.length).zip b).reverse.map (fun p => (k + p.1, p.2)) ++ l

theorem storesOn_concat (k : Nat) (b : List Byte) (v : Byte) (l : List (Nat × Byte)) :
    storesOn k (b ++ [v]) l = (k + b.length, v) :: storesOn k b l := by
  unfold storesOn
  rw [List.length_append, List.length_singleton, List.range_succ, List.zip_append List.length_range, List.reverse_append]
  rfl

/-- R111: a byte of the span is the new one, any other what the stores before say. -/
theorem find?_storesOn (k : Nat) (b : List Byte) (l : List (Nat × Byte)) (x : Nat) :
    ((storesOn k b l).find? fun p => p.1 = x) =
      if k ≤ x ∧ x < k + b.length then some (x, b.getD (x - k) 0) else l.find? fun p => p.1 = x := by
  induction b using List.reverseRecOn with
  | nil => exact (if_neg fun both => by simp at both; omega).symm
  | append_singleton b v ih =>
    rw [storesOn_concat, List.find?_cons, List.length_append, List.length_singleton]
    by_cases last : k + b.length = x
    · subst last
      simp
    · rw [decide_eq_false last, ih]
      by_cases inside : k ≤ x ∧ x < k + b.length
      · rw [if_pos inside, if_pos ⟨inside.1, by omega⟩, List.getD_append _ _ _ _ (by omega)]
      · rw [if_neg inside, if_neg fun both => inside ⟨both.1, by omega⟩]

/-- R111: what the hart sees when its chunk holds a store on top of what it held. -/
theorem sees_storesOn {t : State} {k : Nat} {b : List Byte} (mem : t.mem = s.mem)
    (held : heldStores (t.ctx c) = storesOn k b (heldStores (s.ctx c))) (x : Nat) :
    sees t c x = if k ≤ x ∧ x < k + b.length then b.getD (x - k) 0 else sees s c x := by
  rw [sees_eq, sees_eq, held, mem, find?_storesOn]
  split <;> rfl

/-! ### Runs in the chunk (R199) -/

/-- R199: an instruction of the open chunk changes what the chunk holds. -/
theorem inChunk_retireChunk (issues : HartIssues s c) {f : Regs → Regs} {g : Chunk → Chunk}
    (start : (g (openedChunk (s.ctx c))).start = (openedChunk (s.ctx c)).start)
    (count : (g (openedChunk (s.ctx c))).count = (openedChunk (s.ctx c)).count) :
    InChunk c s (retireChunk c ((s.ctx c).regs.pc + 4)
      (modCtx c (fun h => { h with regs := f h.regs, chunk := h.chunk.map g }) (openChunk c s)))
      (nextPc (s.ctx c).regs (f (s.ctx c).regs)) (g (openedChunk (s.ctx c))).stores := by
  unfold openChunk
  rw [modCtx_comp, retireChunk_eq (by rw [modCtx_self]; exact issues.notArmed) (by rw [modCtx_self]; exact issues.notSolo), modCtx_comp]
  exact {
    only := onlyHart_modCtx ..
    regs := by rw [modCtx_self]; rfl
    rest := by rw [modCtx_self]
    chunk := by
      rw [modCtx_self]
      exact ⟨_, rfl, start, rfl, congrArg (· + 1) count⟩ }

/-- R200: the words of the span are in the chunk's read set. -/
def readsWords (k n : Nat) (q : Chunk) : Chunk := { q with reads := addWords q.reads (wordsOf k n) }

/-- R199, R200: the span's bytes are held, its words in the chunk's write set. -/
def holdsStore (k n v : Nat) (q : Chunk) : Chunk :=
  { q with
    stores := ((List.range n).zip (leBytes n v)).reverse.map (fun p => (k + p.1, p.2)) ++ q.stores
    writes := addWords q.writes (wordsOf k n) }

theorem holdsStore_stores (k n v : Nat) (q : Chunk) : (holdsStore k n v q).stores = storesOn k (leBytes n v) q.stores := by
  unfold holdsStore storesOn
  rw [length_leBytes]

section
variable (notLast : (s.ctx c).regs.pc ≠ 0x01FFFFFFFFFFFFFC)
include notLast

theorem load_reaches (reaches : Reaches s c ea n { rd := true }) (dst : Dest) : load c ea n dst s =
    retireChunk c ((s.ctx c).regs.pc + 4) (modCtx c (fun h => { h with
      regs := writeDest dst (leNat (chunkRead s (s.ctx c) (keyOf s c ea) n)) h.regs
      chunk := h.chunk.map (readsWords (keyOf s c ea) n) }) (openChunk c s)) := by
  obtain ⟨isLocal, aligned, permitted, free⟩ := reaches
  exact (if_neg notLast).trans ((if_neg (not_not.2 aligned)).trans ((if_pos (by rw [isLocal]; rfl)).trans
    ((if_neg (by rw [permitted]; decide)).trans (if_neg (by rw [free]; decide)))))

theorem store_reaches (reaches : Reaches s c ea n { w := true }) (unlocked : lockedByte (s.ctx c) ea.toNat n = none) (v : Nat)
    (f : Regs → Regs) : store c ea n v f s =
    retireChunk c ((s.ctx c).regs.pc + 4) (modCtx c (fun h => { h with
      regs := f h.regs, chunk := h.chunk.map (holdsStore (keyOf s c ea) n v) }) (openChunk c s)) := by
  obtain ⟨isLocal, aligned, permitted, free⟩ := reaches
  exact (if_neg notLast).trans ((if_neg (not_not.2 aligned)).trans ((if_pos (by rw [isLocal]; rfl)).trans
    ((if_neg (by rw [permitted]; decide)).trans ((if_neg (by rw [unlocked]; decide)).trans (if_neg (by rw [free]; decide))))))

end

/-- R108 to R110: a load of a local address. -/
theorem inChunk_load (issues : HartIssues s c) (reaches : Reaches s c ea n { rd := true }) (dst : Dest) :
    InChunk c s (load c ea n dst s) (nextPc (s.ctx c).regs (writeDest dst (seesWord s c (keyOf s c ea) n) (s.ctx c).regs))
      (heldStores (s.ctx c)) := by
  rw [load_reaches issues.notLast reaches, leNat_chunkRead]
  exact inChunk_retireChunk issues (f := writeDest dst _) (g := readsWords _ _) rfl rfl

/-- R111: a store to a local address is held in the chunk, and the hart sees it. -/
theorem inChunk_store (issues : HartIssues s c) (reaches : Reaches s c ea n { w := true })
    (unlocked : lockedByte (s.ctx c) ea.toNat n = none) (v : Nat) (f : Regs → Regs) :
    InChunk c s (store c ea n v f s) (nextPc (s.ctx c).regs (f (s.ctx c).regs))
        (storesOn (keyOf s c ea) (leBytes n v) (heldStores (s.ctx c))) ∧
      ∀ k, sees (store c ea n v f s) c k =
        if keyOf s c ea ≤ k ∧ k < keyOf s c ea + (leBytes n v).length then (leBytes n v).getD (k - keyOf s c ea) 0 else sees s c k := by
  have runs : InChunk c s (store c ea n v f s) (nextPc (s.ctx c).regs (f (s.ctx c).regs))
      (storesOn (keyOf s c ea) (leBytes n v) (heldStores (s.ctx c))) := by
    rw [store_reaches issues.notLast reaches unlocked]
    exact holdsStore_stores .. ▸ inChunk_retireChunk issues (f := f) (g := holdsStore _ _ _) rfl rfl
  refine ⟨runs, sees_storesOn (congrArg State.mem runs.only.device :) ?_⟩
  obtain ⟨k, open_, -, stores, -⟩ := runs.chunk
  exact (heldStores_of_chunk open_).trans stores

/-! ### Values (R108, R114, R115) -/

theorem writeDest_g (d : R5) (n : Nat) (sg : Bool) (v : Nat) (r : Regs) : writeDest (.g d n sg) v r = setG r d (extended n sg v 64) := by
  unfold writeDest extended
  cases sg <;> rfl

/-- R50: a poison value is no signaling NaN. -/
theorem nanFlags_eq (v : FVal) : (if v.sig then 16 else 0) + (if v.isPoison then 32 else 0) = if v.isPoison then 32 else if v.sig then 16 else 0 := by
  cases v with
  | nan _ sig => cases sig <;> rfl
  | poison | inf | fin => rfl

/-- R114: a value of the destination's own format is copied. -/
theorem convert_self {code v : Nat} (mode : Nat) (arr : Bool) (small : v < 2 ^ fmtWidth code) : convert code code mode arr v = (v, 0) := by
  unfold convert
  rw [if_pos rfl, Nat.mod_eq_of_lt small]

/-- R114: what a typed load leaves in the registers. -/
theorem writeDest_f (d : R5) {t v : Nat} (small : v < 2 ^ fmtWidth t) (r : Regs) : writeDest (.f d t) v r =
    { setF r d { bits := BitVec.ofNat 64 (typedLoad t v).1, k := (typedLoad t v).2.1 } with
      fstat := r.fstat ||| BitVec.ofNat 64 (typedLoad t v).2.2 } := by
  unfold writeDest typedLoad
  by_cases double : t = 8
  · subst double
    simp only [true_or, if_true, convert_self _ _ small, nanFlags_eq]
    rfl
  by_cases single : t = 9
  · subst single
    simp only [or_true, if_true, convert_self _ _ small, nanFlags_eq, Nat.reduceEqDiff, or_self, if_false]
    rfl
  by_cases wide : t = 2 ∨ t = 6
  · simp only [double, single, wide, false_or, or_self, if_true, if_false, not_true, decide_false]
    rfl
  · simp only [double, single, wide, or_self, if_false, not_false_eq_true, decide_true]
    rfl

theorem fmtWidth_dvd {t : Nat} (assigned : t < 0xE) : 8 ∣ fmtWidth t := by
  interval_cases t <;> decide

/-- R114: the bytes of a format hold its values. -/
theorem seesWord_lt_width (s : State) (c k : Nat) {t : Nat} (assigned : t < 0xE) : seesWord s c k (fmtWidth t / 8) < 2 ^ fmtWidth t := by
  have bound := seesWord_lt s c k (fmtWidth t / 8)
  rwa [show 256 = 2 ^ 8 from rfl, ← Nat.pow_mul, Nat.mul_div_cancel' (fmtWidth_dvd assigned)] at bound

/-- R115: what STF stores. -/
theorem exec_stf_value {d a : R5} {t : BitVec 4} {o : BitVec 12} (cur : s.cur = .hart c)
    (good : ¬(frm (s.ctx c).regs = 0 ∨ 6 ≤ frm (s.ctx c).regs ∨ t.toNat = 0x7 ∨ 0xE ≤ t.toNat)) {x : Nat × Nat}
    (value : convert (if (getF (s.ctx c).regs d).k then 9 else 8) t.toNat (frm (s.ctx c).regs) false (getF (s.ctx c).regs d).bits.toNat = x) :
    exec (.stf d a t o) s =
      .next (store c (getG (s.ctx c).regs a + o.signExtend 64) (fmtWidth t.toNat / 8) x.1 (fun r => setFlags r x.2) s) := by
  subst value
  exact congrArg Host.Outcome.next ((coreOnly_hart cur _).trans (if_neg good))

theorem ite_bytesOf (n v k x : Nat) (old : Byte) :
    (if k ≤ x ∧ x < k + (leBytes n v).length then (leBytes n v).getD (x - k) 0 else old) =
      if k ≤ x ∧ x < k + n then BitVec.ofNat 8 (v / 256 ^ (x - k)) else old := by
  rw [length_leBytes, leBytes_eq]
  refine if_ctx_congr Iff.rfl (fun inside => ?_) fun _ => rfl
  have place : x - k < (bytesOf n v).length := by
    rw [bytesOf, List.length_map, List.length_range]
    omega
  rw [List.getD_eq_getElem _ _ place]
  simp only [bytesOf, List.getElem_map, List.getElem_range]

end Sys2Proof.Claim
end

section
open Sys2Proof Sys2Proof.Machine Sys2Proof.Claim

theorem Sys2Proof.Claim.localLoads : Claim.LocalLoads := by
  unfold Claim.LocalLoads
  intro s c i n sg d a imm issues form
  dsimp only
  intro reaches
  rw [← writeDest_g]
  exact ⟨_, exec_loadForm issues.cur form, inChunk_load issues reaches _⟩

theorem Sys2Proof.Claim.localStores : Claim.LocalStores := by
  unfold Claim.LocalStores
  intro s c i n d a imm issues form
  dsimp only
  intro reaches unlocked
  obtain ⟨runs, seen⟩ := inChunk_store issues reaches unlocked (getG (s.ctx c).regs d).toNat id
  exact ⟨_, _, exec_storeForm issues.cur form, runs, fun k => (seen k).trans (ite_leBytes ..)⟩

theorem Sys2Proof.Claim.typedLoadsAndStores : Claim.TypedLoadsAndStores := by
  unfold Claim.TypedLoadsAndStores
  refine ⟨fun s c d a t o issues not3 not7 assigned => ?_, fun s c d a t o issues not7 assigned low high => ?_⟩
  · dsimp only
    intro reaches
    rw [← writeDest_f d (seesWord_lt_width s c _ assigned)]
    exact ⟨_, exec_ldf issues.cur (by omega), inChunk_load issues reaches _⟩
  · dsimp only
    intro reaches unlocked
    have good : ¬(frm (s.ctx c).regs = 0 ∨ 6 ≤ frm (s.ctx c).regs ∨ t.toNat = 0x7 ∨ 0xE ≤ t.toNat) := by
      rw [frm]
      omega
    obtain ⟨runs, seen⟩ := inChunk_store issues reaches unlocked _ _
    exact ⟨_, _, exec_stf_value issues.cur good rfl, runs, fun k => (seen k).trans (ite_bytesOf ..)⟩

/-- Settles O30: a load of a local address writes the destination's form of what the hart sees, and a store puts its bytes on top of the
stores that the chunk holds. -/
theorem localAccesses : Obligations.LocalAccesses := by
  unfold Obligations.LocalAccesses
  exact ⟨Claim.localLoads, Claim.localStores, Claim.typedLoadsAndStores⟩

end

section
/-! SUPPORT. The zugzwang stop (R154, R333, R336, R339). -/

namespace Sys2Proof.Claim
open Sys2Proof.Machine

variable {s t u : State} {p T : Nat}

/-! ### Tables with rising keys -/

section
variable {α : Type} {l : Tbl α}

theorem tget_of_mem (rising : l.Pairwise fun a b => a.1 < b.1) {x : Nat × α} (hx : x ∈ l) (d : α) : tget l x.1 d = x.2 := by
  induction rising with
  | nil => cases hx
  | cons below _ ih =>
    rw [tget]
    obtain rfl | later := List.mem_cons.1 hx
    · exact if_pos rfl
    · exact (if_neg (below x later).ne).trans (ih later)

/-- The keys of the entries that satisfy `P`, where an unlisted entry does not. -/
theorem mem_keys_filter (rising : l.Pairwise fun a b => a.1 < b.1) {P : α → Bool} {d : α} (no : P d = false) (k : Nat) :
    k ∈ (l.filter fun x => P x.2).map (·.1) ↔ P (tget l k d) = true := by
  constructor
  · intro listed
    obtain ⟨x, kept, rfl⟩ := List.mem_map.1 listed
    obtain ⟨hx, holds⟩ := List.mem_filter.1 kept
    rwa [tget_of_mem rising hx]
  · intro holds
    by_cases listed : ∃ x ∈ l, x.1 = k
    · obtain ⟨x, hx, rfl⟩ := listed
      rw [tget_of_mem rising hx] at holds
      exact List.mem_map.2 ⟨x, List.mem_filter.2 ⟨hx, holds⟩, rfl⟩
    · rw [tget_unlisted fun x hx e => listed ⟨x, hx, e⟩, no] at holds
      cases holds

theorem nodup_keys_filter (rising : l.Pairwise fun a b => a.1 < b.1) (P : Nat × α → Bool) : ((l.filter P).map (·.1)).Nodup := by
  refine List.pairwise_map.2 ((rising.sublist List.filter_sublist).imp fun below => below.ne)

end

theorem mem_residents (rising : s.ctxs.Pairwise fun a b => a.1 < b.1) (c : Nat) :
    c ∈ residents s p ↔ (s.ctx c).resident = true ∧ (s.ctx c).part = p := by
  refine (mem_keys_filter (P := fun h : Ctx => h.resident && decide (h.part = p)) (d := {}) rising rfl c).trans ?_
  rw [Bool.and_eq_true, decide_eq_true_eq]
  rfl

/-- Steps that each leave the state leave it together. -/
theorem forEach_self {α : Type} {l : List α} {f : α → State → State} (same : ∀ a ∈ l, f a s = s) : forEach l f s = s := by
  unfold forEach
  induction l with
  | nil => rfl
  | cons a l ih =>
    rw [List.foldl_cons, same a List.mem_cons_self]
    exact ih fun b hb => same b (List.mem_cons_of_mem a hb)

/-! ### Harts at the stop (R336) -/

/-- R336: the step of the stop at a hart before it is saved. -/
def stopStep (c : Nat) (s : State) : State := if (s.ctx c).halted || (s.ctx c).exited.isSome then s else stopHart c s

/-- R336: what it leaves of a hart that is between instructions or in a wait. -/
def stoppedCtx (h : Ctx) : Ctx :=
  match h.wait with
  | .acks | .fence .. | .stl .. | .bkfence | .mfence | .axwait _ | .wfi => { h with wait := .none }
  | .tyield _ => retiredCtx h (nextPc h.regs h.regs)
  | _ => h

theorem stopStep_hart {c : Nat} (stops : Stoppable (s.ctx c)) : OnlyHart c s (stopStep c s) ∧ (stopStep c s).ctx c = stoppedCtx (s.ctx c) := by
  obtain ⟨-, ⟨going, stays, armed⟩, -, noDrop⟩ := stops
  have refl : OnlyHart c s s := ⟨rfl, fun _ _ => rfl, fun _ => rfl⟩
  have ends : OnlyHart c s (setWait c .none s) ∧ (setWait c .none s).ctx c = { s.ctx c with wait := .none } :=
    ⟨onlyHart_modCtx .., modCtx_self ..⟩
  have step : stopStep c s = stopHart c s := if_neg (by rw [going, stays]; decide)
  rw [step]
  unfold stopHart finishStall stoppedCtx
  cases wait : (s.ctx c).wait with
  | acks | fence | stl | bkfence | mfence | axwait | wfi => exact ends
  | tyield =>
    obtain ⟨only, hart⟩ := retired_retire armed
    simp only [going]
    exact ⟨only, hart⟩
  | tlbinv | stopat => rw [wait] at noDrop; cases noDrop
  | _ => exact ⟨refl, rfl⟩

/-- R336: a stop changes only registers, wait and count of a hart. -/
theorem stoppedCtx_rest (h : Ctx) (r : Regs) (w : Wait) (k : Csrs) :
    { stoppedCtx h with regs := r, wait := w, csr := k } = { h with regs := r, wait := w, csr := k } := by
  unfold stoppedCtx
  cases h.wait <;> rfl

theorem stoppedCtx_resident (h : Ctx) : (stoppedCtx h).resident = h.resident := (congrArg Ctx.resident (stoppedCtx_rest h {} .none {}) :)
theorem stoppedCtx_chunk (h : Ctx) : (stoppedCtx h).chunk = h.chunk := (congrArg Ctx.chunk (stoppedCtx_rest h {} .none {}) :)
theorem stoppedCtx_gcn (h : Ctx) : (stoppedCtx h).gcn = h.gcn := (congrArg Ctx.gcn (stoppedCtx_rest h {} .none {}) :)

/-- R336: TYIELD ends; another instruction executes again, or its wait stands. -/
theorem stoppedCtx_regs (h : Ctx) :
    (stoppedCtx h).regs = match h.wait with | .tyield _ => nextPc h.regs h.regs | _ => h.regs := by
  unfold stoppedCtx
  cases h.wait <;> rfl

/-- R336: the harts of a list stop one after another. -/
theorem stopAll (l : List Nat) (distinct : l.Nodup) (s : State) (stops : ∀ m ∈ l, Stoppable (s.ctx m)) :
    let t := forEach l stopStep s
    { t with ctxs := s.ctxs } = s ∧ (∀ x, x ∉ l → t.ctx x = s.ctx x) ∧ ∀ m ∈ l, t.ctx m = stoppedCtx (s.ctx m) := by
  unfold forEach
  induction l generalizing s with
  | nil => exact ⟨rfl, fun _ _ => rfl, nofun⟩
  | cons c l ih =>
    obtain ⟨new, distinct⟩ := List.nodup_cons.1 distinct
    obtain ⟨only, hart⟩ := stopStep_hart (stops c List.mem_cons_self)
    have same (m : Nat) (hm : m ∈ l) : (stopStep c s).ctx m = s.ctx m := only.harts m fun e => new (e ▸ hm)
    obtain ⟨device, others, stopped⟩ := ih distinct (stopStep c s) fun m hm => by
      rw [same m hm]
      exact stops m (List.mem_cons_of_mem c hm)
    rw [List.foldl_cons]
    refine ⟨(congrArg (fun v : State => { v with ctxs := s.ctxs }) device).trans only.device, fun x hx => ?_, fun m hm => ?_⟩
    · rw [List.mem_cons, not_or] at hx
      exact (others x hx.2).trans (only.harts x hx.1)
    · obtain rfl | later := List.mem_cons.1 hm
      · exact (others m new).trans hart
      · rw [stopped m later, same m later]

/-! ### Saves (R333) -/

/-- R336: the answer to a load that a saved hart still waits for is dropped; the load executes again. -/
def savedWait : Wait → Wait
  | .remoteLoad .. => .none
  | w => w

theorem savedWait_stoppedCtx (h : Ctx) : savedWait (stoppedCtx h).wait = keptWait h.wait := by
  unfold stoppedCtx
  cases wait : h.wait <;> simp only [wait] <;> rfl

theorem saveCtx_savedCtx {c : Nat} (res : (s.ctx c).resident = true) (idle : (s.ctx c).chunk = none) :
    ∃ im, (saveCtx c s).ctx c = savedCtx im (s.ctx c) := by
  obtain ⟨ks, e⟩ := saveCtx_resident res idle
  rw [e]
  exact ⟨_, (modCtx_self ..).trans (congrArg _ (carry_self c s))⟩

theorem saveCtx_wait {c : Nat} (res : (s.ctx c).resident = true) (idle : (s.ctx c).chunk = none) :
    ((saveCtx c s).ctx c).wait = savedWait (s.ctx c).wait := by
  obtain ⟨im, saved⟩ := saveCtx_savedCtx res idle
  rw [saved]
  rfl

/-- R333: the waits of harts that are saved one after another. -/
theorem saveAll_wait (l : List Nat) (distinct : l.Nodup) (s : State) (idle : ∀ m ∈ l, (s.ctx m).resident = true ∧ (s.ctx m).chunk = none) :
    ∀ m ∈ l, ((forEach l saveCtx s).ctx m).wait = savedWait (s.ctx m).wait := by
  induction l generalizing s with
  | nil => nofun
  | cons c l ih =>
    obtain ⟨new, distinct'⟩ := List.nodup_cons.1 distinct
    obtain ⟨res, none_⟩ := idle c List.mem_cons_self
    have same (m : Nat) (hm : m ∈ l) : (saveCtx c s).ctx m = s.ctx m :=
      (saveCtx_other res none_ fun e => new (e ▸ hm)).eq (idle m (List.mem_cons_of_mem c hm)).2
    have rest : ∀ m ∈ l, ((saveCtx c s).ctx m).resident = true ∧ ((saveCtx c s).ctx m).chunk = none := fun m hm => by
      rw [same m hm]
      exact idle m (List.mem_cons_of_mem c hm)
    intro m hm
    change ((forEach l saveCtx (saveCtx c s)).ctx m).wait = _
    obtain rfl | later := List.mem_cons.1 hm
    · obtain ⟨-, others, -⟩ := saveAll l distinct' (saveCtx m s) rest
      rw [(others m new).eq (saveCtx_self res none_).chunk, saveCtx_wait res none_]
    · rw [ih distinct' _ rest m later, same m later]

/-! ### Tasks (R336) -/

/-- R336: placed tasks become resumable at GTIME. -/
def evictTasks (l : List Nat) (s : State) : State :=
  forEach l (fun k s => modTask k (fun k => { k with phase := .evicted, eligAt := s.gtime }) s) s

theorem evictTasks_device (l : List Nat) (s : State) : { evictTasks l s with tasks := s.tasks } = s :=
  List.foldlRecOn (motive := fun u : State => { u with tasks := s.tasks } = s) l _ rfl fun _ ih _ _ => ih

theorem evictTasks_task (l : List Nat) (s : State) (j : Nat) :
    (evictTasks l s).task j = if j ∈ l then { s.task j with phase := .evicted, eligAt := s.gtime } else s.task j := by
  induction l generalizing s with
  | nil => rfl
  | cons k l ih =>
    refine (ih _).trans ?_
    by_cases first : j = k
    · subst first
      rw [modTask_self, if_pos List.mem_cons_self]
      exact ite_self _
    · rw [modTask_other first]
      simp only [List.mem_cons, first, false_or]
      rfl

/-- R336: the tasks of a partition that are placed. -/
def placedTasks (s : State) (p : Nat) : List Nat := (s.tasks.filter fun k => decide (k.2.part = p) && decide (k.2.phase = .placed)).map (·.1)

theorem mem_placedTasks (rising : s.tasks.Pairwise fun a b => a.1 < b.1) (j : Nat) :
    j ∈ placedTasks s p ↔ (s.task j).part = p ∧ (s.task j).phase = .placed := by
  refine (mem_keys_filter (P := fun k : Task => decide (k.part = p) && decide (k.phase = .placed)) (d := {}) rising ?_ j).trans ?_
  · exact Bool.and_false _
  · rw [Bool.and_eq_true, decide_eq_true_eq, decide_eq_true_eq]
    rfl

/-! ### The stop of a partition (R336) -/

/-- R336: harts that have stopped are saved, their tasks become resumable, and the partition is stopped. -/
def stopPart (p T : Nat) (l : List Nat) (s : State) : State :=
  modPart p (fun t => { t with stop := none, stopped := true, stoppedAt := T, complete := false, flushed := [], routers := [] })
    (evictTasks (placedTasks (forEach l saveCtx s) p) (forEach l saveCtx s))

theorem stopPart_ctx (l : List Nat) (c : Nat) : (stopPart p T l u).ctx c = (forEach l saveCtx u).ctx c :=
  congrArg (fun l => tget l c ({} : Ctx)) (congrArg State.ctxs (evictTasks_device _ _) :)

/-- What the harts' stops and saves leave of the device, the rest of the stop leaves but for tasks and the partition. -/
structure Stopped (s t u : State) (p T : Nat) : Prop where
  mem : t.mem = s.mem
  part : t.part p = { s.part p with stop := none, stopped := true, stoppedAt := T, complete := false, flushed := [], routers := [] }
  task : ∀ j, t.task j = if j ∈ placedTasks s p then { s.task j with phase := .evicted, eligAt := s.gtime } else s.task j
  ctx : ∀ c, t.ctx c = u.ctx c

theorem stopPart_stopped {l : List Nat} (stops : { u with ctxs := s.ctxs } = s) (saves : SameDevice u (forEach l saveCtx u)) :
    Stopped s (stopPart p T l u) (forEach l saveCtx u) p T := by
  have device : SameDevice s (forEach l saveCtx u) := by
    unfold SameDevice at *
    exact (congrArg (fun v : State => { v with ctxs := s.ctxs, net := s.net, banks := s.banks, cores := s.cores }) saves).trans
        (congrArg (fun v : State => { v with net := s.net, banks := s.banks, cores := s.cores }) stops)
  have evicts := evictTasks_device (placedTasks (forEach l saveCtx u) p) (forEach l saveCtx u)
  have tasks (j : Nat) : (forEach l saveCtx u).task j = s.task j := congrArg (fun l => tget l j ({} : Task)) device.tasks
  have placed : placedTasks (forEach l saveCtx u) p = placedTasks s p := by
    unfold placedTasks
    rw [device.tasks]
  have parts : (forEach l saveCtx u).parts = s.parts := by
    unfold SameDevice at device
    exact (congrArg State.parts device :)
  exact {
    mem := (congrArg State.mem evicts :).trans device.mem
    part := by
      unfold stopPart
      have same : (evictTasks (placedTasks (forEach l saveCtx u) p) (forEach l saveCtx u)).part p = s.part p :=
        congrArg (fun l => tget l p ({} : Partition)) ((congrArg State.parts evicts :).trans parts)
      rw [modPart_part, if_pos rfl, same]
    task := fun j => by
      unfold stopPart
      rw [modPart_task, evictTasks_task, placed, tasks, device.gtime]
    ctx := stopPart_ctx l }

theorem finishTransfer_between {c : Nat} (between : arrayMid (s.ctx c) = false) (n : Nat) : finishTransfer n c s = s := by
  cases n with
  | zero => rfl
  | succ n =>
    rw [finishTransfer, between]
    rfl

/-! ### A row of AXMM whose C slot is written (R251, R255) -/

section
variable {c : Nat} {e : AEntry}

theorem slotsFe_one_ctx (image : (s.ctx c).image = none) (r : Ring) (n : Nat) (full : Bool) (x : Nat) :
    (slotsFe c r n 1 full s).ctx x = s.ctx x := by
  change (setLocalFe c _ _ full s).ctx x = _
  unfold setLocalFe
  dsimp only
  rw [image]
  rfl

/-- R185, R255: a slot's bits change, and the ring moves on. -/
theorem setRing_slotsFe_self (image : (s.ctx c).image = none) (k : Nat) (r r' : Ring) (n : Nat) (full : Bool) :
    (setRing c k r' (slotsFe c r n 1 full s)).ctx c =
      { s.ctx c with eng := { (s.ctx c).eng with rings := tput (s.ctx c).eng.rings k r' } } := by
  refine (modCtx_self ..).trans ?_
  rw [slotsFe_one_ctx image]

theorem finishArray_self (e : AEntry) (s : State) :
    (finishArray c e s).ctx c = { s.ctx c with eng := { (s.ctx c).eng with aq := (s.ctx c).eng.aq.tail } } := by
  have charged (n : Nat) (u : State) : (chargePass c n u).ctx c = u.ctx c := by
    unfold chargePass
    split <;> rfl
  exact (charged ..).trans (modCtx_self ..)

/-- R255: the rings and the queue of a hart after a row that it commits. -/
def rowRings (e : AEntry) (h : Ctx) : Tbl Ring :=
  let rc := getRing h (shCk (mmShape e))
  let ra := getRing h (shAk (mmShape e))
  tput (tput h.eng.rings (shCk (mmShape e)) { rc with tail := (rc.tail + 1) % 0x100000000 }) (shAk (mmShape e))
    { ra with head := (ra.head + 1) % 0x100000000 }

def rowQueue (e : AEntry) (r : List AEntry) : List AEntry := if e.row + 1 = shM (mmShape e) then r else advance e :: r

/-- R255: the slots of a row that commits: the C slot is published, the A slot consumed. -/
def moveSlots (c : Nat) (e : AEntry) (s : State) : State :=
  let rc := getRing (s.ctx c) (shCk (mmShape e))
  let ra := getRing (s.ctx c) (shAk (mmShape e))
  let s := setRing c (shCk (mmShape e)) { rc with tail := (rc.tail + 1) % 0x100000000 } (slotsFe c rc rc.tail 1 true s)
  setRing c (shAk (mmShape e)) { ra with head := (ra.head + 1) % 0x100000000 } (slotsFe c ra ra.head 1 false s)

theorem mmCommit_eq (c : Nat) (e : AEntry) (s : State) : mmCommit c e s =
    if e.row + 1 = shM (mmShape e) then finishArray c e (moveSlots c e s) else setHead c advance (moveSlots c e s) := rfl

theorem moveSlots_self (image : (s.ctx c).image = none) :
    (moveSlots c e s).ctx c = { s.ctx c with eng := { (s.ctx c).eng with rings := rowRings e (s.ctx c) } } := by
  unfold moveSlots
  dsimp only
  rw [setRing_slotsFe_self (by rw [setRing_slotsFe_self image]; exact image), setRing_slotsFe_self image]
  rfl

theorem mmCommit_self {r : List AEntry} (image : (s.ctx c).image = none) (queue : (s.ctx c).eng.aq = e :: r) :
    (mmCommit c e s).ctx c = { s.ctx c with eng := { (s.ctx c).eng with rings := rowRings e (s.ctx c), aq := rowQueue e r } } := by
  rw [mmCommit_eq]
  unfold rowQueue
  split
  · rw [finishArray_self, moveSlots_self image, queue]
    rfl
  · rw [setHead, modEng_eq, modCtx_self, moveSlots_self image, queue]

/-- R255: the row has committed, whatever else of the hart changes. -/
theorem rowCommitted_of {r : List AEntry} (apart : shAk (mmShape e) ≠ shCk (mmShape e)) (rings : (t.ctx c).eng.rings = rowRings e (s.ctx c))
    (queue : (t.ctx c).eng.aq = rowQueue e r) : RowCommitted s t c e r := by
  unfold RowCommitted ring
  rw [rings, queue]
  unfold rowRings
  refine ⟨(tget_tput ..).trans (if_pos rfl), ?_, rfl⟩
  rw [tget_tput, if_neg apart.symm, tget_tput, if_pos rfl]
  rfl

theorem finishTransfer_written {r : List AEntry} (queue : (s.ctx c).eng.aq = e :: r) (written : e.rowDone = true)
    (mid : arrayMid (s.ctx c) = true) (n : Nat) : finishTransfer (n + 1) c s = mmCommit c e s := by
  rw [finishTransfer, mid, queue]
  dsimp only
  rw [written]
  rfl

end

section
variable (announced : (s.part p).stop = some T)
include announced

theorem exec_zugzwangStop (due : T ≤ s.gtime) (runs : (s.part p).stopped = false) : exec (.zugzwangStop p) s =
    .next (stopPart p T (residents s p) (forEach (residents s p) stopStep
      (forEach (residents s p) (fun c s => finishTransfer 2048 c s) (forEach (residents s p) commitChunk s)))) := by
  refine congrArg Host.Outcome.next ?_
  dsimp only
  rw [announced]
  dsimp only
  rw [if_neg (Nat.not_lt.2 due), runs]
  rfl

theorem exec_zugzwangStop_stopped (due : T ≤ s.gtime) (stopped : (s.part p).stopped = true) :
    exec (.zugzwangStop p) s = .next (modPart p (fun t => { t with stop := none }) s) := by
  refine congrArg Host.Outcome.next ?_
  dsimp only
  rw [announced]
  dsimp only
  rw [if_neg (Nat.not_lt.2 due), stopped]
  rfl

theorem exec_zugzwangStop_early (early : s.gtime < T) : exec (.zugzwangStop p) s = .next s := by
  refine congrArg Host.Outcome.next ?_
  dsimp only
  rw [announced]
  exact if_pos early

end

end Sys2Proof.Claim
end

section
open Sys2Proof Sys2Proof.Machine Sys2Proof.Claim

/-- R336: a stop of harts that are between instructions or in a wait. -/
theorem Sys2Proof.Claim.stopSaves {s : State} {p T : Nat} (rising : s.ctxs.Pairwise fun a b => a.1 < b.1)
    (stops : ∀ c ∈ residents s p, Stoppable (s.ctx c)) :
    ∃ u, Stopped s (stopPart p T (residents s p) (forEach (residents s p) stopStep s)) u p T ∧
      (∀ c, c ∉ residents s p → KeptOrSquashed s.gtime (s.ctx c) (u.ctx c)) ∧
      ∀ c ∈ residents s p, SavedFrom s (stoppedCtx (s.ctx c)) (u.ctx c) ∧ (u.ctx c).wait = keptWait (s.ctx c).wait := by
  have distinct : (residents s p).Nodup := nodup_keys_filter rising _
  obtain ⟨device, others, stopped⟩ := stopAll (residents s p) distinct s stops
  have idle (c : Nat) (hc : c ∈ residents s p) : ((forEach (residents s p) stopStep s).ctx c).resident = true ∧
      ((forEach (residents s p) stopStep s).ctx c).chunk = none := by
    rw [stopped c hc, stoppedCtx_resident, stoppedCtx_chunk]
    exact ⟨((mem_residents rising c).1 hc).1, (stops c hc).noChunk⟩
  have waits := saveAll_wait (residents s p) distinct _ idle
  obtain ⟨same, kept, saved⟩ := saveAll (residents s p) distinct _ idle
  have gtime : (forEach (residents s p) stopStep s).gtime = s.gtime := (congrArg State.gtime device :)
  have mem : (forEach (residents s p) stopStep s).mem = s.mem := (congrArg State.mem device :)
  refine ⟨_, stopPart_stopped device same, fun c hc => ?_, fun c hc => ⟨?_, ?_⟩⟩
  · rw [← others c hc, ← gtime]
    exact kept c hc
  · rw [← stopped c hc]
    obtain ⟨res, regs, csr, chunk, im, image, pad⟩ := saved c hc
    exact ⟨res, regs, csr, chunk, im, image, by rw [← mem]; exact pad⟩
  · rw [waits c hc, stopped c hc, savedWait_stoppedCtx]

theorem Sys2Proof.Claim.zugzwangStop : Claim.ZugzwangStop := by
  unfold Claim.ZugzwangStop
  intro s p T announced
  refine ⟨fun due runs rising rising' stoppable => ?_, fun due runs rising c e n f q alone => ?_, fun due stopped => ?_,
    exec_zugzwangStop_early announced⟩
  · have stops (c : Nat) (hc : c ∈ residents s p) : Stoppable (s.ctx c) := by
      obtain ⟨x, hx, rfl⟩ := List.mem_map.1 hc
      obtain ⟨listed, here⟩ := List.mem_filter.1 hx
      rw [Bool.and_eq_true, decide_eq_true_eq] at here
      rw [State.ctx, tget_of_mem rising listed]
      exact stoppable x listed here.1 here.2
    have run := exec_zugzwangStop announced due runs
    rw [forEach_self fun c hc => commitChunk_none (stops c hc).noChunk,
      forEach_self fun c hc => finishTransfer_between (stops c hc).between 2048] at run
    obtain ⟨u, stopped, kept, saved⟩ := stopSaves (T := T) rising stops
    refine ⟨_, run, stopped.mem, stopped.part, fun j => ?_, fun c => ?_⟩
    · rw [stopped.task]
      exact if_congr (mem_placedTasks rising' j) rfl rfl
    · dsimp only
      rw [stopped.ctx]
      by_cases here : c ∈ residents s p
      · rw [if_pos ((mem_residents rising c).1 here)]
        obtain ⟨⟨res, regs, -, -, im, image, pad⟩, wait⟩ := saved c here
        refine ⟨res, wait, regs.trans (stoppedCtx_regs _), im, image, fun a => ?_⟩
        rw [pad, readByte_sliceBytes, stoppedCtx_gcn]
        rfl
      · rw [if_neg fun both => here ((mem_residents rising c).2 both)]
        exact kept c here
  · dsimp only
    intro idle wait going stays armed image queue axmm written apart
    obtain ⟨res, -⟩ := (mem_residents rising c).1 (alone ▸ List.mem_singleton_self c)
    have mid : arrayMid (s.ctx c) = true := by
      unfold arrayMid
      rw [queue]
      dsimp only
      rw [axmm]
      exact written
    have run := exec_zugzwangStop announced due runs
    rw [alone] at run
    have row := mmCommit_self image queue
    have stop : stopStep c (mmCommit c e s) = mmCommit c e s := by
      unfold stopStep stopHart finishStall
      rw [row, going, stays, wait]
      rfl
    obtain ⟨im, saved⟩ := saveCtx_savedCtx (s := mmCommit c e s) (c := c) (by rw [row]; exact res) (by rw [row]; exact idle)
    have left : (stopPart p T [c] (mmCommit c e s)).ctx c = savedCtx im ((mmCommit c e s).ctx c) := (stopPart_ctx [c] c).trans saved
    rw [row] at left
    refine ⟨stopPart p T [c] (mmCommit c e s), run.trans (congrArg Host.Outcome.next ?_), by rw [left]; rfl,
      rowCommitted_of apart (by rw [left]; rfl) (by rw [left]; rfl)⟩
    change stopPart p T [c] (stopStep c (finishTransfer 2048 c (commitChunk c s))) = _
    rw [commitChunk_none idle, finishTransfer_written queue written mid, stop]
  · refine ⟨_, exec_zugzwangStop_stopped announced due stopped, rfl, ?_, fun v other => ?_⟩
    · rw [modPart_part, if_pos rfl]
    · rw [modPart_part, if_neg other]

end

section
/-! SUPPORT. The flush of a stopped partition, and its resumption (R337, R339). -/

namespace Sys2Proof.Claim
open Sys2Proof.Machine

variable {s t u : State} {p q : Nat}

theorem onlyPart_modPart (p : Nat) (f : Partition → Partition) (s : State) : OnlyPart p s (modPart p f s) (f (s.part p)) :=
  ⟨rfl, (modPart_part ..).trans (if_pos rfl), fun _ other => (modPart_part ..).trans (if_neg other)⟩

/-! ### The flush (R337) -/

theorem exec_flushToken (stopped : (s.part p).stopped = true) {d : Nat} (due : (s.part p).stoppedAt + 64 ≤ s.gtime)
    (new : d ∉ (s.part p).flushed) :
    exec (.flushToken p d) s = .next (modPart p (fun t => { t with flushed := d :: t.flushed }) s) := by
  refine congrArg Host.Outcome.next (if_neg ?_)
  rintro (runs | early | listed)
  · rw [stopped] at runs
    cases runs
  · omega
  · exact new (List.contains_iff_mem.1 listed)

theorem exec_flushToken_not {d : Nat} (not_ : (s.part p).stopped = false ∨ s.gtime < (s.part p).stoppedAt + 64) :
    exec (.flushToken p d) s = .next s := by
  refine congrArg Host.Outcome.next (if_pos ?_)
  rw [Bool.not_eq_true']
  exact not_.imp_right .inl

/-- R337: a router moves the requests that it holds into its save buffer. -/
def flushRouter (p q : Nat) (s : State) : State :=
  modPart p (fun t => { t with routers := q :: t.routers, saved := t.saved ++ s.net.filter (requestAt s p q) })
    { s with net := s.net.filter fun x => !requestAt s p q x }

theorem exec_routerFlush (stopped : (s.part p).stopped = true) (token : q / 2048 ∈ (s.part p).flushed) (new : q ∉ (s.part p).routers)
    (noReply : ∀ x ∈ s.net, x.part = p → routerOf s x = q → isReply x.body = false) :
    exec (.routerFlush p q) s = .next (flushRouter p q s) := by
  have held : ((s.net.filter fun k => decide (k.part = p) && decide (routerOf s k = q)).filter fun k => isRequest k.body) =
      s.net.filter (requestAt s p q) := by
    rw [List.filter_filter]
    refine List.filter_congr fun x _ => ?_
    rw [Bool.and_comm]
    rfl
  have replies : ((s.net.filter fun k => decide (k.part = p) && decide (routerOf s k = q)).filter fun k => isReply k.body) = [] := by
    refine List.filter_eq_nil_iff.2 fun x hx => ?_
    obtain ⟨listed, here⟩ := List.mem_filter.1 hx
    rw [Bool.and_eq_true, decide_eq_true_eq, decide_eq_true_eq] at here
    rw [noReply x listed here.1 here.2]
    decide
  have others : (s.net.filter fun k => !(s.net.filter (requestAt s p q)).contains k) = s.net.filter fun x => !requestAt s p q x := by
    refine List.filter_congr fun x hx => congrArg (!·) ?_
    rw [Bool.eq_iff_iff, List.contains_iff_mem, List.mem_filter]
    exact and_iff_right hx
  refine congrArg Host.Outcome.next ((if_neg ?_).trans ?_)
  · rintro (runs | early | listed)
    · rw [stopped] at runs
      cases runs
    · rw [Bool.not_eq_true', ← Bool.not_eq_true, List.contains_iff_mem] at early
      exact early token
    · exact new (List.contains_iff_mem.1 listed)
  · dsimp only
    rw [held, replies, others]
    rfl

/-! ### The end of the flush (R337) -/

/-- R337: the token has crossed every die and router of the partition. -/
def Crossed (s : State) (p : Nat) : Prop := ∀ q ∈ clustersOf s p, q / 2048 ∈ (s.part p).flushed ∧ q ∈ (s.part p).routers

theorem crossed_iff : ((clustersOf s p).all fun q => (s.part p).flushed.contains (dieOf q) && (s.part p).routers.contains q) = true ↔ Crossed s p := by
  simp only [List.all_eq_true, Bool.and_eq_true, List.contains_iff_mem]
  rfl

theorem residents_eq_nil (saved : ∀ x ∈ s.ctxs, x.2.part = p → x.2.resident = false) : residents s p = [] := by
  refine List.map_eq_nil_iff.2 (List.filter_eq_nil_iff.2 fun x hx => ?_)
  rw [Bool.and_eq_true, decide_eq_true_eq]
  rintro ⟨res, here⟩
  rw [saved x hx here] at res
  cases res

/-- R337, R339: what completes a stop; a held request to resume is applied. -/
def completeStop (p : Nat) (s : State) : State :=
  if (s.part p).resumeHeld then resume p (modPart p (fun t => { t with complete := true }) s) else modPart p (fun t => { t with complete := true }) s

theorem completeStop_alone (noResume : (s.part p).resumeHeld = false) :
    completeStop p s = modPart p (fun t => { t with complete := true }) s := if_neg (by rw [noResume]; decide)

theorem completeStop_asked (asked : (s.part p).resumeHeld = true) :
    completeStop p s = resume p (modPart p (fun t => { t with complete := true }) s) := if_pos asked

theorem exec_stopComplete (stopped : (s.part p).stopped = true) (open_ : (s.part p).complete = false ∨ (s.part p).resumeHeld = true)
    (crossed : Crossed s p) (saved : ∀ x ∈ s.ctxs, x.2.part = p → x.2.resident = false) :
    exec (.stopComplete p) s = .next (completeStop p s) := by
  refine congrArg Host.Outcome.next (if_neg ?_)
  rintro (runs | ⟨complete, noResume⟩ | left | present)
  · rw [stopped] at runs
    cases runs
  · obtain open_ | held := open_
    · exact absurd complete (by rw [open_]; decide)
    · exact absurd noResume (by rw [held]; decide)
  · rw [crossed_iff.2 crossed] at left
    cases left
  · rw [residents_eq_nil saved] at present
    cases present

theorem exec_stopComplete_not (left : ¬Crossed s p) : exec (.stopComplete p) s = .next s := by
  refine congrArg Host.Outcome.next (if_pos (.inr (.inr (.inl ?_))))
  rw [Bool.not_eq_true', ← Bool.not_eq_true, crossed_iff]
  exact left

/-! ### Requests to resume (R339, R340) -/

theorem recalled_completed {x : Nat} : Recalled (modPart p (fun t => { t with complete := true }) s) p x ↔ Recalled s p x := by
  unfold Recalled
  rw [modPart_part, if_pos rfl]
  rfl

/-- R16: whether a mark operation is under way does not depend on a partition. -/
theorem marksIdle_modPart (f : Partition → Partition) (q : Nat) : marksIdle (modPart p f s) q = marksIdle s q := by
  unfold marksIdle
  refine congrArg (fun b : Bool => (s.cluster q).held.isEmpty && !b) (congrArg s.net.any (funext fun x => ?_))
  cases body : x.body with
  | mark op =>
    unfold flightDue
    rw [body]
    rfl
  | _ => rfl

theorem recalled_of_mem {x : Nat × Nat} (hx : x ∈ recalled s p) : Recalled s p x.2 := by
  obtain ⟨l, hl, hx⟩ := List.mem_flatMap.1 hx
  obtain ⟨y, hy, rfl⟩ := List.mem_map.1 hx
  obtain ⟨listed, here⟩ := List.mem_filter.1 hy
  obtain ⟨r, hr, rfl⟩ := List.mem_map.1 (List.mem_dedup.1 hl)
  exact ⟨r, hr, y, listed, rfl, of_decide_eq_true here⟩

theorem mem_of_recalled {x : Nat} : Recalled s p x → ∃ l, (l, x) ∈ recalled s p := by
  rintro ⟨r, hr, y, hy, rfl, here⟩
  exact ⟨r.1, List.mem_flatMap.2 ⟨r.1, List.mem_dedup.2 (List.mem_map_of_mem hr),
    List.mem_map.2 ⟨y, List.mem_filter.2 ⟨hy, decide_eq_true here⟩, rfl⟩⟩⟩

/-- R340, R355: a recalled cluster with a mark operation under way, or a cluster to be fenced, holds a resumption up. -/
def HeldUp (s : State) (p : Nat) : Prop := (∃ x, Recalled s p x ∧ marksIdle s x = false) ∨ faultHere s p = true

theorem resume_held (held : HeldUp s p) : resume p s = modPart p (fun t => { t with resumeHeld := true }) s := by
  refine if_neg fun free => ?_
  rw [Bool.and_eq_true, Bool.not_eq_true', List.all_eq_true] at free
  obtain ⟨noFault, idle⟩ := free
  obtain ⟨x, isRecalled, busy⟩ | fault := held
  · obtain ⟨l, listed⟩ := mem_of_recalled isRecalled
    have quiet : marksIdle s x = true := idle _ listed
    rw [busy] at quiet
    cases quiet
  · rw [noFault] at fault
    cases fault

/-- R339: the partition runs again where none of its clusters is recalled. -/
def resumeAll (p : Nat) (s : State) : State := restart p (modPart p (fun t => { t with recalls := [] }) s)

/-- R339: nothing holds the resumption up, and nothing is recalled. -/
theorem resume_free (noRecall : ∀ x, ¬Recalled s p x) (noFault : faultHere s p = false) :
    resume p s = restoreSome (savedGangs (resumeAll p s) p) (resumeAll p s) := by
  have none_ : recalled s p = [] := List.eq_nil_iff_forall_not_mem.2 fun x hx => noRecall x.2 (recalled_of_mem hx)
  unfold resume
  rw [none_, noFault]
  rfl

theorem exec_partitionResume (stopped : (s.part p).stopped = true) (complete : (s.part p).complete = true) :
    exec (.partitionResume p) s = .next (resume p s) :=
  congrArg Host.Outcome.next ((if_neg (by rw [stopped]; decide)).trans (if_pos complete))

theorem exec_partitionResume_open (stopped : (s.part p).stopped = true) (open_ : (s.part p).complete = false) :
    exec (.partitionResume p) s = .next (modPart p (fun t => { t with resumeHeld := true }) s) :=
  congrArg Host.Outcome.next ((if_neg (by rw [stopped]; decide)).trans (if_neg (by rw [open_]; decide)))

theorem exec_partitionResume_not (runs : (s.part p).stopped = false) : exec (.partitionResume p) s = .next s :=
  congrArg Host.Outcome.next (if_pos (by rw [runs]; rfl))

/-! ### The partition as it runs again (R339) -/

theorem filter_later (o : Option Nat) (n : Nat) :
    (match o with | some u => if u ≤ n then none else some u | none => none) = o.filter fun u => decide (n < u) := by
  cases o with
  | none => rfl
  | some u =>
    by_cases past : u ≤ n
    · rw [Option.filter_some, decide_eq_false (Nat.not_lt.2 past)]
      exact if_pos past
    · rw [Option.filter_some, decide_eq_true (Nat.lt_of_not_le past)]
      exact if_neg past

theorem forgotten_part (l : List Packet) (v : Nat) :
    ({ modPart p (fun t => { t with recalls := [] }) s with net := l } : State).part v =
      if v = p then { s.part p with recalls := [] } else s.part v :=
  modPart_part s p v fun t => { t with recalls := [] }

theorem resumeAll_part (p : Nat) (s : State) : (resumeAll p s).part p = resumed s (s.part p) := by
  unfold resumeAll restart resumed
  rw [modPart_part, if_pos rfl, forgotten_part, if_pos rfl, ← filter_later]
  rfl

theorem resumeAll_part_other {v : Nat} (other : v ≠ p) : (resumeAll p s).part v = s.part v := by
  unfold resumeAll restart
  rw [modPart_part, if_neg other, forgotten_part, if_neg other]

theorem resumeAll_device (p : Nat) (s : State) : { resumeAll p s with net := s.net, parts := s.parts } = s := rfl

/-- R339, R356: a saved request is injected, or rejected where its cluster serves the partition no more. -/
def injected (s : State) (p : Nat) (x : Packet) : Packet :=
  match x.body with
  | .load _ | .store _ | .atomic .. =>
    if x.dev = none ∧ ((s.cluster x.pcn).fenced = true ∨ serves (s.cluster x.pcn) ≠ some p) then { x with body := .reject } else x
  | _ => x

theorem reinjected_eq (s : State) (p : Nat) (x : Packet) : reinjected s p x = injected s p x := by
  have cond : (x.dev.isNone && ((s.cluster x.pcn).fenced || decide (serves (s.cluster x.pcn) ≠ some p))) = true ↔
      x.dev = none ∧ ((s.cluster x.pcn).fenced = true ∨ serves (s.cluster x.pcn) ≠ some p) := by
    rw [Bool.and_eq_true, Bool.or_eq_true, decide_eq_true_eq, Option.isNone_iff_eq_none]
  unfold reinjected injected
  cases x.body with
  | load | store | atomic => exact if_congr cond rfl rfl
  | _ => rfl

theorem resumeAll_net (p : Nat) (s : State) : (resumeAll p s).net = (s.part p).saved.map (injected s p) ++ s.net := by
  have saved : ((modPart p (fun t => { t with recalls := [] }) s).part p).saved = (s.part p).saved := by
    rw [modPart_part, if_pos rfl]
  unfold resumeAll restart
  change _ ++ _ = _
  rw [saved]
  exact congrArg (· ++ s.net) (List.map_congr_left fun x _ => reinjected_eq s p x)

/-! ### Gangs that are restored at once (R339) -/

/-- R339: one saved gang, which may be restored where its cores are free. -/
def restoreStep (k : Nat) (s : State) : State :=
  match placeOld s (s.task k) with
  | none => s
  | some q => if (drawNat s).1 % 2 = 1 then restoreGang k q (drawNat s).2 else (drawNat s).2

theorem restoreSome_eq (l : List Nat) (s : State) : restoreSome l s = forEach l restoreStep s := rfl

/-- R339: what restoring gangs leaves. -/
structure Restoring (s t : State) : Prop where
  parts : t.parts = s.parts
  net : t.net = s.net
  gtime : t.gtime = s.gtime

theorem restoreGang_restoring (k q : Nat) (s : State) : Restoring s (restoreGang k q s) := by
  obtain ⟨⟨_, _, _, _, _, same⟩, -⟩ := restoreGang_only (s := s) (tid := k) (q := q)
  exact ⟨(congrArg State.parts same :), (congrArg State.net same :), (congrArg State.gtime same :)⟩

theorem restoreStep_restoring (k : Nat) (s : State) : Restoring s (restoreStep k s) := by
  unfold restoreStep
  cases placeOld s (s.task k) with
  | none => exact ⟨rfl, rfl, rfl⟩
  | some q =>
    dsimp only
    split
    · obtain ⟨parts, net, gtime⟩ := restoreGang_restoring k q (drawNat s).2
      exact ⟨parts, net, gtime⟩
    · exact ⟨rfl, rfl, rfl⟩

theorem restoreSome_restoring (l : List Nat) (s : State) : Restoring s (restoreSome l s) :=
  List.foldlRecOn (motive := Restoring s) l _ ⟨rfl, rfl, rfl⟩ fun u ih k _ =>
    let step := restoreStep_restoring k u
    ⟨step.parts.trans ih.parts, step.net.trans ih.net, step.gtime.trans ih.gtime⟩

/-- R19: a task whose gang is restored at cycle `n`. -/
def placedAt (n : Nat) (k : Task) : Task := { k with phase := .placed, residentAt := n }

theorem restoreStep_task {k : Nat} (evicted : (s.task k).phase = .evicted) :
    (restoreStep k s).task k = s.task k ∨ (restoreStep k s).task k = placedAt s.gtime (s.task k) := by
  unfold restoreStep
  cases placeOld s (s.task k) with
  | none => exact .inl rfl
  | some q =>
    dsimp only
    split
    · exact .inr (restoreGang_task (s := (drawNat s).2) evicted)
    · exact .inl rfl

theorem restoreStep_task_other {j k : Nat} (other : j ≠ k) : (restoreStep k s).task j = s.task j := by
  unfold restoreStep
  cases placeOld s (s.task k) with
  | none => rfl
  | some q =>
    dsimp only
    split
    · exact restoreGang_task_other (s := (drawNat s).2) other
    · rfl

/-- R339: of evicted tasks some are placed again, and no other task changes. -/
theorem restoreSome_task (l : List Nat) (distinct : l.Nodup) (s : State) (evicted : ∀ k ∈ l, (s.task k).phase = .evicted) (j : Nat) :
    (restoreSome l s).task j = s.task j ∨ (j ∈ l ∧ (restoreSome l s).task j = placedAt s.gtime (s.task j)) := by
  induction l generalizing s with
  | nil => exact .inl rfl
  | cons k l ih =>
    obtain ⟨new, distinct⟩ := List.nodup_cons.1 distinct
    have same (i : Nat) (hi : i ∈ l) : (restoreStep k s).task i = s.task i := restoreStep_task_other fun e => new (e ▸ hi)
    have rest := ih distinct (restoreStep k s) fun i hi => by
      rw [same i hi]
      exact evicted i (List.mem_cons_of_mem k hi)
    change (restoreSome l (restoreStep k s)).task j = _ ∨ _ ∧ (restoreSome l (restoreStep k s)).task j = _
    rw [(restoreStep_restoring k s).gtime] at rest
    by_cases first : j = k
    · subst first
      obtain kept | ⟨listed, -⟩ := rest
      · rw [kept]
        exact (restoreStep_task (evicted j List.mem_cons_self)).imp_right fun placed => ⟨List.mem_cons_self, placed⟩
      · exact absurd listed new
    · rw [restoreStep_task_other first] at rest
      exact rest.imp_right fun ⟨listed, placed⟩ => ⟨List.mem_cons_of_mem k listed, placed⟩

theorem mem_savedGangs (rising : s.tasks.Pairwise fun a b => a.1 < b.1) (j : Nat) :
    j ∈ savedGangs s p ↔ (s.task j).part = p ∧ (s.task j).phase = .evicted := by
  refine (mem_keys_filter (P := fun k : Task => decide (k.part = p) && decide (k.phase = .evicted)) (d := {}) rising ?_ j).trans ?_
  · exact Bool.and_false _
  · rw [Bool.and_eq_true, decide_eq_true_eq, decide_eq_true_eq]
    rfl

/-- R339: with no gang's cores free the partition only runs again. -/
theorem restoreSome_none {l : List Nat} (none_ : ∀ k ∈ l, placeOld s (s.task k) = none) : restoreSome l s = s := by
  rw [restoreSome_eq]
  refine forEach_self fun k hk => ?_
  unfold restoreStep
  rw [none_ k hk]

/-- R325: whether a gang fits depends on a partition's map only. -/
theorem samePlaces_part (device : { t with parts := s.parts } = s)
    (here : (t.part p).count = (s.part p).count ∧ (t.part p).map = (s.part p).map) (others : ∀ v, v ≠ p → t.part v = s.part v) :
    SamePlaces s t := by
  refine ⟨t.parts, (congrArg (fun u : State => { u with parts := t.parts }) device :), fun x => ?_⟩
  change (t.part x).count = _ ∧ (t.part x).map = _
  by_cases self : x = p
  · rw [self]
    exact here
  · rw [others x self]
    exact ⟨rfl, rfl⟩

theorem placeOld_resumeAll (p : Nat) (s : State) (k : Task) : placeOld (resumeAll p s) k = placeOld s k := by
  have same : SamePlaces s { resumeAll p s with net := s.net } := by
    refine samePlaces_part (p := p) rfl ?_ fun v other => resumeAll_part_other other
    change ((resumeAll p s).part p).count = _ ∧ ((resumeAll p s).part p).map = _
    rw [resumeAll_part]
    exact ⟨rfl, rfl⟩
  exact same.placeOld k

/-- R339: what a resumption leaves, from a state that differs from `s` at most in the partition. -/
structure Resumes (s t : State) (p : Nat) : Prop where
  part : t.part p = resumed s (s.part p)
  rest : NoReturn s p → { t with net := s.net, parts := s.parts } = s
  task : s.tasks.Pairwise (fun a b => a.1 < b.1) → ∀ j, t.task j = s.task j ∨
    ((s.task j).part = p ∧ (s.task j).phase = .evicted ∧ t.task j = placedAt s.gtime (s.task j))
  net : t.net = (s.part p).saved.map (injected s p) ++ s.net

theorem resume_resumes (noRecall : ∀ x, ¬Recalled s p x) (noFault : faultHere s p = false) : Resumes s (resume p s) p := by
  rw [resume_free noRecall noFault]
  have restoring := restoreSome_restoring (savedGangs (resumeAll p s) p) (resumeAll p s)
  exact {
    part := (congrArg (fun l => tget l p ({} : Partition)) restoring.parts).trans (resumeAll_part p s)
    rest := fun noReturn => by
      rw [restoreSome_none fun k hk => ?_]
      · exact resumeAll_device p s
      · obtain ⟨x, hx, rfl⟩ := List.mem_map.1 hk
        obtain ⟨listed, here⟩ := List.mem_filter.1 hx
        rw [Bool.and_eq_true, decide_eq_true_eq, decide_eq_true_eq] at here
        exact (placeOld_resumeAll ..).trans (noReturn x listed here.1 here.2)
    task := fun rising j => by
      have evicted (k : Nat) (hk : k ∈ savedGangs (resumeAll p s) p) := (mem_savedGangs (s := s) rising k).1 hk
      refine (restoreSome_task _ (nodup_keys_filter rising _) (resumeAll p s) (fun k hk => (evicted k hk).2) j).imp_right ?_
      exact fun ⟨listed, placed⟩ => ⟨(evicted j listed).1, (evicted j listed).2, placed⟩
    net := restoring.net.trans (resumeAll_net p s) }

/-- R337: the stop is complete as well, which a resumption forgets. -/
theorem Resumes.of_completed {t : State} (resumes : Resumes (modPart p (fun t => { t with complete := true }) s) t p) : Resumes s t p := by
  obtain ⟨part, rest, task, net⟩ := resumes
  rw [modPart_part, if_pos rfl] at part net
  refine ⟨part, fun noReturn => ?_, task, net⟩
  have same : SamePlaces s (modPart p (fun t => { t with complete := true }) s) := by
    obtain ⟨device, here, others⟩ := onlyPart_modPart p (fun t => { t with complete := true }) s
    exact samePlaces_part device (by rw [here]; exact ⟨rfl, rfl⟩) others
  have kept := rest fun x hx here evicted => (same.placeOld _).trans (noReturn x hx here evicted)
  exact (congrArg (fun v : State => { v with parts := s.parts }) kept :)

end Sys2Proof.Claim
end

section
open Sys2Proof Sys2Proof.Machine Sys2Proof.Claim

theorem Sys2Proof.Claim.flushAndResume : Claim.FlushAndResume := by
  unfold Claim.FlushAndResume
  intro s p
  dsimp only
  refine ⟨fun d stopped due new => ⟨_, exec_flushToken stopped due new, onlyPart_modPart ..⟩, fun d => exec_flushToken_not,
    fun q stopped token new noReply => ⟨_, exec_routerFlush stopped token new noReply, rfl, rfl, ?_⟩,
    fun stopped open_ noResume crossed saved => ⟨_, exec_stopComplete stopped (.inl open_) crossed saved, ?_⟩,
    fun _ _ left => exec_stopComplete_not fun crossed => ?_,
    fun stopped complete held => ⟨_, exec_partitionResume stopped complete, ?_⟩,
    fun stopped asked crossed saved held => ⟨_, exec_stopComplete stopped (.inr asked) crossed saved, ?_⟩,
    fun i request stopped noRecall noFault => ?_,
    fun stopped open_ => ⟨_, exec_partitionResume_open stopped open_, onlyPart_modPart ..⟩, exec_partitionResume_not⟩
  · exact (modPart_part ..).trans (if_pos rfl)
  · rw [completeStop_alone noResume]
    exact onlyPart_modPart ..
  · obtain ⟨q, served, left⟩ := left
    obtain ⟨token, router⟩ := crossed q served
    exact left.elim (absurd token) (absurd router)
  · rw [resume_held held]
    exact onlyPart_modPart ..
  · have held : HeldUp (modPart p (fun t => { t with complete := true }) s) p :=
      held.imp_left fun ⟨x, isRecalled, busy⟩ => ⟨x, recalled_completed.2 isRecalled, (marksIdle_modPart ..).trans busy⟩
    rw [completeStop_asked asked, resume_held held]
    obtain ⟨device, here, others⟩ := onlyPart_modPart p (fun t => { t with complete := true }) s
    refine ⟨rfl, ?_, fun v other => (modPart_part ..).trans ((if_neg other).trans (others v other))⟩
    rw [modPart_part, if_pos rfl, here, ← asked]
  · suffices resumes : ∃ t, exec i s = .next t ∧ Resumes s t p by
      obtain ⟨t, run, part, rest, task, net⟩ := resumes
      exact ⟨t, run, part, rest, task, net⟩
    obtain ⟨rfl, complete⟩ | ⟨rfl, asked, crossed, saved⟩ := request
    · exact ⟨_, exec_partitionResume stopped complete, resume_resumes noRecall noFault⟩
    · refine ⟨_, exec_stopComplete stopped (.inr asked) crossed saved, ?_⟩
      rw [completeStop_asked asked]
      exact (resume_resumes (fun x isRecalled => noRecall x (recalled_completed.1 isRecalled)) noFault).of_completed

/-- Settles O58: the harts of a stop are saved one by one, each between instructions, in a wait it keeps, or at a row boundary; a
resumption puts back what the routers have saved, and no gang but a saved one of the partition. -/
theorem preemption : Obligations.Preemption := by
  unfold Obligations.Preemption
  exact ⟨Claim.zugzwangStop, Claim.flushAndResume⟩

end

section
/-! SUPPORT. Acquiring and releasing accesses, and fences (R156, R161, R167, R203, R204). -/

namespace Sys2Proof.Claim
open Sys2Proof.Machine

variable {s u : State} {c k : Nat} {a b d z : R5} {i : Instr}

/-- R204: the hart of a release is as it was. -/
theorem cover_self (c z : Nat) (s : State) : (cover c z s).ctx c = s.ctx c := setCovers_self ..

/-! ### Local accesses (R159, R161) -/

/-- R202: a hart's local write as one access, after which it retires; nothing but its registers may have changed before. -/
theorem wrote_sramWrite (armed : (s.ctx c).armed = none) (k : Nat) (b : List Byte) :
    Wrote c s (retire c (sramWrite k b (some c) s)) (nextPc (s.ctx c).regs (s.ctx c).regs) k b :=
  wrote_retire armed (sramWrite_self b) rfl rfl (fun x _ => sramWrite_ctx b _ x) (sramWrite_memory b (some c))

/-- R161, R204: a local STL whose wait is over releases what the hart has in flight, and stores. -/
theorem wrote_stlDo {ea : W64} (armed : (s.ctx c).armed = none) (isLocal : ea.getLsbD 63 = false) (v : W64) (z : Nat) :
    Wrote c (cover c z s) (stlDo c ea v z s) (nextPc (s.ctx c).regs (s.ctx c).regs) (keyOf s c ea) (bytesOf 8 v.toNat) ∧
      (stlDo c ea v z s).fe = s.fe := by
  have own := cover_self c z s
  have armed' : ((cover c z s).ctx c).armed = none := by rw [own]; exact armed
  have stores : stlDo c ea v z s = retire c (sramWrite (keyOf s c ea) (bytesOf 8 v.toNat) (some c) (cover c z s)) := by
    unfold stlDo keyOf
    dsimp only
    rw [isLocal, own, leBytes_eq]
    rfl
  obtain ⟨_, _, _, device⟩ := setCovers_eq c z (coversFor s c) s
  rw [stores, ← own]
  refine ⟨wrote_sramWrite armed' .., ?_⟩
  rw [retire_fe (by rw [sramWrite_self]; exact armed')]
  exact (congrArg State.fe device :)

section
variable (alone : HartAlone s c) (scope : z.toNat ≤ 4)
include alone scope

theorem exec_lda (reaches : Reaches s c (getG (s.ctx c).regs a) 8 { rd := true }) :
    exec (.lda d a z) s = .next (finishG c d (w64 (memWord s (keyOf s c (getG (s.ctx c).regs a)) 8)) s) := by
  obtain ⟨isLocal, aligned, permitted, free⟩ := reaches
  exact congrArg Host.Outcome.next ((coreOnly_hart alone.cur _).trans ((if_neg (Nat.not_lt.2 scope)).trans ((outside_alone alone _).trans
    ((if_neg (not_not.2 aligned)).trans ((if_pos (by rw [isLocal]; rfl)).trans ((if_neg (by rw [permitted]; decide)).trans
      (if_neg (by rw [free]; decide))))))))

theorem exec_stl (reaches : Reaches s c (getG (s.ctx c).regs a) 8 { w := true })
    (unlocked : lockedByte (s.ctx c) (getG (s.ctx c).regs a).toNat 8 = none) :
    exec (.stl a b z) s = .next (if pendingIn (s.ctx c) z.toNat false
      then setWait c (.stl (getG (s.ctx c).regs a) (getG (s.ctx c).regs b) z.toNat) s
      else stlDo c (getG (s.ctx c).regs a) (getG (s.ctx c).regs b) z.toNat s) := by
  obtain ⟨isLocal, aligned, permitted, free⟩ := reaches
  refine congrArg Host.Outcome.next ((coreOnly_hart alone.cur _).trans ((if_neg (Nat.not_lt.2 scope)).trans ((outside_alone alone _).trans
    ((if_neg (not_not.2 aligned)).trans ((if_neg (by rw [isLocal, permitted]; decide)).trans ((if_neg (by rw [isLocal]; exact Bool.false_ne_true)).trans
      ((if_neg (by rw [free, Bool.and_false]; decide)).trans ?_)))))))
  rw [isLocal, if_neg (by decide), unlocked]

end

/-- R156: a scope above 4 is illegal. -/
theorem exec_lda_illegal (cur : s.cur = .hart c) (bad : 4 < z.toNat) : exec (.lda d a z) s = .next (illegal c (.lda d a z) s) :=
  congrArg Host.Outcome.next ((coreOnly_hart cur _).trans (if_pos bad))

theorem exec_stl_illegal (cur : s.cur = .hart c) (bad : 4 < z.toNat) : exec (.stl a b z) s = .next (illegal c (.stl a b z) s) :=
  congrArg Host.Outcome.next ((coreOnly_hart cur _).trans (if_pos bad))

/-! ### Fences (R167, R203) -/

theorem exec_fenceForm {kind : FenceKind} (form : fenceForm i = some (z, kind)) : exec i s = .next (fenceOp i kind z s) := by
  cases i with
  | fence | fenceAcq | fenceRel => cases form; rfl
  | _ => cases form

theorem fenceOp_alone {kind : FenceKind} (alone : HartAlone s c) (scope : z.toNat ≤ 4) :
    fenceOp i kind z s = if pendingIn (s.ctx c) z.toNat (decide (kind = .acq)) then setWait c (.fence z.toNat kind) s
      else retire c (fenceCover c z.toNat kind s) :=
  (coreOnly_hart alone.cur _).trans ((if_neg (Nat.not_lt.2 scope)).trans (outside_alone alone _))

theorem fenceCover_eq (c z : Nat) (kind : FenceKind) (s : State) : fenceCover c z kind s = fenced c z kind s := by
  unfold fenceCover fenced
  by_cases core : z = 0
  · simp [core]
  · simp only [core, if_false, false_or]
    split
    · rfl
    · exact modCtx_congr rfl

/-- R203: of its hart a fence changes no more than what its later accesses wait for. -/
theorem fenced_self (c z : Nat) (kind : FenceKind) (s : State) : ∃ l, (fenced c z kind s).ctx c = { s.ctx c with scAcq := l } := by
  have released : (if z = 0 ∨ kind = .acq then s else cover c z s).ctx c = s.ctx c := by
    split
    · rfl
    · exact cover_self ..
  unfold fenced
  dsimp only
  generalize (if z = 0 ∨ kind = .acq then s else cover c z s) = r at released ⊢
  split
  · exact ⟨_, released⟩
  · rw [modCtx_self, released]
    exact ⟨_, rfl⟩

theorem retired_fenced (armed : (s.ctx c).armed = none) (z : Nat) (kind : FenceKind) :
    Retired c (fenced c z kind s) (retire c (fenceCover c z kind s)) (nextPc (s.ctx c).regs (s.ctx c).regs) := by
  obtain ⟨l, own⟩ := fenced_self c z kind s
  have retires := retired_retire (s := fenced c z kind s) (c := c) (by rw [own]; exact armed)
  rw [fenceCover_eq]
  rwa [own] at retires

end Sys2Proof.Claim
end

section
open Sys2Proof Sys2Proof.Machine Sys2Proof.Claim

theorem Sys2Proof.Claim.acquireRelease : Claim.AcquireRelease := by
  unfold Claim.AcquireRelease
  intro s c alone
  dsimp only
  refine ⟨fun d a z scope reaches => ?_, fun a b z scope reaches unlocked => ?_, fun t e v z wait live armed isLocal settled free => ?_,
    fun i w form word => ?_⟩
  · exact ⟨_, exec_lda alone scope reaches, retired_finishG alone.notArmed ..⟩
  · rw [exec_stl alone scope reaches unlocked]
    split
    · next settled =>
      exact ⟨_, congrArg _ (if_neg (by rw [settled]; decide)), wrote_stlDo alone.notArmed reaches.isLocal ..⟩
    · next waits => exact congrArg _ (if_pos (Bool.not_eq_false _ ▸ waits))
  · refine ⟨_, congrArg Host.Outcome.next ?_, wrote_stlDo armed isLocal v z⟩
    dsimp only
    rw [wait]
    exact if_pos (by rw [mayWake_of_live live, settled, free]; simp)
  · have traps : exec i s = .next (illegal c i s) := by
      obtain ⟨d, a, z, bad, rfl⟩ | ⟨a, b, z, bad, rfl⟩ := form
      · exact exec_lda_illegal alone.cur bad
      · exact exec_stl_illegal alone.cur bad
    rw [traps, illegal_encoded word]
    rfl

theorem Sys2Proof.Claim.fences : Claim.Fences := by
  unfold Claim.Fences
  refine ⟨fun s c i z kind alone form scope => ?_, fun s c z kind wait live armed settled => ?_⟩
  · rw [exec_fenceForm form, fenceOp_alone alone scope]
    split
    · next settled => exact ⟨_, congrArg _ (if_neg (by rw [settled]; decide)), retired_fenced alone.notArmed ..⟩
    · next waits => exact congrArg _ (if_pos (Bool.not_eq_false _ ▸ waits))
  · refine ⟨_, congrArg Host.Outcome.next ?_, retired_fenced armed ..⟩
    dsimp only
    rw [wait]
    exact if_pos (by rw [mayWake_of_live live, fencePending, settled]; rfl)

/-- Settles O33: the instruction and the end of its wait run one release (`wrote_stlDo`) and one fence (`retired_fenced`). -/
theorem releaseAndFence : Obligations.ReleaseAndFence := by
  unfold Obligations.ReleaseAndFence
  exact ⟨acquireRelease, fences⟩

end

section
/-! SUPPORT. What commits and releases leave of the harts and of what is on its way (R200, R201, R204, R205). -/

namespace Sys2Proof.Claim
open Sys2Proof.Machine

variable {s t u : State} {c k n o q z : Nat}

/-! ### Harts (R201) -/

/-- What a squash leaves of a hart: all but its registers, its chunk and the count of its squashes. -/
def unsquashed (h : Ctx) : Ctx := { h with regs := {}, chunk := none, squashes := 0, solo := false, soloSince := 0 }

theorem unsquashed_squash (n : Nat) (h : Ctx) : unsquashed (squash n h) = unsquashed h := by
  unfold squash
  split <;> rfl

/-- The harts of `t` are listed as those of `s`, and differ by squashes at most. -/
def SameHarts (s t : State) : Prop := t.ctxs.map (Prod.map id unsquashed) = s.ctxs.map (Prod.map id unsquashed)

theorem SameHarts.trans (a : SameHarts s t) (b : SameHarts t u) : SameHarts s u := Eq.trans b a

theorem SameHarts.ofMap {f : Nat × Ctx → Nat × Ctx} (same : ∀ p, Prod.map id unsquashed (f p) = Prod.map id unsquashed p)
    (maps : t.ctxs = s.ctxs.map f) : SameHarts s t := by
  unfold SameHarts
  rw [maps, List.map_map]
  exact List.map_congr_left fun p _ => same p

theorem SameHarts.forEach {α : Type} {g : α → State → State} (l : List α) (hg : ∀ a u, SameHarts u (g a u)) (s : State) :
    SameHarts s (forEach l g s) := by
  unfold Machine.forEach
  induction l generalizing s with
  | nil => exact rfl
  | cons a l ih => exact (hg a s).trans (ih _)

theorem SameHarts.squashReaders (q : Nat) (words : List Nat) (me : Option Nat) (s : State) : SameHarts s (squashReaders q words me s) := by
  refine .ofMap (fun p => ?_) rfl
  split
  · rfl
  · split
    · exact congrArg (Prod.mk p.1) (unsquashed_squash ..)
    · rfl

theorem SameHarts.squashMeeting (who : Nat → Bool) (q : Nat) (words : List Nat) (s : State) : SameHarts s (squashMeeting who q words s) := by
  refine .ofMap (fun p => ?_) rfl
  split
  · rfl
  · split
    · exact congrArg (Prod.mk p.1) (unsquashed_squash ..)
    · rfl

theorem SameHarts.setCovers (c z : Nat) (covered : Nat → List Release → Bool) (s : State) : SameHarts s (setCovers c z covered s) := by
  rw [setCovers_parts]
  refine SameHarts.trans (t := { s with net := _, banks := _ }) rfl (.forEach _ (fun p u => ?_) _)
  unfold squashOvertaken
  split
  · exact .squashMeeting ..
  · exact rfl

theorem SameHarts.cover (c z : Nat) (s : State) : SameHarts s (cover c z s) := .setCovers ..

theorem SameHarts.sramWrite (k : Nat) (b : List Byte) (me : Option Nat) (s : State) : SameHarts s (sramWrite k b me s) :=
  SameHarts.squashReaders (keyCluster k) (wordsOf k b.length) me { s with mem := writeBytes s.mem k b }

section
variable (same : SameHarts s t)
include same

theorem SameHarts.ctx (x : Nat) : unsquashed (t.ctx x) = unsquashed (s.ctx x) := by
  have read (s : State) : tget (s.ctxs.map (Prod.map id unsquashed)) x {} = unsquashed (s.ctx x) :=
    tget_map (f := fun _ => unsquashed) (fun _ => rfl) s.ctxs rfl
  rw [← read, ← read, same]

theorem SameHarts.rising (rising : s.ctxs.Pairwise fun a b => a.1 < b.1) : t.ctxs.Pairwise fun a b => a.1 < b.1 := by
  have keys (s : State) : s.ctxs.Pairwise (fun a b => a.1 < b.1) ↔ (s.ctxs.map (Prod.map id unsquashed)).Pairwise fun a b => a.1 < b.1 :=
    (List.pairwise_map (f := Prod.map id unsquashed) (R := fun a b : Nat × Ctx => a.1 < b.1)).symm
  rw [keys, same, ← keys]
  exact rising

theorem SameHarts.residentOn (g : Nat) : t.residentOn g = s.residentOn g := by
  have read (s : State) : s.residentOn g =
      ((s.ctxs.map (Prod.map id unsquashed)).find? fun p => p.2.resident && p.2.gcn == g).map (·.1) := by
    rw [List.find?_map, Option.map_map]
    rfl
  rw [read, read, same]

/-- R112: squashes leave every ring. -/
theorem SameHarts.remoteLocked : remoteLocked t q o n = remoteLocked s q o n := by
  have locks (x : Nat) : lockedByte (t.ctx x) (o % 0x8000) n = lockedByte (s.ctx x) (o % 0x8000) n := by
    have rings : (t.ctx x).eng.rings = (s.ctx x).eng.rings := (congrArg (fun h : Ctx => h.eng.rings) (same.ctx x) :)
    unfold lockedByte
    rw [rings]
  unfold Machine.remoteLocked
  simp only [same.residentOn, locks]

end

/-! ### Packets (R204, R205) -/

/-- R204: a write of another hart that no release covers stays so. -/
theorem cover_uncovered {p : Packet} (other : p.cid ≠ c) (uncovered : p.cover = []) :
    (extendPacket c z s.gtime (coversFor s c) p).cover = [] := by
  obtain ⟨k, e, writes, reads⟩ := extendPacket_eq c z s.gtime (coversFor s c) p
  rw [e]
  cases w : reqWrites p.body with
  | false => exact (reads w).trans uncovered
  | true =>
    refine (writes w).trans (((extendCover_grown s c z p.cid p.cover).2 ?_).trans uncovered)
    rintro ⟨own | ⟨-, _, listed, -⟩, -⟩
    · exact other own
    · rw [uncovered] at listed
      cases listed

theorem cover_net (c z : Nat) (s : State) : (cover c z s).net = s.net.map (extendPacket c z s.gtime (coversFor s c)) := by
  obtain ⟨_, device⟩ := setCovers_device c z (coversFor s c) s
  exact (congrArg State.net device :)

/-- R205: what a release changes: harts, what covers packets in flight, and columns. -/
theorem cover_device (c z : Nat) (s : State) : ∃ cs ps bs, cover c z s = { s with ctxs := cs, net := ps, banks := bs } := setCovers_eq ..

theorem extendPacket_id (covered : Nat → List Release → Bool) (p : Packet) : ∃ l, extendPacket c z n covered p = { p with cover := l } := by
  obtain ⟨l, e, -⟩ := extendPacket_eq c z n covered p
  exact ⟨l, e⟩

theorem Fresh.cover (fresh : Fresh s) (c z : Nat) : Fresh (cover c z s) := by
  obtain ⟨_, _, _, device⟩ := cover_device c z s
  have number : (Machine.cover c z s).nextId = s.nextId := (congrArg State.nextId device :)
  intro p hp
  rw [cover_net] at hp
  obtain ⟨p, listed, rfl⟩ := List.mem_map.1 hp
  obtain ⟨l, e⟩ := extendPacket_id (c := c) (z := z) (n := s.gtime) (coversFor s c) p
  rw [e, number]
  exact fresh p listed

/-- R204: a hart with no packet on its way does not change what its release finds uncovered. -/
theorem Unordered.cover (free : Unordered s c q o n) (z : Nat) : Unordered (cover c z s) c q o n := by
  obtain ⟨quiet, apart⟩ := free
  obtain ⟨_, _, _, device⟩ := cover_device c z s
  have saved : ((Machine.cover c z s).part ((Machine.cover c z s).ctx c).part).saved = (s.part (s.ctx c).part).saved := by
    rw [cover_self]
    exact (congrArg (fun t : State => (t.part (s.ctx c).part).saved) device :)
  have lands (p : Packet) : landing (Machine.cover c z s) p = landing s p := (congrArg (fun t => landing t p) device :)
  have was : ∀ p ∈ onTheWay (Machine.cover c z s) c, ∃ e ∈ onTheWay s c, e.cid = p.cid ∧ e.pcn = p.pcn ∧ landing s e = landing s p ∧
      (e.cover = [] → p.cover = []) := by
    intro p hp
    unfold onTheWay at hp
    rw [cover_net, saved, List.mem_append, List.mem_map] at hp
    obtain ⟨e, listed, rfl⟩ | hp := hp
    · have among : e ∈ onTheWay s c := List.mem_append_left _ listed
      have other := quiet e among
      obtain ⟨l, same⟩ := extendPacket_id (c := c) (z := z) (n := s.gtime) (coversFor s c) e
      refine ⟨e, among, ?_, ?_, ?_, cover_uncovered other⟩
      · rw [same]
      · rw [same]
      · rw [same]
        rfl
    · exact ⟨p, List.mem_append_right _ hp, rfl, rfl, rfl, id⟩
  refine ⟨fun p hp => ?_, fun p hp covered target x hx => ?_⟩
  · obtain ⟨e, among, hart, -⟩ := was p hp
    rw [← hart]
    exact quiet e among
  · obtain ⟨e, among, -, cluster, lands', covers⟩ := was p hp
    refine apart e among (mt covers covered) (cluster.trans target) x ?_
    rw [lands', ← lands]
    exact hx

end Sys2Proof.Claim
end

section
/-! SUPPORT. Atomics (R162 to R165). -/

namespace Sys2Proof.Claim
open Sys2Proof.Machine

variable {s t u : State} {c k n o q op : Nat} {i : Instr} {d a b : R5} {sc : BitVec 1} {z : BitVec 2} {new : Option W64} {me : Option Nat}
  {l : List Packet} {p : Packet}

/-! ### The access (R163, R164) -/

/-- R163: the number of an atomic's operation, and what it writes. -/
theorem atomicForm_op (form : atomicForm i = some (n, d, a, b, sc, z)) :
    ∃ op, amoSize op = n ∧ exec i s = .next (amo op d a b sc z s) ∧
      ∀ x y e, atomicNew x y e i = if op = 9 ∧ x ≠ e then none else some (amoNew op x y e) := by
  cases i with
  | amoAdd | amoAnd | amoOr | amoXor | amoSwap | amoFaddF64 | amoFaddF32 =>
    cases form
    exact ⟨_, rfl, rfl, fun _ _ _ => rfl⟩
  | amoMin => cases form; exact ⟨4, rfl, rfl, fun _ _ _ => congrArg some (ite_eq_min ..).symm⟩
  | amoMax => cases form; exact ⟨5, rfl, rfl, fun _ _ _ => congrArg some (ite_eq_max ..).symm⟩
  | amoMinu => cases form; exact ⟨6, rfl, rfl, fun _ _ _ => congrArg some (ite_eq_minu ..).symm⟩
  | amoMaxu => cases form; exact ⟨7, rfl, rfl, fun _ _ _ => congrArg some (ite_eq_maxu ..).symm⟩
  | amoCas =>
    cases form
    refine ⟨9, rfl, rfl, fun x y e => ?_⟩
    by_cases matches_ : x = e
    · simp [atomicNew, amoNew, matches_]
    · simp [atomicNew, matches_]
  | _ => cases form

/-- R164: the bytes that an atomic writes, and its write. -/
def newBytes (n : Nat) (new : Option W64) : List Byte := match new with | some v => bytesOf n v.toNat | none => []
def atomicWrite (k n : Nat) (new : Option W64) (me : Option Nat) (s : State) : State :=
  match new with | some v => sramWrite k (bytesOf n v.toNat) me s | none => s

theorem amoApply_eq {y e : W64}
    (new : atomicNew (w64 (memWord s k (amoSize op))) y e i =
      if op = 9 ∧ w64 (memWord s k (amoSize op)) ≠ e then none else some (amoNew op (w64 (memWord s k (amoSize op))) y e)) :
    amoApply op k y e me s = (w64 (memWord s k (amoSize op)),
      atomicWrite k (amoSize op) (atomicNew (w64 (memWord s k (amoSize op))) y e i) me s) := by
  rw [new]
  unfold amoApply
  dsimp only
  rw [← memWord_eq]
  split
  · rfl
  · rw [leBytes_eq]
    rfl

theorem atomicWrite_device : ∃ cs m, atomicWrite k n new me s = { s with ctxs := cs, mem := m } := by
  cases new with
  | none => exact ⟨_, _, rfl⟩
  | some v => exact ⟨_, _, rfl⟩

theorem atomicWrite_fe : (atomicWrite k n new me s).fe = s.fe := by
  cases new with
  | none => rfl
  | some v => rfl

theorem atomicWrite_self : (atomicWrite k n new (some c) s).ctx c = s.ctx c := by
  cases new with
  | none => rfl
  | some v => exact sramWrite_self _

theorem atomicWrite_idle (idle : (s.ctx c).chunk = none) : (atomicWrite k n new me s).ctx c = s.ctx c := by
  cases new with
  | none => rfl
  | some v => exact sramWrite_idle idle ..

theorem atomicWrite_ctx (x : Nat) : (atomicWrite k n new me s).ctx x = s.ctx x ∨ (atomicWrite k n new me s).ctx x = squash s.gtime (s.ctx x) := by
  cases new with
  | none => exact .inl rfl
  | some v => exact sramWrite_ctx ..

theorem atomicWrite_memory (x : Nat) : readByte (atomicWrite k n new me s).mem x =
    if k ≤ x ∧ x < k + (newBytes n new).length then (newBytes n new).getD (x - k) 0 else readByte s.mem x := by
  cases new with
  | none => exact (if_neg (by simp [newBytes])).symm
  | some v => exact sramWrite_memory ..

/-! ### Local atomics (R165) -/

/-- R162: the state whose accesses an atomic's own follow: with SC it is a release at its scope. -/
def releasedFor (c : Nat) (sc : BitVec 1) (z : BitVec 2) (s : State) : State := if sc = 1 then cover c (z.toNat + 1) s else s

theorem releasedFor_self : (releasedFor c sc z s).ctx c = s.ctx c := by
  unfold releasedFor
  split
  · exact cover_self ..
  · rfl

theorem releasedFor_device : ∃ cs ps bs, releasedFor c sc z s = { s with ctxs := cs, net := ps, banks := bs } := by
  unfold releasedFor
  split
  · exact cover_device ..
  · exact ⟨_, _, _, rfl⟩

theorem SameHarts.releasedFor : SameHarts s (releasedFor c sc z s) := by
  unfold Claim.releasedFor
  split
  · exact .cover ..
  · exact rfl

theorem Fresh.releasedFor (fresh : Fresh s) : Fresh (releasedFor c sc z s) := by
  unfold Claim.releasedFor
  split
  · exact Fresh.cover fresh c _
  · exact fresh

theorem Unordered.releasedFor (free : Unordered s c q o n) : Unordered (releasedFor c sc z s) c q o n := by
  unfold Claim.releasedFor
  split
  · exact free.cover _
  · exact free

theorem amo_local (alone : HartAlone s c) (reaches : Reaches s c (getG (s.ctx c).regs a) (amoSize op) { rd := true, w := true })
    (unlocked : lockedByte (s.ctx c) (getG (s.ctx c).regs a).toNat (amoSize op) = none)
    (settled : sc = 1 → pendingIn (s.ctx c) (z.toNat + 1) false = false) :
    amo op d a b sc z s =
      finishG c d (amoApply op (keyOf s c (getG (s.ctx c).regs a)) (getG (s.ctx c).regs b) (getG (s.ctx c).regs d) (some c) (releasedFor c sc z s)).1
        (amoApply op (keyOf s c (getG (s.ctx c).regs a)) (getG (s.ctx c).regs b) (getG (s.ctx c).regs d) (some c) (releasedFor c sc z s)).2 := by
  obtain ⟨isLocal, aligned, permitted, free⟩ := reaches
  refine (coreOnly_hart alone.cur _).trans ((outside_alone alone _).trans ((if_neg (not_not.2 aligned)).trans
    ((if_pos (by rw [isLocal]; rfl)).trans ((if_neg (by rw [permitted]; decide)).trans ((if_neg (by rw [unlocked]; decide)).trans (if_neg ?_))))))
  rw [free, Bool.false_or, Bool.and_eq_true, decide_eq_true_eq]
  rintro ⟨release, waits⟩
  rw [settled release] at waits
  cases waits

/-- R94, R202: a value goes to g[d] as an access that has written memory retires. -/
theorem wrote_finishG {bs : List Byte} (armed : (s.ctx c).armed = none) (own : u.ctx c = s.ctx c)
    (device : { u with ctxs := s.ctxs, mem := s.mem, fe := s.fe } = s)
    (harts : ∀ x, x ≠ c → u.ctx x = s.ctx x ∨ u.ctx x = squash s.gtime (s.ctx x))
    (memory : ∀ a, readByte u.mem a = if k ≤ a ∧ a < k + bs.length then bs.getD (a - k) 0 else readByte s.mem a) (d : R5) (v : W64) :
    Wrote c s (finishG c d v u) (nextPc (s.ctx c).regs (setG (s.ctx c).regs d v)) k bs := by
  refine wrote_retire armed ?_ (setG_pc ..) device (fun x hx => ?_) memory
  · rw [putG_eq, modCtx_self, own]
  · rw [putG_eq, modCtx_ctx, if_neg hx]
    exact harts x hx

/-! ### Remote atomics (R164, R165) -/

/-- R113, R202: the request of a hart with none on its way, where no covered write reaches its bytes, is served at once. -/
theorem mustWait_request {ea : W64} {body : Body} (free : Unordered s c q o n)
    (newest : Newest t s.net (requestTo s c ea q none body)) (parts : t.parts = s.parts) (clusters : t.clusters = s.clusters)
    (lands : landing s (requestTo s c ea q none body) = some (o, n)) : mustWait t (requestTo s c ea q none body) = false := by
  obtain ⟨quiet, apart⟩ := free
  have same (p : Packet) : landing t p = landing s p := by
    unfold landing State.cluster
    rw [clusters]
  refine mustWait_eq_false newest fun e he => ?_
  have among : e ∈ onTheWay s c := by
    unfold State.part at he
    rw [parts] at he
    exact he
  refine ⟨quiet e among, fun covered target x y hx hy => ?_⟩
  rw [same] at hx hy
  rw [lands] at hy
  cases hy
  exact apart e among covered target x hx

section
variable (newest : Newest t l p) (here : p.dev = none)
include newest here

theorem exec_arrival_atomic {y e : W64} {returns : Bool} (free : mustWait t p = false) (atomic : p.body = .atomic op n y e returns)
    (accepted : receive (t.cluster p.pcn) p.ofs n 2 = some o) (unlocked : remoteLocked t p.pcn o n = false) :
    exec (.syncEngineAtomic p.id) t = .next { (amoApply op (sramKey p.pcn o) y e none t).2 with
      net := l ++ [{ p with body := if returns then .atomicReply (amoApply op (sramKey p.pcn o) y e none t).1 else .ack }] } := by
  have net : (amoApply op (sramKey p.pcn o) y e none t).2.net = t.net := by
    unfold amoApply
    dsimp only
    split <;> rfl
  have same : Newest (amoApply op (sramKey p.pcn o) y e none t).2 l p := ⟨net.trans newest.1, newest.2⟩
  refine congrArg Host.Outcome.next ?_
  rw [newest.packet]
  dsimp only
  rw [if_neg (by rw [here, free]; decide), atomic]
  dsimp only
  rw [accepted]
  exact (if_neg (by rw [unlocked]; decide)).trans (same.reply _)

theorem exec_atomicReply {v : W64} (replied : p.body = .atomicReply v) (waits : (t.ctx p.cid).wait = .remoteAtomic p.id d n)
    (going : (t.ctx p.cid).halted = false) : exec (.remoteAtomicReply p.id) t = .next (finishG p.cid d v { t with net := l }) := by
  refine congrArg Host.Outcome.next ?_
  rw [newest.packet]
  dsimp only
  rw [replied]
  dsimp only
  unfold atomicArrives
  rw [newest.answered here]
  show (match (t.ctx p.cid).wait with | .remoteAtomic id d _ => _ | _ => _) = _
  rw [waits]
  exact if_pos ⟨rfl, by show (!(t.ctx p.cid).halted) = true; rw [going]; rfl⟩

end

/-- R94, R164: the hart whose remote atomic waits for its reply, and the one that has posted it. -/
def awaitingAtomic (id : Nat) (d : R5) (n : Nat) (h : Ctx) : Ctx := { h with wait := .remoteAtomic id d n }
def atomicPostedCtx (id q : Nat) (acquires : Bool) (h : Ctx) : Ctx :=
  { retiredCtx h (nextPc h.regs h.regs) with
    outst := h.outst ++ [{ id := id, target := q, atomic := true }]
    scAcq := if acquires then h.scAcq ++ [id] else h.scAcq }

/-- What has become of hart `c` and of the fabric as it issues a request: another context, and the request on its way. -/
def requested (c : Nat) (f : Ctx → Ctx) (s : State) (p : Packet) : State := modCtx c f (send p s)

theorem retire_atomicPosted (armed : (s.ctx c).armed = none) (id q : Nat) :
    retire c (modCtx c (fun h => { h with
        outst := h.outst ++ [{ id := id, target := q, atomic := true }]
        scAcq := if sc = 1 then h.scAcq ++ [id] else h.scAcq }) s) = modCtx c (atomicPostedCtx id q (decide (sc = 1))) s := by
  rw [retire_unarmed (by rw [modCtx_self]; exact armed), modCtx_self, modCtx_comp]
  refine modCtx_congr ?_
  simp only [atomicPostedCtx, retiredCtx, nextPc, decide_eq_true_eq]

/-- R162: a remote atomic is sent, and its hart waits for the reply; one directed to g0 is posted. -/
def atomicIssued (id q : Nat) (d : R5) (n : Nat) (acquires : Bool) : Ctx → Ctx :=
  if d = 0 then atomicPostedCtx id q acquires else awaitingAtomic id d n

theorem amo_requests (alone : HartAlone s c) (aligned : (getG (s.ctx c).regs a).toNat % amoSize op = 0)
    (isGlobal : (getG (s.ctx c).regs a).getLsbD 63 = true) (settled : (s.ctx c).outst = [])
    (sent : senderCheck s (s.ctx c) (getG (s.ctx c).regs a) true false = .ok q none) :
    amo op d a b sc z s = requested c (atomicIssued s.nextId q d (amoSize op) (decide (sc = 1))) (releasedFor c sc z s)
      (requestTo s c (getG (s.ctx c).regs a) q none
        (.atomic op (amoSize op) (getG (s.ctx c).regs b) (getG (s.ctx c).regs d) (decide (d ≠ 0)))) := by
  have own : (releasedFor c sc z s).ctx c = s.ctx c := releasedFor_self
  refine (coreOnly_hart alone.cur _).trans ((outside_alone alone _).trans ((if_neg (not_not.2 aligned)).trans
    ((if_neg (by rw [isGlobal]; decide)).trans ?_)))
  dsimp only
  rw [sent]
  dsimp only
  rw [if_neg (by simp [pendingIn, settled])]
  unfold atomicIssued
  by_cases posted : d = 0
  · rw [if_neg (not_not.2 posted), if_pos posted]
    exact retire_atomicPosted (by show ((releasedFor c sc z s).ctx c).armed = none; rw [own]; exact alone.notArmed) ..
  · rw [if_pos posted, if_neg posted]
    rfl

/-- A remote atomic has come to its end at hart `c`: its value is in g[d], nothing is outstanding, and of the fabric `l` remains. -/
structure AtomicEnds (c : Nat) (r : Regs) (d : R5) (x : W64) (l : List Packet) (t v : State) : Prop where
  regs : (v.ctx c).regs = nextPc r (setG r d x)
  wait : (v.ctx c).wait = .none
  outst : (v.ctx c).outst = []
  net : v.net = l
  mem : v.mem = t.mem

section
variable {h : Ctx} (newest : Newest t l p) (here : p.dev = none) (settled : h.outst = [])
include newest here settled

theorem atomicReply_ends {x : W64} (replied : p.body = .atomicReply x) (mine : t.ctx p.cid = awaitingAtomic p.id d n h)
    (going : h.halted = false) (armed : h.armed = none) :
    ∃ v, exec (.remoteAtomicReply p.id) t = .next v ∧ AtomicEnds p.cid h.regs d x l t v := by
  refine ⟨_, exec_atomicReply (d := d) (n := n) newest here replied (congrArg Ctx.wait mine) ((congrArg Ctx.halted mine).trans going), ?_⟩
  have read : ({ t with net := l } : State).ctx p.cid = awaitingAtomic p.id d n h := mine
  have unarmed : (({ t with net := l } : State).ctx p.cid).armed = none := by rw [read]; exact armed
  obtain ⟨-, hart⟩ := retired_finishG unarmed d x
  rw [read] at hart
  unfold finishG at hart ⊢
  rw [retire_unarmed (by rw [putG_eq, modCtx_self, read]; exact armed)] at hart ⊢
  exact ⟨by rw [hart]; rfl, by rw [hart], by rw [hart]; exact settled, rfl, rfl⟩

theorem atomicAck_ends {acquires : Bool} (acked : p.body = .ack) (mine : t.ctx p.cid = atomicPostedCtx p.id q acquires h) (x : W64) :
    ∃ v, exec (.remoteAck p.id) t = .next v ∧ AtomicEnds p.cid h.regs 0 x l t v := by
  have hart : (modCtx p.cid (acknowledgedCtx p.id) { t with net := l }).ctx p.cid = acknowledgedCtx p.id (atomicPostedCtx p.id q acquires h) := by
    rw [modCtx_self, ← mine]
    rfl
  refine ⟨_, exec_ack newest here acked, by rw [hart]; rfl, by rw [hart]; rfl, ?_, rfl, rfl⟩
  rw [hart]
  show List.filter _ (h.outst ++ [_]) = _
  rw [settled]
  simp

end

/-- The access of the request is done, and its answer is on its way. -/
def withAnswer (s : State) (l : List Packet) (p : Packet) (body : Body) : State := { s with net := l ++ [{ p with body := body }] }

section
variable {f : Ctx → Ctx} {ea y e : W64} {returns : Bool} {body answer : Body}

theorem newest_withAnswer (fresh : Fresh s) : Newest (withAnswer t s.net (requestTo s c ea q none body) answer) s.net { requestTo s c ea q none body with body := answer } :=
  ⟨rfl, fun x hx => (fresh x hx).ne⟩

theorem withAnswer_self (idle : (f (s.ctx c)).chunk = none) :
    (withAnswer (atomicWrite k n new none (requested c f s (requestTo s c ea q none body))) l p answer).ctx c = f (s.ctx c) := by
  have own : (requested c f s (requestTo s c ea q none body)).ctx c = f (s.ctx c) := modCtx_self ..
  exact (atomicWrite_idle (by rw [own]; exact idle)).trans own

/-- R165: the access of a remote atomic that its receiver takes at once. -/
theorem exec_requested_atomic (canonical : Canonical s) (fresh : Fresh s) (free : Unordered s c q o (amoSize op))
    (resident : (f (s.ctx c)).resident = (s.ctx c).resident) (core : (f (s.ctx c)).gcn = (s.ctx c).gcn)
    (rings : (f (s.ctx c)).eng.rings = (s.ctx c).eng.rings) (accepted : receive (s.cluster q) (bits ea 0 21) (amoSize op) 2 = some o)
    (unlocked : remoteLocked s q o (amoSize op) = false)
    (new : ∀ x y e, atomicNew x y e i = if op = 9 ∧ x ≠ e then none else some (amoNew op x y e)) :
    let p := requestTo s c ea q none (.atomic op (amoSize op) y e returns)
    let x := w64 (memWord s (sramKey q o) (amoSize op))
    exec (.syncEngineAtomic s.nextId) (requested c f s p) =
      .next (withAnswer (atomicWrite (sramKey q o) (amoSize op) (atomicNew x y e i) none (requested c f s p)) s.net p
        (if returns then .atomicReply x else .ack)) := by
  intro p x
  have newest : Newest (requested c f s p) s.net p := ⟨rfl, fun x hx => (fresh x hx).ne⟩
  have lands : landing s p = some (o, amoSize op) := congrArg (Option.map fun o => (o, amoSize op)) accepted
  have open_ : remoteLocked (modCtx c f (send p s)) q o (amoSize op) = remoteLocked (send p s) q o (amoSize op) :=
    remoteLocked_modCtx (s := send p s) canonical resident core rings
  have arrives := exec_arrival_atomic newest rfl (mustWait_request free newest rfl rfl lands) rfl accepted (open_.trans unlocked)
  rw [amoApply_eq (i := i) (new _ _ _)] at arrives
  exact arrives

/-- R164, R165: a remote atomic from its arrival to its answer. -/
theorem requested_atomic_ends {acquires : Bool} (canonical : Canonical s) (fresh : Fresh s) (free : Unordered s c q o (amoSize op))
    (accepted : receive (s.cluster q) (bits ea 0 21) (amoSize op) 2 = some o) (unlocked : remoteLocked s q o (amoSize op) = false)
    (new : ∀ x y e, atomicNew x y e i = if op = 9 ∧ x ≠ e then none else some (amoNew op x y e))
    (idle : (s.ctx c).chunk = none) (armed : (s.ctx c).armed = none) (going : (s.ctx c).halted = false) (settled : (s.ctx c).outst = []) :
    let x := w64 (memWord s (sramKey q o) (amoSize op))
    let bytes := newBytes (amoSize op) (atomicNew x y e i)
    ∃ t v, exec (.syncEngineAtomic s.nextId) (requested c (atomicIssued s.nextId q d (amoSize op) acquires) s
        (requestTo s c ea q none (.atomic op (amoSize op) y e (decide (d ≠ 0))))) = .next t ∧
      exec (if d = 0 then .remoteAck s.nextId else .remoteAtomicReply s.nextId) t = .next v ∧ AtomicEnds c (s.ctx c).regs d x s.net t v ∧
      ∀ k, readByte t.mem k =
        if sramKey q o ≤ k ∧ k < sramKey q o + bytes.length then bytes.getD (k - sramKey q o) 0 else readByte s.mem k := by
  intro x bytes
  unfold atomicIssued
  by_cases posted : d = 0
  · subst posted
    have access := exec_requested_atomic (f := atomicPostedCtx s.nextId q acquires) (y := y) (e := e) (returns := false) canonical fresh free
      rfl rfl rfl accepted unlocked new
    obtain ⟨v, acks, ended⟩ := atomicAck_ends (newest_withAnswer fresh) rfl settled rfl (withAnswer_self idle) x
    exact ⟨_, v, access, acks, ended, atomicWrite_memory⟩
  · have access := exec_requested_atomic (f := awaitingAtomic s.nextId d (amoSize op)) (y := y) (e := e) (returns := true) canonical fresh free
      rfl rfl rfl accepted unlocked new
    obtain ⟨v, replies, ended⟩ := atomicReply_ends (newest_withAnswer fresh) rfl settled rfl (withAnswer_self idle) going armed
    rw [if_neg posted, if_neg posted, decide_eq_true posted]
    exact ⟨_, v, access, replies, ended, atomicWrite_memory⟩

end

end Sys2Proof.Claim
end

section
open Sys2Proof Sys2Proof.Machine Sys2Proof.Claim

theorem Sys2Proof.Claim.localAtomics : Claim.LocalAtomics := by
  unfold Claim.LocalAtomics
  intro s c i n d a b q z alone form
  dsimp only
  intro reaches unlocked settled
  obtain ⟨op, rfl, run, new⟩ := atomicForm_op (s := s) form
  obtain ⟨_, _, _, device⟩ := releasedFor_device (c := c) (sc := q) (z := z) (s := s)
  have own : (releasedFor c q z s).ctx c = s.ctx c := releasedFor_self
  have word : memWord (releasedFor c q z s) = memWord s := (congrArg (fun t => memWord t) device :)
  have full : (releasedFor c q z s).fe = s.fe := (congrArg State.fe device :)
  have armed : ((releasedFor c q z s).ctx c).armed = none := by rw [own]; exact alone.notArmed
  rw [run, amo_local alone reaches unlocked settled, amoApply_eq (i := i) (new _ _ _), word]
  set v := atomicNew (w64 (memWord s (keyOf s c (getG (s.ctx c).regs a)) (amoSize op))) (getG (s.ctx c).regs b) (getG (s.ctx c).regs d) i
  obtain ⟨_, _, written⟩ := atomicWrite_device (k := keyOf s c (getG (s.ctx c).regs a)) (n := amoSize op) (me := some c) (new := v)
    (s := releasedFor c q z s)
  refine ⟨_, rfl, ?_, ?_⟩
  · unfold finishG
    rw [retire_fe, putG_eq]
    · exact atomicWrite_fe.trans full
    · rw [putG_eq, modCtx_self, atomicWrite_self]
      exact armed
  · have ended := wrote_finishG armed atomicWrite_self (by rw [written]) (fun y _ => atomicWrite_ctx y)
      (atomicWrite_memory (k := keyOf s c (getG (s.ctx c).regs a)) (n := amoSize op) (new := v)) d
    rw [own] at ended
    exact ended _

theorem Sys2Proof.Claim.remoteAtomics : Claim.RemoteAtomics := by
  unfold Claim.RemoteAtomics
  intro s c i n d a b sc z q o canonical alone live fresh free form
  dsimp only
  intro isGlobal aligned sent accepted unlocked settled
  obtain ⟨op, rfl, run, new⟩ := atomicForm_op (s := s) form
  obtain ⟨_, _, _, device⟩ := releasedFor_device (c := c) (sc := sc) (z := z) (s := s)
  have own : (releasedFor c sc z s).ctx c = s.ctx c := releasedFor_self
  have same : SameHarts s (releasedFor c sc z s) := .releasedFor
  have number : (releasedFor c sc z s).nextId = s.nextId := (congrArg State.nextId device :)
  have clusters : (releasedFor c sc z s).cluster q = s.cluster q := (congrArg (fun t : State => t.cluster q) device :)
  have memory : (releasedFor c sc z s).mem = s.mem := (congrArg State.mem device :)
  have request (body : Body) : requestTo (releasedFor c sc z s) c (getG (s.ctx c).regs a) q none body =
      requestTo s c (getG (s.ctx c).regs a) q none body := by
    unfold requestTo
    rw [own, number]
  obtain ⟨t, v, access, answer, ended, written⟩ := requested_atomic_ends (d := d) (y := getG (s.ctx c).regs b) (e := getG (s.ctx c).regs d)
    (acquires := decide (sc = 1)) ⟨by rw [memory]; exact canonical.1, same.rising canonical.2⟩ fresh.releasedFor free.releasedFor
    (by rw [clusters]; exact accepted) (same.remoteLocked.trans unlocked) new (by rw [own]; exact alone.noChunk)
    (by rw [own]; exact alone.notArmed) (by rw [own]; exact live.2.1) (by rw [own]; exact settled)
  have word : memWord (releasedFor c sc z s) = memWord s := (congrArg (fun t => memWord t) device :)
  rw [number, request] at access
  rw [number] at answer
  rw [own, word] at ended
  rw [word, memory] at written
  refine ⟨v, ⟨_, run.trans (congrArg _ (amo_requests alone aligned isGlobal settled sent)), t, access, v, answer, rfl⟩, ended.regs, ended.wait,
    ended.outst, ended.net, fun k => ?_⟩
  rw [ended.mem]
  exact written k

/-- Settles O34: a local atomic writes as one access (`amoApply_eq`); a remote one is the newest packet, whose access waits for none
(`exec_requested_atomic`), and its answer ends it (`AtomicEnds`). -/
theorem atomics : Obligations.Atomics := by
  unfold Obligations.Atomics
  exact ⟨localAtomics, remoteAtomics⟩

end

section
/-! SUPPORT. Barrier objects: requests to the sync engine, its answers, and waits (R168 to R173). -/

namespace Sys2Proof.Claim
open Sys2Proof.Machine

variable {s t u : State} {c i n pt : Nat} {d a : R5} {hd : W32} {body : Body} {wait : Bool} {l : List Packet} {p : Packet} {o : Barrier} {v : W64}

/-! ### Handles (R168) -/

theorem hGen_lt (hd : W32) : hGen hd < 4096 := Nat.mod_lt _ (by decide)

theorem hIndex_lt (hd : W32) : hIndex hd < 2 ^ 20 := Nat.div_lt_of_lt_mul hd.isLt

theorem w64_handle (i g : Nat) (small : g < 4096) : w64 (i * 4096 + g) = handle i g := by
  unfold handle w64
  rw [Nat.mod_eq_of_lt small]

theorem next_handle (hd : W32) : w64 (hIndex hd * 4096 + (hGen hd + 1) % 4096) = handle (hd.toNat / 4096) (hd.toNat + 1) := by
  unfold handle hIndex hGen w64
  rw [Nat.mod_add_mod]

/-- R168: the low half of a handle in a register is the handle. -/
theorem toNat_truncate_handle {i : Nat} (small : i < 2 ^ 20) (g : Nat) : ((handle i g).truncate 32).toNat = i * 4096 + g % 4096 := by
  have := Nat.mod_lt g (show 0 < 4096 by decide)
  rw [BitVec.truncate_eq_setWidth, BitVec.toNat_setWidth, handle, BitVec.toNat_ofNat]
  omega

/-! ### Requests (R170, R172, R173) -/

/-- A hart's request to its sync engine, and the hart that waits for the reply. -/
def syncPacket (s : State) (c : Nat) (body : Body) : Packet :=
  { id := s.nextId, cid := c, part := (s.ctx c).part, addr := 0, pcn := (s.ctx c).gcn / 8, ofs := 0, body := body }
def syncWaits (id : Nat) (d : R5) (wait : Bool) (h : Ctx) : Ctx := { h with wait := .sync id d wait }
/-- Hart `c` has sent its request. -/
def syncSent (c : Nat) (d : R5) (wait : Bool) (body : Body) (s : State) : State :=
  requested c (syncWaits s.nextId d wait) s (syncPacket s c body)

theorem requests_syncSent : Requests c d body wait s (syncSent c d wait body s) :=
  ⟨rfl, fun _ hx => (modCtx_ctx ..).trans (if_neg hx), modCtx_self .., rfl, rfl⟩

theorem syncRequest_released (alone : HartAlone s c) (settled : pendingIn (s.ctx c) 3 false = false) :
    syncRequest c d body wait true s = syncSent c d wait body (cover c 3 s) := by
  have own := cover_self c 3 s
  obtain ⟨_, _, _, device⟩ := cover_device c 3 s
  have number : (cover c 3 s).nextId = s.nextId := (congrArg State.nextId device :)
  refine (outside_alone alone _).trans ((if_neg (by rw [settled]; decide)).trans ?_)
  unfold syncSent syncPacket
  rw [own, number]
  rfl

theorem syncRequest_plain (alone : HartAlone s c) : syncRequest c d body wait false s = syncSent c d wait body s :=
  (outside_alone alone _).trans (if_neg (by rw [Bool.false_and]; decide))

/-- R173: an arrival is a release, and waits for the acknowledgements of its scope. -/
theorem syncRequest_waits (alone : HartAlone s c) (waits : pendingIn (s.ctx c) 3 false = true) :
    syncRequest c d body wait true s = setWait c .acks s :=
  (outside_alone alone _).trans (if_pos (by rw [waits]; rfl))

section
variable (cur : s.cur = .hart c)
include cur

theorem exec_arrive (wait : Bool) : exec (if wait then .barw d a else .barrive d a) s =
    .next (syncRequest c d (.barrive ((getG (s.ctx c).regs a).truncate 32)) wait true s) := by
  cases wait with
  | false => exact congrArg Host.Outcome.next (coreOnly_hart cur _)
  | true => exact congrArg Host.Outcome.next (coreOnly_hart cur _)

theorem exec_bmake (priv : (s.ctx c).priv ≠ .u) : exec (.bmake d a) s =
    .next (syncRequest c d (.bmake (bits (getG (s.ctx c).regs a) 0 16)) false false s) :=
  congrArg Host.Outcome.next ((coreOnly_hart cur _).trans (if_neg priv))

theorem exec_bfree (priv : (s.ctx c).priv ≠ .u) : exec (.bfree d a) s =
    .next (syncRequest c d (.bfree ((getG (s.ctx c).regs a).truncate 32)) false false s) :=
  congrArg Host.Outcome.next ((coreOnly_hart cur _).trans (if_neg priv))

end

/-! ### The sync engine (R168, R170, R172) -/

/-- An object of a partition is replaced. -/
def setBarrier (pt i : Nat) (o : Barrier) (s : State) : State := modPart pt (fun q => { q with barriers := tput q.barriers i o }) s

/-- R170: an object after an arrival; the last one completes the phase. -/
def afterArrival (o : Barrier) : Barrier :=
  let last := decide (o.arrived + 1 = o.count)
  { o with arrived := if last then 0 else o.arrived + 1, gen := if last then (o.gen + 1) % 4096 else o.gen }

theorem Newest.setBarrier (newest : Newest t l p) (pt i : Nat) (o : Barrier) : Newest (setBarrier pt i o t) l p := newest

section
variable (newest : Newest t l p)
include newest

theorem exec_engine_arrival (arrives : p.body = .barrive hd) (live : (tget (t.part p.part).barriers (hIndex hd) {}).live = true)
    (gen : (tget (t.part p.part).barriers (hIndex hd) {}).gen = hGen hd) :
    exec (.syncEngineBarrier p.id) t =
      .next (withAnswer (setBarrier p.part (hIndex hd) (afterArrival (tget (t.part p.part).barriers (hIndex hd) {})) t) l p
        (.syncReply (handle (hd.toNat / 4096) (hd.toNat + 1)))) := by
  refine congrArg Host.Outcome.next ?_
  rw [newest.packet]
  dsimp only
  rw [arrives]
  dsimp only
  rw [if_neg (by simp [live, gen]), next_handle]
  exact (newest.setBarrier ..).reply _

theorem exec_engine_stale (uses : p.body = .barrive hd ∨ p.body = .bfree hd)
    (stale : (tget (t.part p.part).barriers (hIndex hd) {}).live = false ∨ (tget (t.part p.part).barriers (hIndex hd) {}).gen ≠ hGen hd) :
    exec (.syncEngineBarrier p.id) t = .next (withAnswer t l p (.staleBarrier hd)) := by
  have refused : (!(tget (t.part p.part).barriers (hIndex hd) {}).live) = true ∨ hGen hd ≠ (tget (t.part p.part).barriers (hIndex hd) {}).gen := by
    rw [Bool.not_eq_true']
    exact stale.imp_right Ne.symm
  refine congrArg Host.Outcome.next ?_
  rw [newest.packet]
  dsimp only
  obtain uses | uses := uses
  · rw [uses]
    exact (if_pos refused).trans (newest.reply _)
  · rw [uses]
    exact (if_pos refused).trans (newest.reply _)

theorem exec_engine_make (makes : p.body = .bmake n) (some_ : n ≠ 0)
    (first : lowestFree (t.part p.part).barriers ((t.part p.part).barriers.length + 1) 0 = i) (room : i < 0xFFFFF) :
    let old := tget (t.part p.part).barriers i {}
    let g := if old.used then (old.gen + 2) % 4096 else 0
    exec (.syncEngineBarrier p.id) t = .next (withAnswer
      (setBarrier p.part i { live := true, count := n, arrived := 0, gen := g, used := true, die := dieOf p.pcn } t) l p
        (.syncReply (handle i g))) := by
  intro old g
  have small : g < 4096 := by
    show (if old.used then (old.gen + 2) % 4096 else 0) < 4096
    split
    · exact Nat.mod_lt _ (by decide)
    · decide
  refine congrArg Host.Outcome.next ?_
  rw [newest.packet]
  dsimp only
  rw [makes]
  dsimp only
  rw [first, if_neg (by omega), w64_handle i _ small]
  exact (newest.setBarrier ..).reply _

theorem exec_engine_make_none (makes : p.body = .bmake 0) :
    exec (.syncEngineBarrier p.id) t = .next (withAnswer t l p (.syncReply 0xFFFFFFFFFFFFFFFF)) := by
  refine congrArg Host.Outcome.next ?_
  rw [newest.packet]
  dsimp only
  rw [makes]
  exact (if_pos (.inl rfl)).trans (newest.reply _)

section
variable (frees : p.body = .bfree hd) (live : (tget (t.part p.part).barriers (hIndex hd) {}).live = true)
  (gen : (tget (t.part p.part).barriers (hIndex hd) {}).gen = hGen hd)
include frees live gen

theorem exec_engine_free (idle : (tget (t.part p.part).barriers (hIndex hd) {}).arrived = 0) :
    exec (.syncEngineBarrier p.id) t = .next (withAnswer
      (setBarrier p.part (hIndex hd) { tget (t.part p.part).barriers (hIndex hd) {} with live := false } t) l p (.syncReply 0)) := by
  refine congrArg Host.Outcome.next ?_
  rw [newest.packet]
  dsimp only
  rw [frees]
  exact (if_neg (by simp [live, gen])).trans ((if_neg (by rw [idle]; decide)).trans ((newest.setBarrier ..).reply _))

theorem exec_engine_free_held (held : (tget (t.part p.part).barriers (hIndex hd) {}).arrived ≠ 0) :
    exec (.syncEngineBarrier p.id) t = .next (withAnswer t l p (.syncReply 1)) := by
  refine congrArg Host.Outcome.next ?_
  rw [newest.packet]
  dsimp only
  rw [frees]
  exact (if_neg (by simp [live, gen])).trans ((if_pos (Nat.pos_of_ne_zero held)).trans (newest.reply _))

end

/-! ### The reply (R170, R172) -/

theorem exec_syncReply_value (replied : p.body = .syncReply v) (waits : (t.ctx p.cid).wait = .sync p.id d wait)
    (going : (t.ctx p.cid).halted = false) : exec (.syncReply p.id) t = .next (if wait
      then bwaitOn (staleBarrier p.cid (v.truncate 32)) p.cid (v.truncate 32) (putG p.cid d v { t with net := l })
      else retire p.cid (putG p.cid d v { t with net := l })) := by
  refine congrArg Host.Outcome.next ?_
  rw [newest.packet]
  dsimp only
  rw [waits]
  dsimp only
  rw [if_neg (not_not.2 rfl), if_neg (by rw [going]; decide), replied]
  dsimp only
  rw [newest.unsend]

end

/-- R170: STALE_BARRIER is taken at the hart's own instruction. -/
theorem exec_syncReply_stale (newest : Newest t l p) (stale : p.body = .staleBarrier hd) (waits : (t.ctx p.cid).wait = .sync p.id d wait)
    (live : Live t p.cid) : exec (.syncReply p.id) t = .next (exception p.cid 0x12 (hd.zeroExtend 64) (unsend p.id t)) := by
  have going : (t.ctx p.cid).halted = false := live.2.1
  refine congrArg Host.Outcome.next ?_
  rw [newest.packet]
  dsimp only
  rw [waits]
  dsimp only
  rw [if_neg (not_not.2 rfl), if_neg (by rw [going]; decide), stale]
  exact if_pos (canMove_of_live (s := unsend p.id t) live)

/-! ### From the request to the reply -/

theorem newest_syncSent (fresh : Fresh s) : Newest (syncSent c d wait body s) s.net (syncPacket s c body) := ⟨rfl, fun x hx => (fresh x hx).ne⟩

theorem newest_syncAnswer {answer : Body} (fresh : Fresh s) :
    Newest (withAnswer t s.net (syncPacket s c body) answer) s.net { syncPacket s c body with body := answer } :=
  ⟨rfl, fun x hx => (fresh x hx).ne⟩

/-- A state that has numbered one packet more. -/
def numbered (s : State) : State := { s with nextId := s.nextId + 1 }

theorem onlyBarriers_numbered {f : Ctx → Ctx} : OnlyBarriers pt c s (modCtx c f (numbered s)) :=
  ⟨rfl, rfl, fun _ hx => (modCtx_ctx ..).trans (if_neg hx), fun _ _ => rfl, rfl⟩

theorem setBarrier_part {f : Ctx → Ctx} (x : Nat) : (modCtx c f (setBarrier pt i o (numbered s))).part x =
    if x = pt then { s.part pt with barriers := tput (s.part pt).barriers i o } else s.part x := by
  show (setBarrier pt i o (numbered s)).part x = _
  unfold setBarrier
  rw [modPart_part]
  rfl

theorem onlyBarriers_setBarrier {f : Ctx → Ctx} : OnlyBarriers pt c s (modCtx c f (setBarrier pt i o (numbered s))) := by
  refine ⟨rfl, rfl, fun _ hx => (modCtx_ctx ..).trans (if_neg hx), fun x hx => (setBarrier_part x).trans (if_neg hx), ?_⟩
  rw [setBarrier_part, if_pos rfl]

theorem setBarrier_barriers {f : Ctx → Ctx} (x : Nat) : tget ((modCtx c f (setBarrier pt i o (numbered s))).part pt).barriers x {} =
    if x = i then o else tget (s.part pt).barriers x {} := by
  rw [setBarrier_part, if_pos rfl]
  exact tget_tput ..

/-- R170: the context that a reply leaves: its instruction retires, or BARW goes on to wait for the phase. -/
def repliedCtx (d : R5) (v : W64) (h : Ctx) : Ctx := retiredCtx h (nextPc h.regs (setG h.regs d v))
def waitsPhase (d : R5) (v : W64) (h : Ctx) : Ctx := { h with regs := setG h.regs d v, wait := .bwait (v.truncate 32) }

section
variable (newest : Newest t l { syncPacket s c body with body := .syncReply v })
  (waits : { t with net := l } = modCtx c (syncWaits s.nextId d wait) u) (same : u.ctx c = s.ctx c) (going : (s.ctx c).halted = false)
include newest waits same going

/-- R170, R172: the reply reaches a hart that waits for it, in a state that is `u` but for its wait. -/
theorem exec_reply : exec (.syncReply s.nextId) t = .next (if wait
    then bwaitOn (staleBarrier c (v.truncate 32)) c (v.truncate 32) (putG c d v (setWait c (.sync s.nextId d wait) u))
    else retire c (putG c d v (setWait c (.sync s.nextId d wait) u))) := by
  have hart : t.ctx c = syncWaits s.nextId d wait (s.ctx c) := by
    have read : t.ctx c = (modCtx c (syncWaits s.nextId d wait) u).ctx c := (congrArg (fun x : State => x.ctx c) waits :)
    rw [read, modCtx_self, same]
  have replies := exec_syncReply_value (d := d) (wait := wait) newest rfl (congrArg Ctx.wait hart) ((congrArg Ctx.halted hart).trans going)
  rw [waits] at replies
  exact replies

theorem exec_reply_retires (armed : (s.ctx c).armed = none) (plain : wait = false) :
    exec (.syncReply s.nextId) t = .next (modCtx c (repliedCtx d v) u) := by
  rw [exec_reply newest waits same going, plain, if_neg (by decide), putG_eq,
    retire_waiting (f := fun r => setG r d v) (by rw [same]; exact armed) (setG_pc ..)]
  exact congrArg _ (modCtx_congr (by rw [repliedCtx]))

end

/-! ### BWAIT (R170) -/

section
variable {stale : State → State}

theorem bwaitOn_goes (live : (barrierOf s (s.ctx c).part hd).live = true) (gen : (barrierOf s (s.ctx c).part hd).gen = hGen hd) :
    bwaitOn stale c hd s = retire c s := by
  have := hGen_lt hd
  unfold bwaitOn
  dsimp only
  rw [if_neg (by simp [live, gen]), if_neg (by rw [gen]; omega)]

theorem bwaitOn_waits (live : (barrierOf s (s.ctx c).part hd).live = true)
    (gen : (barrierOf s (s.ctx c).part hd).gen = (hGen hd + 4095) % 4096) : bwaitOn stale c hd s = setWait c (.bwait hd) s := by
  unfold bwaitOn
  dsimp only
  rw [if_neg (by simp [live, gen]), if_pos gen]

theorem bwaitOn_stale (old : (barrierOf s (s.ctx c).part hd).live = false ∨
      ((barrierOf s (s.ctx c).part hd).gen ≠ hGen hd ∧ (barrierOf s (s.ctx c).part hd).gen ≠ (hGen hd + 4095) % 4096)) :
    bwaitOn stale c hd s = stale s := by
  unfold bwaitOn
  dsimp only
  rw [if_pos (by rw [Bool.not_eq_true']; exact old)]

end

theorem exec_bwait (alone : HartAlone s c) : exec (.bwait a) s = .next (bwaitOn
    (trapHere c 0x12 (BitVec.zeroExtend 64 ((getG (s.ctx c).regs a).truncate 32 : W32))) c ((getG (s.ctx c).regs a).truncate 32) s) :=
  congrArg Host.Outcome.next ((coreOnly_hart alone.cur _).trans (outside_alone alone _))

/-- R170: BARW of the last arrival goes on, of another waits for the phase. -/
theorem exec_reply_barw (newest : Newest t l { syncPacket s c body with body := .syncReply (handle (hd.toNat / 4096) (hd.toNat + 1)) })
    (waits : { t with net := l } = modCtx c (syncWaits s.nextId d true) (setBarrier (s.ctx c).part (hIndex hd) (afterArrival o) (numbered s)))
    (going : (s.ctx c).halted = false) (armed : (s.ctx c).armed = none) (live : o.live = true) (gen : o.gen = hGen hd) :
    exec (.syncReply s.nextId) t = .next (modCtx c
      (if o.arrived + 1 = o.count then repliedCtx d (handle (hd.toNat / 4096) (hd.toNat + 1)) else waitsPhase d (handle (hd.toNat / 4096) (hd.toNat + 1)))
      (setBarrier (s.ctx c).part (hIndex hd) (afterArrival o) (numbered s))) := by
  have small := hGen_lt hd
  have index := hIndex_lt hd
  set v := handle (hd.toNat / 4096) (hd.toNat + 1)
  set u := setBarrier (s.ctx c).part (hIndex hd) (afterArrival o) (numbered s)
  set w := putG c d v (setWait c (.sync s.nextId d true) u)
  have number : (v.truncate 32).toNat = hIndex hd * 4096 + (hGen hd + 1) % 4096 :=
    (toNat_truncate_handle index _).trans (by rw [hGen, Nat.mod_add_mod])
  have index' : hIndex (v.truncate 32) = hIndex hd := by
    rw [hIndex, number]
    omega
  have gen' : hGen (v.truncate 32) = (hGen hd + 1) % 4096 := by
    rw [hGen, number]
    omega
  have object : barrierOf w (w.ctx c).part (v.truncate 32) = afterArrival o := by
    have part : (w.ctx c).part = (s.ctx c).part := by
      show ((modCtx c _ (modCtx c _ u)).ctx c).part = _
      rw [modCtx_self, modCtx_self]
      rfl
    unfold barrierOf
    rw [part, index']
    exact (setBarrier_barriers (c := c) (f := id) (hIndex hd)).trans (if_pos rfl)
  rw [exec_reply newest waits rfl going, if_pos rfl]
  refine congrArg _ ?_
  by_cases last : o.arrived + 1 = o.count
  · have done : (afterArrival o).gen = hGen (v.truncate 32) := by
      rw [gen', ← gen, afterArrival, decide_eq_true last]
      rfl
    rw [if_pos last, bwaitOn_goes (by rw [object]; exact live) (by rw [object]; exact done)]
    exact (retire_waiting (s := u) (f := fun r => setG r d v) armed (setG_pc ..) _).trans (modCtx_congr rfl)
  · have open_ : (afterArrival o).gen = (hGen (v.truncate 32) + 4095) % 4096 := by
      have kept : (afterArrival o).gen = o.gen := by
        rw [afterArrival, decide_eq_false last]
        rfl
      rw [kept, gen, gen']
      omega
    rw [if_neg last, bwaitOn_waits (by rw [object]; exact live) (by rw [object]; exact open_)]
    show modCtx c _ (modCtx c _ (modCtx c _ u)) = _
    rw [modCtx_comp, modCtx_comp]
    rfl

/-- R170: an arrival at a live barrier of its generation, from its request to its reply. -/
theorem exec_barrier_arrives (fresh : Fresh s) (going : (s.ctx c).halted = false) (armed : (s.ctx c).armed = none)
    (object : tget (s.part (s.ctx c).part).barriers (hIndex hd) {} = o) (live : o.live = true) (gen : o.gen = hGen hd) :
    let v := handle (hd.toNat / 4096) (hd.toNat + 1)
    ∃ t, exec (.syncEngineBarrier s.nextId) (syncSent c d wait (.barrive hd) s) = .next t ∧ exec (.syncReply s.nextId) t = .next (modCtx c
      (if wait = true ∧ o.arrived + 1 ≠ o.count then waitsPhase d v else repliedCtx d v)
      (setBarrier (s.ctx c).part (hIndex hd) (afterArrival o) (numbered s))) := by
  intro v
  have served := exec_engine_arrival (p := syncPacket s c (.barrive hd)) (newest_syncSent (d := d) (wait := wait) fresh) rfl
    ((congrArg Barrier.live object).trans live) ((congrArg Barrier.gen object).trans gen)
  rw [show tget ((syncSent c d wait (.barrive hd) s).part (syncPacket s c (.barrive hd)).part).barriers (hIndex hd) {} = o from object] at served
  refine ⟨_, served, ?_⟩
  have newest (t : State) := newest_syncAnswer (t := t) (c := c) (body := .barrive hd) (answer := .syncReply v) fresh
  cases wait with
  | false =>
    rw [if_neg fun h => Bool.false_ne_true h.1]
    exact exec_reply_retires (newest _) rfl rfl going armed rfl
  | true =>
    refine (exec_reply_barw (newest _) rfl going armed live gen).trans ?_
    by_cases last : o.arrived + 1 = o.count
    · rw [if_pos last, if_neg fun h => h.2 last]
    · rw [if_neg last, if_pos ⟨rfl, last⟩]

/-! ### BMAKE's index (R172) -/

theorem lowestFree_eq {b : Tbl Barrier} {n k i : Nat} (from_ : k ≤ i) (room : i < k + n) (taken : ∀ j, k ≤ j → j < i → (tget b j {}).live = true)
    (free : (tget b i {}).live = false) : lowestFree b n k = i := by
  induction n generalizing k with
  | zero => omega
  | succ n ih =>
    unfold lowestFree
    obtain rfl | below := Nat.eq_or_lt_of_le from_
    · rw [if_neg (by rw [free]; decide)]
    · rw [if_pos (taken k le_rfl below)]
      exact ih below (by omega) fun j hj => taken j (by omega)

/-- A table with live objects at all indices below `i` is at least that long. -/
theorem le_length_of_live {b : Tbl Barrier} {i : Nat} (taken : ∀ j, j < i → (tget b j {}).live = true) : i ≤ b.length := by
  have listed : List.range i ⊆ b.map Prod.fst := by
    intro j hj
    by_contra absent
    have none_ : tget b j {} = ({} : Barrier) := tget_unlisted fun p hp same => absent (List.mem_map.2 ⟨p, hp, same⟩)
    have live := taken j (List.mem_range.1 hj)
    rw [none_] at live
    cases live
  simpa using (List.nodup_range.subperm listed).length_le

theorem lowestFree_first {b : Tbl Barrier} {i : Nat} (taken : ∀ j, j < i → (tget b j {}).live = true) (free : (tget b i {}).live = false) :
    lowestFree b (b.length + 1) 0 = i := by
  have := le_length_of_live taken
  exact lowestFree_eq (Nat.zero_le i) (by omega) (fun j _ => taken j) free

/-! ### GBAR (R171) -/

theorem gang_congr (task : (t.ctx c).task = (s.ctx c).task) (tasks : t.tasks = s.tasks) (exited : ∀ x, (t.ctx x).exited = (s.ctx x).exited) :
    gang t c = gang s c := by
  unfold gang State.task
  rw [task, tasks]
  simp only [exited]

/-- R171, R173: the gang of a hart that has arrived in GBAR. -/
theorem gang_arrived (w : Wait) : gang (setWait c w (cover c 1 s)) c = gang s c := by
  have same : SameHarts s (cover c 1 s) := .cover ..
  obtain ⟨_, _, _, device⟩ := cover_device c 1 s
  refine gang_congr ?_ (by exact (congrArg State.tasks device :)) fun x => ?_
  · rw [setWait_eq, modCtx_self, cover_self]
  · have kept : ((cover c 1 s).ctx x).exited = (s.ctx x).exited := (congrArg (fun h : Ctx => h.exited) (same.ctx x) :)
    rw [setWait_eq, modCtx_ctx]
    split
    · next here =>
      subst here
      exact kept
    · exact kept

/-- R171: harts that retire one after another. -/
theorem forEach_retire {m : List Nat} (nodup : m.Nodup) (armed : ∀ x ∈ m, (s.ctx x).armed = none) :
    { forEach m (fun x u => retire x u) s with ctxs := s.ctxs } = s ∧ ∀ x, (forEach m (fun x u => retire x u) s).ctx x =
      if x ∈ m then retiredCtx (s.ctx x) (nextPc (s.ctx x).regs (s.ctx x).regs) else s.ctx x := by
  unfold forEach
  induction m generalizing s with
  | nil => exact ⟨rfl, fun x => (if_neg (List.not_mem_nil)).symm⟩
  | cons y m ih =>
    obtain ⟨new, nodup⟩ := List.nodup_cons.1 nodup
    obtain ⟨⟨device, others, -⟩, hart⟩ := retired_retire (armed y List.mem_cons_self)
    have armed' : ∀ x ∈ m, ((retire y s).ctx x).armed = none := fun x hx => by
      rw [others x fun same => new (same ▸ hx)]
      exact armed x (List.mem_cons_of_mem _ hx)
    obtain ⟨rest, harts⟩ := ih nodup armed'
    refine ⟨?_, fun x => ?_⟩
    · rw [List.foldl_cons]
      calc _ = { ({ List.foldl (fun u x => retire x u) (retire y s) m with ctxs := (retire y s).ctxs } : State) with ctxs := s.ctxs } := rfl
        _ = _ := by rw [rest]; exact device
    · rw [List.foldl_cons, harts]
      by_cases here : x = y
      · subst here
        rw [if_neg new, if_pos List.mem_cons_self, hart]
        rfl
      · rw [others x here]
        simp only [List.mem_cons, here, false_or]

end Sys2Proof.Claim
end

section
open Sys2Proof Sys2Proof.Machine Sys2Proof.Claim

theorem Sys2Proof.Claim.barrierRequests : Claim.BarrierRequests := by
  unfold Claim.BarrierRequests
  intro s c d a alone
  dsimp only
  have barrive := exec_arrive (d := d) (a := a) alone.cur false
  have barw := exec_arrive (d := d) (a := a) alone.cur true
  refine ⟨fun settled => ⟨⟨_, barrive.trans (congrArg _ (syncRequest_released alone settled)), requests_syncSent⟩,
    ⟨_, barw.trans (congrArg _ (syncRequest_released alone settled)), requests_syncSent⟩⟩,
    fun waits => ⟨barrive.trans (congrArg _ (syncRequest_waits alone waits)), barw.trans (congrArg _ (syncRequest_waits alone waits))⟩,
    fun priv => ⟨⟨_, (exec_bmake alone.cur priv).trans (congrArg _ (syncRequest_plain alone)), requests_syncSent⟩,
      ⟨_, (exec_bfree alone.cur priv).trans (congrArg _ (syncRequest_plain alone)), requests_syncSent⟩⟩⟩

theorem Sys2Proof.Claim.barrierArrivals : Claim.BarrierArrivals := by
  unfold Claim.BarrierArrivals
  intro s c d a wait alone live fresh settled
  dsimp only
  intro alive gen
  set hd : W32 := (getG (s.ctx c).regs a).truncate 32
  set o := tget (s.part (s.ctx c).part).barriers (hd.toNat / 4096) {}
  set v := handle (hd.toNat / 4096) (hd.toNat + 1)
  obtain ⟨_, _, _, device⟩ := cover_device c 3 s
  have own := cover_self c 3 s
  have number : (cover c 3 s).nextId = s.nextId := (congrArg State.nextId device :)
  have part : (cover c 3 s).part ((cover c 3 s).ctx c).part = s.part (s.ctx c).part := by
    rw [own]
    exact (congrArg (fun t : State => t.part (s.ctx c).part) device :)
  have fresh' : Fresh (cover c 3 s) := fresh.cover c 3
  have object : tget ((cover c 3 s).part ((cover c 3 s).ctx c).part).barriers (hIndex hd) {} = o := by
    rw [part]
    rfl
  obtain ⟨t, served, replied⟩ := exec_barrier_arrives (d := d) (wait := wait) fresh' (by rw [own]; exact live.2.1) (by rw [own]; exact alone.notArmed)
    object alive gen
  rw [number] at served replied
  refine ⟨_, ⟨_, (exec_arrive alone.cur wait).trans (congrArg _ (syncRequest_released alone settled)), t, served, _, replied, rfl⟩,
    ?_, fun x => ?_, ?_⟩
  · rw [own]
    exact onlyBarriers_setBarrier
  · have others : (cover c 3 s).part (s.ctx c).part = s.part (s.ctx c).part := own ▸ part
    rw [own, setBarrier_barriers, others]
    rfl
  · rw [modCtx_self]
    show (if wait = true ∧ o.arrived + 1 ≠ o.count then waitsPhase d v else repliedCtx d v) ((cover c 3 s).ctx c) = _
    rw [own]
    by_cases waits : wait = true ∧ o.arrived + 1 ≠ o.count
    · rw [if_pos waits, if_pos ⟨waits.1, decide_eq_false waits.2⟩]
      rfl
    · rw [if_neg waits, if_neg fun h => waits ⟨h.1, of_decide_eq_false h.2⟩]
      rfl

theorem Sys2Proof.Claim.barrierMakeAndFree : Claim.BarrierMakeAndFree := by
  unfold Claim.BarrierMakeAndFree
  intro s c d a alone live fresh priv
  dsimp only
  obtain ⟨-, going, -⟩ := live
  have makes {n : Nat} (count : bits (getG (s.ctx c).regs a) 0 16 = n) : exec (.bmake d a) s = .next (syncSent c d false (.bmake n) s) := by
    rw [exec_bmake alone.cur priv, syncRequest_plain alone, count]
  have replies (u : State) {t : State} {body : Body} {v : W64} (newest : Newest t s.net { syncPacket s c body with body := .syncReply v })
      (waits : { t with net := s.net } = modCtx c (syncWaits s.nextId d false) u) (same : u.ctx c = s.ctx c) :
      exec (.syncReply s.nextId) t = .next (modCtx c (repliedCtx d v) u) :=
    exec_reply_retires newest waits same going alone.notArmed rfl
  refine ⟨fun i some_ room taken free => ?_, fun none_ => ?_, fun alive gen => ?_⟩
  · have served := exec_engine_make (p := syncPacket s c (.bmake (bits (getG (s.ctx c).regs a) 0 16)))
      (newest_syncSent (d := d) (wait := false) fresh) rfl (by omega) (lowestFree_first taken free) room
    refine ⟨_, _, ⟨_, makes rfl, _, served, _, replies (setBarrier (s.ctx c).part i _ (numbered s)) (newest_syncAnswer fresh) rfl rfl, rfl⟩,
      onlyBarriers_setBarrier, fun unused => if_neg ?_, fun used => if_pos used, setBarrier_barriers, modCtx_self ..⟩
    exact Bool.eq_false_iff.1 unused
  · have served := exec_engine_make_none (p := syncPacket s c (.bmake 0)) (newest_syncSent (d := d) (wait := false) fresh) rfl
    exact ⟨_, ⟨_, makes none_, _, served, _, replies (numbered s) (newest_syncAnswer fresh) rfl rfl, rfl⟩, onlyBarriers_numbered, rfl,
      modCtx_self ..⟩
  · set hd : W32 := (getG (s.ctx c).regs a).truncate 32
    have frees : exec (.bfree d a) s = .next (syncSent c d false (.bfree hd) s) := by
      rw [exec_bfree alone.cur priv, syncRequest_plain alone]
    have newest := newest_syncSent (c := c) (d := d) (wait := false) (body := .bfree hd) fresh
    by_cases idle : (tget (s.part (s.ctx c).part).barriers (hd.toNat / 4096) {}).arrived = 0
    · refine ⟨_, ⟨_, frees, _, exec_engine_free newest rfl alive gen idle, _,
        replies (setBarrier (s.ctx c).part (hIndex hd) _ (numbered s)) (newest_syncAnswer fresh) rfl rfl, rfl⟩,
        onlyBarriers_setBarrier, fun x => (setBarrier_barriers x).trans (if_congr (and_iff_left idle).symm rfl rfl), ?_⟩
      rw [if_pos idle]
      exact modCtx_self ..
    · refine ⟨_, ⟨_, frees, _, exec_engine_free_held newest rfl alive gen idle, _, replies (numbered s) (newest_syncAnswer fresh) rfl rfl, rfl⟩,
        onlyBarriers_numbered, fun x => (if_neg fun h => idle h.2).symm, ?_⟩
      rw [if_neg idle]
      exact modCtx_self ..

theorem Sys2Proof.Claim.staleBarriers : Claim.StaleBarriers := by
  unfold Claim.StaleBarriers
  intro s c d a alone live fresh
  dsimp only
  intro stale
  set hd : W32 := (getG (s.ctx c).regs a).truncate 32
  -- From the state in which the hart sends its request.
  have refused {u : State} {wait : Bool} {body : Body} (own : u.ctx c = s.ctx c) (parts : u.parts = s.parts) (number : u.nextId = s.nextId)
      (time : u.gtime = s.gtime) (fresh : Fresh u) (uses : body = .barrive hd ∨ body = .bfree hd) :
      ∃ t, exec (.syncEngineBarrier s.nextId) (syncSent c d wait body u) = .next t ∧
        exec (.syncReply s.nextId) t = .next (exception c 0x12 (hd.zeroExtend 64) { t with net := t.net.filter fun p => p.id ≠ s.nextId }) := by
    have object : (syncSent c d wait body u).part (syncPacket u c body).part = s.part (s.ctx c).part := by
      show u.part (u.ctx c).part = _
      rw [own, State.part, parts]
      rfl
    have hart : (syncSent c d wait body u).ctx c = { s.ctx c with wait := .sync u.nextId d wait } :=
      (modCtx_self ..).trans (congrArg (syncWaits u.nextId d wait) own)
    have served := exec_engine_stale (p := syncPacket u c body) (newest_syncSent (d := d) (wait := wait) fresh) uses (by rw [object]; exact stale)
    have replies := exec_syncReply_stale (hd := hd) (d := d) (wait := wait) (newest_syncAnswer (t := syncSent c d wait body u) (c := c) (body := body) fresh) rfl
      (congrArg Ctx.wait hart) (live_congr live hart parts time)
    rw [← number]
    exact ⟨_, served, replies⟩
  refine ⟨fun i uses => ?_, fun old => ?_⟩
  · obtain ⟨settled, arrives⟩ | ⟨priv, rfl⟩ := uses
    · obtain ⟨_, _, _, device⟩ := cover_device c 3 s
      have arrival : ∃ wait : Bool, i = if wait then .barw d a else .barrive d a := by
        obtain rfl | rfl := arrives
        · exact ⟨false, rfl⟩
        · exact ⟨true, rfl⟩
      obtain ⟨wait, rfl⟩ := arrival
      obtain ⟨t, served, replies⟩ := refused (wait := wait) (cover_self c 3 s) (by exact (congrArg State.parts device :))
        (by exact (congrArg State.nextId device :)) (by exact (congrArg State.gtime device :)) (fresh.cover c 3) (.inl rfl)
      exact ⟨t, ⟨_, (exec_arrive alone.cur wait).trans (congrArg _ (syncRequest_released alone settled)), t, served, rfl⟩, replies⟩
    · obtain ⟨t, served, replies⟩ := refused (wait := false) rfl rfl rfl rfl fresh (.inr rfl)
      exact ⟨t, ⟨_, (exec_bfree alone.cur priv).trans (congrArg _ (syncRequest_plain alone)), t, served, rfl⟩, replies⟩
  · rw [exec_bwait alone]
    refine congrArg _ (bwaitOn_stale ?_)
    obtain dead | other := stale
    · exact .inl dead
    · exact old.imp_right fun before => ⟨other, before⟩

theorem Sys2Proof.Claim.barrierWaits : Claim.BarrierWaits := by
  unfold Claim.BarrierWaits
  refine ⟨fun s c a alone => ?_, fun s c hd wait live armed done => ?_, fun s c alone settled => ?_, fun s c alone waits => ?_,
    fun s k => ?_⟩
  · dsimp only
    intro live
    refine ⟨fun gen => ⟨_, (exec_bwait alone).trans (congrArg _ (bwaitOn_goes live gen)), retired_retire alone.notArmed⟩, fun gen => ?_⟩
    exact (exec_bwait alone).trans (congrArg _ (bwaitOn_waits live gen))
  · refine ⟨_, congrArg Host.Outcome.next ?_, retired_retire armed⟩
    dsimp only
    rw [wait]
    refine if_pos ?_
    have completed : decide ((barrierOf s (s.ctx c).part hd).gen = (hGen hd + 4095) % 4096) = false := decide_eq_false done
    rw [mayWake_of_live live, completed, Bool.and_false]
    rfl
  · have own := cover_self c 1 s
    have runs : exec .gbar s = .next (if gang s c = [c] then gbarLeave [c] (setWait c .gbar (cover c 1 s)) else setWait c .gbar (cover c 1 s)) := by
      refine congrArg Host.Outcome.next ((coreOnly_hart alone.cur _).trans ((outside_alone alone _).trans ((if_neg (by rw [settled]; decide)).trans ?_)))
      dsimp only
      rw [gang_arrived]
    refine ⟨fun single => ?_, fun more => runs.trans (congrArg _ (if_neg more))⟩
    have leaves : gbarLeave [c] (setWait c .gbar (cover c 1 s)) = retire c (setWait c .gbar (cover c 1 s)) := by
      refine if_pos ?_
      rw [List.all_cons, List.all_nil, setWait_eq, modCtx_self]
      rfl
    obtain ⟨hart, only⟩ := retire_modCtx (s := cover c 1 s) (c := c) (f := fun h => { h with wait := .gbar }) (by rw [own]; exact alone.notArmed)
    refine ⟨_, runs.trans (congrArg _ ((if_pos single).trans leaves)), only, ?_⟩
    rw [setWait_eq, hart, own]
    rfl
  · exact congrArg Host.Outcome.next ((coreOnly_hart alone.cur _).trans ((outside_alone alone _).trans (if_pos waits)))
  · dsimp only
    intro nodup members
    have awake : (((s.task k).members.filter fun x => (s.ctx x).exited.isNone).all fun x => mayWake s (s.ctx x)) = true :=
      List.all_eq_true.2 fun x hx => mayWake_of_live (members x hx).2.1
    have arrived : (((s.task k).members.filter fun x => (s.ctx x).exited.isNone).all fun x => decide ((s.ctx x).wait = .gbar)) = true :=
      List.all_eq_true.2 fun x hx => decide_eq_true (members x hx).1
    exact ⟨_, congrArg Host.Outcome.next ((if_pos awake).trans (if_pos arrived)), forEach_retire nodup fun x hx => (members x hx).2.2⟩

/-- Settles O36: a request is the newest packet in flight, its engine changes one barrier at most, and the reply finds the hart as it
was but for its wait (`exec_reply`). -/
theorem barriers : Obligations.Barriers := by
  unfold Obligations.Barriers
  exact ⟨barrierRequests, barrierArrivals, barrierMakeAndFree, staleBarriers, barrierWaits⟩

end

section
/-! SUPPORT. What the dispatcher leaves of harts and fabric as it takes a record (R317 to R322). -/

namespace Sys2Proof.Claim
open Sys2Proof.Machine

variable {s t u : State} {c l v : Nat}

/-- Harts and fabric are as they were but for the lines of the harts' instruction caches. -/
def LinesOnly (s t : State) : Prop := t.net = s.net ∧ ∀ x, { t.ctx x with icache := [] } = { s.ctx x with icache := [] }

theorem LinesOnly.same (net : t.net = s.net) (ctxs : t.ctxs = s.ctxs) : LinesOnly s t :=
  ⟨net, fun x => by rw [State.ctx, ctxs]; rfl⟩

theorem LinesOnly.refl (s : State) : LinesOnly s s := .same rfl rfl

theorem LinesOnly.trans (a : LinesOnly s t) (b : LinesOnly t u) : LinesOnly s u :=
  ⟨b.1.trans a.1, fun x => (b.2 x).trans (a.2 x)⟩

theorem LinesOnly.foldl {α : Type} {g : State → α → State} (l : List α) (hg : ∀ u a, LinesOnly u (g u a)) (s : State) :
    LinesOnly s (l.foldl g s) := by
  induction l generalizing s with
  | nil => exact .refl s
  | cons a l ih => exact (hg s a).trans (ih _)

theorem LinesOnly.modOwner {n : Nat} {f : Owner → Owner} (h : LinesOnly s t) : LinesOnly s (modOwner n f t) := h.trans (.same rfl rfl)
theorem LinesOnly.modVersion {n : Nat} {f : Version → Version} (h : LinesOnly s t) : LinesOnly s (modVersion n f t) := h.trans (.same rfl rfl)
theorem LinesOnly.modTask {n : Nat} {f : Task → Task} (h : LinesOnly s t) : LinesOnly s (modTask n f t) := h.trans (.same rfl rfl)
theorem LinesOnly.modCluster {n : Nat} {f : Cluster → Cluster} (h : LinesOnly s t) : LinesOnly s (modCluster n f t) := h.trans (.same rfl rfl)

/-- R151: lines of a partition's harts are dropped. -/
theorem LinesOnly.dropLines {p : Nat} {keep : Line → Bool} (h : LinesOnly s t) : LinesOnly s { t with
    ctxs := t.ctxs.map fun x => if x.2.part = p then (x.1, { x.2 with icache := x.2.icache.filter keep }) else x } := by
  refine h.trans ⟨rfl, fun x => ?_⟩
  have read : tget (t.ctxs.map fun x => if x.2.part = p then (x.1, { x.2 with icache := x.2.icache.filter keep }) else x) x {} =
      if (t.ctx x).part = p then { t.ctx x with icache := (t.ctx x).icache.filter keep } else t.ctx x := by
    refine tget_map (f := fun _ h => if h.part = p then { h with icache := h.icache.filter keep } else h) (fun q => ?_) t.ctxs (k := x) (d := {}) (ite_self _)
    split <;> rfl
  show { tget _ x ({} : Ctx) with icache := [] } = _
  rw [read]
  split <;> rfl

theorem OnlyBanks.linesOnly (banks : OnlyBanks s t) : LinesOnly s t := by
  obtain ⟨_, rfl⟩ := banks
  exact .same rfl rfl

theorem Accessed.linesOnly (accessed : Accessed s t) : LinesOnly s t := by
  obtain ⟨⟨_, _, rfl⟩, -⟩ := accessed
  exact .same rfl rfl

/-! ### Writes to DRAM (R69) -/

theorem LinesOnly.mergeCol (g col o : Nat) (b : List Byte) (src : Nat) (s : State) : LinesOnly s (mergeCol g col o b src s).2 := by
  have read := (OnlyBanks.readCol g col src s).linesOnly
  unfold Machine.mergeCol
  split
  · exact (accessed_writeCol ..).linesOnly
  · dsimp only
    split
    · exact read
    · exact read.trans (accessed_writeCol ..).linesOnly

theorem LinesOnly.physWrite (k : Nat) (b : List Byte) (src : Nat) (s : State) : LinesOnly s (physWrite k b src s).2 := by
  have columns {f : Option Nat × State → Nat → Option Nat × State} (keeps : ∀ p i, LinesOnly p.2 (f p i).2) (l : List Nat) (p : Option Nat × State) :
      LinesOnly p.2 (l.foldl f p).2 := by
    induction l generalizing p with
    | nil => exact .refl _
    | cons i l ih => exact (keeps p i).trans (ih _)
  unfold Machine.physWrite
  split
  · split
    · exact .refl s
    · refine columns (p := (none, s)) (fun p i => ?_) _
      dsimp only
      split
      · exact .refl _
      · have merged := LinesOnly.mergeCol ((k / 32 + i) / 0x40000) ((k / 32 + i) % 0x40000)
          (if (k / 32 + i) * 32 < k then k - (k / 32 + i) * 32 else 0)
          (List.take (min 32 (k + b.length - (k / 32 + i) * 32) - if (k / 32 + i) * 32 < k then k - (k / 32 + i) * 32 else 0)
            (List.drop ((k / 32 + i) * 32 + (if (k / 32 + i) * 32 < k then k - (k / 32 + i) * 32 else 0) - k) b)) src p.2
        split
        · next e => rwa [e] at merged
        · next e => rwa [e] at merged
  · exact .same rfl rfl

/-! ### Versions and records (R317 to R322) -/

theorem LinesOnly.installVersion (n : Nat) (s : State) : LinesOnly s (installVersion n s) := by
  unfold Machine.installVersion
  dsimp only
  split
  · exact .refl s
  · split
    · split
      · exact .refl s
      · exact .same rfl rfl
    · split
      · exact .refl s
      · split
        · next e u walked =>
          have read := (OnlyBanks.of_walk walked).linesOnly
          refine LinesOnly.modOwner (.modVersion (.dropLines (.trans (.trans read ?_) (.foldl _ (fun _ _ => .modCluster (.refl _)) _))))
          split
          · exact .physWrite ..
          · exact .refl u
        · next u walked => exact ((OnlyBanks.of_walk walked).linesOnly.modVersion).modOwner

theorem LinesOnly.renameTile (tid tile : Nat) (fl : List (Nat × Task)) (s : State) : LinesOnly s (renameTile v tid tile fl s) := by
  unfold Machine.renameTile
  dsimp only
  split
  · exact .refl s
  · split
    · next e u walked =>
      have read := (OnlyBanks.of_walk walked).linesOnly
      split
      · exact read.modTask
      · split
        · exact read.modTask
        · refine LinesOnly.modTask (.modVersion (.modOwner ?_))
          exact read.trans (.same rfl rfl)
    · next u walked => exact (OnlyBanks.of_walk walked).linesOnly.modTask

theorem LinesOnly.enqueue (asid : BitVec 16) (d : BitVec 1024) (s : State) : LinesOnly s (enqueue v l asid d s) := by
  have installed : LinesOnly s (installAll s) := by
    unfold installAll
    exact .foldl (g := fun u (p : Nat × Version) => Machine.installVersion p.1 u) _ (fun u p => .installVersion p.1 u) s
  unfold Machine.enqueue
  dsimp only
  refine LinesOnly.trans (.modTask ?_) (.foldl _ (fun u tile => .renameTile _ tile _ u) _)
  exact installed.trans (.same rfl rfl)

theorem LinesOnly.takeRecord (asid : BitVec 16) (va : Nat) (s : State) : LinesOnly s (takeRecord v l asid va s).2 := by
  have read := (OnlyBanks.readRecord (vfPart (s.owner v)) asid.toNat va s).linesOnly
  unfold Machine.takeRecord
  split
  · next e =>
    rw [e] at read
    exact read.modOwner
  · next e =>
    rw [e] at read
    split
    · exact read.modOwner
    · split
      · exact read.trans (.enqueue ..)
      · exact read

/-- R191: the records of a request, taken one after another. -/
theorem LinesOnly.taken (asid : BitVec 16) (n va : Nat) (s : State) : LinesOnly s (taken v l asid n va s).2 := by
  induction n generalizing va s with
  | zero => exact .refl s
  | succ n ih =>
    unfold Claim.taken
    dsimp only
    split
    · exact (LinesOnly.takeRecord asid va s).trans (ih ..)
    · exact .takeRecord ..

theorem spawnRecords_eq (asid : BitVec 16) (n k va : Nat) (s : State) :
    spawnRecords n v l k asid va s = (k + (taken v l asid n va s).1, (taken v l asid n va s).2) := by
  induction n generalizing k va s with
  | zero => rfl
  | succ n ih =>
    unfold spawnRecords Claim.taken
    dsimp only
    split
    · next e =>
      rw [e, ih]
      exact Prod.ext (Nat.add_right_comm k 1 _) rfl
    · next e =>
      rw [e]
      rfl

end Sys2Proof.Claim
end

section
/-! SUPPORT. Task instructions (R16 to R18, R190 to R194). -/

namespace Sys2Proof.Claim
open Sys2Proof.Machine

variable {s t u : State} {c tid : Nat} {a b d : R5}

/-- R191: the request of TSPAWN to the dispatcher. -/
def spawnPacket (s : State) (c : Nat) (a b : R5) : Packet := {
  id := s.nextId, cid := c, part := (s.ctx c).part, addr := getG (s.ctx c).regs a, pcn := (s.ctx c).gcn / 8, ofs := 0
  body := .tspawn (getG (s.ctx c).regs a) (getG (s.ctx c).regs b).toNat (s.ctx c).csr.asid }

/-- R191: an array of records that TSPAWN does not accept. -/
def badArray (base n : W64) : Prop :=
  base.toNat % 128 ≠ 0 ∨ 2 ^ 57 ≤ base.toNat ∨ n.toNat = 0 ∨ 65535 < n.toNat ∨ 2 ^ 57 < base.toNat + 128 * n.toNat

theorem badArray_iff (base n : W64) : badArray base n ↔
    base.toNat % 128 ≠ 0 ∨ bits base 57 7 ≠ 0 ∨ n.toNat = 0 ∨ 65535 < n.toNat ∨ 2 ^ 57 < base.toNat + 128 * n.toNat := by
  rw [badArray, ne_eq (bits base 57 7), bits_high_eq_zero, Nat.not_lt]

/-- R18: the member with its status, exited. -/
def exitedCtx (a : R5) (h : Ctx) : Ctx :=
  { h with exited := some ((getG h.regs a).truncate 32), armed := none, csr := { h.csr with retired := h.csr.retired + 1 } }

section
variable (alone : HartAlone s c)
include alone

theorem exec_targ : exec (.targ d a) s = .next (finishG c d (targValue s (s.ctx c) (bits (getG (s.ctx c).regs a) 0 3)) s) :=
  congrArg Host.Outcome.next ((coreOnly_hart alone.cur _).trans (outside_alone alone _))

theorem exec_tyield : exec (.tyield a) s = .next (if min (getG (s.ctx c).regs a).toNat 65535 = 0 then retire c s
    else setWait c (.tyield ((s.ctx c).csr.cycle.toNat + min (getG (s.ctx c).regs a).toNat 65535)) s) :=
  congrArg Host.Outcome.next ((coreOnly_hart alone.cur _).trans (outside_alone alone _))

theorem exec_tspawn_waits (waits : pendingIn (s.ctx c) 3 false = true) : exec (.tspawn d a b) s = .next (setWait c .acks s) :=
  congrArg Host.Outcome.next ((coreOnly_hart alone.cur _).trans ((outside_alone alone _).trans (if_pos waits)))

section
variable (settled : pendingIn (s.ctx c) 3 false = false)
include settled

theorem exec_tspawn_bad (bad : badArray (getG (s.ctx c).regs a) (getG (s.ctx c).regs b)) : exec (.tspawn d a b) s = .next (finishG c d 0 s) :=
  congrArg Host.Outcome.next ((coreOnly_hart alone.cur _).trans ((outside_alone alone _).trans
    ((if_neg (by rw [settled]; decide)).trans (if_pos ((badArray_iff ..).1 bad)))))

theorem exec_tspawn_sent (good : ¬badArray (getG (s.ctx c).regs a) (getG (s.ctx c).regs b)) :
    exec (.tspawn d a b) s = .next (setWait c (.tspawn s.nextId d) (send (spawnPacket s c a b) (cover c 3 s))) :=
  congrArg Host.Outcome.next ((coreOnly_hart alone.cur _).trans ((outside_alone alone _).trans
    ((if_neg (by rw [settled]; decide)).trans (if_neg fun bad => good ((badArray_iff ..).2 bad)))))

end

theorem exec_texit (unposted : (s.ctx c).eng.posted = none) (idle : (s.ctx c).eng.aq = []) : exec (.texit a) s =
    .next (match (s.ctx c).task with
      | some t => exitGang t (modCtx c (exitedCtx a) s)
      | none => modCtx c (exitedCtx a) s) := by
  refine congrArg Host.Outcome.next ((coreOnly_hart alone.cur _).trans ((outside_alone alone _).trans
    ((if_neg (by rw [unposted]; decide)).trans ((if_neg (by rw [idle]; decide)).trans ?_))))
  cases (s.ctx c).task with
  | none => rfl
  | some t => rfl

end

/-! ### The end of a gang (R17) -/

/-- A member of a gang whose cores are released. -/
def releasedCtx (h : Ctx) : Ctx := { h with resident := false, image := none }

theorem releaseCores_members (members : List Nat) (s : State) :
    let t := forEach members (fun m s => modCtx m (fun h => { h with resident := false, image := none }) (modCore (s.ctx m).gcn (dropBanks m) s)) s
    t.mem = s.mem ∧ ∀ x, t.ctx x = if x ∈ members then releasedCtx (s.ctx x) else s.ctx x := by
  unfold forEach
  induction members generalizing s with
  | nil => exact ⟨rfl, fun x => (if_neg List.not_mem_nil).symm⟩
  | cons m l ih =>
    obtain ⟨mem, ctx⟩ := ih (modCtx m releasedCtx (modCore (s.ctx m).gcn (dropBanks m) s))
    refine ⟨mem, fun x => (ctx x).trans ?_⟩
    rw [modCtx_ctx]
    by_cases here : x = m
    · subst here
      rw [if_pos rfl, if_pos List.mem_cons_self]
      split <;> rfl
    · rw [if_neg here]
      simp only [List.mem_cons, here, false_or]
      rfl

theorem releaseCores_ctx (tid : Nat) (s : State) : (releaseCores tid s).mem = s.mem ∧
    ∀ x, (releaseCores tid s).ctx x = if x ∈ (s.task tid).members then releasedCtx (s.ctx x) else s.ctx x := releaseCores_members ..

/-- R17: a gang goes on while a member has not exited; its last exit releases its cores. -/
theorem exitGang_ctx (tid : Nat) (s : State) : (exitGang tid s).mem = s.mem ∧ ∀ x, (exitGang tid s).ctx x =
    if (∀ m ∈ (s.task tid).members, (s.ctx m).exited.isSome = true) ∧ x ∈ (s.task tid).members then releasedCtx (s.ctx x) else s.ctx x := by
  obtain ⟨mem, ctx⟩ := releaseCores_ctx tid s
  unfold exitGang
  by_cases all : ∀ m ∈ (s.task tid).members, (s.ctx m).exited.isSome = true
  · rw [if_pos (List.all_eq_true.2 all)]
    exact ⟨mem, fun x => (ctx x).trans (if_congr (and_iff_right all).symm rfl rfl)⟩
  · rw [if_neg fun h => all (List.all_eq_true.1 h)]
    exact ⟨rfl, fun x => (if_neg fun h => all h.1).symm⟩

/-! ### TSPAWN's answer (R191, R317) -/

/-- R191: the dispatcher answers as many records as it has taken, and the hart goes on. -/
theorem exec_tspawnAck {id n : Nat} {base : W64} {asid : BitVec 16} {p : Packet} (waits : (s.ctx c).wait = .tspawn id d)
    (sent : packet s id = some p) (request : p.body = .tspawn base n asid) (calm : cool s = true) :
    exec (.tspawnAck c) s = .next (if ((spawnFor c base n asid s).2.ctx c).halted then unsend id (spawnFor c base n asid s).2
      else finishG c d (w64 (spawnFor c base n asid s).1) (unsend id (spawnFor c base n asid s).2)) := by
  refine congrArg Host.Outcome.next ?_
  rw [waits]
  dsimp only
  rw [sent, Option.map_some, request]
  exact gate_cool calm ..

end Sys2Proof.Claim
end

section
open Sys2Proof Sys2Proof.Machine Sys2Proof.Claim

theorem Sys2Proof.Claim.taskInstructions : Claim.TaskInstructions := by
  unfold Claim.TaskInstructions
  intro s c alone
  dsimp only
  refine ⟨fun d a tid task => ?_, fun a zero => ?_, fun a some_ => ?_, fun d a b settled bad => ?_, fun d a b settled good => ?_,
    fun d a b waits => exec_tspawn_waits alone waits, fun a unposted idle untasked => ?_, fun a tid unposted idle task => ?_⟩
  · refine ⟨_, exec_targ alone, ?_⟩
    have value : targValue s (s.ctx c) (bits (getG (s.ctx c).regs a) 0 3) =
        if bits (getG (s.ctx c).regs a) 0 3 = 0 then (s.task tid).arg else if bits (getG (s.ctx c).regs a) 0 3 = 1 then BitVec.ofNat 64 (s.ctx c).member
        else if bits (getG (s.ctx c).regs a) 0 3 = 2 then BitVec.ofNat 64 (s.task tid).members.length
        else if bits (getG (s.ctx c).regs a) 0 3 = 3 then gangMap (s.ctx c).vcn ((s.task tid).members.map fun m => (s.ctx m).gcn % 8)
        else if bits (getG (s.ctx c).regs a) 0 3 = 4 then (s.task tid).tag else 0 := by
      unfold targValue
      rw [task]
      dsimp only
      rw [List.length_map]
      rfl
    rw [value]
    exact retired_finishG alone.notArmed ..
  · rw [exec_tyield alone, zero]
    exact ⟨_, rfl, retired_retire alone.notArmed⟩
  · have pos : (getG (s.ctx c).regs a).toNat ≠ 0 := fun h => some_ (BitVec.eq_of_toNat_eq h)
    exact (exec_tyield alone).trans (congrArg _ (if_neg (by omega)))
  · exact ⟨_, exec_tspawn_bad alone settled bad, retired_finishG alone.notArmed ..⟩
  · obtain ⟨_, _, _, device⟩ := cover_device c 3 s
    have number : (cover c 3 s).nextId = s.nextId := (congrArg State.nextId device :)
    rw [exec_tspawn_sent alone settled good, spawnPacket, ← number]
    rfl
  · exact ⟨modCtx c (exitedCtx a) s, (exec_texit alone unposted idle).trans (by rw [untasked]), onlyHart_modCtx .., modCtx_self ..⟩
  · rw [exec_texit alone unposted idle, task]
    set u := modCtx c (exitedCtx a) s
    obtain ⟨mem, ctx⟩ := exitGang_ctx tid u
    have exited (m : Nat) : (u.ctx m).exited.isSome = true ↔ m = c ∨ (s.ctx m).exited.isSome = true := by
      rw [modCtx_ctx]
      split
      · next here =>
        rw [here]
        exact iff_of_true rfl (.inl rfl)
      · next other => exact (or_iff_right other).symm
    have stays (m : Nat) : ((exitGang tid u).ctx m).exited = (u.ctx m).exited := by
      rw [ctx]
      split <;> rfl
    refine ⟨_, rfl, ?_, mem, ?_, fun all m hm => ?_⟩
    · rw [stays, modCtx_self]
      rfl
    · simp only [stays, exited]
    · rw [ctx, if_pos ⟨fun x hx => (exited x).2 (all x hx), hm⟩]
      rfl

theorem Sys2Proof.Claim.taskWaitsEnd : Claim.TaskWaitsEnd := by
  unfold Claim.TaskWaitsEnd
  intro s c
  dsimp only
  refine ⟨fun u waits live armed past => ⟨_, congrArg Host.Outcome.next ?_, retired_retire armed⟩, fun id d base n asid p tid waits going armed task sent request calm => ?_⟩
  · dsimp only
    rw [waits]
    exact if_pos (by rw [canMove_of_live live, decide_eq_true past]; rfl)
  · set l := (s.task tid).launch
    set v := (s.launch l).vf
    set r := if bits (s.owner v).vfcfg 36 12 = 0 ∨ bits (s.owner v).vfcfg 24 12 = 0 then (0, s) else taken v l asid n base.toNat s
    have answer : spawnFor c base n asid s = r := by
      unfold spawnFor
      rw [task]
      dsimp only
      rw [spawnRecords_eq, Nat.zero_add]
      rfl
    obtain ⟨net, lines⟩ : LinesOnly s r.2 := by
      show LinesOnly s (if _ then (0, s) else _).2
      split
      · exact .refl s
      · exact .taken ..
    have regs : (r.2.ctx c).regs = (s.ctx c).regs := (congrArg (fun h : Ctx => h.regs) (lines c) :)
    have halted : (r.2.ctx c).halted = false := (congrArg (fun h : Ctx => h.halted) (lines c) :).trans going
    have unarmed : (r.2.ctx c).armed = none := (congrArg (fun h : Ctx => h.armed) (lines c) :).trans armed
    obtain ⟨⟨device, -, -⟩, hart⟩ := retired_finishG (s := unsend id r.2) (c := c) unarmed d (w64 r.1)
    rw [exec_tspawnAck waits sent request calm, answer, halted, if_neg (by decide)]
    have ends : (finishG c d (w64 r.1) (unsend id r.2)).ctx c = retiredCtx (r.2.ctx c) (nextPc (s.ctx c).regs (setG (s.ctx c).regs d (w64 r.1))) := by
      rw [hart, ← regs]
      rfl
    refine ⟨_, rfl, ends, congrArg Ctx.regs ends, congrArg Ctx.wait ends, (congrArg State.tasks device :), (congrArg State.versions device :),
      (congrArg State.owners device :), ((congrArg State.net device :).trans (congrArg (List.filter _) net) :)⟩

/-- Settles O38: TEXIT of the last member releases the gang (`exitGang_ctx`); what the dispatcher takes for TSPAWN leaves harts and fabric
(`LinesOnly.taken`). -/
theorem taskForms : Obligations.TaskForms := by
  unfold Obligations.TaskForms
  exact ⟨taskInstructions, taskWaitsEnd⟩

end

section
/-! SUPPORT. Completion counters (R179, R184) and rings (R185 to R187). -/

namespace Sys2Proof.Claim
open Sys2Proof.Machine

variable {s t u : State} {c k n p : Nat} {a b d : R5} {r : Ring} {full : Bool} {l l' : List Nat}

/-- R195, R204: a release at CORE scope squashes no other hart. -/
theorem cover_core_ctx (c : Nat) (s : State) (x : Nat) : (cover c 0 s).ctx x = s.ctx x := by
  refine (setCovers_ctx c 0 (coversFor s c) s x).2 fun ⟨p, _, _, overtakes⟩ => ?_
  have ⟨other, before, after, _⟩ := overtakes
  obtain ⟨-, -, -, tog⟩ := (newlyBefore_iff s c 0 p x).2 ⟨before, after⟩
  have same : sameInstance s 0 c x = true := (sameInstance_iff s 0 c x).2 tog
  exact other (of_decide_eq_true same).symm

/-! ### Counters (R184) -/

theorem bits_counter (g : W64) : bits g 0 6 = g.toNat % 64 := (bits_eq ..).trans (by rw [pow_zero, Nat.div_one]; rfl)

theorem cwaitDone_clean (clean : (s.ctx c).eng.poison = none) (n : Nat) (v : W64) : cwaitDone c n v s = retire c s := by
  unfold cwaitDone poisonFor
  rw [clean]

theorem counter_modCtx {f : Ctx → Ctx} {v : W64} (cc : (f (s.ctx c)).eng.cc = tset 0 (s.ctx c).eng.cc n v) (j : Nat) :
    counter (modCtx c f s) c j = if j = n then v else counter s c j := by
  unfold counter
  rw [modCtx_self, cc]
  exact tget_tset ..

/-- R94, R179: the context that has retired CADD. -/
def addedCtx (n : Nat) (v : W64) (h : Ctx) : Ctx :=
  { retiredCtx h (nextPc h.regs h.regs) with eng := { h.eng with cc := tset 0 h.eng.cc n (tget h.eng.cc n 0 + v) } }

theorem retire_bump (armed : (s.ctx c).armed = none) (n : Nat) (v : W64) : retire c (bump c n v s) = modCtx c (addedCtx n v) s := by
  rw [bump_eq, retire_unarmed (by rw [modCtx_self]; exact armed), modCtx_comp, modCtx_self]
  exact modCtx_congr rfl

section
variable (alone : HartAlone s c)
include alone

theorem exec_cread : exec (.cread d a) s = .next (finishG c d (counter s c ((getG (s.ctx c).regs a).toNat % 64)) s) := by
  rw [← bits_counter]
  exact congrArg Host.Outcome.next ((coreOnly_hart alone.cur _).trans (outside_alone alone _))

theorem exec_cadd : exec (.cadd a b) s =
    .next (retire c (bump c ((getG (s.ctx c).regs a).toNat % 64) (getG (s.ctx c).regs b) (cover c 0 s))) := by
  rw [← bits_counter]
  exact congrArg Host.Outcome.next ((coreOnly_hart alone.cur _).trans (outside_alone alone _))

theorem exec_cwait : exec (.cwait a b) s =
    .next (if (counter s c ((getG (s.ctx c).regs a).toNat % 64)).toNat < (getG (s.ctx c).regs b).toNat
      then setWait c (.cwait ((getG (s.ctx c).regs a).toNat % 64) (getG (s.ctx c).regs b)) s
      else cwaitDone c ((getG (s.ctx c).regs a).toNat % 64) (getG (s.ctx c).regs b) s) := by
  rw [← bits_counter]
  exact congrArg Host.Outcome.next ((coreOnly_hart alone.cur _).trans (outside_alone alone _))

end

/-! ### Full/empty bits of slots (R187) -/

theorem Bits.trans (h : Bits s t l full) (h' : Bits t u l' full) : Bits s u (l ++ l') full := by
  intro w
  rw [h' w, h w]
  by_cases second : w ∈ l'
  · simp [second]
  · simp [second]

theorem setLocalFe_here (image : (s.ctx c).image = none) (a n : Nat) (full : Bool) :
    setLocalFe c a n full s = setFe (wordsOf (localKey (s.ctx c).gcn a) n) full s := by
  unfold setLocalFe
  dsimp only
  rw [image]

theorem slotsFe_succ (r : Ring) (p n : Nat) (full : Bool) :
    slotsFe c r p (n + 1) full s = setLocalFe c (slotAddr r (p + n)) r.slotb full (slotsFe c r p n full s) := by
  unfold slotsFe forEach
  rw [List.range_succ, List.foldl_append]
  rfl

theorem slotWords_succ (r : Ring) (p n : Nat) :
    slotWords s c r p (n + 1) = slotWords s c r p n ++ wordsOf (localKey (s.ctx c).gcn (slotAddr r (p + n))) r.slotb := by
  unfold slotWords
  rw [List.range_succ, List.flatMap_append, List.flatMap_singleton]
  rfl

/-- R187: slots from a position on become full or empty, and nothing else changes. -/
theorem slotsFe_bits (image : (s.ctx c).image = none) (r : Ring) (p n : Nat) (full : Bool) :
    { slotsFe c r p n full s with fe := s.fe } = s ∧ Bits s (slotsFe c r p n full s) (slotWords s c r p n) full := by
  induction n with
  | zero => exact ⟨rfl, bits_nil _ rfl⟩
  | succ n ih =>
    obtain ⟨same, bits_⟩ := ih
    have hart : (slotsFe c r p n full s).ctx c = s.ctx c := (congrArg (fun x : State => x.ctx c) same :)
    rw [slotsFe_succ, slotWords_succ, setLocalFe_here (by rw [hart]; exact image), hart]
    exact ⟨same, bits_.trans (bits_setFe _ _ rfl)⟩

/-! ### Ring forms (R187) -/

/-- R94, R187: the context that has retired a form which moves its ring on. -/
def ringMovedCtx (k : Nat) (r : Ring) (h : Ctx) : Ctx :=
  { retiredCtx h (nextPc h.regs h.regs) with eng := { h.eng with rings := tput h.eng.rings k r } }

theorem retire_setRing (armed : (s.ctx c).armed = none) (k : Nat) (r : Ring) : retire c (setRing c k r s) = modCtx c (ringMovedCtx k r) s := by
  show retire c (modCtx c _ s) = _
  rw [retire_unarmed (by rw [modCtx_self]; exact armed), modCtx_comp, modCtx_self]
  exact modCtx_congr rfl

theorem ring_moved (k : Nat) (r : Ring) (j : Nat) : ring (modCtx c (ringMovedCtx k r) s) c j = if j = k then r else ring s c j := by
  unfold ring
  rw [modCtx_self]
  exact tget_tput ..

/-- R185, R187: a ring has moved on past slots that have become full or empty, and its form has retired. -/
structure RingMoved (c k : Nat) (s t : State) (words : List Nat) (full : Bool) (r : Ring) : Prop where
  device : { t with ctxs := s.ctxs, fe := s.fe } = s
  others : OtherHarts c s t
  regs : (t.ctx c).regs = nextPc (s.ctx c).regs (s.ctx c).regs
  bits : Bits s t words full
  rings : ∀ j, ring t c j = if j = k then r else ring s c j

theorem ringMoved_retire (armed : (s.ctx c).armed = none) (same : { u with fe := s.fe } = s) (bits_ : Bits s u l full) (k : Nat) (r : Ring) :
    RingMoved c k s (retire c (setRing c k r u)) l full r := by
  have hart (x : Nat) : u.ctx x = s.ctx x := (congrArg (fun y : State => y.ctx x) same :)
  rw [retire_setRing (by rw [hart]; exact armed)]
  refine ⟨?_, fun x hx => ((modCtx_ctx ..).trans (if_neg hx)).trans (hart x), ?_, bits_, fun j => (ring_moved ..).trans ?_⟩
  · exact (congrArg (fun y : State => { y with ctxs := s.ctxs }) same :)
  · rw [modCtx_self, hart]
    rfl
  · unfold ring
    rw [hart]

section
variable (alone : HartAlone s c) (small : k < 8)
include alone small

/-- R188: past its checks a ring form acts on its ring. -/
theorem ringOp_acts {i : Instr} {top : Ring → Nat} {fed held : Bool → Bool} {act : Nat → Ring → Nat → State → State}
    (valid : (ring s c k).valid = true) (count : (getG (s.ctx c).regs b).toNat ≤ top (ring s c k)) (unfed : fed (ring s c k).feed = false)
    (unheld : Unheld (s.ctx c) k) :
    ringOp i (.ofNat 5 k) b top fed held act s = act c (ring s c k) (getG (s.ctx c).regs b).toNat s := by
  obtain ⟨unheldA, unheldC⟩ := unheld
  unfold ringOp
  rw [coreOnly_hart alone.cur]
  dsimp only
  rw [toNat_ringNumber small, if_neg (Nat.not_le.2 small), outside_alone alone, if_neg]
  · rfl
  · show ¬((!(ring s c k).valid) = true ∨ _)
    rw [unheldA, unheldC, Bool.and_false, Bool.and_false]
    show ¬(_ ∨ top (ring s c k) < _ ∨ fed (ring s c k).feed = true ∨ _)
    rw [valid, unfed]
    simpa using count

/-- R187: the empty ring that RINIT makes. -/
def emptyRing (base : Nat) (g : W64) : Ring :=
  { valid := true, base := base, slotb := g.toNat % 65536, nslot := g.toNat / 65536 % 65536, feed := g.getLsbD 32, head := 0, tail := 0 }

/-- R187: RINIT with a sound geometry, in permitted scratchpad, on a ring that none holds. -/
theorem rinit_runs (right : ¬ringWrong (s.ctx c) k (getG (s.ctx c).regs a).toNat ((getG (s.ctx c).regs b).toNat % 65536)
      ((getG (s.ctx c).regs b).toNat / 65536 % 65536))
    (permitted : ringPermitted (s.ctx c) (getG (s.ctx c).regs a).toNat
      ((getG (s.ctx c).regs b).toNat % 65536 * ((getG (s.ctx c).regs b).toNat / 65536 % 65536))) (unheld : Unheld (s.ctx c) k) :
    exec (.rinit (.ofNat 5 k) a b) s = .next (if slotWriting s c k then s else
      retire c (setLocalFe c (getG (s.ctx c).regs a).toNat
        ((getG (s.ctx c).regs b).toNat % 65536 * ((getG (s.ctx c).regs b).toNat / 65536 % 65536)) false
        (setRing c k (emptyRing (getG (s.ctx c).regs a).toNat (getG (s.ctx c).regs b)) s))) := by
  obtain ⟨unheldA, unheldC⟩ := unheld
  refine congrArg Host.Outcome.next ((coreOnly_hart alone.cur _).trans ((if_neg ?_).trans ((outside_alone alone _).trans
    ((if_neg ?_).trans ((if_neg ?_).trans ((if_neg ?_).trans ?_))))))
  · rw [toNat_ringNumber small]
    exact Nat.not_le.2 small
  · simpa [toNat_ringNumber small, ringWrong, bits_slotb, bits_nslot, and_assoc] using right
  · simpa [ringPermitted, bits_slotb, bits_nslot, inPad, Config.padBytes] using permitted
  · rw [toNat_ringNumber small, unheldA, unheldC]
    decide
  · rw [toNat_ringNumber small, emptyRing, bits_slotb, bits_nslot]

end

end Sys2Proof.Claim
end

section
open Sys2Proof Sys2Proof.Machine Sys2Proof.Claim

theorem Sys2Proof.Claim.counterInstructions : Claim.CounterInstructions := by
  unfold Claim.CounterInstructions
  intro s c
  dsimp only
  refine ⟨fun alone d a => ⟨_, exec_cread alone, retired_finishG alone.notArmed ..⟩, fun alone a b => ?_, fun alone clean a b => ?_,
    fun j v waits live armed clean idle reached => ?_⟩
  · have own := cover_core_ctx c s c
    rw [exec_cadd alone, retire_bump (by rw [own]; exact alone.notArmed)]
    have before : counter (cover c 0 s) c = counter s c := by
      unfold counter
      rw [own]
    refine ⟨_, rfl, onlyHart_modCtx .., fun j => ?_, ?_⟩
    · rw [← before]
      by_cases here : j = (getG (s.ctx c).regs a).toNat % 64
      · subst here
        exact counter_modCtx rfl _
      · rw [counter_modCtx rfl, if_neg here, if_neg here]
    · rw [modCtx_self, own]
      rfl
  · rw [exec_cwait alone]
    split
    · next reached =>
      rw [if_neg (Nat.not_lt.2 reached), cwaitDone_clean clean]
      exact ⟨_, rfl, retired_retire alone.notArmed⟩
    · next short => rw [if_pos (Nat.not_le.1 short)]
  · refine ⟨_, congrArg Host.Outcome.next ?_, retired_retire armed⟩
    dsimp only
    rw [waits]
    refine (if_pos ?_).trans (cwaitDone_clean clean j v)
    have enough : decide ((getCc (s.ctx c) j).toNat < v.toNat) = false := decide_eq_false (Nat.not_lt.2 reached)
    rw [mayWake_of_live live, idle, enough]
    rfl

theorem Sys2Proof.Claim.ringInstructions : Claim.RingInstructions := by
  unfold Claim.RingInstructions
  intro s c k small
  dsimp only
  refine ⟨fun alone unheld image a b whole least most some_ many aligned inside permits apart => ?_, fun alone unheld valid d b count => ?_,
    fun alone unheld valid image b => ?_, fun d n live armed => ?_⟩
  · have right : ¬ringWrong (s.ctx c) k (getG (s.ctx c).regs a).toNat ((getG (s.ctx c).regs b).toNat % 65536)
        ((getG (s.ctx c).regs b).toNat / 65536 % 65536) := by
      rintro (h | h | h | h | h | h | ⟨p, hp, other, valid, low, high⟩)
      · exact h whole
      · omega
      · omega
      · omega
      · omega
      · exact h aligned
      · obtain h | h := apart p hp other valid
        · omega
        · omega
    rw [rinit_runs alone small right ⟨inside, permits⟩ unheld]
    split
    · rfl
    · set made := emptyRing (getG (s.ctx c).regs a).toNat (getG (s.ctx c).regs b)
      have hart : (setRing c k made s).ctx c = { s.ctx c with eng := { (s.ctx c).eng with rings := tput (s.ctx c).eng.rings k made } } := modCtx_self ..
      have gcn : ((setRing c k made s).ctx c).gcn = (s.ctx c).gcn := (congrArg Ctx.gcn hart :)
      rw [setLocalFe_here ((congrArg Ctx.image hart).trans image), gcn]
      set words := wordsOf (localKey (s.ctx c).gcn (getG (s.ctx c).regs a).toNat)
        ((getG (s.ctx c).regs b).toNat % 65536 * ((getG (s.ctx c).regs b).toNat / 65536 % 65536))
      obtain ⟨device, others, regs, bits_, rings⟩ := ringMoved_retire (u := setFe words false s) alone.notArmed rfl (bits_setFe _ _ rfl) k made
      exact ⟨_, rfl, device, others, regs, rings, bits_⟩
  · have word : w64 (getG (s.ctx c).regs b).toNat = getG (s.ctx c).regs b := by simp [w64]
    have rwf : exec (.rwf d (.ofNat 5 k) b) s = .next (if filledOf (ring s c k) < (getG (s.ctx c).regs b).toNat
        then setWait c (.rwf d k (getG (s.ctx c).regs b)) s else finishG c d (slotOf (ring s c k) (ring s c k).head) s) := by
      refine congrArg Host.Outcome.next ((ringOp_acts alone small valid count rfl unheld).trans ?_)
      rw [toNat_ringNumber small, word]
      rfl
    have rwe (unfed : (ring s c k).feed = false) : exec (.rwe d (.ofNat 5 k) b) s = .next (if freeOf (ring s c k) < (getG (s.ctx c).regs b).toNat
        then setWait c (.rwe d k (getG (s.ctx c).regs b)) s else finishG c d (slotOf (ring s c k) (ring s c k).tail) s) := by
      refine congrArg Host.Outcome.next ((ringOp_acts alone small valid count unfed unheld).trans ?_)
      rw [toNat_ringNumber small, word]
      rfl
    refine ⟨fun enough => ?_, fun short => rwf.trans (congrArg _ (if_pos short)), fun unfed enough => ?_,
      fun unfed short => (rwe unfed).trans (congrArg _ (if_pos short))⟩
    · exact ⟨_, rwf.trans (congrArg _ (if_neg (Nat.not_lt.2 enough))), retired_finishG alone.notArmed ..⟩
    · exact ⟨_, (rwe unfed).trans (congrArg _ (if_neg (Nat.not_lt.2 enough))), retired_finishG alone.notArmed ..⟩
  · set n := (getG (s.ctx c).regs b).toNat
    set r := ring s c k
    refine ⟨fun unfed enough => ?_, fun enough => ?_⟩
    · have harts := cover_core_ctx c s
      obtain ⟨_, _, _, device⟩ := cover_device c 0 s
      have run : exec (.rpub (.ofNat 5 k) b) s = .next (retire c (setRing c k { r with tail := (r.tail + n) % 2 ^ 32 }
          (slotsFe c r r.tail n true (cover c 0 s)))) := by
        refine congrArg Host.Outcome.next ((ringOp_acts alone small valid enough unfed unheld).trans ?_)
        rw [toNat_ringNumber small]
        rfl
      obtain ⟨same, bits_⟩ := slotsFe_bits (by rw [harts]; exact image) r r.tail n true
      have moved := ringMoved_retire (by rw [harts]; exact alone.notArmed) same bits_ k { r with tail := (r.tail + n) % 2 ^ 32 }
      have words : slotWords (cover c 0 s) c r r.tail n = slotWords s c r r.tail n := by
        unfold slotWords
        rw [harts]
      have full : (cover c 0 s).fe = s.fe := (congrArg State.fe device :)
      refine ⟨_, run, ?_, (congrArg State.net moved.device :), fun x hx => (moved.others x hx).trans (harts x), ?_, fun w => ?_, fun j => ?_⟩
      · exact (congrArg State.mem moved.device :).trans (congrArg State.mem device :)
      · rw [moved.regs, harts]
      · rw [moved.bits, words, full]
      · rw [moved.rings, ring, ring, harts]
    · have run : exec (.rcon (.ofNat 5 k) b) s = .next (retire c (setRing c k { r with head := (r.head + n) % 2 ^ 32 }
          (slotsFe c r r.head n false s))) := by
        refine congrArg Host.Outcome.next ((ringOp_acts alone small valid enough rfl unheld).trans ?_)
        rw [toNat_ringNumber small]
        rfl
      obtain ⟨same, bits_⟩ := slotsFe_bits image r r.head n false
      have moved := ringMoved_retire alone.notArmed same bits_ k { r with head := (r.head + n) % 2 ^ 32 }
      exact ⟨_, run, (congrArg State.mem moved.device :), moved.others, moved.regs, moved.bits, moved.rings⟩
  · refine ⟨fun waits enough => ⟨_, congrArg Host.Outcome.next ?_, retired_finishG armed ..⟩,
      fun waits enough => ⟨_, congrArg Host.Outcome.next ?_, retired_finishG armed ..⟩⟩
    · dsimp only
      rw [waits]
      exact if_pos (by rw [mayWake_of_live live]; exact decide_eq_true enough)
    · dsimp only
      rw [waits]
      exact if_pos (by rw [mayWake_of_live live]; exact decide_eq_true enough)

/-- Settles O43: CADD and RPUB release at CORE scope, which holds no other hart (`cover_core_ctx`); a ring form past its checks acts on its
ring (`ringOp_acts`), and slot by slot the words' bits change (`slotsFe_bits`). -/
theorem countersAndRings : Obligations.CountersAndRings := by
  unfold Obligations.CountersAndRings
  exact ⟨counterInstructions, ringInstructions⟩

end

section
/-! SUPPORT. Spans of bytes cut into aligned words, and bytes that are read ahead (R56, R202, R331, R381). -/

namespace Sys2Proof.Claim
open Sys2Proof.Machine

variable {s t u : State} {c k n p a : Nat} {b : List Byte}

/-! ### Aligned words of a span (R56) -/

/-- A list is what lies between rising cuts, piece by piece. -/
theorem flatMap_cuts {α : Type} (x : List α) {cut : Nat → Nat} (rising : Monotone cut) (m : Nat) :
    ((List.range m).flatMap fun i => (x.drop (cut i)).take (cut (i + 1) - cut i)) = (x.drop (cut 0)).take (cut m - cut 0) := by
  induction m with
  | zero => simp
  | succ m ih =>
    have first : cut 0 ≤ cut m := rising (Nat.zero_le m)
    have second : cut m ≤ cut (m + 1) := rising (Nat.le_succ m)
    rw [List.range_succ, List.flatMap_append, ih, List.flatMap_singleton,
      show cut (m + 1) - cut 0 = (cut m - cut 0) + (cut (m + 1) - cut m) by omega, List.take_add, List.drop_drop, Nat.add_sub_cancel' first]

/-- How many of the n bytes from address a lie before the i-th aligned word of the span. -/
def wordCut (a n i : Nat) : Nat := min n ((a / 8 + i) * 8 - a)

/-- The aligned words of n bytes from address a. -/
def spanWords (a n : Nat) : Nat := (a + n - 1) / 8 - a / 8 + 1

theorem spans_eq (some_ : n ≠ 0) :
    spans 8 a n = (List.range (spanWords a n)).map fun i => (a + wordCut a n i, wordCut a n (i + 1) - wordCut a n i) := by
  unfold spans
  rw [if_neg some_]
  refine List.map_congr_left fun i hi => ?_
  rw [List.mem_range] at hi
  unfold wordCut
  refine Prod.ext ?_ ?_
  · dsimp only
    omega
  · dsimp only
    omega

theorem spans_flatMap {α : Type} (a : Nat) (x : List α) : ((spans 8 a x.length).flatMap fun u => (x.drop (u.1 - a)).take u.2) = x := by
  by_cases none_ : x.length = 0
  · rw [List.length_eq_zero_iff.1 none_]
    rfl
  · have rising : Monotone (wordCut a x.length) := fun i j le => by
      unfold wordCut
      omega
    rw [spans_eq none_, List.flatMap_map]
    simp only [Nat.add_sub_cancel_left]
    refine (flatMap_cuts x rising _).trans ?_
    have first : wordCut a x.length 0 = 0 := by
      unfold wordCut
      omega
    have last : wordCut a x.length (spanWords a x.length) = x.length := by
      unfold wordCut spanWords
      omega
    rw [first, last]
    simp

theorem mem_spans {u : Nat × Nat} (hu : u ∈ spans 8 a n) : a ≤ u.1 ∧ 0 < u.2 ∧ u.1 + u.2 ≤ a + n ∧ u.1 / 8 = (u.1 + u.2 - 1) / 8 := by
  by_cases none_ : n = 0
  · rw [none_] at hu
    cases hu
  · rw [spans_eq none_, List.mem_map] at hu
    obtain ⟨i, hi, rfl⟩ := hu
    rw [List.mem_range] at hi
    unfold wordCut
    unfold spanWords at hi
    dsimp only
    omega

theorem spans_apart (a n : Nat) : (spans 8 a n).Pairwise fun u v => u.1 / 8 < v.1 / 8 := by
  by_cases none_ : n = 0
  · rw [none_]
    exact .nil
  · rw [spans_eq none_, List.pairwise_map]
    refine List.Pairwise.imp_of_mem (fun {i j} hi hj lt => ?_) List.pairwise_lt_range
    rw [List.mem_range] at hi hj
    unfold wordCut
    unfold spanWords at hi hj
    omega

/-- What a segment leaves to write: bytes from an address of context `m`, or from a key of memory, a word at a time. -/
def lateWords (m : Option Nat) (a : Nat) (b : List Byte) : List LateWord := (splitWords a b).map fun w => { ctx := m, addr := w.1, bytes := w.2 }

theorem lateWords_eq (m : Option Nat) (a : Nat) (b : List Byte) :
    lateWords m a b = (spans 8 a b.length).map fun u => { ctx := m, addr := u.1, bytes := (b.drop (u.1 - a)).take u.2 } := by
  unfold lateWords splitWords
  exact List.map_map

theorem length_word {u : Nat × Nat} (hu : u ∈ spans 8 a b.length) : ((b.drop (u.1 - a)).take u.2).length = u.2 := by
  obtain ⟨low, -, high, -⟩ := mem_spans hu
  rw [List.length_take, List.length_drop]
  omega

/-- R56: the words that a segment leaves are its bytes, where the keys of its words are theirs. -/
theorem wordsAre_lateWords {m : Option Nat} {d : Nat} (aligned : d % 8 = 0)
    (keys : ∀ u ∈ spans 8 a b.length, ∀ l, lateKey s { ctx := m, addr := u.1, bytes := l } = d + u.1) :
    WordsAre s (lateWords m a b) (d + a) b := by
  rw [lateWords_eq]
  refine ⟨?_, ?_, ?_, ?_⟩
  · rw [List.flatMap_map]
    exact spans_flatMap a b
  · rw [List.flatMap_map]
    have whole := spans_flatMap a ((List.range b.length).map (d + a + ·))
    rw [List.length_map, List.length_range] at whole
    refine Eq.trans ?_ whole
    refine List.flatMap_congr fun u hu => ?_
    obtain ⟨low, -, high, -⟩ := mem_spans hu
    rw [length_word hu, keys u hu]
    refine List.ext_getElem ?_ fun i h h' => ?_
    · simp
      omega
    · simp
      omega
  · rw [List.pairwise_map]
    refine List.Pairwise.imp_of_mem (fun {u v} hu hv apart => ?_) (spans_apart a b.length)
    rw [keys u hu, keys v hv]
    omega
  · intro w hw
    rw [List.mem_map] at hw
    obtain ⟨u, hu, rfl⟩ := hw
    obtain ⟨low, some_, high, same⟩ := mem_spans hu
    rw [keys u hu]
    dsimp only
    rw [length_word hu]
    refine ⟨rfl, fun none_ => ?_, ?_⟩
    · have long := length_word hu
      rw [none_] at long
      simp at long
      omega
    · omega

/-! ### Local addresses of the scratchpad (R51) -/

theorem localKey_add {g i : Nat} (inside : a + i < 0x8000) : localKey g (a + i) = localKey g a + i := by
  unfold localKey localOfs Config.padBytes
  rw [if_pos inside, if_pos (by omega)]
  unfold sramKey
  omega

theorem localOfs_add {g i : Nat} (inside : a + i < 0x8000) : localOfs g (a + i) = localOfs g a + i := by
  unfold localOfs Config.padBytes
  rw [if_pos inside, if_pos (by omega), Nat.add_assoc]

/-- R56: the words of a span of a hart's scratchpad. -/
theorem wordsAre_local {m : Nat} (inside : a + b.length ≤ 0x8000) (some_ : 0 < b.length) :
    WordsAre s (lateWords (some m) a b) (localKey (s.ctx m).gcn a) b := by
  have base : localKey (s.ctx m).gcn a = localKey (s.ctx m).gcn 0 + a := by
    rw [← localKey_add (by omega), Nat.zero_add]
  rw [base]
  refine wordsAre_lateWords ?_ fun u hu l => ?_
  · unfold localKey localOfs sramKey Config.sramBase Config.padBytes
    rw [if_pos (by decide)]
    omega
  · obtain ⟨low, some_, high, -⟩ := mem_spans hu
    show localKey (s.ctx m).gcn u.1 = _
    rw [← localKey_add (by omega), Nat.zero_add]

theorem wordsAre_memory : WordsAre s (lateWords none k b) k b := by
  have words := wordsAre_lateWords (s := s) (a := k) (b := b) (m := none) (d := 0) rfl fun u _ l => (Nat.zero_add u.1).symm
  rwa [Nat.zero_add] at words

theorem readLocal_here {i : Nat} (image : (s.ctx c).image = none) (inside : a + i + n ≤ 0x8000) (some_ : n ≠ 0) :
    readLocal s c (a + i) n = readBytes s.mem (localKey (s.ctx c).gcn a + i) n := by
  unfold readLocal
  dsimp only
  rw [image, ← localKey_add (by omega)]

/-! ### Bytes read ahead (R202, R381) -/

theorem tget_eq_find? {α : Type} (t : Tbl α) (k : Nat) (d : α) : tget t k d = ((t.find? fun x => x.1 = k).map (·.2)).getD d := by
  induction t with
  | nil => rfl
  | cons x t ih =>
    by_cases here : x.1 = k
    · rw [tget, if_pos here, List.find?_cons_of_pos (by exact decide_eq_true here)]
      rfl
    · rw [tget, if_neg here, List.find?_cons_of_neg (by simpa using here), ih]

/-- R202: source bytes as they were read ahead. -/
theorem asReadAhead_readBytes (e : Entry) (k o n : Nat) : asReadAhead e.early o (readBytes s.mem (k + o) n) = sourceBytes s e k o n := by
  unfold asReadAhead sourceBytes readBytes
  split
  · next none_ =>
    rw [List.isEmpty_iff.1 none_]
    rfl
  · refine List.ext_getElem ?_ fun i h h' => ?_
    · simp
    · simp [tget_eq_find?]

theorem length_sourceBytes (e : Entry) (k o n : Nat) : (sourceBytes s e k o n).length = n := by
  simp [sourceBytes]

theorem sourceBytes_add (e : Entry) (k o m n : Nat) : sourceBytes s e k o (m + n) = sourceBytes s e k o m ++ sourceBytes s e k (o + m) n := by
  unfold sourceBytes
  rw [List.range_add, List.map_append, List.map_map]
  refine congrArg _ (List.map_congr_left fun i _ => ?_)
  simp only [Function.comp_apply, Nat.add_assoc]

/-- R381: bytes entered in a table at places from `o` on. -/
theorem tget_zipIdx_tput (l : List Byte) (o : Nat) (t : Tbl Byte) (i j : Nat) (d : Byte) :
    tget ((l.zipIdx i).foldl (fun t p => tput t (o + p.2) p.1) t) j d = if o + i ≤ j ∧ j < o + i + l.length then l.getD (j - (o + i)) 0 else tget t j d := by
  induction l generalizing i t with
  | nil => simp
  | cons x l ih =>
    rw [List.zipIdx_cons, List.foldl_cons, ih, tget_tput, List.length_cons]
    by_cases here : j = o + i
    · rw [if_neg (by omega), if_pos here, if_pos (by omega), here, Nat.sub_self]
      rfl
    · by_cases later : o + (i + 1) ≤ j ∧ j < o + (i + 1) + l.length
      · rw [if_pos later, if_pos (by omega), show j - (o + i) = (j - (o + (i + 1))) + 1 by omega]
        rfl
      · rw [if_neg later, if_neg here, if_neg (by omega)]

end Sys2Proof.Claim
end

section
/-! SUPPORT. Segments of transfers to and from SRAM of another cluster (R56, R178, R202, R331). -/

namespace Sys2Proof.Claim
open Sys2Proof.Machine

variable {s t u : State} {c n q o i : Nat} {e : Entry} {r : List Entry} {f : Far}

/-! ### The oldest entry of a queue (R178) -/

/-- Changes that leave a hart's engines leave the oldest entry of its queue. -/
theorem Oldest.congr (oldest : Oldest s c e r) (same : (t.ctx c).eng = (s.ctx c).eng) : Oldest t c e r :=
  ⟨(congrArg Engines.q same).trans oldest.1, oldest.2⟩

theorem SameHarts.eng (same : SameHarts s t) (x : Nat) : (t.ctx x).eng = (s.ctx x).eng := (congrArg (fun h : Ctx => h.eng) (same.ctx x) :)
theorem SameHarts.image (same : SameHarts s t) (x : Nat) : (t.ctx x).image = (s.ctx x).image := (congrArg (fun h : Ctx => h.image) (same.ctx x) :)
theorem SameHarts.gcn (same : SameHarts s t) (x : Nat) : (t.ctx x).gcn = (s.ctx x).gcn := (congrArg (fun h : Ctx => h.gcn) (same.ctx x) :)
theorem SameHarts.part (same : SameHarts s t) (x : Nat) : (t.ctx x).part = (s.ctx x).part := (congrArg (fun h : Ctx => h.part) (same.ctx x) :)

theorem Oldest.queue_setEntry {e' : Entry} (oldest : Oldest s c e r) (number : e'.eid = e.eid) : ((Machine.setEntry c e' s).ctx c).eng.q = e' :: r :=
  oldest.setEntry rfl number

theorem Oldest.changed {e' : Entry} (oldest : Oldest s c e r) (number : e'.eid = e.eid) : Oldest (Machine.setEntry c e' s) c e' r :=
  ⟨oldest.queue_setEntry number, fun x hx => number ▸ oldest.2 x hx⟩

theorem lands_none (none_ : e.late = []) : lands e 0 = false := by
  unfold lands
  rw [none_]
  rfl

theorem lands_one (e : Entry) : lands e 1 = false := rfl

theorem lands_even (e : Entry) (i : Nat) : lands e (2 * i + 2) = false := by
  unfold lands
  rw [decide_eq_false (by omega), Bool.false_and, Bool.false_or, decide_eq_false (p := (2 * i + 2) % 2 = 1) (by omega), Bool.and_false]

theorem lands_odd (e : Entry) (i : Nat) : lands e (2 * i + 3) = true := by
  unfold lands
  rw [decide_eq_true (p := 2 ≤ 2 * i + 3) (by omega), decide_eq_true (p := (2 * i + 3) % 2 = 1) (by omega)]
  exact Bool.or_true _

theorem lands_left (left : e.late ≠ []) : lands e 0 = true := by
  unfold lands
  cases late : e.late with
  | nil => exact absurd late left
  | cons w l => rfl

/-- R178: what is left of an entry is written in moves of its own. -/
theorem exec_segment_lands (oldest : Oldest s c e r) (notPutm : e.kind ≠ .putm) (notMadd : e.kind ≠ .madd) (landing : lands e s.choice.pick = true) :
    exec (.putgetSegment c e.eid) s = .next (landLate c e s.choice.old s.choice.pick s) := by
  refine congrArg Host.Outcome.next ?_
  rw [oldest.entryAt]
  exact (if_neg (by simp [notPutm, notMadd])).trans (if_pos landing)

section
variable (oldest : Oldest s c e r) (notPutm : e.kind ≠ .putm) (notMadd : e.kind ≠ .madd) (going : e.failed = none) (left : e.pos < e.len)
  (moves : lands e s.choice.pick = false) (far : farOf s c e (decide (e.kind = .put)) = some (f, n))
include oldest notPutm notMadd going left moves far

theorem exec_segment_moves (low : s.choice.pick < 2) (turn : dmaTurn s c e = true) (calm : cool s = true) :
    exec (.putgetSegment c e.eid) s = .next (Machine.served c e.eid (moveSegment c (decide (s.choice.pick = 1)) s.choice.old e f n s)) := by
  refine congrArg Host.Outcome.next ?_
  rw [oldest.entryAt]
  refine (if_neg (by simp [notPutm, notMadd])).trans ((if_neg (by simp [moves])).trans ((if_neg (by simp [oldest.mayStart, going])).trans
    ((if_neg (Nat.not_le.2 left)).trans ?_)))
  rw [far]
  exact (if_neg (Nat.not_le.2 low)).trans ((if_neg (by simp [turn])).trans (gate_cool calm _ _))

theorem exec_segment_ahead (ahead : s.choice.pick = 2 * i + 2) :
    exec (.putgetSegment c e.eid) s = .next (sourceAhead c e f s.choice.old i s) := by
  refine congrArg Host.Outcome.next ?_
  rw [oldest.entryAt]
  refine (if_neg (by simp [notPutm, notMadd])).trans ((if_neg (by simp [moves])).trans ((if_neg (by simp [oldest.mayStart, going])).trans
    ((if_neg (Nat.not_le.2 left)).trans ?_)))
  rw [far]
  refine (if_pos (by omega)).trans ?_
  rw [ahead, show (2 * i + 2) / 2 - 1 = i by omega]

end

/-! ### Segments in SRAM (R56, R58, R59) -/

theorem segLen_whole {a m : Nat} (short : a % 32 + m ≤ 4096) : segLen a m = m := by
  unfold segLen
  exact if_pos (by omega)

/-- R58, R59, R331: the last segment of an entry at its far end in SRAM. -/
theorem farOf_sram {store : Bool} (isGlobal : e.far.getLsbD 63 = true) (sent : senderCheck s (s.ctx c) e.far store false = .ok q none)
    (accepted : receive (s.cluster q) (bits e.far 0 21) e.len (if store then 1 else 0) = some o) (rest : e.len = e.pos + n)
    (short : (o + e.pos) % 32 + n ≤ 4096) (unlocked : store = true → remoteLocked s q (o + e.pos) n = false) :
    farOf s c e store = some (.sram q (o + e.pos), n) := by
  have long : segLen (o + e.pos) (e.len - e.pos) = n := by
    rw [rest, Nat.add_sub_cancel_left]
    exact segLen_whole short
  unfold farOf
  dsimp only
  rw [if_pos isGlobal, sent]
  dsimp only
  rw [accepted]
  dsimp only
  simp only [long]
  refine if_neg ?_
  cases store with
  | true => simp [unlocked rfl]
  | false => simp

/-- R59: an access that the receiver takes lies in one core's scratchpad, or in shared memory. -/
theorem receive_within {cl : Cluster} {ofs m k : Nat} (accepted : receive cl ofs m k = some o) (kind : k ≠ 3) :
    o < 0x40000 → o / 0x8000 = (o + m - 1) / 0x8000 := by
  intro pad
  unfold receive at accepted
  dsimp only at accepted
  split at accepted
  · cases accepted
  · next w _ =>
    rw [if_neg kind] at accepted
    generalize (!if k = 0 then w.getLsbD 59 else if k = 1 then w.getLsbD 60 else if k = 2 then w.getLsbD 61 else w.getLsbD 62) = refused at accepted
    split at accepted
    · cases accepted
    · split at accepted
      · split at accepted
        · next inside =>
          cases accepted
          exact inside.1
        · cases accepted
      · split at accepted
        · cases accepted
          next high _ => exact absurd pad high
        · cases accepted

theorem lockedByte_part {h : Ctx} {a m d : Nat} (unlocked : (lockedByte h a (d + m)).isSome = false) : (lockedByte h (a + d) m).isSome = false := by
  unfold lockedByte at *
  rw [Option.isSome_map, List.isSome_find?, List.any_eq_false] at *
  intro j hj
  rw [List.mem_range] at hj
  rw [Nat.add_assoc]
  exact unlocked (d + j) (List.mem_range.2 (by omega))

/-- R112: of an access that lies in one core's scratchpad, what comes after a place of it is not locked either. -/
theorem remoteLocked_part {d : Nat} (unlocked : remoteLocked s q o (d + n) = false) (some_ : 0 < n)
    (within : o < 0x40000 → o / 0x8000 = (o + (d + n) - 1) / 0x8000) : remoteLocked s q (o + d) n = false := by
  unfold remoteLocked at *
  split
  · next pad =>
    have pad' : o < 0x40000 := by omega
    have same := within pad'
    rw [if_pos pad'] at unlocked
    rw [show (o + d) / 0x8000 = o / 0x8000 by omega, show (o + d) % 0x8000 = o % 0x8000 + d by omega]
    split
    · rfl
    · next m resident =>
      rw [resident] at unlocked
      exact lockedByte_part unlocked
  · rfl

/-- R56, R202: bytes are written at a key of SRAM and their words become full. -/
def filledWith (k : Nat) (b : List Byte) (s : State) : State := setFe (wordsOf k b.length) true (sramWrite k b none s)

theorem filledWith_harts (k : Nat) (b : List Byte) : SameHarts s (filledWith k b s) := SameHarts.sramWrite k b none s
theorem filledWith_written (k : Nat) (b : List Byte) : Written s (filledWith k b s) k b := sramWrite_memory b none
theorem filledWith_bits (k : Nat) (b : List Byte) : Bits s (filledWith k b s) (wordsOf k b.length) true := bits_setFe _ _ rfl

theorem writeLocal_here {a : Nat} (image : (s.ctx c).image = none) (b : List Byte) :
    writeLocal c a b true s = filledWith (localKey (s.ctx c).gcn a) b s := by
  unfold writeLocal
  dsimp only
  rw [image]
  rfl

/-- The entry after its last segment, which leaves words `l` to write. -/
def movedEntry (e : Entry) (l : List LateWord) : Entry := { e with started := true, pos := e.len, early := earlyFrom e.len e.early, late := e.late ++ l }

section
variable (plain : farPer e.kind = 1) (held : e.hold = []) (image : (s.ctx c).image = none)
include plain held image

/-- R202: the bytes of a segment from the hart's scratchpad and, of a word that the segment splits, those after it. -/
theorem readLocalEnd_here (some_ : 0 < n) (inside : e.loc.toNat + (e.pos + n + extraBytes e n) ≤ 0x8000) :
    readLocalEnd s c e n = (sourceBytes s e (keyOf s c e.loc) e.pos n, sourceBytes s e (keyOf s c e.loc) (e.pos + n) (extraBytes e n)) := by
  unfold readLocalEnd
  dsimp only
  rw [plain, held, Nat.div_one, Nat.div_one]
  simp only [List.length_nil, Nat.add_zero, Nat.sub_zero, List.nil_append]
  rw [readLocal_here image (by omega) (by omega)]
  rw [asReadAhead_readBytes, sourceBytes_add, ← keyOf, List.take_left' (length_sourceBytes ..), List.drop_left' (length_sourceBytes ..)]

end

theorem extraBytes_last (rest : e.len = e.pos + n) : extraBytes e n = 0 := by
  unfold extraBytes
  dsimp only
  rw [rest, Nat.sub_self, Nat.zero_div, Nat.min_zero, ite_self]

/-- R56: the local end of the last segment of a GET, which no word splits. -/
theorem writeLocalEnd_last {b : List Byte} (get : e.kind = .get) (held : e.hold = []) (quiet : e.inFlight = []) (rest : e.len = e.pos + b.length)
    (some_ : 1 ≤ b.length) (later : Bool) :
    writeLocalEnd c later e b s = setEntry c (movedEntry e (if later then lateWords (some c) (e.loc.toNat + e.pos) b else []))
      (if later then s else writeLocal c (e.loc.toNat + e.pos) b true s) := by
  have plain : farPer e.kind = 1 := by rw [get]; rfl
  have whole (stop m : Nat) : heldBack e stop e.len m = 0 := if_pos (by
    unfold partEnds
    rw [decide_eq_true (Nat.le_refl _), Bool.true_or])
  have notGetd : e.kind ≠ .getd := by rw [get]; decide
  have notEmpty : ¬b.isEmpty = true := by
    rw [List.isEmpty_iff_length_eq_zero]
    omega
  unfold writeLocalEnd
  dsimp only
  rw [plain, Nat.mul_one, ← rest, whole, held, Nat.div_one]
  simp only [List.nil_append, Nat.sub_zero, List.take_length, List.drop_length, List.length_nil, if_neg notGetd, if_neg notEmpty]
  unfold movedEntry lateWords
  rw [held, quiet]
  cases later with
  | true => rfl
  | false => rfl

section
variable (held : e.hold = []) (image : (s.ctx c).image = none) (rest : e.len = e.pos + n) (some_ : 1 ≤ n) (inside : e.loc.toNat + e.len ≤ 0x8000)
include held image rest some_ inside

/-- R202, R331: the last segment of a PUT to SRAM. -/
theorem moveSegment_put (put : e.kind = .put) (later : Bool) (old : List Nat) :
    moveSegment c later old e (.sram q o) n s =
      if later then setEntry c (movedEntry e (lateWords none (sramKey q o) (sourceBytes s e (keyOf s c e.loc) e.pos n))) s
      else setEntry c (movedEntry e []) (filledWith (sramKey q o) (sourceBytes s e (keyOf s c e.loc) e.pos n) s) := by
  have plain : farPer e.kind = 1 := by rw [put]; rfl
  have none_ := extraBytes_last rest
  have read : readLocalEnd s c { e with started := true } n = (sourceBytes s e (keyOf s c e.loc) e.pos n, []) := by
    refine (readLocalEnd_here plain held image some_ (by rw [none_]; omega)).trans ?_
    rw [none_]
    rfl
  have long := length_sourceBytes (s := s) e (keyOf s c e.loc) e.pos n
  unfold moveSegment
  dsimp only
  rw [put]
  dsimp only
  rw [← put, read, plain, ← rest, Nat.div_one, List.length_nil, Nat.add_zero]
  unfold movedEntry lateWords filledWith
  rw [held, List.append_nil, long]

/-- R202, R331: the last segment of a GET from SRAM. -/
theorem moveSegment_get (get : e.kind = .get) (quiet : e.inFlight = []) (later : Bool) (old : List Nat) :
    moveSegment c later old e (.sram q (o + e.pos)) n s =
      if later then setEntry c (movedEntry e (lateWords (some c) (e.loc.toNat + e.pos) (sourceBytes s e (sramKey q o) e.pos n))) s
      else setEntry c (movedEntry e []) (filledWith (keyOf s c e.loc + e.pos) (sourceBytes s e (sramKey q o) e.pos n) s) := by
  have long := length_sourceBytes (s := s) e (sramKey q o) e.pos n
  have wrote := writeLocalEnd_last (s := s) (c := c) get held quiet (rest.trans (congrArg _ long.symm)) (by rw [long]; exact some_) later
  have bytes : asReadAhead e.early e.pos (readBytes s.mem (sramKey q (o + e.pos)) n) = sourceBytes s e (sramKey q o) e.pos n := by
    rw [← asReadAhead_readBytes]
    unfold sramKey
    rw [← Nat.add_assoc]
  have moved : moveSegment c later old e (.sram q (o + e.pos)) n s =
      writeLocalEnd c later e (asReadAhead e.early e.pos (readBytes s.mem (sramKey q (o + e.pos)) n)) s := by
    unfold moveSegment
    dsimp only
    rw [get]
    dsimp only
    rw [← get]
    rfl
  rw [moved, bytes, wrote, writeLocal_here image, localKey_add (by omega)]
  cases later with
  | true => rfl
  | false => rfl

end

end Sys2Proof.Claim
end

section
/-! SUPPORT. What segments leave to write, what is read ahead, and how what is left lands (R56, R178, R202, R381). -/

namespace Sys2Proof.Claim
open Sys2Proof.Machine

variable {s t u : State} {c n m q o i : Nat} {e : Entry} {r : List Entry} {w : LateWord}

/-- The oldest entry of a queue, a PUT or GET, is at its last segment, of n bytes. -/
structure LastSegment (s : State) (c : Nat) (e : Entry) (r : List Entry) (n : Nat) : Prop where
  oldest : Oldest s c e r
  image : (s.ctx c).image = none
  going : e.failed = none
  held : e.hold = []
  quiet : e.inFlight = []
  rest : e.len = e.pos + n
  some_ : 1 ≤ n
  inside : e.loc.toNat + e.len ≤ 0x8000
  turn : dmaTurn s c e = true
  calm : cool s = true

theorem sramKey_add (q o d : Nat) : sramKey q (o + d) = sramKey q o + d := (Nat.add_assoc ..).symm

theorem keyOf_add {a : W64} (inside : a.toNat + n < 0x8000) : localKey (s.ctx c).gcn (a.toNat + n) = keyOf s c a + n := localKey_add inside

namespace LastSegment
variable (seg : LastSegment s c e r n)
include seg

theorem left : e.pos < e.len := by
  have rest := seg.rest
  have some_ := seg.some_
  omega

/-- R178, R331: a PUT moves its last segment. -/
theorem exec_put (put : e.kind = .put) (moves : lands e s.choice.pick = false) (low : s.choice.pick < 2)
    (far : farOf s c e true = some (.sram q (o + e.pos), n)) :
    exec (.putgetSegment c e.eid) s = .next (Machine.served c e.eid (if s.choice.pick = 1
      then setEntry c (movedEntry e (lateWords none (sramKey q o + e.pos) (sourceBytes s e (keyOf s c e.loc) e.pos n))) s
      else setEntry c (movedEntry e []) (filledWith (sramKey q o + e.pos) (sourceBytes s e (keyOf s c e.loc) e.pos n) s))) := by
  rw [exec_segment_moves seg.oldest (by rw [put]; decide) (by rw [put]; decide) seg.going seg.left moves (by rw [decide_eq_true put]; exact far) low
    seg.turn seg.calm, moveSegment_put seg.held seg.image seg.rest seg.some_ seg.inside put, sramKey_add]
  simp only [decide_eq_true_eq]

/-- R178, R331: a GET moves its last segment. -/
theorem exec_get (get : e.kind = .get) (moves : lands e s.choice.pick = false) (low : s.choice.pick < 2)
    (far : farOf s c e false = some (.sram q (o + e.pos), n)) :
    exec (.putgetSegment c e.eid) s = .next (Machine.served c e.eid (if s.choice.pick = 1
      then setEntry c (movedEntry e (lateWords (some c) (e.loc.toNat + e.pos) (sourceBytes s e (sramKey q o) e.pos n))) s
      else setEntry c (movedEntry e []) (filledWith (keyOf s c e.loc + e.pos) (sourceBytes s e (sramKey q o) e.pos n) s))) := by
  rw [exec_segment_moves seg.oldest (by rw [get]; decide) (by rw [get]; decide) seg.going seg.left moves
    (by rw [decide_eq_false (by rw [get]; decide)]; exact far) low seg.turn seg.calm,
    moveSegment_get seg.held seg.image seg.rest seg.some_ seg.inside get seg.quiet]
  simp only [decide_eq_true_eq]

end LastSegment

/-! ### Reading ahead (R202, R381) -/

theorem writeFirst_part {a d l : Nat} {own : Bool} (free : writeFirst s c q a n own = false) (within : d + l ≤ n) :
    writeFirst s c q (a + d) l own = false := by
  unfold writeFirst writeAmong at *
  rw [List.any_eq_false] at *
  intro p hp meets
  refine free p hp ?_
  rw [Bool.and_eq_true] at meets ⊢
  refine ⟨meets.1, ?_⟩
  have meets := meets.2
  split at meets
  · next x lands =>
    unfold spansMeet at *
    simp only [Bool.and_eq_true, decide_eq_true_eq] at *
    omega
  · cases meets

theorem spanBusy_part {a d l : Nat} (free : spanBusy s c a n = false) (within : d + l ≤ n) (inside : a + d < 0x8000) :
    spanBusy s c (a + d) l = false := by
  unfold spanBusy at *
  rw [localOfs_add inside]
  exact writeFirst_part free within

/-- The aligned word of the source that holds the byte `i` after place `p` of n bytes, of which the first is at address a: its bytes in the span. -/
def wordLow (a p i : Nat) : Nat := max (a + p) ((a + p + i) / 8 * 8)
def wordHigh (a n p i : Nat) : Nat := min (a + n) (((a + p + i) / 8 + 1) * 8)

/-- R202: what a word that is read ahead adds to an entry. -/
theorem readAhead_runs {a k : Nat} {busy : Nat → Nat → Bool} {read : Nat → Nat → List Byte} (rest : e.len = e.pos + n) (hi : i < n)
    (free : busy (wordLow a e.pos i) (wordHigh a e.len e.pos i - wordLow a e.pos i) = false)
    (new : ∀ x ∈ e.early, x.1 ≠ wordLow a e.pos i - a)
    (reads : read (wordLow a e.pos i) (wordHigh a e.len e.pos i - wordLow a e.pos i) =
      readBytes s.mem (k + (wordLow a e.pos i - a)) (wordHigh a e.len e.pos i - wordLow a e.pos i)) :
    ∃ l, readAhead c e (a + e.pos) e.pos n i busy read s = setEntry c { e with started := true, early := l } s ∧
      ∀ j d, tget l j d = if wordLow a e.pos i - a ≤ j ∧ j < wordHigh a e.len e.pos i - a then readByte s.mem (k + j) else tget e.early j d := by
  have high : min (a + e.pos + n) (((a + e.pos + i) / 8 + 1) * 8) = wordHigh a e.len e.pos i := by
    unfold wordHigh
    rw [rest, Nat.add_assoc]
  have place : e.pos + (wordLow a e.pos i - (a + e.pos)) = wordLow a e.pos i - a := by
    unfold wordLow
    omega
  have fits : a ≤ wordLow a e.pos i ∧ wordLow a e.pos i ≤ wordHigh a e.len e.pos i := by
    unfold wordLow wordHigh
    omega
  have notEarly : (e.early.any fun x => decide (x.1 = wordLow a e.pos i - a)) = false :=
    List.any_eq_false.2 fun x hx => by simpa using new x hx
  unfold readAhead
  dsimp only
  rw [high, ← wordLow, place, if_neg (by rw [free, notEarly]; simpa using hi), reads]
  refine ⟨_, rfl, fun j d => ?_⟩
  rw [tget_zipIdx_tput, Nat.add_zero]
  have long : (readBytes s.mem (k + (wordLow a e.pos i - a)) (wordHigh a e.len e.pos i - wordLow a e.pos i)).length =
      wordHigh a e.len e.pos i - wordLow a e.pos i := by simp [readBytes]
  rw [long]
  by_cases inWord : wordLow a e.pos i - a ≤ j ∧ j < wordHigh a e.len e.pos i - a
  · rw [if_pos (by omega), if_pos inWord, getD_readBytes _ _ (by omega), Nat.add_assoc, Nat.add_sub_cancel' inWord.1]
  · rw [if_neg (by omega), if_neg inWord]

theorem spanBusy_put {f : Far} (put : e.kind = .put) (rest : e.len = e.pos + n) (idle : endsBusy s c e f n = false) :
    spanBusy s c (e.loc.toNat + e.pos) n = false := by
  unfold endsBusy at idle
  rw [put] at idle
  dsimp only [farPer] at idle
  rw [extraBytes_last rest, Nat.div_one, Nat.div_one, Bool.or_eq_false_iff] at idle
  exact idle.1

theorem writeFirst_far (idle : endsBusy s c e (.sram q o) n = false) : writeFirst s c q o n false = false := by
  unfold endsBusy at idle
  rw [Bool.or_eq_false_iff] at idle
  exact idle.2

theorem partStop_whole (whole : e.part = []) : partStop e = e.len := by
  unfold partStop
  rw [whole]
  rfl

theorem sourceAhead_put {f : Far} {old : List Nat} (put : e.kind = .put) (held : e.hold = []) (stop : partStop e = e.len) :
    sourceAhead c e f old i s = readAhead c e (e.loc.toNat + e.pos) e.pos (e.len - e.pos) i (spanBusy s c) (readLocal s c) s := by
  unfold sourceAhead
  rw [put, stop, held]
  simp only [farPer, Nat.div_one, List.length_nil, Nat.add_zero]

theorem sourceAhead_get {old : List Nat} (get : e.kind = .get) :
    sourceAhead c e (.sram q o) old i s = readAhead c e o e.pos (e.len - e.pos) i (fun a n => writeFirst s c q a n false)
      (fun a n => readBytes s.mem (sramKey q a) n) s := by
  unfold sourceAhead
  rw [get]

theorem word_fits {a : Nat} (rest : e.len = e.pos + n) (hi : i < n) :
    a + e.pos ≤ wordLow a e.pos i ∧ wordLow a e.pos i < wordHigh a e.len e.pos i ∧ wordHigh a e.len e.pos i ≤ a + e.len := by
  unfold wordLow wordHigh
  omega

/-- R202, R381: a word of the local end of a PUT is read ahead. -/
theorem LastSegment.exec_put_ahead (seg : LastSegment s c e r n) (put : e.kind = .put) (stop : partStop e = e.len) {f : Far}
    (far : farOf s c e true = some (f, n)) (idle : endsBusy s c e f n = false) (hi : i < n)
    (ahead : s.choice.pick = 2 * i + 2) (new : ∀ x ∈ e.early, x.1 ≠ wordLow e.loc.toNat e.pos i - e.loc.toNat) :
    ∃ l, exec (.putgetSegment c e.eid) s = .next (setEntry c { e with started := true, early := l } s) ∧ ∀ j d, tget l j d =
      if wordLow e.loc.toNat e.pos i - e.loc.toNat ≤ j ∧ j < wordHigh e.loc.toNat e.len e.pos i - e.loc.toNat
      then readByte s.mem (keyOf s c e.loc + j) else tget e.early j d := by
  obtain ⟨low, some_, high⟩ := word_fits (a := e.loc.toNat) seg.rest hi
  have rest := seg.rest
  have inside := seg.inside
  obtain ⟨l, run, bytes⟩ := readAhead_runs (s := s) (c := c) (k := keyOf s c e.loc) (busy := spanBusy s c) (read := readLocal s c) rest hi
    (by
      have part := spanBusy_part (d := wordLow e.loc.toNat e.pos i - (e.loc.toNat + e.pos))
        (l := wordHigh e.loc.toNat e.len e.pos i - wordLow e.loc.toNat e.pos i) (spanBusy_put put rest idle) (by omega) (by omega)
      rwa [Nat.add_sub_cancel' low] at part)
    new
    (by
      have reads := readLocal_here (a := e.loc.toNat) (i := wordLow e.loc.toNat e.pos i - e.loc.toNat)
        (n := wordHigh e.loc.toNat e.len e.pos i - wordLow e.loc.toNat e.pos i) seg.image (by omega) (by omega)
      rwa [Nat.add_sub_cancel' (by omega)] at reads)
  refine ⟨l, ?_, bytes⟩
  rw [exec_segment_ahead seg.oldest (by rw [put]; decide) (by rw [put]; decide) seg.going seg.left (by rw [ahead]; exact lands_even e i)
    (by rw [decide_eq_true put]; exact far) ahead, sourceAhead_put put seg.held stop, show e.len - e.pos = n by omega, run]

/-- R202, R381: a word of the source of a GET in SRAM is read ahead. -/
theorem LastSegment.exec_get_ahead (seg : LastSegment s c e r n) (get : e.kind = .get) (far : farOf s c e false = some (.sram q (o + e.pos), n))
    (idle : endsBusy s c e (.sram q (o + e.pos)) n = false) (hi : i < n) (ahead : s.choice.pick = 2 * i + 2)
    (new : ∀ x ∈ e.early, x.1 ≠ wordLow o e.pos i - o) :
    ∃ l, exec (.putgetSegment c e.eid) s = .next (setEntry c { e with started := true, early := l } s) ∧ ∀ j d, tget l j d =
      if wordLow o e.pos i - o ≤ j ∧ j < wordHigh o e.len e.pos i - o then readByte s.mem (sramKey q o + j) else tget e.early j d := by
  obtain ⟨low, some_, high⟩ := word_fits (a := o) seg.rest hi
  have rest := seg.rest
  obtain ⟨l, run, bytes⟩ := readAhead_runs (s := s) (c := c) (k := sramKey q o) (busy := fun a n => writeFirst s c q a n false)
    (read := fun a n => readBytes s.mem (sramKey q a) n) rest hi
    (by
      have part := writeFirst_part (d := wordLow o e.pos i - (o + e.pos)) (l := wordHigh o e.len e.pos i - wordLow o e.pos i)
        (writeFirst_far idle) (by omega)
      rwa [Nat.add_sub_cancel' low] at part)
    new
    (by rw [← sramKey_add, Nat.add_sub_cancel' (by omega)])
  refine ⟨l, ?_, bytes⟩
  rw [exec_segment_ahead seg.oldest (by rw [get]; decide) (by rw [get]; decide) seg.going seg.left (by rw [ahead]; exact lands_even e i)
    (by rw [decide_eq_false (by rw [get]; decide)]; exact far) ahead, sourceAhead_get get, show e.len - e.pos = n by omega, run]

/-! ### Landing (R56, R178, R381) -/

theorem not_inMemory (sram : w.ctx = none → 0x1000000000000 ≤ w.addr) : inMemory w = false := by
  unfold inMemory Config.sramBase
  cases ctx : w.ctx with
  | some m => rfl
  | none => exact decide_eq_false (Nat.not_lt.2 (sram ctx))

theorem writeWord_here (new : w.bit = false) (image : ∀ m, w.ctx = some m → (s.ctx m).image = none) :
    writeWord w s = sramWrite (lateKey s w) w.bytes none s := by
  unfold writeWord lateKey
  rw [if_neg (by rw [new]; decide)]
  cases ctx : w.ctx with
  | none => rfl
  | some m =>
    dsimp only
    unfold writeLocal
    dsimp only
    rw [image m ctx]
    rfl

theorem fillWord_here (image : ∀ m, w.ctx = some m → (s.ctx m).image = none) :
    fillWord w s = setFe (wordsOf (lateKey s w) w.bytes.length) true s := by
  unfold fillWord lateKey
  cases ctx : w.ctx with
  | none => rfl
  | some m => exact setLocalFe_here (image m ctx) ..

theorem lateKey_same (same : SameHarts s t) (w : LateWord) : lateKey t w = lateKey s w := by
  unfold lateKey
  cases w.ctx with
  | none => rfl
  | some m =>
    dsimp only
    rw [same.gcn]

theorem writeLate_sram (outside : inMemory w = false) (old : List Nat) : writeLate c e old w s = (true, writeWord w s) := by
  unfold writeLate
  rw [if_neg (by rw [outside]; decide)]

/-- R338: writes at local addresses leave the harts' engines, also of a saved hart, whose image they reach. -/
theorem writeLocal_eng (m a : Nat) (b : List Byte) (full : Bool) (s : State) (x : Nat) : ((writeLocal m a b full s).ctx x).eng = (s.ctx x).eng := by
  have sram : (((if full then setFe (wordsOf (localKey (s.ctx m).gcn a) b.length) true else id)
      (sramWrite (localKey (s.ctx m).gcn a) b none s)).ctx x).eng = (s.ctx x).eng := by
    cases full with
    | true => exact (SameHarts.sramWrite ..).eng x
    | false => exact (SameHarts.sramWrite ..).eng x
  unfold writeLocal
  dsimp only
  split
  · split
    · rw [modCtx_ctx]
      split
      · next same => rw [same]
      · rfl
    · exact sram
  · exact sram

theorem setLocalFe_eng (m a n : Nat) (full : Bool) (s : State) (x : Nat) : ((setLocalFe m a n full s).ctx x).eng = (s.ctx x).eng := by
  unfold setLocalFe
  dsimp only
  split
  · split
    · rw [modCtx_ctx]
      split
      · next same => rw [same]
      · rfl
    · rfl
  · rfl

theorem writeWord_eng (w : LateWord) (s : State) (x : Nat) : ((writeWord w s).ctx x).eng = (s.ctx x).eng := by
  unfold writeWord
  split
  · rfl
  · split
    · exact writeLocal_eng ..
    · exact (SameHarts.sramWrite ..).eng x

theorem fillWord_eng (w : LateWord) (s : State) (x : Nat) : ((fillWord w s).ctx x).eng = (s.ctx x).eng := by
  unfold fillWord
  split
  · exact setLocalFe_eng ..
  · rfl

/-- R56: words of SRAM are all written. -/
theorem writeAll_sram {l : List LateWord} (outside : ∀ w ∈ l, inMemory w = false) (old : List Nat) :
    ∃ t, writeAll c e old l s = ([], t) ∧ ∀ x, (t.ctx x).eng = (s.ctx x).eng := by
  induction l generalizing s with
  | nil => exact ⟨s, rfl, fun _ => rfl⟩
  | cons w l ih =>
    have sram := outside w List.mem_cons_self
    obtain ⟨t, rest, same⟩ := ih (s := fillWord w (writeWord w s)) fun x hx => outside x (List.mem_cons_of_mem _ hx)
    refine ⟨t, ?_, fun x => (same x).trans ((fillWord_eng ..).trans (writeWord_eng ..))⟩
    unfold writeAll
    rw [writeLate_sram sram]
    dsimp only
    rw [if_neg (by rw [sram]; decide)]
    exact rest

section
variable (old : List Nat) (listed : e.late[i]? = some w) (free : lateBusy s c w = false)
include listed free

theorem landLate_filled (written : w.bit = true) :
    landLate c e old (2 * i + 3) s = setEntry c { e with late := e.late.eraseIdx i } (fillWord w s) := by
  unfold landLate
  rw [if_neg (by omega), show (2 * i + 3) / 2 - 1 = i by omega]
  dsimp only
  rw [listed]
  exact (if_neg (by rw [free]; decide)).trans (if_pos written)

theorem landLate_word (calm : cool s = true) (outside : inMemory w = false) (new : w.bit = false) :
    landLate c e old (2 * i + 3) s = setEntry c { e with late := e.late.set i { w with bit := true } } (writeWord w s) := by
  unfold landLate
  rw [if_neg (by omega), show (2 * i + 3) / 2 - 1 = i by omega]
  dsimp only
  rw [listed]
  refine (if_neg (by rw [free]; decide)).trans ((if_neg (by rw [new]; decide)).trans ((gate_cool calm _ _).trans ?_))
  rw [writeLate_sram outside]
  exact congrArg (fun l => setEntry c { e with late := l } _) (if_neg (by rw [outside]; decide))

end

theorem landLate_all (old : List Nat) (free : ∀ w ∈ e.late, lateBusy s c w = false) (calm : cool s = true) :
    landLate c e old 0 s = afterWrites c e (writeAll c e old e.late s).1 (writeAll c e old e.late s).2 := by
  unfold landLate
  rw [if_pos rfl, if_neg]
  · exact gate_cool calm _ _
  · rw [List.any_eq_true]
    rintro ⟨w, hw, busy⟩
    rw [free w hw] at busy
    cases busy

/-- R178: an entry with something left to write lands it, of a PUTM at any of its destinations. -/
theorem exec_lands {x : Instr} (oldest : Oldest s c e r) (landing : lands e s.choice.pick = true)
    (form : (x = .putgetSegment c e.eid ∧ e.kind ≠ .putm ∧ e.kind ≠ .madd) ∨ (e.kind = .putm ∧ ∃ n, n < e.dests.length ∧ x = .putmSlotClaim c e.eid n)) :
    exec x s = .next (landLate c e s.choice.old s.choice.pick s) := by
  obtain ⟨rfl, notPutm, notMadd⟩ | ⟨putm, n, listed, rfl⟩ := form
  · exact exec_segment_lands oldest notPutm notMadd landing
  · refine congrArg Host.Outcome.next ?_
    rw [oldest.entryAt]
    dsimp only
    rw [List.getElem?_eq_getElem listed]
    exact (if_neg (not_not.2 putm)).trans (if_pos landing)

end Sys2Proof.Claim
end

section
open Sys2Proof Sys2Proof.Machine Sys2Proof.Claim

/-- R56, R178, R202: the last segment of a PUT or GET leaves its words, and its source may be read ahead; what is left lands. -/
theorem Sys2Proof.Claim.segmentWords : Claim.SegmentWords := by
  unfold Claim.SegmentWords
  refine ⟨fun s c e r q o n canonical oldest image going held quiet whole rest some_ short isGlobal inside turn idle calm => ?_,
    fun s c e r i w canonical oldest listed some_ free calm sram image x form => ?_, fun s c e r oldest left notPutm notMadd => ?_⟩
  · have seg : LastSegment s c e r n := ⟨oldest, image, going, held, quiet, rest, some_, inside, turn, calm⟩
    have stop := partStop_whole whole
    dsimp only
    rintro (⟨put, sent, accepted, unlocked⟩ | ⟨get, sent, accepted⟩)
    · have far : farOf s c e true = some (.sram q (o + e.pos), n) :=
        farOf_sram isGlobal sent accepted rest short fun _ => remoteLocked_part (rest ▸ unlocked) some_ (rest ▸ receive_within accepted (by decide))
      rw [if_pos put, if_pos put, if_pos put]
      refine ⟨fun pick => ?_, fun i pick hi new => ?_⟩
      · have run := seg.exec_put put (by rw [pick]; exact lands_one e) (by rw [pick]; decide) far
        rw [if_pos pick] at run
        exact ⟨_, _, run, rfl, rfl, oldest.queue_setEntry rfl, wordsAre_memory⟩
      · obtain ⟨l, run, bytes⟩ := seg.exec_put_ahead put stop far idle hi pick new
        exact ⟨_, _, run, rfl, rfl, oldest.queue_setEntry rfl, rfl, bytes⟩
    · have far : farOf s c e false = some (.sram q (o + e.pos), n) := farOf_sram isGlobal sent accepted rest short nofun
      have notPut : e.kind ≠ .put := by rw [get]; decide
      rw [if_neg notPut, if_neg notPut, if_neg notPut]
      refine ⟨fun pick => ?_, fun i pick hi new => ?_⟩
      · have run := seg.exec_get get (by rw [pick]; exact lands_one e) (by rw [pick]; decide) far
        rw [if_pos pick] at run
        have long := length_sourceBytes (s := s) e (sramKey q o) e.pos n
        refine ⟨_, _, run, rfl, rfl, oldest.queue_setEntry rfl, ?_⟩
        rw [← keyOf_add (by omega)]
        exact wordsAre_local (by omega) (by omega)
      · obtain ⟨l, run, bytes⟩ := seg.exec_get_ahead get far idle hi pick new
        exact ⟨_, _, run, rfl, rfl, oldest.queue_setEntry rfl, rfl, bytes⟩
  · have outside := not_inMemory sram
    have here : ∀ m, w.ctx = some m → (s.ctx m).image = none := fun m hm => (image m hm).1
    have landed : SameHarts s (sramWrite (lateKey s w) w.bytes none s) := .sramWrite ..
    have fills : fillWord w (sramWrite (lateKey s w) w.bytes none s) = filledWith (lateKey s w) w.bytes s := by
      rw [fillWord_here fun m hm => (landed.image m).trans (here m hm), lateKey_same landed]
      rfl
    dsimp only
    refine ⟨fun pick new => ?_, fun pick written => ?_, fun pick only new => ?_⟩
    · refine ⟨_, exec_lands oldest (by rw [pick]; exact lands_odd e i) form, ?_⟩
      rw [pick, landLate_word _ listed free calm outside new, writeWord_here new here]
      exact ⟨sramWrite_memory w.bytes none, rfl, (oldest.congr (landed.eng c)).queue_setEntry rfl⟩
    · refine ⟨_, exec_lands oldest (by rw [pick]; exact lands_odd e i) form, ?_⟩
      rw [pick, landLate_filled _ listed free written, fillWord_here here]
      exact ⟨rfl, bits_setFe _ _ rfl, oldest.queue_setEntry rfl⟩
    · have left : e.late ≠ [] := by rw [only]; exact List.cons_ne_nil _ _
      have all : writeAll c e s.choice.old e.late s = ([], filledWith (lateKey s w) w.bytes s) := by
        rw [only, writeAll, writeLate_sram outside]
        dsimp only
        rw [if_neg (by rw [outside]; decide), writeWord_here new here, fills]
        rfl
      refine ⟨_, exec_lands oldest (by rw [pick]; exact lands_left left) form, ?_⟩
      rw [pick, landLate_all _ (fun x hx => ?_) calm, all]
      · exact ⟨filledWith_written _ _, filledWith_bits _ _, (oldest.congr ((filledWith_harts ..).eng c)).queue_setEntry rfl⟩
      · rw [only, List.mem_singleton] at hx
        rw [hx]
        exact free
  · refine ⟨?_, ?_, fun i w pick listed busy => ?_, fun pick calm all => ?_⟩
    · refine congrArg Host.Outcome.next ?_
      rw [oldest.entryAt]
      refine if_pos (.inr (.inr (.inr (.inl ?_))))
      rw [if_neg notPutm]
      simp [left]
    · refine congrArg Host.Outcome.next ?_
      rw [oldest.entryAt]
      dsimp only
      cases failed : e.failed with
      | none => rfl
      | some a => exact if_pos (by simp [left])
    · rw [exec_segment_lands oldest notPutm notMadd (by rw [pick]; exact lands_odd e i), pick]
      refine congrArg Host.Outcome.next ?_
      unfold landLate
      rw [if_neg (by omega), show (2 * i + 3) / 2 - 1 = i by omega]
      dsimp only
      rw [listed]
      exact if_pos busy
    · obtain ⟨t, done, same⟩ := writeAll_sram (c := c) (e := e) (s := s) (fun w hw => not_inMemory (all w hw).2) s.choice.old
      refine ⟨_, exec_segment_lands oldest notPutm notMadd (by rw [pick]; exact lands_left left), ?_⟩
      rw [pick, landLate_all _ (fun w hw => (all w hw).1) calm, done]
      exact (oldest.congr (same c)).queue_setEntry rfl

end

section
/-! SUPPORT. Completion of transfers and the counters that they bump (R179). -/

namespace Sys2Proof.Claim
open Sys2Proof.Machine

variable {s t u : State} {c n m q : Nat} {e : Entry} {r : List Entry}

/-- R179: a hart whose entry has completed: the entry is gone and its local counter bumped. -/
def completedCtx (e : Entry) (h : Ctx) : Ctx :=
  { h with eng := { h.eng with
      q := h.eng.q.filter fun x => x.eid ≠ e.eid
      cc := if e.lce then tset 0 h.eng.cc e.lcnt (tget h.eng.cc e.lcnt 0 + 1) else h.eng.cc } }

/-- R178, R179: an entry whose data are written completes. -/
theorem exec_putgetComplete (oldest : Oldest s c e r) (kind : e.kind = .put ∨ e.kind = .get) (going : e.failed = none) (done : e.len ≤ e.pos)
    (quiet : e.inFlight = []) (written : e.late = []) (some_ : e.len ≠ 0) (unbumped : e.bumped = false) :
    exec (.putgetComplete c e.eid) s = .next (if e.rce then remoteBump c e (modCtx c (completedCtx e) s) else modCtx c (completedCtx e) s) := by
  have notPutm : e.kind ≠ .putm := by obtain kind | kind := kind <;> rw [kind] <;> decide
  have notMadd : e.kind ≠ .madd := by obtain kind | kind := kind <;> rw [kind] <;> decide
  have bumps : (if e.lce then bump c e.lcnt 1 (dropEntry c e.eid s) else dropEntry c e.eid s) = modCtx c (completedCtx e) s := by
    unfold completedCtx
    cases e.lce with
    | true =>
      rw [if_pos rfl, bump_eq, dropEntry, modEng_eq, modCtx_comp]
      rfl
    | false => rfl
  refine congrArg Host.Outcome.next ?_
  rw [oldest.entryAt]
  refine (if_neg ?_).trans ((if_neg (by simp [some_])).trans ((if_neg (by simp [some_])).trans ?_))
  · rw [if_neg notPutm]
    simp [notMadd, oldest.mayStart, going, done, quiet, written, some_]
  · dsimp only
    rw [bumps]
    cases rce : e.rce with
    | true =>
      obtain kind | kind := kind
      · rw [kind, unbumped]
        rfl
      · rw [kind, unbumped]
        rfl
    | false => rfl

theorem completedCtx_queue (oldest : Oldest s c e r) : ((modCtx c (completedCtx e) s).ctx c).eng.q = r := by
  obtain ⟨queue, distinct⟩ := oldest
  rw [modCtx_self]
  show (s.ctx c).eng.q.filter _ = r
  rw [queue, List.filter_cons_of_neg (by simp), List.filter_eq_self]
  intro x hx
  exact decide_eq_true (distinct x hx)

theorem counter_completed (e : Entry) (j : Nat) :
    counter (modCtx c (completedCtx e) s) c j = if e.lce = true ∧ j = e.lcnt then counter s c j + 1 else counter s c j := by
  unfold counter
  rw [modCtx_self]
  unfold completedCtx
  cases lce : e.lce with
  | true =>
    show tget (tset 0 _ _ _) j 0 = _
    rw [tget_tset]
    by_cases here : j = e.lcnt
    · simp [here]
    · simp [here]
  | false => simp

/-- R179: the far bump leaves memory and every queue. -/
theorem remoteBump_keeps (c : Nat) (e : Entry) (s : State) :
    (remoteBump c e s).mem = s.mem ∧ ∀ x, ((remoteBump c e s).ctx x).eng.q = (s.ctx x).eng.q := by
  have bumps (m : Nat) (x : Nat) : ((bump m e.rcnt 1 s).ctx x).eng.q = (s.ctx x).eng.q := by
    unfold bump
    rw [modEng_eq, modCtx_ctx]
    split
    · next same => rw [same]
    · rfl
  unfold remoteBump
  dsimp only
  split
  · exact ⟨rfl, fun _ => rfl⟩
  · split
    · split
      · exact ⟨rfl, bumps _⟩
      · exact ⟨rfl, fun _ => rfl⟩
    · exact ⟨rfl, fun _ => rfl⟩
    · exact ⟨rfl, fun _ => rfl⟩

theorem remoteBump_resident (isGlobal : e.far.getLsbD 63 = true) (pad : bits e.far 0 21 < 0x40000)
    (sent : senderCheck s (s.ctx c) e.far false false = .ok q none) (resident : s.residentOn (q * 8 + bits e.far 0 21 / 0x8000) = some m) :
    remoteBump c e s = bump m e.rcnt 1 s := by
  unfold remoteBump
  dsimp only
  rw [if_neg (by simp [isGlobal]; omega), sent]
  dsimp only
  rw [resident]

/-- R58: a far address that the sender's check passes for a write passes for a read, also after the hart has gone on. -/
theorem senderCheck_read {ea : W64} {d : Option Nat} {h h' : Ctx} (sent : senderCheck s h ea true false = .ok q d) (parts : t.parts = s.parts)
    (part : h'.part = h.part) : senderCheck t h' ea false false = .ok q d := by
  have same : t.part h'.part = s.part h.part := by
    unfold State.part
    rw [parts, part]
  unfold senderCheck at *
  dsimp only at *
  rw [same]
  split at sent
  · cases sent
  · next short =>
    rw [if_neg short]
    split at sent
    · cases sent
    · next known =>
      rw [if_neg known]
      simp only [Bool.false_and, Bool.false_eq_true, if_false] at *
      split at sent
      · cases sent
      · exact sent

theorem completed_sent {ea : W64} {d : Option Nat} (parts : t.parts = s.parts) (part : (t.ctx c).part = (s.ctx c).part)
    (sent : senderCheck s (s.ctx c) ea true false = .ok q d) :
    senderCheck (modCtx c (completedCtx e) t) ((modCtx c (completedCtx e) t).ctx c) ea false false = .ok q d := by
  refine senderCheck_read sent parts ?_
  rw [modCtx_self]
  exact part

theorem counter_bump (s : State) (m j : Nat) : counter (bump m j 1 s) m j = counter s m j + 1 := by
  rw [bump_eq, counter_modCtx rfl, if_pos rfl]
  rfl

/-- What a segment that fills words of SRAM leaves: the words written, the entry moved on, the turn taken. -/
def segmentDone (c : Nat) (e : Entry) (k : Nat) (b : List Byte) (s : State) : State :=
  Machine.served c e.eid (setEntry c (movedEntry e []) (filledWith k b s))

section
variable {k : Nat} {b : List Byte}

theorem Oldest.segmentDone (oldest : Oldest s c e r) (k : Nat) (b : List Byte) : Oldest (segmentDone c e k b s) c (movedEntry e []) r :=
  (oldest.congr ((filledWith_harts k b).eng c)).changed (e' := movedEntry e []) rfl

theorem segmentDone_cc (k : Nat) (b : List Byte) (s : State) (x : Nat) : ((segmentDone c e k b s).ctx x).eng.cc = (s.ctx x).eng.cc := by
  have same := (filledWith_harts (s := s) k b).eng x
  show ((setEntry c _ (filledWith k b s)).ctx x).eng.cc = _
  rw [setEntry, modEng_eq, modCtx_ctx]
  split
  · next here =>
    subst here
    exact (congrArg Engines.cc same :)
  · exact (congrArg Engines.cc same :)

theorem Canonical.segmentDone (canonical : Canonical s) : Canonical (segmentDone c e k b s) :=
  (Canonical.setEntry (Canonical.setFe (Canonical.sramWrite canonical))).served

theorem segmentDone_resident (canonical : Canonical s) (g : Nat) : (segmentDone c e k b s).residentOn g = s.residentOn g := by
  have filled : Canonical (filledWith k b s) := Canonical.setFe (Canonical.sramWrite canonical)
  show (setEntry c (movedEntry e []) (filledWith k b s)).residentOn g = _
  rw [setEntry, modEng_eq, residentOn_modCtx filled rfl rfl]
  exact (filledWith_harts k b).residentOn g

theorem segmentDone_parts (k : Nat) (b : List Byte) (s : State) : (segmentDone c e k b s).parts = s.parts := rfl

theorem segmentDone_part (k : Nat) (b : List Byte) (s : State) : ((segmentDone c e k b s).ctx c).part = (s.ctx c).part := by
  show ((setEntry c _ (filledWith k b s)).ctx c).part = _
  rw [setEntry, modEng_eq, modCtx_self]
  exact (filledWith_harts k b).part c

section
variable (oldest : Oldest s c e r) (kind : e.kind = .put ∨ e.kind = .get) (going : e.failed = none) (quiet : e.inFlight = []) (written : e.late = [])
  (some_ : 1 ≤ e.len) (unbumped : e.bumped = false)
include oldest kind going quiet written some_ unbumped

theorem exec_segmentDone : exec (.putgetComplete c e.eid) (segmentDone c e k b s) = .next (if e.rce
    then remoteBump c (movedEntry e []) (modCtx c (completedCtx (movedEntry e [])) (segmentDone c e k b s))
    else modCtx c (completedCtx (movedEntry e [])) (segmentDone c e k b s)) :=
  exec_putgetComplete (e := movedEntry e []) (oldest.segmentDone k b) kind going (Nat.le_refl _) quiet ((List.append_nil _).trans written) (by show e.len ≠ 0; omega) unbumped

/-- R179: completion removes the entry and leaves memory. -/
theorem segmentDone_completes : ∃ u, exec (.putgetComplete c e.eid) (segmentDone c e k b s) = .next u ∧ (u.ctx c).eng.q = r ∧
    u.mem = (segmentDone c e k b s).mem ∧
    (e.rce = false → ∀ j, counter u c j = if e.lce = true ∧ j = e.lcnt then counter s c j + 1 else counter s c j) ∧
    (e.rce = true → u = remoteBump c (movedEntry e []) (modCtx c (completedCtx (movedEntry e [])) (segmentDone c e k b s))) := by
  have queue := completedCtx_queue (oldest.segmentDone k b)
  have run := exec_segmentDone (k := k) (b := b) oldest kind going quiet written some_ unbumped
  cases rce : e.rce with
  | true =>
    rw [rce, if_pos rfl] at run
    obtain ⟨mem, queues⟩ := remoteBump_keeps c (movedEntry e []) (modCtx c (completedCtx (movedEntry e [])) (segmentDone c e k b s))
    exact ⟨_, run, (queues c).trans queue, mem, nofun, fun _ => rfl⟩
  | false =>
    rw [rce, if_neg (by decide)] at run
    refine ⟨_, run, queue, rfl, fun _ j => ?_, nofun⟩
    have before (j : Nat) : counter (segmentDone c e k b s) c j = counter s c j := by
      unfold counter
      rw [segmentDone_cc]
    rw [counter_completed, before]
    rfl

end

/-- R179: the far bump of a PUT reaches the hart on the target core. -/
theorem segmentDone_bumps (canonical : Canonical s) (isGlobal : e.far.getLsbD 63 = true) (sent : senderCheck s (s.ctx c) e.far true false = .ok q none)
    (pad : bits e.far 0 21 < 0x40000) (resident : s.residentOn (q * 8 + bits e.far 0 21 / 0x8000) = some m) (other : m ≠ c) :
    counter (remoteBump c (movedEntry e []) (modCtx c (completedCtx (movedEntry e [])) (segmentDone c e k b s))) m e.rcnt = counter s m e.rcnt + 1 := by
  have sent' := completed_sent (e := movedEntry e []) (segmentDone_parts (e := e) k b s) (segmentDone_part k b s) sent
  have resident' : (modCtx c (completedCtx (movedEntry e [])) (segmentDone c e k b s)).residentOn (q * 8 + bits e.far 0 21 / 0x8000) = some m := by
    rw [residentOn_modCtx canonical.segmentDone rfl rfl, segmentDone_resident canonical]
    exact resident
  have before : counter (modCtx c (completedCtx (movedEntry e [])) (segmentDone c e k b s)) m e.rcnt = counter s m e.rcnt := by
    unfold counter
    rw [modCtx_ctx, if_neg other, segmentDone_cc]
  rw [← before]
  generalize modCtx c (completedCtx (movedEntry e [])) (segmentDone c e k b s) = w at *
  rw [remoteBump_resident (e := movedEntry e []) isGlobal pad sent' resident']
  exact counter_bump w m e.rcnt

end

end Sys2Proof.Claim
end

section
open Sys2Proof Sys2Proof.Machine Sys2Proof.Claim

/-- R176, R179, R331: an entry to or from SRAM of another cluster moves its bytes as one segment, and completes. -/
theorem Sys2Proof.Claim.sramTransfers : Claim.SramTransfers := by
  unfold Claim.SramTransfers
  intro s c e r q o canonical oldest image going start held quiet written unbumped pick some_ short isGlobal inside turn idle calm
  have seg : LastSegment s c e r e.len := ⟨oldest, image, going, held, quiet, by rw [start, Nat.zero_add], some_, inside, turn, calm⟩
  have moves : lands e s.choice.pick = false := by rw [pick]; exact lands_none written
  have whole : ¬s.choice.pick = 1 := by omega
  have here : o = o + e.pos := by omega
  dsimp only
  refine ⟨fun put sent accepted unlocked => ?_, fun get sent accepted => ?_⟩
  · have far := farOf_sram isGlobal sent accepted seg.rest (here ▸ short) fun _ => (here ▸ unlocked)
    have run := seg.exec_put put moves (by omega) far
    rw [if_neg whole, start, Nat.add_zero] at run
    obtain ⟨u, completes, queue, mem, counts, bumps⟩ := segmentDone_completes (k := sramKey q o)
      (b := sourceBytes s e (keyOf s c e.loc) 0 e.len) oldest (.inl put) going quiet written some_ unbumped
    have bits_ := filledWith_bits (s := s) (sramKey q o) (sourceBytes s e (keyOf s c e.loc) 0 e.len)
    rw [length_sourceBytes] at bits_
    refine ⟨_, u, run, filledWith_written _ _, bits_, completes, queue, mem, counts, fun rce pad m resident other => ?_⟩
    rw [bumps rce]
    exact segmentDone_bumps canonical isGlobal sent pad resident other
  · have far := farOf_sram isGlobal sent accepted seg.rest (here ▸ short) nofun
    have run := seg.exec_get get moves (by omega) far
    rw [if_neg whole, start, Nat.add_zero] at run
    obtain ⟨u, completes, queue, mem, counts, -⟩ := segmentDone_completes (k := keyOf s c e.loc)
      (b := sourceBytes s e (sramKey q o) 0 e.len) oldest (.inr get) going quiet written some_ unbumped
    have bits_ := filledWith_bits (s := s) (keyOf s c e.loc) (sourceBytes s e (sramKey q o) 0 e.len)
    rw [length_sourceBytes] at bits_
    exact ⟨_, u, run, filledWith_written _ _, bits_, completes, queue, mem, counts⟩

end

section
/-! SUPPORT. PUTM at a ring of a member of the gang (R181, R182, R331). -/

namespace Sys2Proof.Claim
open Sys2Proof.Machine

variable {s t : State} {c m n q o : Nat} {e : Entry} {r : List Entry} {d : PutmDest}

/-! ### What a change of a queue leaves (R182, R208) -/

/-- Harts stand where they stood, with their tasks; fabric, partitions and clusters are as they were. -/
structure SamePlace (s t : State) : Prop where
  gcn : ∀ x, (t.ctx x).gcn = (s.ctx x).gcn
  part : ∀ x, (t.ctx x).part = (s.ctx x).part
  task : ∀ x, (t.ctx x).task = (s.ctx x).task
  rest : { t with ctxs := s.ctxs, nextId := s.nextId } = s

section
variable (same : SamePlace s t)
include same

theorem SamePlace.memberOn (c k : Nat) : memberOn t c k = memberOn s c k := by
  have tasks : t.tasks = s.tasks := (congrArg State.tasks same.rest :)
  unfold Machine.memberOn State.task
  rw [same.task, tasks]
  simp only [same.gcn]

theorem SamePlace.writeFirst (own : Bool) : writeFirst t c q o n own = writeFirst s c q o n own := by
  have net : t.net = s.net := (congrArg State.net same.rest :)
  have parts : t.parts = s.parts := (congrArg State.parts same.rest :)
  have clusters : t.clusters = s.clusters := (congrArg State.clusters same.rest :)
  have lands : landing t = landing s := by
    funext p
    unfold landing State.cluster
    rw [clusters]
  have orders (k : List Release) (y : Nat) : ordersAfter t k y = ordersAfter s k y := by
    unfold ordersAfter sameInstance
    simp only [same.gcn]
  unfold Machine.writeFirst writeAmong State.part
  rw [net, parts, same.part, lands]
  simp only [orders]

theorem SamePlace.spanBusy : spanBusy t c o n = spanBusy s c o n := by
  unfold Machine.spanBusy
  rw [same.writeFirst, same.gcn]

end

/-- R182: an entry of `c`, of those that wait at the ring of a member, comes before place `n` there. -/
def waitsBefore (s : State) (m ring n c : Nat) (x : Entry) : Bool :=
  decide (x.kind = .putm) && x.failed.isNone && x.dests.any fun y =>
    decide (y.ring = ring) && !y.done && decide (memberOn s c y.core = some m) &&
      match y.reached with
      | some k => decide (k < n)
      | none => false

theorem claimsFirst_eq (s : State) (m ring n : Nat) : claimsFirst s m ring n = s.ctxs.any fun p => p.2.eng.q.any (waitsBefore s m ring n p.1) := rfl

/-- The number that an entry takes when it reaches the ring of its destination (R182), and the entry then. -/
def arrivalOf (s : State) (d : PutmDest) : Nat := d.reached.getD s.nextId
def reachedDest (s : State) (d : PutmDest) : PutmDest := { d with reached := some (arrivalOf s d) }
def reachedEntry (s : State) (e : Entry) (d : PutmDest) : Entry := { e with started := true, dests := [reachedDest s d] }
/-- The state once it has reached the ring. -/
def numberTaken (s : State) (d : PutmDest) : State := { s with nextId := if d.reached.isSome then s.nextId else s.nextId + 1 }
def reachedRing (c : Nat) (e : Entry) (d : PutmDest) (s : State) : State := setEntry c (reachedEntry s e d) (numberTaken s d)

theorem reachedRing_other {x : Nat} (other : x ≠ c) : (reachedRing c e d s).ctx x = s.ctx x := (modCtx_ctx ..).trans (if_neg other)

theorem reachedRing_ctxs : (reachedRing c e d s).ctxs = tput s.ctxs c ((reachedRing c e d s).ctx c) := by
  unfold reachedRing setEntry
  rw [modEng_eq, modCtx_self]
  rfl

theorem reachedRing_place : SamePlace s (reachedRing c e d s) := by
  have keeps {β : Type} {f : Ctx → β} (same : ∀ h g, f { h with eng := g } = f h) (x : Nat) : f ((reachedRing c e d s).ctx x) = f (s.ctx x) := by
    unfold reachedRing setEntry
    rw [modEng_eq, modCtx_ctx]
    split
    · next here =>
      rw [same, here]
      rfl
    · rfl
  exact ⟨keeps fun _ _ => rfl, keeps fun _ _ => rfl, keeps fun _ _ => rfl, rfl⟩

theorem reachedRing_oldest (oldest : Oldest s c e r) : Oldest (reachedRing c e d s) c (reachedEntry s e d) r :=
  Oldest.changed (s := numberTaken s d) (e' := reachedEntry s e d) oldest rfl

/-- R182: an entry does not come before itself. -/
theorem waitsBefore_self (only : e.dests = [d]) (x : Nat) :
    waitsBefore s m d.ring (arrivalOf s d) x e = false ∧ waitsBefore s m d.ring (arrivalOf s d) x (reachedEntry s e d) = false := by
  refine ⟨?_, ?_⟩
  · unfold waitsBefore arrivalOf
    rw [only]
    cases reached : d.reached with
    | none => simp [reached]
    | some k => simp [reached]
  · unfold waitsBefore reachedEntry reachedDest
    simp

/-- R182: what comes first at a ring is what did before the entry reached it. -/
theorem claimsFirst_reached (canonical : Canonical s) (oldest : Oldest s c e r) (only : e.dests = [d]) :
    claimsFirst (reachedRing c e d s) m d.ring (arrivalOf s d) = claimsFirst s m d.ring (arrivalOf s d) := by
  have before : waitsBefore (reachedRing c e d s) m d.ring (arrivalOf s d) = waitsBefore s m d.ring (arrivalOf s d) := by
    funext x y
    unfold waitsBefore
    simp only [reachedRing_place.memberOn]
  obtain ⟨self, reached⟩ := waitsBefore_self (s := s) (m := m) only c
  rw [claimsFirst_eq, claimsFirst_eq, before]
  have found := find?_tput_same (P := fun p : Nat × Ctx => p.2.eng.q.any (waitsBefore s m d.ring (arrivalOf s d) p.1)) (d := {}) (k := c)
    (v := (reachedRing c e d s).ctx c) canonical.2
    (by
      show ((reachedRing c e d s).ctx c).eng.q.any _ = (s.ctx c).eng.q.any _
      rw [(reachedRing_oldest oldest).1, oldest.1, List.any_cons, List.any_cons, self, reached])
    rfl
  have same := congrArg Option.isSome found
  rw [Option.isSome_map, Option.isSome_map, List.isSome_find?, List.isSome_find?, ← reachedRing_ctxs] at same
  exact same

/-! ### A turn at the ring (R182, R331) -/

/-- The bytes that the next segment of an entry moves at a destination. -/
def segmentBytes (e : Entry) (d : PutmDest) : Nat := min 4096 (e.len - d.pos)
/-- Of the aligned word of the source that the segment's end splits, the bytes after it. -/
def splitBytes (e : Entry) (d : PutmDest) : Nat :=
  if (e.loc.toNat + d.pos + segmentBytes e d) % 8 = 0 then 0
  else min (8 - (e.loc.toNat + d.pos + segmentBytes e d) % 8) (e.len - (d.pos + segmentBytes e d))

theorem extraBytes_atDest (kind : e.kind = .putm) : extraBytes (atDest (reachedEntry s e d) (reachedDest s d)) (segmentBytes e d) = splitBytes e d := by
  unfold extraBytes splitBytes atDest reachedEntry reachedDest
  dsimp only
  rw [kind]
  simp only [farPer, Nat.div_one, Nat.add_assoc]

/-- R182: a failed entry. -/
def failedEntry (s : State) (c : Nat) (e : Entry) (d : PutmDest) : Entry :=
  { reachedEntry s e d with failed := some (w64 (2 ^ 63 + (s.ctx c).vcn * 2 ^ 48 + d.core * 0x8000)) }

section
variable (oldest : Oldest s c e r) (kind : e.kind = .putm) (going : e.failed = none) (only : e.dests = [d]) (waits : d.done = false)
  (member : memberOn s c d.core = some m)

include oldest kind going only waits member in
/-- R182: the oldest entry at the ring of its only destination, with nothing left to write. -/
theorem exec_putmSlotClaim (moves : lands e s.choice.pick = false) (pick : s.choice.pick = 0) :
    exec (.putmSlotClaim c e.eid 0) s = .next (if !ringFits (getRing ((numberTaken s d).ctx m) d.ring) (reachedEntry s e d)
      then setEntry c (failedEntry s c e d) (numberTaken s d)
      else if !(claimable (reachedRing c e d s) c (reachedEntry s e d) (reachedDest s d) && dmaTurn (reachedRing c e d s) c (reachedEntry s e d))
      then reachedRing c e d s
      else Machine.served c e.eid (claimSlot c m 0 false (reachedEntry s e d) (reachedDest s d) (reachedRing c e d s))) := by
  have notLater : reachesLater (s.ctx c) e d = false := by
    unfold reachesLater earlier
    rw [oldest.1, List.takeWhile_cons_of_neg (by simp)]
    rfl
  have numbered : (if d.reached.isSome then s else { s with nextId := s.nextId + 1 }) = numberTaken s d := by
    unfold numberTaken
    split
    · rfl
    · rfl
  refine congrArg Host.Outcome.next ?_
  rw [oldest.entryAt]
  dsimp only
  rw [only]
  dsimp only [List.getElem?_cons_zero, List.set_cons_zero]
  refine (if_neg (not_not.2 kind)).trans ((if_neg (by rw [moves]; decide)).trans ((if_neg ?_).trans ?_))
  · simp [waits, going, oldest.mayStart, notLater]
  · have member' : memberOn (numberTaken s d) c d.core = some m := member
    rw [numbered, member', pick]
    exact ite_congr rfl (fun _ => rfl) fun _ => (if_neg (by decide)).trans rfl

end

section
variable (only : e.dests = [d]) (kind : e.kind = .putm) (waits : d.done = false) (left : d.pos < e.len)
  (member : memberOn s c d.core = some m) (other : m ≠ c)
include only kind waits left member other

/-- R182, R208, R331: an entry that has reached the ring can move its segment into a slot. -/
theorem claimable_reached (canonical : Canonical s) (oldest : Oldest s c e r) (fits : ringFits (ring s m d.ring) e = true) :
    claimable (reachedRing c e d s) c (reachedEntry s e d) (reachedDest s d) = true ↔ freeOf (ring s m d.ring) ≠ 0 ∧
      claimsFirst s m d.ring (arrivalOf s d) = false ∧ spanBusy s c (e.loc.toNat + d.pos) (segmentBytes e d + splitBytes e d) = false ∧
      writeFirst s c (pcnOf (s.ctx m).gcn) (localOfs (s.ctx m).gcn (slotAddr (ring s m d.ring) (ring s m d.ring).tail + d.pos)) (segmentBytes e d) false
        = false := by
  have some_ : segmentBytes e d ≠ 0 := by
    unfold segmentBytes
    omega
  have busy : putmBusy (reachedRing c e d s) c m (reachedEntry s e d) (reachedDest s d) = (spanBusy s c (e.loc.toNat + d.pos) (segmentBytes e d + splitBytes e d) ||
      writeFirst s c (pcnOf (s.ctx m).gcn) (localOfs (s.ctx m).gcn (slotAddr (ring s m d.ring) (ring s m d.ring).tail + d.pos)) (segmentBytes e d) false) := by
    have bytes : putmSeg (reachedEntry s e d) (reachedDest s d) = segmentBytes e d := rfl
    unfold putmBusy
    dsimp only
    rw [bytes, extraBytes_atDest kind, decide_eq_true some_, Bool.true_and, reachedRing_place.spanBusy, reachedRing_place.writeFirst, reachedRing_other other]
    rfl
  have reached : claimable (reachedRing c e d s) c (reachedEntry s e d) (reachedDest s d) = (decide (freeOf (ring s m d.ring) ≠ 0) &&
      !claimsFirst s m d.ring (arrivalOf s d) && !putmBusy (reachedRing c e d s) c m (reachedEntry s e d) (reachedDest s d)) := by
    have bytes : putmSeg (reachedEntry s e d) (reachedDest s d) ≠ 0 := some_
    have core : memberOn (reachedRing c e d s) c (reachedDest s d).core = some m := (reachedRing_place.memberOn ..).trans member
    have there : getRing ((reachedRing c e d s).ctx m) (reachedDest s d).ring = ring s m d.ring := congrArg (getRing · d.ring) (reachedRing_other other)
    have fits' : ringFits (ring s m d.ring) (reachedEntry s e d) = true := fits
    have open_ : (reachedDest s d).done = false := waits
    have first := claimsFirst_reached (m := m) canonical oldest only
    unfold claimable
    rw [core, show (reachedDest s d).reached = some (arrivalOf s d) from rfl]
    simp only [there, fits', open_, decide_eq_true bytes, freeSlots_eq, Bool.not_false, Bool.true_or, Bool.true_and]
    rw [← first]
    rfl
  rw [reached, busy]
  simp only [Bool.and_eq_true, Bool.not_eq_true', Bool.or_eq_false_iff, decide_eq_true_eq, and_assoc]

end

/-! ### The segment in its slot (R182, R202) -/

/-- The entry after a segment at its destination. -/
def claimedEntry (s : State) (c : Nat) (e : Entry) (d : PutmDest) : Entry :=
  { reachedEntry s e d with
    early := earlyFrom (d.pos + segmentBytes e d + splitBytes e d) e.early
    dests := [{ reachedDest s d with
      claimed := true, pos := d.pos + segmentBytes e d
      hold := sourceBytes s e (keyOf s c e.loc) (d.pos + segmentBytes e d) (splitBytes e d), done := decide (d.pos + segmentBytes e d = e.len) }] }

/-- R182: the slot is published, and the member's counter bumped. -/
def publishedSlot (m : Nat) (e : Entry) (d : PutmDest) (g : Ring) (s : State) : State :=
  let t := setRing m d.ring { g with tail := (g.tail + 1) % 0x100000000 } s
  if e.rce then bump m e.rcnt 1 t else t

section
variable (kind : e.kind = .putm) (waits : d.done = false) (left : d.pos < e.len) (held : d.hold = []) (other : m ≠ c)
  (image : (s.ctx c).image = none) (inside : e.loc.toNat + e.len ≤ 0x8000) (there : (s.ctx m).image = none)
include kind waits left held other image inside there

/-- R182, R202, R331: the segment goes into the slot at the tail of the ring; the last one publishes it. -/
theorem claimSlot_eq :
    let g := ring s m d.ring
    let u := filledWith (localKey (s.ctx m).gcn (slotAddr g g.tail + d.pos)) (sourceBytes s e (keyOf s c e.loc) d.pos (segmentBytes e d)) (reachedRing c e d s)
    claimSlot c m 0 false (reachedEntry s e d) (reachedDest s d) (reachedRing c e d s) =
      setEntry c (claimedEntry s c e d) (if d.pos + segmentBytes e d = e.len then publishedSlot m e d g u else u) := by
  have some_ : segmentBytes e d ≠ 0 := by
    unfold segmentBytes
    omega
  have short : d.pos + segmentBytes e d + splitBytes e d ≤ e.len := by
    unfold splitBytes
    split
    · unfold segmentBytes
      omega
    · unfold segmentBytes
      omega
  have hart : (reachedRing c e d s).ctx m = s.ctx m := reachedRing_other other
  have image' : ((reachedRing c e d s).ctx c).image = none := by
    unfold reachedRing setEntry
    rw [modEng_eq, modCtx_self]
    exact image
  have key : keyOf (reachedRing c e d s) c e.loc = keyOf s c e.loc := by
    unfold keyOf
    rw [reachedRing_place.gcn]
  have extra := extraBytes_atDest (s := s) (d := d) kind
  have plain : farPer e.kind = 1 := by rw [kind]; rfl
  have read : readLocalEnd (reachedRing c e d s) c (atDest (reachedEntry s e d) (reachedDest s d)) (segmentBytes e d) =
      (sourceBytes s e (keyOf s c e.loc) d.pos (segmentBytes e d), sourceBytes s e (keyOf s c e.loc) (d.pos + segmentBytes e d) (splitBytes e d)) := by
    refine (readLocalEnd_here (e := atDest (reachedEntry s e d) (reachedDest s d)) plain held image' (by omega) (by rw [extra]; show e.loc.toNat + (d.pos + _ + _) ≤ _; omega)).trans ?_
    rw [extra, ← key]
    rfl
  have bytes : putmSeg (reachedEntry s e d) (reachedDest s d) = segmentBytes e d := rfl
  dsimp only
  unfold claimSlot
  dsimp only
  rw [bytes, read]
  simp only [Bool.false_and, Bool.false_eq_true, if_false, or_false, if_neg some_, List.append_nil]
  rw [writeLocal_here (by rw [hart]; exact there), hart, length_sourceBytes]
  by_cases last : d.pos + segmentBytes e d = e.len
  · rw [if_pos last]
    refine (if_neg (show ¬d.pos + segmentBytes e d < e.len by omega)).trans ?_
    unfold claimedEntry
    rw [decide_eq_true last]
    rfl
  · rw [if_neg last]
    refine (if_pos (show d.pos + segmentBytes e d < e.len by omega)).trans ?_
    unfold claimedEntry
    rw [decide_eq_false last, ← waits]
    rfl

end

/-- R182: publication moves the ring of the member on, and bumps its counter with RCE. -/
theorem publishedSlot_eq (m : Nat) (e : Entry) (d : PutmDest) (g : Ring) (s : State) : publishedSlot m e d g s = modCtx m (fun h => { h with eng := { h.eng with
    rings := tput h.eng.rings d.ring { g with tail := (g.tail + 1) % 2 ^ 32 }
    cc := if e.rce then tset 0 h.eng.cc e.rcnt (tget h.eng.cc e.rcnt 0 + 1) else h.eng.cc } }) s := by
  unfold publishedSlot
  cases rce : e.rce with
  | true =>
    dsimp only
    rw [if_pos rfl, bump_eq, setRing, modEng_eq, modCtx_comp]
    rfl
  | false => rfl

/-- The slot at a position of a ring in the scratchpad lies there whole. -/
theorem slot_inside {g : Ring} {p i : Nat} (within : g.base + g.slotb * g.nslot ≤ 0x8000) (some_ : 1 ≤ freeOf g) (hi : i < g.slotb) :
    slotAddr g p + i < 0x8000 := by
  have slots : 0 < g.nslot := by
    unfold freeOf at some_
    omega
  have slot : (p % g.nslot + 1) * g.slotb ≤ g.nslot * g.slotb := Nat.mul_le_mul_right _ (Nat.mod_lt _ slots)
  have size : g.slotb * g.nslot = g.nslot * g.slotb := Nat.mul_comm ..
  rw [Nat.add_mul, Nat.one_mul] at slot
  unfold slotAddr
  omega

/-- R182: what a segment in a slot leaves of the rings and counters of the member, and of the entry's hart. -/
structure Claimed (s t : State) (c m : Nat) (e : Entry) (r : List Entry) (d : PutmDest) : Prop where
  written : Written s t (localKey (s.ctx m).gcn (slotAddr (ring s m d.ring) (ring s m d.ring).tail + d.pos))
    (sourceBytes s e (keyOf s c e.loc) d.pos (segmentBytes e d))
  bits : Bits s t (wordsOf (localKey (s.ctx m).gcn (slotAddr (ring s m d.ring) (ring s m d.ring).tail + d.pos)) (segmentBytes e d)) true
  ring : ring t m d.ring = if d.pos + segmentBytes e d = e.len then { ring s m d.ring with tail := ((ring s m d.ring).tail + 1) % 2 ^ 32 }
    else ring s m d.ring
  counter : e.rce = true → counter t m e.rcnt = if d.pos + segmentBytes e d = e.len then counter s m e.rcnt + 1 else counter s m e.rcnt
  queue : (t.ctx c).eng.q = claimedEntry s c e d :: r

theorem Claimed.served (h : Claimed s t c m e r d) (x y : Nat) : Claimed s (Machine.served x y t) c m e r d :=
  ⟨h.written, h.bits, h.ring, h.counter, h.queue⟩

theorem claimed_setEntry (oldest : Oldest s c e r) (other : m ≠ c) :
    let g := Claim.ring s m d.ring
    let u := filledWith (localKey (s.ctx m).gcn (slotAddr g g.tail + d.pos)) (sourceBytes s e (keyOf s c e.loc) d.pos (segmentBytes e d)) (reachedRing c e d s)
    Claimed s (setEntry c (claimedEntry s c e d) (if d.pos + segmentBytes e d = e.len then publishedSlot m e d g u else u)) c m e r d := by
  set g := Claim.ring s m d.ring with hg
  set b := sourceBytes s e (keyOf s c e.loc) d.pos (segmentBytes e d) with hb
  dsimp only
  set k := localKey (s.ctx m).gcn (slotAddr g g.tail + d.pos) with hk
  have long : b.length = segmentBytes e d := length_sourceBytes ..
  have eng (x : Nat) : ((filledWith k b (reachedRing c e d s)).ctx x).eng = ((reachedRing c e d s).ctx x).eng := (filledWith_harts k b).eng x
  have member : ((filledWith k b (reachedRing c e d s)).ctx m).eng = (s.ctx m).eng := (eng m).trans (by rw [reachedRing_other other])
  have queue : Oldest (filledWith k b (reachedRing c e d s)) c (reachedEntry s e d) r := (reachedRing_oldest oldest).congr (eng c)
  have written : Written s (filledWith k b (reachedRing c e d s)) k b := filledWith_written k b
  have bits_ : Bits s (filledWith k b (reachedRing c e d s)) (wordsOf k (segmentBytes e d)) true := by
    rw [← long]
    exact filledWith_bits k b
  generalize filledWith k b (reachedRing c e d s) = u at *
  have there (v : State) : (setEntry c (claimedEntry s c e d) v).ctx m = v.ctx m := (modCtx_ctx ..).trans (if_neg other)
  by_cases last : d.pos + segmentBytes e d = e.len
  · rw [if_pos last, publishedSlot_eq]
    refine ⟨written, bits_, ?_, fun rce => ?_, ?_⟩
    · rw [if_pos last]
      unfold Claim.ring
      rw [there, modCtx_self]
      exact (tget_tput ..).trans (if_pos rfl)
    · rw [if_pos last]
      unfold Claim.counter
      rw [there, modCtx_self]
      dsimp only
      rw [if_pos rce, member]
      exact (tget_tset ..).trans (if_pos rfl)
    · refine Oldest.queue_setEntry (queue.congr ?_) rfl
      rw [modCtx_ctx, if_neg (Ne.symm other)]
  · rw [if_neg last]
    refine ⟨written, bits_, ?_, fun _ => ?_, queue.queue_setEntry rfl⟩
    · rw [if_neg last]
      unfold Claim.ring
      rw [there, member]
    · rw [if_neg last]
      unfold Claim.counter
      rw [there, member]

end Sys2Proof.Claim
end

section
open Sys2Proof Sys2Proof.Machine Sys2Proof.Claim

/-- R181, R182, R331: a PUTM of one destination claims slots in turn, fails at a ring that does not fit, and else waits. -/
theorem Sys2Proof.Claim.putmClaims : Claim.PutmClaims := by
  unfold Claim.PutmClaims
  intro s c e r d m canonical oldest kind going only waits held left written pick image member other there inside
  have moves : lands e s.choice.pick = false := by rw [pick]; exact lands_none written
  have run := exec_putmSlotClaim oldest kind going only waits member moves pick
  have same : getRing ((numberTaken s d).ctx m) d.ring = ring s m d.ring := rfl
  rw [same] at run
  have fits (valid : (ring s m d.ring).valid = true) (feed : (ring s m d.ring).feed = true) (long : e.len ≤ (ring s m d.ring).slotb) :
      ringFits (ring s m d.ring) e = true := by
    unfold ringFits
    rw [valid, feed, decide_eq_true long]
    rfl
  have device (x : Entry) : { setEntry c x (numberTaken s d) with ctxs := s.ctxs, nextId := s.nextId } = s := rfl
  have others (x : Entry) : OtherHarts c s (setEntry c x (numberTaken s d)) := fun y hy => (modCtx_ctx ..).trans (if_neg hy)
  have queue (x : Entry) (number : x.eid = e.eid) : ((setEntry c x (numberTaken s d)).ctx c).eng.q = x :: r :=
    Oldest.queue_setEntry (s := numberTaken s d) oldest number
  dsimp only
  refine ⟨fun valid feed long some_ within first idle free turn => ?_, fun unfit => ?_, fun valid feed long held_ => ?_⟩
  · have ready := (claimable_reached only kind waits left member other canonical oldest (fits valid feed long)).2 ⟨by omega, first, idle, free⟩
    rw [if_neg (by rw [show ringFits (ring s m d.ring) (reachedEntry s e d) = true from fits valid feed long]; decide),
      if_neg (by rw [ready, show dmaTurn (reachedRing c e d s) c (reachedEntry s e d) = true from turn]; decide),
      claimSlot_eq kind waits left held other image inside there] at run
    obtain ⟨bytes, bits_, rings, counts, entry⟩ := (claimed_setEntry (d := d) oldest other).served c e.eid
    have key : localKey (s.ctx m).gcn (slotAddr (ring s m d.ring) (ring s m d.ring).tail + d.pos) =
        localKey (s.ctx m).gcn (slotAddr (ring s m d.ring) (ring s m d.ring).tail) + d.pos := localKey_add (slot_inside within some_ (by omega))
    rw [key] at run bytes bits_ rings counts entry
    have moved : min 4096 (e.len - d.pos) = segmentBytes e d := rfl
    have split : (if (e.loc.toNat + d.pos + segmentBytes e d) % 8 = 0 then 0
        else min (8 - (e.loc.toNat + d.pos + segmentBytes e d) % 8) (e.len - (d.pos + segmentBytes e d))) = splitBytes e d := rfl
    simp only [moved, split, decide_eq_true_eq]
    exact ⟨_, run, bytes, bits_, rings, counts, entry⟩
  · rw [if_pos ?_] at run
    · exact ⟨_, _, run, device _, others _, queue (failedEntry s c e d) rfl⟩
    · have no : ringFits (ring s m d.ring) (reachedEntry s e d) = false := by
        unfold ringFits
        obtain h | h | h := unfit
        · rw [h]
          rfl
        · rw [h, Bool.and_false]
          rfl
        · rw [decide_eq_false (show ¬(reachedEntry s e d).len ≤ _ from Nat.not_le.2 h), Bool.and_false]
      rw [no]
      rfl
  · rw [if_neg (by rw [show ringFits (ring s m d.ring) (reachedEntry s e d) = true from fits valid feed long]; decide), if_pos ?_] at run
    · exact ⟨_, run, device _, others _, queue (reachedEntry s e d) rfl⟩
    · have ready := claimable_reached only kind waits left member other canonical oldest (fits valid feed long)
      rw [Bool.not_eq_true', Bool.and_eq_false_iff]
      obtain full | before | late := held_
      · exact .inl (Bool.not_eq_true _ ▸ fun claims => (ready.1 claims).1 full)
      · refine .inl (Bool.not_eq_true _ ▸ fun claims => ?_)
        have none_ := (ready.1 claims).2.1
        rw [show claimsFirst s m d.ring (arrivalOf s d) = true from before] at none_
        cases none_
      · exact .inr late

end

section
/-! SUPPORT. What columns held before a write that an entry may precede (R293, R294, R381), and whole columns written and read. -/

namespace Sys2Proof.Claim
open Sys2Proof.Machine

variable {s t u : State} {c g col k n : Nat} {e : Entry} {x : Before} {l : List Byte} {old : List Nat}

/-! ### Tables -/

theorem find?_tins_other {α : Type} {k j : Nat} (other : j ≠ k) (l : Tbl α) (v : α) :
    (tins l k v).find? (fun x => x.1 = j) = l.find? (fun x => x.1 = j) := by
  induction l with
  | nil => simp [tins, Ne.symm other]
  | cons p l ih =>
    by_cases before : p.1 < k
    · rw [tins, if_pos before, List.find?_cons, List.find?_cons, ih]
    · rw [tins, if_neg before, List.find?_cons_of_neg (by simpa using Ne.symm other)]

theorem find?_tdel_other {α : Type} {k j : Nat} (other : j ≠ k) (l : Tbl α) : (tdel l k).find? (fun x => x.1 = j) = l.find? (fun x => x.1 = j) := by
  unfold tdel
  rw [List.find?_filter]
  refine congrArg (fun p => l.find? p) (funext fun y => ?_)
  by_cases here : y.1 = j
  · simp [here, other]
  · simp [here]

theorem find?_tput_other {α : Type} {k j : Nat} (other : j ≠ k) (l : Tbl α) (v : α) :
    (tput l k v).find? (fun x => x.1 = j) = l.find? (fun x => x.1 = j) := (find?_tins_other other ..).trans (find?_tdel_other other l)

/-! ### Accounts (R372) -/

theorem chargeDram_owners (c n : Nat) (s : State) : ∃ os, chargeDram c n s = { s with owners := os } := by
  unfold chargeDram
  split
  · exact ⟨_, rfl⟩
  · exact ⟨_, rfl⟩

theorem chargeDram_bank (c n : Nat) (s : State) (x : Nat) : (chargeDram c n s).bank x = s.bank x := by
  obtain ⟨os, same⟩ := chargeDram_owners c n s
  rw [same]
  rfl

theorem chargeDram_ctx (c n : Nat) (s : State) (x : Nat) : (chargeDram c n s).ctx x = s.ctx x := by
  obtain ⟨os, same⟩ := chargeDram_owners c n s
  rw [same]
  rfl

theorem chargeDram_mem (c n : Nat) (s : State) : (chargeDram c n s).mem = s.mem := by
  obtain ⟨os, same⟩ := chargeDram_owners c n s
  rw [same]

/-! ### What is remembered of a column (R293, R294) -/

theorem beforeOf_unlisted (unlisted : ∀ y ∈ (s.bank g).before, y.1 ≠ col) : beforeOf s g col = none := by
  unfold beforeOf
  rw [List.find?_eq_none.2 fun y hy => by simpa using unlisted y hy]
  rfl

theorem metaOf_sound (sound : Sound s g col) : metaOf s g col = metaAt s g col := by
  unfold metaOf metaAt metaMask gradeMask gradeOf
  dsimp only
  rw [sound.1, deliveredWrong_undamaged, List.foldl_nil]
  obtain grade | grade | ⟨n, grade⟩ : tget (s.bank g).grades (col / 32) 0 = 0 ∨ tget (s.bank g).grades (col / 32) 0 = 1 ∨
      ∃ n, tget (s.bank g).grades (col / 32) 0 = n + 2 := by
    obtain _ | _ | n := tget (s.bank g).grades (col / 32) 0
    · exact .inl rfl
    · exact .inr (.inl rfl)
    · exact .inr (.inr ⟨n, rfl⟩)
  · rw [grade]
    exact (BitVec.and_zero ..).symm
  · rw [grade]
    rfl
  · rw [grade, if_neg (by omega), if_neg (by omega), if_neg (by omega)]
    rfl

theorem heldBefore_sound (sound : Sound s g col) (c : Nat) (data : Bool) :
    heldBefore c g col data s = some { cid := c, bytes := memBytes s (colKey g col) 32, mdata := metaAt s g col, data := data } := by
  unfold heldBefore
  dsimp only
  rw [sound.1, checkCol_undamaged, if_neg (by decide), peekCol_sound sound, metaOf_sound sound]
  rfl

theorem metaAt_countReq (g col x y : Nat) : metaAt (modBank g (countReq col) s) x y = metaAt s x y := by
  unfold metaAt metaMask
  rw [modBank_bank]
  split
  · next same =>
    subst same
    rfl
  · rfl

theorem before_countReq (g col x : Nat) : ((modBank g (countReq col) s).bank x).before = (s.bank x).before := by
  rw [modBank_bank]
  split
  · next same =>
    subst same
    rfl
  · rfl

theorem wrote_before (col : Nat) (b : Bank) : (wrote col b).before = b.before := by
  unfold wrote
  dsimp only
  split
  · rfl
  · split
    · rfl
    · rfl

theorem settle_before (g col : Nat) (s : State) (x : Nat) :
    ((settle g col s).bank x).before = if x = g then tdel (s.bank g).before col else (s.bank x).before := by
  unfold settle
  split
  · next none_ =>
    split
    · next same =>
      subst same
      refine (tdel_unlisted fun y hy here => ?_).symm
      unfold beforeOf at none_
      rw [Option.isNone_map, Option.isNone_iff_eq_none, List.find?_eq_none] at none_
      exact none_ y hy (decide_eq_true here)
    · rfl
  · rw [modBank_bank]
    split
    · rfl
    · rfl

/-- R196: a column that has been written is remembered no more as it was. -/
theorem writeCol_before (g col : Nat) (l : List Byte) (s : State) (x : Nat) :
    ((writeCol g col l s).bank x).before = if x = g then tdel (s.bank g).before col else (s.bank x).before := by
  have settled := settle_before g col { s with mem := writeBytes s.mem (colKey g col) l } x
  unfold writeCol
  dsimp only
  rw [modBank_bank]
  split
  · next same =>
    subst same
    rw [wrote_before, if_pos rfl] at *
    split
    · exact settled
    · exact settled
  · next other =>
    rw [if_neg other] at settled
    exact settled

/-! ### Bank copies (R293, R298) -/

section
variable {r : List BCmd} {cmd : BCmd} (turn : BankTurn s c cmd r)
include turn

theorem BankTurn.bankFree : bankFree s c = true := by
  obtain ⟨-, idle, alone⟩ := turn
  unfold Machine.bankFree
  dsimp only
  rw [idle, Option.isNone_none, Bool.true_and, List.all_eq_true]
  intro p hp
  by_cases own : p.1 = c
  · simp [own]
  · by_cases here : p.2.gcn = (s.ctx c).gcn
    · cases queue : p.2.eng.bq with
      | nil => simp
      | cons q l => simp [alone p hp own here q l queue]
    · simp [here]

/-- R298: a BKCOPY that holds a slot copies its next column. -/
theorem exec_bkcopyColumn {src db dst : Nat} (kind : cmd.kind = .copy src db dst n) (left : 32 * cmd.pos < n) (slot : cmd.slot = true)
    (calm : cool s = true) (sound : Sound s (s.ctx c).gcn (src / 32 + cmd.pos)) :
    let u := modBank (s.ctx c).gcn (countReq (src / 32 + cmd.pos)) s
    exec (.bkcopyColumn c) s = .next (setHeadCmd c { cmd with pos := cmd.pos + 1, psn := cmd.psn }
      (chargeDram c 64 (unfenced c db (dst / 32 + cmd.pos) true u
        (writeCol db (dst / 32 + cmd.pos) (readBytes s.mem (colKey (s.ctx c).gcn (src / 32 + cmd.pos)) 32) u)))) := by
  have head : headCmd s c = some cmd := by
    unfold headCmd
    rw [turn.head]
    rfl
  refine congrArg Host.Outcome.next ?_
  rw [head]
  dsimp only
  rw [kind]
  dsimp only
  rw [if_neg (by simp [turn.bankFree]; omega), if_neg (by simp [slot]), gate_cool calm, readCol_sound sound]
  simp only [Bool.and_false, Bool.false_eq_true, if_false]

end

/-- R293: what a copied column held is remembered. -/
theorem unfenced_before (sound : Sound s g col) (unlisted : ∀ y ∈ (s.bank g).before, y.1 ≠ col) (t : State) (j : Nat) :
    ((unfenced c g col true s t).bank g).before.find? (fun x => x.1 = j) = if j = col
      then some (col, { cid := c, bytes := memBytes s (colKey g col) 32, mdata := metaAt s g col, data := true })
      else (t.bank g).before.find? fun x => x.1 = j := by
  unfold unfenced
  rw [heldBefore_sound sound, beforeOf_unlisted unlisted]
  dsimp only
  rw [modBank_self]
  dsimp only
  by_cases here : j = col
  · subst here
    rw [if_pos rfl]
    exact find?_tput ..
  · rw [if_neg here]
    exact find?_tput_other here ..

end Sys2Proof.Claim
end

section
open Sys2Proof Sys2Proof.Machine Sys2Proof.Claim

/-- R293: the column that a BKCOPY replaces stays known as it was. -/
theorem Sys2Proof.Claim.copiedColumn {s : State} {c : Nat} {k : BCmd} {r : List BCmd} {src db dst n : Nat} (turn : BankTurn s c k r)
    (kind : k.kind = .copy src db dst n) (left : 32 * k.pos < n) (slot : k.slot = true) (calm : cool s = true)
    (source : Sound s (s.ctx c).gcn (src / 32 + k.pos)) (sound : Sound s db (dst / 32 + k.pos))
    (unlisted : ∀ x ∈ (s.bank db).before, x.1 ≠ dst / 32 + k.pos) :
    ∃ t, exec (.bkcopyColumn c) s = .next t ∧ ∀ j, (t.bank db).before.find? (fun x => x.1 = j) = if j = dst / 32 + k.pos then
        some (dst / 32 + k.pos, { cid := c, bytes := memBytes s (db * 0x800000 + 32 * (dst / 32 + k.pos)) 32, mdata := metaAt s db (dst / 32 + k.pos), data := true })
      else (s.bank db).before.find? fun x => x.1 = j := by
  refine ⟨_, exec_bkcopyColumn turn kind left slot calm source, fun j => ?_⟩
  have counted := accessed_countReq (s.ctx c).gcn (src / 32 + k.pos) s
  set u := modBank (s.ctx c).gcn (countReq (src / 32 + k.pos)) s
  have same : (u.bank db).before = (s.bank db).before := before_countReq ..
  show ((chargeDram c 64 _).bank db).before.find? _ = _
  rw [chargeDram_bank, unfenced_before (counted.sound _ _ sound) (by rw [same]; exact unlisted), metaAt_countReq, writeCol_before, if_pos rfl, same,
    tdel_unlisted unlisted, Nat.mul_comm 32]
  rfl

end

section
/-! SUPPORT. Columns at the far end of a transfer (R66, R72, R331, R381). -/

namespace Sys2Proof.Claim
open Sys2Proof.Machine

variable {s t u : State} {c a k m n q o i x : Nat} {e : Entry} {r : List Entry} {p : Piece} {l : List Byte} {old : List Nat} {f : Nat → Nat}

/-! ### Runs of columns (R66) -/

/-- R66: within a line of 128 bytes of a page its bytes are next to each other. -/
theorem pageToPhys_add {base il : Nat} (within : a % 128 + i < 128) : pageToPhys (a + i) base il = pageToPhys a base il + i := by
  unfold pageToPhys
  split
  · omega
  · rw [show (a + i) / 128 = a / 128 by omega, show (a + i) % 128 = a % 128 + i by omega]
    dsimp only
    omega

/-- Runs of whole columns of device DRAM that hold page offsets a to b, where `f` is the address of an offset. -/
def ColumnRuns (f : Nat → Nat) : Nat → List (Nat × Nat) → Nat → Prop
  | a, [], b => a = b
  | a, (k, n) :: l, b => k = f a ∧ n % 32 = 0 ∧ isDram k = true ∧ k % 32 = 0 ∧ (∀ i, i < n → f (a + i) = k + i) ∧ ColumnRuns f (a + n) l b

theorem ColumnRuns.le {l : List (Nat × Nat)} {b : Nat} (runs : ColumnRuns f a l b) : a ≤ b := by
  induction l generalizing a with
  | nil => exact Nat.le_of_eq runs
  | cons x l ih =>
    obtain ⟨-, -, -, -, -, rest⟩ := runs
    exact Nat.le_trans (Nat.le_add_right ..) (ih rest)

theorem spans_columns (start : k % 32 = 0) (whole : n % 32 = 0) : spans 32 k n = (List.range (n / 32)).map fun i => (k + 32 * i, 32) := by
  unfold spans
  split
  · next none_ =>
    rw [none_]
    rfl
  · rw [show (k + n - 1) / 32 - k / 32 + 1 = n / 32 by omega]
    refine List.map_congr_left fun i hi => ?_
    rw [List.mem_range] at hi
    refine Prod.ext ?_ ?_
    · dsimp only
      omega
    · dsimp only
      omega

/-- R381: the units of runs of whole columns are the columns. -/
theorem runUnits_columns {l : List (Nat × Nat)} {b : Nat} (runs : ColumnRuns f a l b) (x : Nat) :
    runUnits x l = (List.range ((b - a) / 32)).map fun j => (x + 32 * j, f (a + 32 * j), 32) := by
  induction l generalizing a x with
  | nil =>
    rw [show a = b from runs, Nat.sub_self]
    rfl
  | cons y l ih =>
    obtain ⟨k, n⟩ := y
    have le := ColumnRuns.le (l := l) runs.2.2.2.2.2
    obtain ⟨-, whole, dram, start, line, rest⟩ := runs
    have count : (b - a) / 32 = n / 32 + (b - (a + n)) / 32 := by omega
    rw [runUnits, ih rest, unitSize, if_pos dram, spans_columns start whole, count, List.range_add, List.map_append, List.map_map, List.map_map]
    congr 1
    · refine List.map_congr_left fun i hi => ?_
      rw [List.mem_range] at hi
      rw [line (32 * i) (by omega)]
      refine Prod.ext ?_ rfl
      show x + (k + 32 * i - k) = _
      omega
    · refine List.map_congr_left fun i hi => ?_
      show (x + n + 32 * i, f (a + n + 32 * i), 32) = (x + 32 * (n / 32 + i), f (a + 32 * (n / 32 + i)), 32)
      rw [show a + 32 * (n / 32 + i) = a + n + 32 * i by omega, show x + 32 * (n / 32 + i) = x + n + 32 * i by omega]

theorem columnRuns_range {cut : Nat → Nat} (b m : Nat) (step : ∀ i, b ≤ i → i < b + m → cut i ≤ cut (i + 1) ∧ (cut (i + 1) - cut i) % 32 = 0 ∧
      isDram (f (cut i)) = true ∧ f (cut i) % 32 = 0 ∧ ∀ j, j < cut (i + 1) - cut i → f (cut i + j) = f (cut i) + j) :
    ColumnRuns f (cut b) ((List.range m).map fun i => (f (cut (b + i)), cut (b + i + 1) - cut (b + i))) (cut (b + m)) := by
  induction m generalizing b with
  | zero => exact rfl
  | succ m ih =>
    obtain ⟨rising, whole, dram, start, line⟩ := step b (Nat.le_refl b) (by omega)
    have rest := ih (b + 1) fun i low high => step i (by omega) (by omega)
    rw [List.range_succ_eq_map, List.map_cons, List.map_map]
    refine ⟨rfl, whole, dram, start, line, ?_⟩
    show ColumnRuns f (cut b + (cut (b + 1) - cut b)) _ _
    rw [Nat.add_sub_cancel' rising, show b + (m + 1) = b + 1 + m by omega]
    refine Eq.mp ?_ rest
    refine congrArg (fun l => ColumnRuns f (cut (b + 1)) l (cut (b + 1 + m))) (List.map_congr_left fun i _ => ?_)
    show (f (cut (b + 1 + i)), cut (b + 1 + i + 1) - cut (b + 1 + i)) = (f (cut (b + (i + 1))), cut (b + (i + 1) + 1) - cut (b + (i + 1)))
    rw [show b + 1 + i = b + (i + 1) by omega]

/-- The address of column j of a piece. -/
def columnOf (p : Piece) (j : Nat) : Nat := pageToPhys (p.poff + 32 * j) p.base p.il

/-- A piece of m whole columns of device DRAM from the far address on. -/
structure WholeColumns (p : Piece) (m : Nat) : Prop where
  off : p.off = 0
  aligned : p.poff % 32 = 0
  low : p.base + p.poff < 0x10000000000
  columns : ∀ j, j < m → columnOf p j < 0x10000000000 ∧ columnOf p j % 32 = 0

/-- Where the i-th run of n bytes from page offset a begins. -/
def lineCut (a n i : Nat) : Nat := min (a + n) (max a ((a / 128 + i) * 128))

/-- R72, R381: the units of columns b to b + n of a piece. -/
theorem WholeColumns.units (whole : WholeColumns p m) {b : Nat} (some_ : 0 < n) (within : b + n ≤ m) (x : Nat) :
    runUnits x (runs p (32 * b) (32 * n)) = (List.range n).map fun j => (x + 32 * j, columnOf p (b + j), 32) := by
  obtain ⟨off, aligned, low, columns⟩ := whole
  have dram : isDram p.base = true := decide_eq_true (by omega)
  set a := p.poff + 32 * b with ha
  have cuts : runs p (32 * b) (32 * n) = (List.range ((a + 32 * n + 127) / 128 - a / 128)).map fun i =>
      (pageToPhys (lineCut a (32 * n) (0 + i)) p.base p.il, lineCut a (32 * n) (0 + i + 1) - lineCut a (32 * n) (0 + i)) := by
    unfold runs
    rw [off, Nat.sub_zero, dram]
    dsimp only
    rw [← ha]
    refine List.map_congr_left fun i hi => ?_
    rw [List.mem_range] at hi
    unfold lineCut
    rw [if_pos rfl, show max a ((a / 128 + i) * 128) = min (a + 32 * n) (max a ((a / 128 + (0 + i)) * 128)) by omega,
      show min (a + 32 * n) ((a / 128 + i + 1) * 128) = min (a + 32 * n) (max a ((a / 128 + (0 + i + 1)) * 128)) by omega]
  have first : lineCut a (32 * n) 0 = a := by
    unfold lineCut
    omega
  have last : lineCut a (32 * n) (0 + ((a + 32 * n + 127) / 128 - a / 128)) = a + 32 * n := by
    unfold lineCut
    omega
  have columnRuns := columnRuns_range (f := fun o => pageToPhys o p.base p.il) (cut := lineCut a (32 * n)) 0 ((a + 32 * n + 127) / 128 - a / 128)
    fun i _ hi => by
      have place : lineCut a (32 * n) i = p.poff + 32 * ((lineCut a (32 * n) i - p.poff) / 32) := by
        unfold lineCut
        omega
      obtain ⟨small, start⟩ := columns ((lineCut a (32 * n) i - p.poff) / 32) (by unfold lineCut; omega)
      unfold columnOf at small start
      rw [← place] at small start
      refine ⟨by unfold lineCut; omega, by unfold lineCut; omega, decide_eq_true small, start, fun j hj => pageToPhys_add ?_⟩
      unfold lineCut at *
      omega
  rw [first, last, ← cuts] at columnRuns
  rw [runUnits_columns columnRuns, show (a + 32 * n - a) / 32 = n by omega]
  refine List.map_congr_left fun j _ => ?_
  unfold columnOf
  rw [ha, show p.poff + 32 * (b + j) = p.poff + 32 * b + 32 * j by omega]

theorem apertureOf_dram {pt : Nat} (dram : isDram k = true) : apertureOf s pt k = none := by
  unfold apertureOf
  rw [List.find?_eq_none.2]
  · rfl
  · intro i _
    simp [dram]

/-- R72, R331: the far end of an entry in device DRAM that moves as one segment. -/
theorem farOf_columns {store : Bool} (whole : WholeColumns p m) (virtual : e.far.getLsbD 63 = false) (start : e.pos = 0) (part : e.part = [p])
    (all : p.len = e.len) (some_ : 0 < e.len) (short : e.far.toNat % 32 + e.len ≤ 4096) :
    farOf s c e store = some (.phys (runs p 0 e.len), e.len) := by
  obtain ⟨off, -, low, -⟩ := whole
  have here : (p.off ≤ e.pos ∧ e.pos < p.off + p.len) := by omega
  have long : segLen (e.far.toNat + e.pos) (p.off + p.len - e.pos) = e.len := by
    rw [off, start, Nat.zero_add, Nat.sub_zero, Nat.add_zero, all]
    exact segLen_whole short
  unfold farOf
  dsimp only
  rw [if_neg (by rw [virtual]; decide), part, List.find?_cons_of_pos (by exact decide_eq_true here)]
  dsimp only
  rw [long, apertureOf_dram (decide_eq_true low), start]

end Sys2Proof.Claim
end

section
/-! SUPPORT. Columns at the far end of a transfer as they are read and written (R180, R294, R381). -/

namespace Sys2Proof.Claim
open Sys2Proof.Machine

variable {s t u : State} {c g k m n q col : Nat} {e : Entry} {r : List Entry} {p : Piece} {l : List Byte} {old : List Nat} {x : Before} {w : LateWord}

/-! ### Which columns are met as they were (R196, R208, R294) -/

theorem mayPrecede_iff {acquired : Tbl Nat} : mayPrecede s c acquired x = true ↔ Precedes s c acquired x := by
  have holds (z : Release) : mayHold s c acquired z = true ↔ ¬(together s z.hart c z.scope → ∀ y ∈ acquired, together s c z.hart y.1 → y.2 < z.cycle) := by
    unfold mayHold
    simp only [Bool.and_eq_true, List.any_eq_true, sameInstance_iff, decide_eq_true_eq]
    push Not
    rfl
  unfold mayPrecede Precedes pcnOf
  rw [Bool.and_eq_true, Bool.not_eq_true', ← Bool.not_eq_true, List.contains_iff_mem]
  refine and_congr Iff.rfl ?_
  split
  · rw [Bool.not_eq_true']
  · rw [Bool.not_eq_true', List.any_eq_false]
    exact forall₂_congr fun z _ => (not_congr (holds z)).trans not_not

section
variable (low : k < 0x10000000000) (aligned : k % 32 = 0)
include low aligned

theorem metBefore_eq (e : Entry) : metBefore s c e old (k / 32) =
    if k / 32 ∈ old then (beforeOf s (k / 0x800000) (k % 0x800000 / 32)).filter (mayPrecede s c e.acquired) else none := by
  have dram : isDram (k / 32 * 32) = true := decide_eq_true (by omega)
  unfold metBefore
  rw [dram, Bool.and_true, show k / 32 / 0x40000 = k / 0x800000 by omega, show k / 32 % 0x40000 = k % 0x800000 / 32 by omega]
  simp only [List.contains_iff_mem]

section
variable (before : (s.bank (k / 0x800000)).before = [(k % 0x800000 / 32, x)])
include before

omit low aligned in
theorem beforeOf_one : beforeOf s (k / 0x800000) (k % 0x800000 / 32) = some x := by
  unfold beforeOf
  rw [before, List.find?_cons_of_pos (by exact decide_eq_true rfl)]
  rfl

theorem metBefore_some (may : k / 32 ∈ old ∧ Precedes s c e.acquired x) : metBefore s c e old (k / 32) = some x := by
  rw [metBefore_eq low aligned, if_pos may.1, beforeOf_one before, Option.filter_some, if_pos (mayPrecede_iff.2 may.2)]

theorem metBefore_none (may : ¬(k / 32 ∈ old ∧ Precedes s c e.acquired x)) : metBefore s c e old (k / 32) = none := by
  rw [metBefore_eq low aligned]
  split
  · next among =>
    rw [beforeOf_one before, Option.filter_some, if_neg fun precedes => may ⟨among, mayPrecede_iff.1 precedes⟩]
  · rfl

end

theorem metBefore_unlisted (unlisted : (s.bank (k / 0x800000)).before = []) (e : Entry) : metBefore s c e old (k / 32) = none := by
  rw [metBefore_eq low aligned, beforeOf_unlisted (by rw [unlisted]; nofun)]
  exact ite_self _

end

/-! ### Columns read (R180, R286, R294) -/

section
variable (get : e.kind = .get) (low : k < 0x10000000000) (aligned : k % 32 = 0) (sound : Sound s (k / 0x800000) (k % 0x800000 / 32)) (o : Nat)
include get low aligned sound

/-- The state once a column has been read for an entry of context `c`. -/
def columnRead (c k : Nat) (s : State) : State := chargeDram c 32 (modBank (k / 0x800000) (countReq (k % 0x800000 / 32)) s)

theorem readUnit_before (met : metBefore s c e old (k / 32) = some x) (long : x.bytes.length = 32) :
    readUnit c e old (o, k, 32) s = (x.bytes, columnRead c k s) := by
  unfold readUnit
  dsimp only
  rw [show isDram k = true from decide_eq_true low, if_neg (by decide), readCol_sound sound, met]
  dsimp only
  rw [aligned, if_neg (by rw [get]; decide), List.drop_zero, List.take_of_length_le (Nat.le_of_eq long)]
  rfl

theorem readUnit_now (met : metBefore s c e old (k / 32) = none) : readUnit c e old (o, k, 32) s =
    (memBytes s k 32, meet (engineOf s c) (k / 0x800000) (k % 0x800000 / 32) (columnRead c k s)) := by
  unfold readUnit
  dsimp only
  rw [show isDram k = true from decide_eq_true low, if_neg (by decide), readCol_sound sound, met]
  dsimp only
  rw [aligned, if_pos (by rw [get]; decide), List.drop_zero, colKey_of_aligned aligned]
  have whole : (readBytes s.mem k 32).take 32 = readBytes s.mem k 32 := List.take_of_length_le (by simp [readBytes])
  rw [whole]
  rfl

end

theorem columnRead_before (c k : Nat) (s : State) (x : Nat) : ((columnRead c k s).bank x).before = (s.bank x).before := by
  unfold columnRead
  rw [chargeDram_bank, before_countReq]

theorem columnRead_ctx (c k : Nat) (s : State) (x : Nat) : (columnRead c k s).ctx x = s.ctx x := chargeDram_ctx ..
theorem columnRead_mem (c k : Nat) (s : State) : (columnRead c k s).mem = s.mem := chargeDram_mem ..

/-- R196: a cluster has met the only column that is remembered. -/
theorem meet_one (before : (s.bank g).before = [(col, x)]) :
    ((meet q g col s).bank g).before = [(col, { x with met := if q ∈ x.met then x.met else q :: x.met })] := by
  have found : beforeOf s g col = some x := by
    unfold beforeOf
    rw [before, List.find?_cons_of_pos (by exact decide_eq_true rfl)]
    rfl
  unfold meet
  rw [found]
  dsimp only
  by_cases met : q ∈ x.met
  · rw [if_pos (List.contains_iff_mem.2 met), if_pos met, before]
  · rw [if_neg (fun h => met (List.contains_iff_mem.1 h)), if_neg met, modBank_self, before]
    show tput [(col, x)] col _ = _
    simp [tput, tdel, tins]

/-! ### Columns written (R69, R294, R381) -/

theorem physWrite_column (low : k < 0x10000000000) (aligned : k % 32 = 0) (long : l.length = 32) (src : Nat) :
    physWrite k l src s = (none, writeCol (k / 0x800000) (k % 0x800000 / 32) l s) := by
  have dram : isDram k = true := decide_eq_true low
  unfold physWrite
  rw [if_pos dram, if_neg (by rw [List.isEmpty_iff_length_eq_zero]; omega), long, show (k + 32 - 1) / 32 - k / 32 + 1 = 1 by omega]
  show (match mergeCol ((k / 32 + 0) / 0x40000) ((k / 32 + 0) % 0x40000) (if (k / 32 + 0) * 32 < k then k - (k / 32 + 0) * 32 else 0) _ _ _ with
    | (true, s) => (none, s)
    | (false, s) => _) = _
  rw [if_neg (by omega), Nat.add_zero, show k / 32 * 32 + 0 - k = 0 by omega, show min 32 (k + 32 - k / 32 * 32) - 0 = 32 by omega, List.drop_zero,
    List.take_of_length_le (by omega), show k / 32 / 0x40000 = k / 0x800000 by omega, show k / 32 % 0x40000 = k % 0x800000 / 32 by omega]
  unfold mergeCol
  rw [if_pos long]

/-- R208, R381: what a PUT of context `c` replaces in a column without damage. -/
def putOver (s : State) (c k : Nat) : Before :=
  { cid := c, bytes := memBytes s k 32, mdata := metaAt s (k / 0x800000) (k % 0x800000 / 32), data := false, fenced := true
    cover := [{ scope := 4, cycle := s.gtime, hart := c }], met := [(s.ctx c).gcn / 8] }

/-- The state once a column has been written for an entry of context `c`. -/
def columnWritten (c k : Nat) (l : List Byte) (s : State) : State :=
  chargeDram c 32 (putBefore c [engineOf s c] (k / 0x800000) (k % 0x800000 / 32) s (writeCol (k / 0x800000) (k % 0x800000 / 32) l s))

theorem putBefore_banks (met : List Nat) (g col : Nat) (s t : State) : ∃ bs, putBefore c met g col s t = { t with banks := bs } := by
  unfold putBefore
  split
  · exact ⟨_, rfl⟩
  · exact ⟨_, rfl⟩

theorem columnWritten_device (c k : Nat) (l : List Byte) (s : State) :
    ∃ m bs os, columnWritten c k l s = { s with mem := m, banks := bs, owners := os } := by
  obtain ⟨⟨m, bs, wrote⟩, -⟩ := accessed_writeCol (k / 0x800000) (k % 0x800000 / 32) l s
  unfold columnWritten
  obtain ⟨bs', put⟩ := putBefore_banks (c := c) [engineOf s c] (k / 0x800000) (k % 0x800000 / 32) s (writeCol (k / 0x800000) (k % 0x800000 / 32) l s)
  obtain ⟨os, charged⟩ := chargeDram_owners c 32 (putBefore c [engineOf s c] (k / 0x800000) (k % 0x800000 / 32) s (writeCol (k / 0x800000) (k % 0x800000 / 32) l s))
  rw [charged, put, wrote]
  exact ⟨_, _, _, rfl⟩

theorem columnWritten_mem (aligned : k % 32 = 0) (c : Nat) (l : List Byte) (s : State) : (columnWritten c k l s).mem = writeBytes s.mem k l := by
  unfold columnWritten
  obtain ⟨bs', put⟩ := putBefore_banks (c := c) [engineOf s c] (k / 0x800000) (k % 0x800000 / 32) s (writeCol (k / 0x800000) (k % 0x800000 / 32) l s)
  rw [chargeDram_mem, put]
  exact (writeCol_mem ..).trans (by rw [colKey_of_aligned aligned])

theorem columnWritten_before (aligned : k % 32 = 0) (sound : Sound s (k / 0x800000) (k % 0x800000 / 32)) (c : Nat) (l : List Byte) :
    ((columnWritten c k l s).bank (k / 0x800000)).before =
      tput (tdel (s.bank (k / 0x800000)).before (k % 0x800000 / 32)) (k % 0x800000 / 32) (putOver s c k) := by
  unfold columnWritten
  rw [chargeDram_bank, putBefore, heldBefore_sound sound, colKey_of_aligned aligned]
  dsimp only
  rw [modBank_self]
  dsimp only
  rw [writeCol_before, if_pos rfl]
  rfl

theorem inMemory_column (here : w.ctx = none) (low : w.addr < 0x10000000000) : inMemory w = true := by
  unfold inMemory Config.sramBase
  rw [here]
  exact decide_eq_true (by omega)

section
variable (here : w.ctx = none) (data : w.mdata = false) (low : w.addr < 0x10000000000) (aligned : w.addr % 32 = 0) (long : w.bytes.length = 32)
include here data low aligned long

/-- R69: a column goes into memory. -/
theorem writeLate_column (met : (metBefore s c e old (w.addr / 32)).filter (·.data) = none) :
    writeLate c e old w s = (true, columnWritten c w.addr w.bytes s) := by
  unfold writeLate
  rw [if_pos (inMemory_column here low)]
  unfold writeUnit
  dsimp only
  rw [show isDram w.addr = true from decide_eq_true low, if_neg (by decide), data, if_neg (by decide), met]
  dsimp only
  rw [physWrite_column low aligned long, long, if_pos rfl]
  rfl

/-- R294: a column goes before the bank command that has replaced its data. -/
theorem writeLate_before (met : (metBefore s c e old (w.addr / 32)).filter (·.data) = some x) (whole : x.bytes.length = 32) :
    writeLate c e old w s = (true, chargeDram c 32 (modBank (w.addr / 0x800000) (fun b => { b with
      before := tput b.before (w.addr % 0x800000 / 32) { x with bytes := w.bytes } }) s)) := by
  unfold writeLate
  rw [if_pos (inMemory_column here low)]
  unfold writeUnit
  dsimp only
  rw [show isDram w.addr = true from decide_eq_true low, if_neg (by decide), data, if_neg (by decide), met]
  dsimp only
  rw [long, if_pos rfl, aligned, List.take_zero, List.nil_append, Nat.zero_add, ← whole, List.drop_length, List.append_nil]

end

/-! ### Segments in device DRAM (R175, R331, R381) -/

/-- The oldest entry of a queue, a PUT or GET of m columns in one piece, has moved nothing yet. -/
structure ColumnSegment (s : State) (c : Nat) (e : Entry) (r : List Entry) (p : Piece) (m : Nat) : Prop where
  oldest : Oldest s c e r
  image : (s.ctx c).image = none
  going : e.failed = none
  start : e.pos = 0
  held : e.hold = []
  quiet : e.inFlight = []
  fresh : e.early = []
  some_ : 0 < m
  length : e.len = 32 * m
  virtual : e.far.getLsbD 63 = false
  short : e.far.toNat % 32 + e.len ≤ 4096
  inside : e.loc.toNat + e.len ≤ 0x8000
  part : e.part = [p]
  all : p.len = e.len
  whole : WholeColumns p m
  turn : dmaTurn s c e = true
  calm : cool s = true

theorem sourceBytes_fresh (fresh : e.early = []) (k n : Nat) : sourceBytes s e k 0 n = memBytes s k n := by
  unfold sourceBytes memBytes
  rw [fresh]
  rfl

/-- What a PUT of whole columns writes. -/
def columnWrites (s : State) (p : Piece) (near m : Nat) : List LateWord :=
  (List.range m).map fun j => { ctx := none, addr := columnOf p j, bytes := memBytes s (near + 32 * j) 32, off := 32 * j }

/-- R175, R331: the last segment of a PUT to memory. -/
theorem moveSegment_columns {b : List Byte} {runs : List (Nat × Nat)} (put : e.kind = .put) (read : readLocalEnd s c e n = (b, []))
    (rest : e.len = e.pos + n) (held : e.hold = []) (later : Bool) (old : List Nat) : moveSegment c later old e (.phys runs) n s =
      if later then setEntry c (movedEntry e (unitWrites e b runs)) s
      else let (l, t) := writeAll c { e with started := true } old (unitWrites e b runs) s
        afterWrites c (movedEntry e []) l t := by
  have plain : farPer e.kind = 1 := by rw [put]; rfl
  have read' : readLocalEnd s c { e with started := true } n = (b, []) := read
  unfold moveSegment
  dsimp only
  rw [put]
  dsimp only
  rw [← put, read', plain, ← rest, Nat.div_one, List.length_nil, Nat.add_zero]
  unfold movedEntry
  rw [held, List.append_nil]
  rfl

namespace ColumnSegment
variable (seg : ColumnSegment s c e r p m)
include seg

theorem far {store : Bool} : farOf s c e store = some (.phys (runs p 0 e.len), e.len) :=
  farOf_columns seg.whole seg.virtual seg.start seg.part seg.all (by have := seg.some_; have := seg.length; omega) seg.short

theorem left : e.pos < e.len := by
  have := seg.some_
  have := seg.length
  have := seg.start
  omega

theorem units : runUnits e.pos (runs p 0 e.len) = (List.range m).map fun j => (32 * j, columnOf p j, 32) := by
  have found := seg.whole.units (b := 0) seg.some_ (Nat.le_of_eq (Nat.zero_add m)) 0
  simp only [Nat.zero_add, Nat.mul_zero] at found
  rw [seg.start, seg.length, found]

/-- R175: a PUT of columns reads its bytes from the scratchpad. -/
theorem exec_put (put : e.kind = .put) (moves : lands e s.choice.pick = false) (low : s.choice.pick < 2) :
    exec (.putgetSegment c e.eid) s = .next (Machine.served c e.eid (if s.choice.pick = 1
      then setEntry c (movedEntry e (columnWrites s p (keyOf s c e.loc) m)) s
      else let (l, t) := writeAll c { e with started := true } s.choice.old (columnWrites s p (keyOf s c e.loc) m) s
        afterWrites c (movedEntry e []) l t)) := by
  have plain : farPer e.kind = 1 := by rw [put]; rfl
  have rest : e.len = e.pos + e.len := by rw [seg.start, Nat.zero_add]
  have some_ := seg.left
  have inside := seg.inside
  have read : readLocalEnd s c e e.len = (memBytes s (keyOf s c e.loc) e.len, []) := by
    have extra := extraBytes_last rest
    refine (readLocalEnd_here plain seg.held seg.image (by omega) (by rw [extra, seg.start]; omega)).trans ?_
    rw [extra, seg.start, sourceBytes_fresh seg.fresh]
    rfl
  have writes : unitWrites e (memBytes s (keyOf s c e.loc) e.len) (runs p 0 e.len) = columnWrites s p (keyOf s c e.loc) m := by
    unfold unitWrites columnWrites
    rw [seg.units, List.map_map]
    refine List.map_congr_left fun j hj => ?_
    rw [List.mem_range] at hj
    have bytes : ((memBytes s (keyOf s c e.loc) e.len).drop (32 * j)).take 32 = memBytes s (keyOf s c e.loc + 32 * j) 32 :=
      drop_take_readBytes _ _ (by rw [seg.length]; omega)
    unfold nearBytes
    simp only [Function.comp_apply, plain, seg.start, Nat.sub_zero, Nat.div_one]
    rw [if_neg (by rw [put]; decide), bytes, put]
    rfl
  rw [exec_segment_moves seg.oldest (by rw [put]; decide) (by rw [put]; decide) seg.going seg.left moves seg.far low seg.turn seg.calm,
    moveSegment_columns put read rest seg.held, writes]
  simp only [decide_eq_true_eq]

omit seg in
theorem readUnits_one (fresh : e.early = []) (u : Nat × Nat × Nat) : readUnits c e old [u] s = readUnit c e old u s := by
  unfold readUnits
  rw [fresh]
  show ((readUnit c e old u s).1 ++ [], (readUnit c e old u s).2) = _
  rw [List.append_nil]

omit seg in
theorem moveSegment_reads {runs : List (Nat × Nat)} (get : e.kind = .get) (later : Bool) (old : List Nat) : moveSegment c later old e (.phys runs) n s =
    writeLocalEnd c later e (readUnits c { e with started := true } old (runUnits e.pos runs) s).1
      (readUnits c { e with started := true } old (runUnits e.pos runs) s).2 := by
  unfold moveSegment
  dsimp only
  rw [get]
  dsimp only
  rw [← get]
  rfl

theorem partStop : partStop e = e.len := by
  unfold Machine.partStop
  rw [seg.part, List.map_singleton, List.find?_singleton, seg.whole.off, Nat.zero_add, seg.all]
  split
  · rfl
  · rfl

/-- R72: the unit that holds column j of the far end. -/
theorem unitAt {j : Nat} (hj : j < m) : unitAt e (32 * j) = some (32 * j, columnOf p j, 32) := by
  have length := seg.length
  have all := seg.all
  have aligned := seg.whole.aligned
  have here : p.off ≤ 32 * j ∧ 32 * j < p.off + p.len := by
    rw [seg.whole.off]
    omega
  unfold Machine.unitAt
  rw [seg.part, List.find?_cons_of_pos (by exact decide_eq_true here), Option.bind_some, seg.whole.off]
  dsimp only
  rw [Nat.sub_zero, Nat.zero_add, Nat.zero_max, all, length]
  generalize near : (p.poff + 32 * j) % 128 = o
  have start : 32 * j - o = 32 * ((32 * j - o) / 32) := by omega
  have count : min (32 * m) (32 * j + (128 - o)) - (32 * j - o) = 32 * ((min (32 * m) (32 * j + (128 - o)) - (32 * j - o)) / 32) := by omega
  generalize (min (32 * m) (32 * j + (128 - o)) - (32 * j - o)) / 32 = n at count
  generalize (32 * j - o) / 32 = b at start
  have units := seg.whole.units (b := b) (n := n) (by omega) (by omega) (32 * b)
  rw [count, start, units, List.find?_map]
  have found : (List.range n).find? ((fun u => decide (u.1 ≤ 32 * j ∧ 32 * j < u.1 + u.2.2)) ∘ fun i => (32 * b + 32 * i, columnOf p (b + i), 32)) =
      some (j - b) := by
    rw [List.find?_range_eq_some]
    refine ⟨decide_eq_true ⟨by dsimp only; omega, by dsimp only; omega⟩, List.mem_range.2 (by omega), fun i hi => ?_⟩
    simp only [Function.comp_apply, Bool.not_eq_true', decide_eq_false_iff_not]
    omega
  rw [found, Option.map_some, show 32 * b + 32 * (j - b) = 32 * j by omega, show b + (j - b) = j by omega]

/-- R294, R381: a column of the source of a GET is read ahead. -/
theorem exec_get_ahead {j : Nat} (get : e.kind = .get) (hj : j < m) (ahead : s.choice.pick = 2 * (32 * j) + 2) {b : List Byte}
    (read : readUnit c e s.choice.old (32 * j, columnOf p j, 32) s = (b, t)) :
    exec (.putgetSegment c e.eid) s = .next (setEntry c { e with
      started := true, early := b.zipIdx.foldl (fun l x => tput l (32 * j + x.2) x.1) e.early } t) := by
  have length := seg.length
  rw [exec_segment_ahead seg.oldest (by rw [get]; decide) (by rw [get]; decide) seg.going seg.left (by rw [ahead]; exact lands_even ..)
    (by rw [decide_eq_false (by rw [get]; decide)]; exact seg.far) ahead]
  refine congrArg Host.Outcome.next ?_
  have unit : sourceAhead c e (.phys (runs p 0 e.len)) s.choice.old (32 * j) s = unitAhead c e s.choice.old (32 * j) s := by
    unfold sourceAhead
    rw [get, seg.start, Nat.zero_add]
  rw [unit]
  unfold unitAhead
  rw [seg.unitAt hj]
  dsimp only
  rw [seg.partStop, seg.start, seg.fresh, if_neg (by simp [earlyAt]; omega), gate_cool seg.calm, read]

end ColumnSegment

/-- R175, R331: a GET of one column moves it. -/
theorem ColumnSegment.exec_get (seg : ColumnSegment s c e r p 1) (get : e.kind = .get) (moves : lands e s.choice.pick = false) (pick : s.choice.pick = 0)
    {b : List Byte} (read : readUnit c { e with started := true } s.choice.old (0, columnOf p 0, 32) s = (b, t)) (long : b.length = 32)
    (same : t.ctx c = s.ctx c) :
    exec (.putgetSegment c e.eid) s = .next (Machine.served c e.eid (setEntry c (movedEntry e []) (filledWith (keyOf s c e.loc) b t))) := by
  have length := seg.length
  have start := seg.start
  have some_ : 0 < b.length := by omega
  have rest : e.len = e.pos + b.length := by omega
  have units := seg.units
  rw [List.range_one, List.map_singleton, Nat.mul_zero] at units
  rw [exec_segment_moves seg.oldest (by rw [get]; decide) (by rw [get]; decide) seg.going seg.left moves
    (by rw [decide_eq_false (by rw [get]; decide)]; exact seg.far) (by omega) seg.turn seg.calm, moveSegment_reads get, units,
    readUnits_one (e := { e with started := true }) seg.fresh, read, decide_eq_false (by omega)]
  dsimp only
  rw [writeLocalEnd_last get seg.held seg.quiet rest some_, if_neg (by decide), if_neg (by decide), start, Nat.add_zero,
    writeLocal_here (by rw [same]; exact seg.image), same]
  rfl

end Sys2Proof.Claim
end

section
/-! SUPPORT. Transfers of columns that a write without a fence has overwritten (R208, R294, R381). -/

namespace Sys2Proof.Claim
open Sys2Proof.Machine

variable {s t u : State} {c i k m : Nat} {e : Entry} {r : List Entry} {p : Piece} {b : List Byte} {old : List Nat} {x : Before} {w : LateWord}

theorem Written.congr (written : Written u t k b) (same : u.mem = s.mem) : Written s t k b := fun a => (written a).trans (by rw [same])

theorem served_bank (c n : Nat) (e : Entry) (s : State) (g : Nat) : (Machine.served c n (setEntry c e s)).bank g = s.bank g := rfl
theorem served_mem (c n : Nat) (e : Entry) (s : State) : (Machine.served c n (setEntry c e s)).mem = s.mem := rfl
theorem Written.served (written : Written s t k b) (c n : Nat) (e : Entry) : Written s (Machine.served c n (setEntry c e t)) k b := written
theorem filledWith_bank (k : Nat) (b : List Byte) (s : State) (g : Nat) : (filledWith k b s).bank g = s.bank g := rfl

/-! ### One column (R208, R294) -/

/-- What a PUT of one column writes. -/
def onlyWrite (s : State) (p : Piece) (near : Nat) : LateWord := { ctx := none, addr := columnOf p 0, bytes := memBytes s near 32 }

namespace ColumnSegment

/-- R175, R331: a PUT of one column moves it. -/
theorem exec_put_one (seg : ColumnSegment s c e r p 1) (written : e.late = []) (pick : s.choice.pick = 0) (put : e.kind = .put)
    (wrote : writeLate c { e with started := true } s.choice.old (onlyWrite s p (keyOf s c e.loc)) s = (true, t)) (low : columnOf p 0 < 0x10000000000) :
    exec (.putgetSegment c e.eid) s = .next (Machine.served c e.eid (setEntry c { movedEntry e [] with late := [] } t)) := by
  have only : columnWrites s p (keyOf s c e.loc) 1 = [onlyWrite s p (keyOf s c e.loc)] := rfl
  rw [seg.exec_put put (by rw [pick]; exact lands_none written) (by omega), if_neg (by omega), only, writeAll, wrote]
  dsimp only
  rw [if_pos (inMemory_column rfl low), writeAll]
  rfl

section
variable (seg : ColumnSegment s c e r p 1) (written : e.late = []) (pick : s.choice.pick = 0) (here : columnOf p 0 = k) (low : k < 0x10000000000)
  (aligned : k % 32 = 0) (sound : Sound s (k / 0x800000) (k % 0x800000 / 32)) (before : (s.bank (k / 0x800000)).before = [(k % 0x800000 / 32, x)])
include seg written pick here low aligned sound before

/-- R294: a GET that may come before the write delivers what the column held. -/
theorem get_before (long : x.bytes.length = 32) (get : e.kind = .get) (may : k / 32 ∈ s.choice.old ∧ Precedes s c e.acquired x) :
    ∃ t, exec (.putgetSegment c e.eid) s = .next t ∧ Written s t (keyOf s c e.loc) x.bytes ∧
      (t.bank (k / 0x800000)).before = [(k % 0x800000 / 32, x)] := by
  subst here
  have read := readUnit_before (e := { e with started := true }) get low aligned sound 0 (metBefore_some low aligned before may) long
  refine ⟨_, seg.exec_get get (by rw [pick]; exact lands_none written) pick read long (columnRead_ctx ..), ?_, ?_⟩
  · exact (Written.congr (filledWith_written _ _) (columnRead_mem ..)).served _ _ _
  · rw [served_bank, filledWith_bank, columnRead_before, before]

/-- R196: a GET of the column as it is ends that for its cluster. -/
theorem get_now (get : e.kind = .get) (may : ¬(k / 32 ∈ s.choice.old ∧ Precedes s c e.acquired x)) :
    ∃ t, exec (.putgetSegment c e.eid) s = .next t ∧ Written s t (keyOf s c e.loc) (memBytes s k 32) ∧ (t.bank (k / 0x800000)).before =
      [(k % 0x800000 / 32, { x with met := if (s.ctx c).gcn / 8 ∈ x.met then x.met else (s.ctx c).gcn / 8 :: x.met })] := by
  subst here
  have read := readUnit_now (e := { e with started := true }) get low aligned sound 0 (metBefore_none low aligned before may)
  have met := OnlyBanks.meet (engineOf s c) (columnOf p 0 / 0x800000) (columnOf p 0 % 0x800000 / 32) (columnRead c (columnOf p 0) s)
  refine ⟨_, seg.exec_get get (by rw [pick]; exact lands_none written) pick read (by simp [memBytes]) ?_, ?_, ?_⟩
  · obtain ⟨bs, same⟩ := met
    rw [same]
    exact columnRead_ctx ..
  · refine (Written.congr (filledWith_written _ _) ?_).served _ _ _
    obtain ⟨bs, same⟩ := met
    rw [same]
    exact columnRead_mem ..
  · rw [served_bank, filledWith_bank]
    exact meet_one ((columnRead_before ..).trans before)

omit sound in
/-- R294: a PUT that may come before a bank command lands before it. -/
theorem put_before (long : x.bytes.length = 32) (put : e.kind = .put) (may : k / 32 ∈ s.choice.old ∧ Precedes s c e.acquired x) (data : x.data = true) :
    ∃ t, exec (.putgetSegment c e.eid) s = .next t ∧ t.mem = s.mem ∧
      (t.bank (k / 0x800000)).before = [(k % 0x800000 / 32, { x with bytes := memBytes s (keyOf s c e.loc) 32 })] := by
  subst here
  have met : (metBefore s c { e with started := true } s.choice.old (columnOf p 0 / 32)).filter (·.data) = some x := by
    rw [metBefore_some low aligned before (e := { e with started := true }) may, Option.filter_some, if_pos data]
  have wrote := writeLate_before (w := onlyWrite s p (keyOf s c e.loc)) rfl rfl low aligned (by simp [onlyWrite, memBytes]) met long
  refine ⟨_, seg.exec_put_one written pick put wrote low, (served_mem ..).trans (chargeDram_mem ..), ?_⟩
  rw [served_bank, onlyWrite]
  dsimp only
  rw [chargeDram_bank, modBank_self, before]
  simp [tput, tdel, tins]

/-- R69, R381: another PUT lands in the column as it is, which stays known as it was. -/
theorem put_now (put : e.kind = .put) (may : ¬((k / 32 ∈ s.choice.old ∧ Precedes s c e.acquired x) ∧ x.data = true)) :
    ∃ t, exec (.putgetSegment c e.eid) s = .next t ∧ Written s t k (memBytes s (keyOf s c e.loc) 32) ∧
      (t.bank (k / 0x800000)).before = [(k % 0x800000 / 32, putOver s c k)] := by
  subst here
  have met : (metBefore s c { e with started := true } s.choice.old (columnOf p 0 / 32)).filter (·.data) = none := by
    by_cases old : columnOf p 0 / 32 ∈ s.choice.old ∧ Precedes s c e.acquired x
    · rw [metBefore_some low aligned before (e := { e with started := true }) old, Option.filter_some, if_neg fun data => may ⟨old, data⟩]
    · rw [metBefore_none low aligned before (e := { e with started := true }) old]
      rfl
  have wrote := writeLate_column (w := onlyWrite s p (keyOf s c e.loc)) rfl rfl low aligned (by simp [onlyWrite, memBytes]) met
  refine ⟨_, seg.exec_put_one written pick put wrote low, (written_writeBytes (columnWritten_mem aligned ..)).served _ _ _, ?_⟩
  rw [served_bank]
  refine (columnWritten_before aligned sound ..).trans ?_
  rw [before]
  simp [tput, tdel, tins]

end

/-! ### Columns in any order (R381) -/

/-- An entry that has read bytes from place `o` of its source ahead. -/
def aheadEntry (e : Entry) (o : Nat) (b : List Byte) : Entry :=
  { e with started := true, early := b.zipIdx.foldl (fun l x => tput l (o + x.2) x.1) e.early }

section
variable (seg : ColumnSegment s c e r p m)
include seg

/-- R381: a PUT leaves what it writes. -/
theorem put_later (put : e.kind = .put) (pick : s.choice.pick = 1) : ∃ t, exec (.putgetSegment c e.eid) s = .next t ∧ t.mem = s.mem ∧
    (t.ctx c).eng.q = { e with started := true, pos := e.len, late := e.late ++ columnWrites s p (keyOf s c e.loc) m } :: r := by
  have run := seg.exec_put put (by rw [pick]; exact lands_one e) (by omega)
  rw [if_pos pick] at run
  have moved : movedEntry e (columnWrites s p (keyOf s c e.loc) m) =
      { e with started := true, pos := e.len, late := e.late ++ columnWrites s p (keyOf s c e.loc) m } := by
    unfold movedEntry
    rw [seg.fresh]
    rfl
  rw [moved] at run
  exact ⟨_, run, rfl, seg.oldest.queue_setEntry rfl⟩

/-- R381: a column of the source of a GET is read ahead. -/
theorem get_ahead {j : Nat} (get : e.kind = .get) (hj : j < m) (ahead : s.choice.pick = 2 * (32 * j) + 2)
    (sound : Sound s (columnOf p j / 0x800000) (columnOf p j % 0x800000 / 32)) (unlisted : ∀ g, (s.bank g).before = []) :
    ∃ t e', exec (.putgetSegment c e.eid) s = .next t ∧ t.mem = s.mem ∧ (t.ctx c).eng.q = e' :: r ∧ { e' with early := [] } = { e with started := true } ∧
      ∀ i d, tget e'.early i d = if 32 * j ≤ i ∧ i < 32 * j + 32 then readByte s.mem (columnOf p j + (i - 32 * j)) else d := by
  obtain ⟨low, aligned⟩ := seg.whole.columns j hj
  have read := readUnit_now get low aligned sound (32 * j) (metBefore_unlisted (old := s.choice.old) (c := c) low aligned (unlisted _) e)
  obtain ⟨bs, met⟩ := OnlyBanks.meet (engineOf s c) (columnOf p j / 0x800000) (columnOf p j % 0x800000 / 32) (columnRead c (columnOf p j) s)
  refine ⟨_, aheadEntry e (32 * j) (memBytes s (columnOf p j) 32), seg.exec_get_ahead get hj ahead read, ?_, ?_, ?_, fun i d => ?_⟩
  · show (meet _ _ _ _).mem = _
    rw [met]
    exact columnRead_mem ..
  · refine Oldest.queue_setEntry (seg.oldest.congr ?_) rfl
    rw [met]
    exact congrArg (·.eng) (columnRead_ctx ..)
  · show ({ e with started := true, early := [] } : Entry) = { e with started := true }
    rw [← seg.fresh]
  · unfold aheadEntry
    dsimp only
    rw [tget_zipIdx_tput, seg.fresh, Nat.add_zero, show (memBytes s (columnOf p j) 32).length = 32 by simp [memBytes]]
    split
    · exact getD_readBytes _ _ (by omega)
    · rfl

end

end ColumnSegment

/-- R381: a column that a PUT has left is written. -/
theorem landLate_column (listed : e.late[i]? = some w) (here : w.ctx = none) (new : w.bit = false) (data : w.mdata = false)
    (low : w.addr < 0x10000000000) (aligned : w.addr % 32 = 0) (long : w.bytes.length = 32) (unlisted : ∀ g, (s.bank g).before = [])
    (calm : cool s = true) : landLate c e old (2 * i + 3) s = setEntry c { e with late := e.late.eraseIdx i } (columnWritten c w.addr w.bytes s) := by
  have memory := inMemory_column here low
  have free : lateBusy s c w = false := by
    unfold lateBusy
    rw [memory]
    simp
  have met : (metBefore s c e old (w.addr / 32)).filter (·.data) = none := by
    rw [metBefore_unlisted low aligned (unlisted _)]
    rfl
  unfold landLate
  rw [if_neg (by omega), show (2 * i + 3) / 2 - 1 = i by omega]
  dsimp only
  rw [listed]
  refine (if_neg (by rw [free]; decide)).trans ((if_neg (by rw [new]; decide)).trans ((gate_cool calm _ _).trans ?_))
  rw [writeLate_column here data low aligned long met]
  exact congrArg (fun l => setEntry c { e with late := l } _) (if_pos memory)

/-- R381: the columns of a PUT are written one at a time. -/
theorem exec_lands_column (oldest : Oldest s c e r) (put : e.kind = .put) (listed : e.late[i]? = some w) (pick : s.choice.pick = 2 * i + 3)
    (here : w.ctx = none) (new : w.bit = false) (data : w.mdata = false) (low : w.addr < 0x10000000000) (aligned : w.addr % 32 = 0)
    (long : w.bytes.length = 32) (unlisted : ∀ g, (s.bank g).before = []) (calm : cool s = true) :
    ∃ t, exec (.putgetSegment c e.eid) s = .next t ∧ Written s t w.addr w.bytes ∧ (t.ctx c).eng.q = { e with late := e.late.eraseIdx i } :: r := by
  have run := exec_lands (x := .putgetSegment c e.eid) oldest (by rw [pick]; exact lands_odd e i)
    (.inl ⟨rfl, by rw [put]; decide, by rw [put]; decide⟩)
  rw [pick, landLate_column listed here new data low aligned long unlisted calm] at run
  refine ⟨_, run, written_writeBytes (columnWritten_mem aligned ..), Oldest.queue_setEntry (oldest.congr ?_) rfl⟩
  obtain ⟨mem, bs, os, same⟩ := columnWritten_device c w.addr w.bytes s
  rw [same]
  rfl

end Sys2Proof.Claim
end

section
open Sys2Proof Sys2Proof.Machine Sys2Proof.Claim

/-- R293, R294, R381: what a BKCOPY or a PUT has overwritten stays known, and columns move in any order. -/
theorem Sys2Proof.Claim.unfencedColumns : Claim.UnfencedColumns := by
  unfold Claim.UnfencedColumns
  refine ⟨?copied, ?one, ?many, ?landed⟩
  case copied =>
    intro s c k r src db dst n turn kind left _ _ _
    dsimp only
    intro slot calm source sound unlisted
    exact copiedColumn turn kind left slot calm source sound unlisted
  case one =>
    intro s c e r p x _ oldest image going start held quiet fresh written pick length virtual inside part off all poff
    dsimp only
    intro low below aligned turn _ calm sound before long
    have whole : WholeColumns p 1 := ⟨off, poff, low, fun j hj => by
      obtain rfl : j = 0 := by omega
      exact ⟨below, aligned⟩⟩
    have seg : ColumnSegment s c e r p 1 := ⟨oldest, image, going, start, held, quiet, fresh, Nat.one_pos, length, virtual, by omega, by omega, part,
      all.trans length.symm, whole, turn, calm⟩
    refine ⟨fun get => ?_, fun put => ?_⟩
    · by_cases may : pageToPhys p.poff p.base p.il / 32 ∈ s.choice.old ∧ Precedes s c e.acquired x
      · obtain ⟨t, run, bytes, known⟩ := seg.get_before written pick rfl below aligned sound before long get may
        exact ⟨t, run, fun _ => ⟨bytes, known⟩, fun now => absurd may now⟩
      · obtain ⟨t, run, bytes, known⟩ := seg.get_now written pick rfl below aligned sound before get may
        exact ⟨t, run, fun old => absurd old may, fun _ => ⟨bytes, known⟩⟩
    · by_cases may : (pageToPhys p.poff p.base p.il / 32 ∈ s.choice.old ∧ Precedes s c e.acquired x) ∧ x.data = true
      · obtain ⟨t, run, mem, known⟩ := seg.put_before written pick rfl below aligned before long put may.1 may.2
        exact ⟨t, run, fun _ => ⟨mem, known⟩, fun now => absurd may now⟩
      · obtain ⟨t, run, bytes, known⟩ := seg.put_now written pick rfl below aligned sound before put may
        exact ⟨t, run, fun old => absurd old may, fun _ => ⟨bytes, known⟩⟩
  case many =>
    intro s c e r p m _ oldest image going start held quiet fresh some_ most length virtual far inside part off all poff low
    dsimp only
    intro columns turn calm
    have seg : ColumnSegment s c e r p m := ⟨oldest, image, going, start, held, quiet, fresh, some_, length, virtual, by omega, inside, part, all,
      ⟨off, poff, low, columns⟩, turn, calm⟩
    exact ⟨seg.put_later, fun j hj get ahead sound unlisted => seg.get_ahead get hj ahead sound unlisted⟩
  case landed =>
    intro s c e r i w _ oldest put listed pick here new data low aligned long unlisted calm
    exact exec_lands_column oldest put listed pick here new data low aligned long unlisted calm

/-- Settles O45: one rule per kind of move of a segment, at its turn and with its ends free, from the oldest entry of a queue; the columns of a
part are its units, and each is read or written as what is remembered of it allows. -/
theorem segments : Obligations.Segments := by
  unfold Obligations.Segments
  exact ⟨sramTransfers, putmClaims, segmentWords, unfencedColumns⟩

end
